-- ==== Sys2Proof/Word.lean ====
section
/-!
DEFINITION. The word types of the KGS-7420 block and their plainest arithmetic: bytes, 64-bit register words,
and the reading and writing of a bit field [hi:lo] of a 64-bit word (00_scope.md, Numbers and units).
-/

namespace Sys2Proof

/-- One byte of memory. -/
abbrev Byte := BitVec 8

/-- A 64-bit register, command or record word. -/
abbrev Word := BitVec 64

/-- Bits [hi:lo] of a number, both ends included, as a number. -/
def bitsOf (n hi lo : Nat) : Nat := (n >>> lo) % 2 ^ (hi + 1 - lo)

namespace Word

/-- Bits [hi:lo] of a word, as a number. -/
def get (w : Word) (hi lo : Nat) : Nat := bitsOf w.toNat hi lo

/-- One bit of a word. -/
def bit (w : Word) (i : Nat) : Bool := w.toNat.testBit i

/-- The mask with ones in bits [hi:lo]. -/
def mask (hi lo : Nat) : Word := BitVec.ofNat 64 ((2 ^ (hi + 1 - lo) - 1) <<< lo)

/-- The word with bits [hi:lo] replaced by the low bits of `v`. -/
def put (w : Word) (hi lo : Nat) (v : Nat) : Word :=
  (w &&& ~~~(mask hi lo)) ||| (BitVec.ofNat 64 (v <<< lo) &&& mask hi lo)

end Word
end Sys2Proof
end

