-- ==== Sys2Proof/Syntax.lean ====
section
/-!
DEFINITION. The commands of the KGS-7420 block, one constructor of `Instr` per row of spec/opcode_table.json, with
the operand types they carry. An operand is what comes from outside the block with the step (a register write and
its source, a message and its fields, a pin level, a measured reading, a verdict of a check whose algorithm the
spec leaves to a published standard) or names the unit that takes the step. A moment `t` is physical time in
units of 1/16 ns, the unit of `SPAN_MEAS` (R53).
-/

namespace Sys2Proof

/-- A compute die CD0 to CD3 (R11). -/
abbrev Die := Fin 4
/-- A hardware context CX0 to CX127 of a die (R11). -/
abbrev Cx := Fin 128
/-- A quire index (R369). -/
abbrev Quire := Fin 16384
/-- A fabric package number (R284). -/
abbrev Pkg := Fin 8192
/-- A physical moment in 1/16 ns. -/
abbrev Moment := Nat

/-- Who makes a register access or a quire store from inside the package or over the host link (R10, R371). -/
inductive Agent where
  | core (n : Fin 96)
  | dctl (d : Die) (k : Fin 2)
  | host
deriving DecidableEq, Repr

/-- Which half of a 64-bit register an access reaches (R10). -/
inductive Half where
  | full | lo | hi
deriving DecidableEq, Repr

/-- A register write: its source, the half it reaches and the value, placed in the register's own bit positions. -/
structure RegW where
  agent : Agent
  half : Half
  value : Word
deriving DecidableEq, Repr

/-- The source of a store to the quire region (R371). -/
inductive StoreSrc where
  | agent (a : Agent)
  | remote (p : Pkg)
deriving DecidableEq, Repr

/-- The agents a home tracks copies for (R312). -/
inductive CAgent where
  | cores | host
  | cd (d : Die)
deriving DecidableEq, Repr

/-- A requester of a line (R314): a tracked agent, or the fabric engine, which is never tracked. -/
inductive Requester where
  | agent (a : CAgent)
  | fabric
deriving DecidableEq, Repr

/-- A home of lines: a compute die for its stacks, HUB for DDR5 and the host window (R311). -/
inductive Home where
  | cd (d : Die)
  | hub
deriving DecidableEq, Repr

/-- A package link or a memory link (R306). -/
inductive LinkId where
  | pkgUp (d : Die)
  | pkgDown (d : Die)
  | mem (s : Fin 20)
deriving DecidableEq, Repr

/-- What a memory's error-correcting code finds in one 64-byte sector (R264). -/
inductive EccKind where
  | correctable | uncorrectable
deriving DecidableEq, Repr

/-- A finding at a stack-linear or DDR5 sector address. -/
structure EccFinding where
  addr : Nat
  kind : EccKind
deriving DecidableEq, Repr

/-- What an array's own storage check finds during one step (R113, R131). -/
inductive ArrayEcc where
  | none
  | accCorrectable (slot : Fin 32)
  | accUncorrectable (slot : Fin 32)
  | planeUncorrectable
deriving DecidableEq, Repr

/-- What the scratchpad's code finds at an offset of the die's scratchpad (R189). -/
structure ScrFinding where
  offset : Nat
  kind : EccKind
deriving DecidableEq, Repr

/-- The full/empty operations (R387). -/
inductive FeOp where
  | wef | rfe | rff | purge
deriving DecidableEq, Repr

/-- The operation of a fabric QSIG or of a command's signal (R65, R425). -/
inductive QOp where
  | add | sub | arrive
deriving DecidableEq, Repr

/-- A pin level. -/
inductive Level where
  | low | high
deriving DecidableEq, Repr

/-- The target of a fault of a compute-die engine. -/
inductive EngineId where
  | ma (i : Fin 8)
  | ve (i : Fin 8)
  | dm (i : Fin 16)
deriving DecidableEq, Repr

/-- The RISC-V fence sets (R355). -/
structure FenceSets where
  predI : Bool
  predO : Bool
  predR : Bool
  predW : Bool
  succI : Bool
  succO : Bool
  succR : Bool
  succW : Bool
deriving DecidableEq, Repr

/-- The atomic memory operations a core performs (R397, R400). -/
inductive AmoOp where
  | swap | add | and | or | xor | min | max | minu | maxu | cas
deriving DecidableEq, Repr

/-- The cache-block operations (R406). -/
inductive CboOp where
  | clean | flush | inval | zero
deriving DecidableEq, Repr

/-- Where a header of a fabric message comes from and how it is numbered (R424). -/
structure FabHdr where
  src : Pkg
  pseq : BitVec 24
  unit : BitVec 11
deriving DecidableEq, Repr

/-- Verdicts of the checks whose algorithms FIPS 202 and FIPS 204 give (R535): does the SHA3-512 of PUBKEY equal
the fused key hash, does the signature verify, does each segment's digest match; and the SHA3-512 image digest. -/
structure TrustVerdict where
  flashAnswers : Bool
  keyHashOk : Bool
  signatureOk : Bool
  digestsOk : Bool
  digest : BitVec 512
deriving DecidableEq, Repr

/-- A DIMM as its serial presence detect describes it (R266): size in GiB, rate in units of 100 MT/s, whether it is an ECC MRDIMM of a
supported kind. -/
structure Dimm where
  channel : Fin 12
  sizeGib : Nat
  rate : Nat
  supported : Bool
deriving DecidableEq, Repr

/-- What a start finds of its units (R266, R521, R538): the colophon store's records failing their checks, which units fail their own
bring-up, whether a control processor or the configuration fails to load or apply, the DIMMs, and whether the start gets as far
as BOUND or UNBOUND at all. -/
structure BringUp where
  coloBad : Bool
  failedDies : List Die
  failedStacks : List (Fin 20)
  failedOEs : List (Fin 8)
  failedDctls : List (Die × Fin 2)
  failedDdr : List (Fin 12)
  failedHcp : Bool
  applyFails : Bool
  dimms : List Dimm
  stepsDone : Bool
deriving DecidableEq, Repr

/-- The readings of one 10 µs power interval (R476, R477, R482, R483, R490). Draws are in mW, by die or stack group in order;
`pkg1ms` and `avg10ms` are the package's draw over the last 1 ms and 10 ms, `spanProj` the projection of the span's average.
Temperatures are in °C, by sensor. Energy is in 2⁻¹⁶ J: the package's increment, and the activity model's parts of it. `draws` are
the measured draws of a tag's occurrence: tag, die, die draw, draw of its stack group. -/
structure PowerReading where
  dieMW : List Nat
  groupMW : List Nat
  hubMW : Nat
  oeMW : Nat
  linkMW : Nat
  pkg1ms : Nat
  avg10ms : Nat
  spanProj : Nat
  dieC : List (List Nat)
  hubC : List Nat
  oeC : List (List Nat)
  energy : Nat
  engineE : List (Die × Cx × Nat)
  coreE : List (Fin 96 × Nat)
  ballastE : Nat
  draws : List (BitVec 8 × Die × Nat × Nat)
deriving DecidableEq, Repr

/-- A supply rail in the order of R557's table: 0-3 VDD_CD0-3, 4 VDD_HUB, 5 VDD_LINK, 6 VDD_BASE, 7 VDD_OE, 8 VDD_CXL, 9 VDDC_HBM,
10 VDDQ_HBM, 11 VDDQ_DDR, 12 VDDA_OE, 13 VPP_HBM, 14 VDD_IO18. -/
abbrev Rail := Fin 15

/-- A rail's sensed current against its limit (R481). -/
inductive RailSense where
  | atLimit | between | below95
deriving DecidableEq, Repr

/-- A unit with droop detectors (R478): a compute die, or HUB. -/
inductive DroopUnit where
  | die (d : Die)
  | hub
deriving DecidableEq, Repr

/-- A clock domain (R473). -/
inductive ClockDomain where
  | die (d : Die)
  | core (n : Fin 96)
deriving DecidableEq, Repr

/-- What ends a hold or drift (R494). -/
inductive RestCause where
  | hostRequest | doorbell | quire | interrupt | fabricReq | until | stamp
deriving DecidableEq, Repr

/-- The colophon's samples at a span boundary (R483, R520): temperatures by histogram, average power of the span. -/
structure SpanSample where
  temps : List (Fin 25 × Nat)
  avgW : Nat
deriving DecidableEq, Repr

/-- A mailbox payload. -/
abbrev Payload := List Byte

/-- A view as a VIEW message carries it (R425). -/
structure ViewMsg where
  number : BitVec 32
  leader : Pkg
  anchor : Pkg
  votes : Nat
  boundary : Word
  entries : List (Pkg × Bool)
deriving DecidableEq, Repr

/-- The arrival of a boundary's SPAN over one plane: the port, the moment, and the sum of the switches' corrections in 2⁻¹⁶ ns
(R425, R431). -/
structure SpanArr where
  port : Fin 16
  at_ : Moment
  corr : Int
deriving DecidableEq, Repr

/-- What a host CXL.mem read asks for (R312, R458): the data alone, a shared copy, or ownership. -/
inductive HostWant where
  | once | shared | own
deriving DecidableEq, Repr

/-- A host link as its training and the host's configuration leave it (R469). -/
structure HostUp where
  width : BitVec 5
  rate : BitVec 3
  memEn : Bool
  cacheEn : Bool
  ide : Bool
deriving DecidableEq, Repr

/-- What takes the host link down (R468). -/
inductive LinkDown where
  | perst | linkDown | busReset
deriving DecidableEq, Repr

/-- A Transfer FW command's action: the whole image at once, or its first, a middle or its last part, or an abort. -/
inductive FwAction where
  | full | init | cont | last | abort
deriving DecidableEq, Repr

/-- The commands: one constructor per row of spec/opcode_table.json, in the table's order. -/
inductive Instr where
  /-- R6 -/ | regWrite (w : RegW) (off : Nat)
  /-- R10 -/ | mmioAccess (a : Agent) (off size : Nat) (write : Bool) (v : Word)
  /-- R48 -/ | spanCfgWrite (w : RegW)
  /-- R49 -/ | spanLenWrite (w : RegW)
  /-- R57 -/ | relock (w : RegW)
  /-- R57 -/ | restart (w : RegW)
  /-- R28 -/ | spanBoundary (t : Moment) (x : SpanSample)
  /-- R34 -/ | spanInPulse (t : Moment)
  /-- R35 -/ | spanWord (t : Moment) (w : Word)
  /-- R35 -/ | spanWordTimeout (t : Moment)
  /-- R36 -/ | mainsRefEdge (t : Moment) (l : Level)
  /-- R36 -/ | mainsEdgeAccept (t : Moment)
  /-- R37 -/ | refTimeout (t : Moment)
  /-- R37 -/ | holdoverExpiry (t : Moment)
  /-- R42 -/ | prearmReached (t : Moment) (d : Die) (c : Cx)
  /-- R41 -/ | stampReached (t : Moment) (d : Die) (c : Cx)
  /-- R62 -/ | cxDoorbell (w : RegW) (d : Die) (c : Cx)
  /-- R62 -/ | emptyReread (t : Moment) (d : Die) (c : Cx)
  /-- R59 -/ | slotRead (d : Die) (c : Cx)
  /-- R73 -/ | commandIssue (d : Die) (c : Cx)
  /-- R74 -/ | commandComplete (d : Die) (c : Cx) (slot : Nat)
  /-- R75 -/ | commandRetire (d : Die) (c : Cx)
  /-- R83 -/ | commandFault (d : Die) (c : Cx) (slot : Nat)
  /-- R72 -/ | gatePoll (t : Moment) (d : Die) (c : Cx)
  /-- R69 -/ | nop (d : Die) (c : Cx)
  /-- R69 -/ | halt (d : Die) (c : Cx)
  /-- R349 -/ | acq (d : Die) (c : Cx)
  /-- R351 -/ | flush (d : Die) (c : Cx)
  /-- R352 -/ | dfence (d : Die) (c : Cx)
  /-- R235 -/ | settle (d : Die) (c : Cx)
  /-- R239 -/ | melt (d : Die) (c : Cx)
  /-- R388 -/ | wef (d : Die) (c : Cx)
  /-- R388 -/ | rfe (d : Die) (c : Cx)
  /-- R388 -/ | rff (d : Die) (c : Cx)
  /-- R388 -/ | purge (d : Die) (c : Cx)
  /-- R84 -/ | resume (w : RegW) (d : Die) (c : Cx)
  /-- R84 -/ | skip (w : RegW) (d : Die) (c : Cx)
  /-- R84 -/ | drain (w : RegW) (d : Die) (c : Cx)
  /-- R84 -/ | reset (w : RegW) (d : Die) (c : Cx)
  /-- R84 -/ | cxResetTimeout (t : Moment) (d : Die) (c : Cx)
  /-- R87 -/ | cxCfgWrite (w : RegW) (d : Die) (c : Cx)
  /-- R88 -/ | cxAtpWrite (w : RegW) (d : Die) (c : Cx)
  /-- R110 -/ | openGroup (d : Die) (m : Fin 8)
  /-- R98 -/ | load (d : Die) (m : Fin 8)
  /-- R101 -/ | stream (d : Die) (m : Fin 8)
  /-- R111 -/ | seal (d : Die) (m : Fin 8)
  /-- R101 -/ | rowIssue (d : Die) (m : Fin 8) (ecc : ArrayEcc)
  /-- R126 -/ | rimeRow (d : Die) (m : Fin 8)
  /-- R484 -/ | ballastRow (d : Die) (u : Fin 16)
  /-- R161 -/ | spinePush (d : Die) (m : Fin 8)
  /-- R164 -/ | slotRelease (d : Die) (m : Fin 8) (i : Fin 32)
  /-- R132 -/ | maOffline (w : RegW) (d : Die) (m : Fin 8)
  /-- R132 -/ | maOnline (w : RegW) (d : Die) (m : Fin 8)
  /-- R131 -/ | arrayHw (d : Die) (m : Fin 8)
  /-- R181 -/ | tile (d : Die) (v : Fin 8) (xs : List ScrFinding) (ecc : ArrayEcc) (row : Nat)
  /-- R163 -/ | mark (d : Die) (v : Fin 8)
  /-- R175 -/ | setloop (d : Die) (v : Fin 8) (xs : List ScrFinding)
  /-- R171 -/ | cvt (d : Die) (v : Fin 8) (xs : List ScrFinding)
  /-- R175 -/ | veAdd (d : Die) (v : Fin 8) (xs : List ScrFinding)
  /-- R175 -/ | veSub (d : Die) (v : Fin 8) (xs : List ScrFinding)
  /-- R175 -/ | veMul (d : Die) (v : Fin 8) (xs : List ScrFinding)
  /-- R175 -/ | veFma (d : Die) (v : Fin 8) (xs : List ScrFinding)
  /-- R175 -/ | veMax (d : Die) (v : Fin 8) (xs : List ScrFinding)
  /-- R175 -/ | veMin (d : Die) (v : Fin 8) (xs : List ScrFinding)
  /-- R177 -/ | sexp (d : Die) (v : Fin 8) (xs : List ScrFinding)
  /-- R177 -/ | recip (d : Die) (v : Fin 8) (xs : List ScrFinding)
  /-- R177 -/ | rsqrt (d : Die) (v : Fin 8) (xs : List ScrFinding)
  /-- R175 -/ | relu (d : Die) (v : Fin 8) (xs : List ScrFinding)
  /-- R177 -/ | gelu (d : Die) (v : Fin 8) (xs : List ScrFinding)
  /-- R177 -/ | silu (d : Die) (v : Fin 8) (xs : List ScrFinding)
  /-- R176 -/ | rsum (d : Die) (v : Fin 8) (xs : List ScrFinding)
  /-- R175 -/ | rmax (d : Die) (v : Fin 8) (xs : List ScrFinding)
  /-- R176 -/ | rsumsq (d : Die) (v : Fin 8) (xs : List ScrFinding)
  /-- R178 -/ | transpose (d : Die) (v : Fin 8) (xs : List ScrFinding)
  /-- R185 -/ | reseal (d : Die) (v : Fin 8)
  /-- R185 -/ | crcv (d : Die) (v : Fin 8)
  /-- R191 -/ | veOffline (w : RegW) (d : Die) (v : Fin 8)
  /-- R191 -/ | veOnline (w : RegW) (d : Die) (v : Fin 8)
  /-- R190 -/ | veHw (d : Die) (v : Fin 8)
  /-- R200 -/ | copy (d : Die) (e : Fin 16) (xs : List ScrFinding)
  /-- R200 -/ | fill (d : Die) (e : Fin 16)
  /-- R204 -/ | desc (d : Die) (e : Fin 16) (xs : List ScrFinding)
  /-- R214 -/ | dmaCompletion (d : Die) (c : Cx) (slot : Nat)
  /-- R220 -/ | dmOffline (w : RegW) (d : Die) (e : Fin 16)
  /-- R220 -/ | dmOnline (w : RegW) (d : Die) (e : Fin 16)
  /-- R218 -/ | dmHw (d : Die) (e : Fin 16)
  /-- R229 -/ | firnWrite (t : Moment) (id : Nat)
  /-- R243 -/ | firnFullTimeout (t : Moment) (id : Nat)
  /-- R235 -/ | settleFlip (e : Fin 256)
  /-- R237 -/ | firnMerge (n : Fin 21)
  /-- R239 -/ | meltComplete (e : Fin 256)
  /-- R226 -/ | firnCtlRearm (w : RegW)
  /-- R248 -/ | firnCtlMelt (w : RegW)
  /-- R247 -/ | firnDdrWrite (w : RegW)
  /-- R245 -/ | firnEpochWrite (w : RegW) (e : Fin 256)
  /-- R258 -/ | refresh (j : Fin 20) (hottest : Nat)
  /-- R264 -/ | patrolScrub (addr : BitVec 56) (found : Option EccKind)
  /-- R269 -/ | retrain (t : Moment) (w : RegW) (j : Fin 20)
  /-- R270 -/ | driftThreshold (t : Moment) (j : Fin 20) (twice : Bool)
  /-- R270 -/ | retrainWindow (t : Moment) (j : Fin 20)
  /-- R269 -/ | retrainComplete (t : Moment) (j : Fin 20) (failed : Bool)
  /-- R271 -/ | recal (w : RegW) (j : Fin 20)
  /-- R271 -/ | recalComplete (j : Fin 20)
  /-- R275 -/ | hsOffline (w : RegW) (j : Fin 20)
  /-- R275 -/ | hsOnline (w : RegW) (j : Fin 20)
  /-- R276 -/ | hsMetaAddrWrite (w : RegW) (j : Fin 20)
  /-- R268 -/ | ddrChannelFail (n : Fin 12)
  /-- R291 -/ | tableWalk (d : Die) (c : Cx) (n : Fin 256) (va : BitVec 57) (write : Bool)
  /-- R295 -/ | invalidationStart (w : RegW)
  /-- R295 -/ | invalidationDieAck (t : Moment) (d : Die)
  /-- R296 -/ | invalidationCut (t : Moment) (d : Die)
  /-- R304 -/ | fabExportWrite (w : RegW) (n : Fin 4096)
  /-- R308 -/ | flitReceive (l : LinkId) (seq : BitVec 12) (crcOk : Bool)
  /-- R308 -/ | linkRetrainDone (t : Moment) (l : LinkId) (g : Fin 17)
  /-- R310 -/ | groupTurn (j : Fin 20) (toStack fromStack : Nat)
  /-- R314 -/ | rdShared (r : Requester) (pa : Nat)
  /-- R314 -/ | rdOwn (r : Requester) (pa : Nat)
  /-- R314 -/ | rdBulk (r : Requester) (pa : Nat)
  /-- R314 -/ | rdOnce (r : Requester) (pa : Nat)
  /-- R315 -/ | wrLine (id : Nat)
  /-- R315 -/ | wrPart (id : Nat)
  /-- R314 -/ | wb (a : CAgent) (pa : Nat)
  /-- R387 -/ | feOp (op : FeOp) (pa : Nat) (v : Word)
  /-- R317 -/ | linkQsig (id : Nat)
  /-- R314 -/ | snpInv (id : Nat)
  /-- R314 -/ | snpShare (id : Nat)
  /-- R314 -/ | snpGet (id : Nat)
  /-- R315 -/ | ack (id : Nat)
  /-- R315 -/ | invAck (id : Nat)
  /-- R319 -/ | retry (id : Nat)
  /-- R319 -/ | creditGrant (id : Nat)
  /-- R314 -/ | absent (id : Nat)
  /-- R314 -/ | data (id : Nat)
  /-- R314 -/ | snpData (id : Nat)
  /-- R328 -/ | isolate (w : RegW) (d : Die)
  /-- R328 -/ | dieClockLoss (d : Die)
  /-- R328 -/ | drainTimer (t : Moment) (d : Die)
  /-- R329 -/ | stackIsolation (t : Moment) (j : Fin 20)
  /-- R330 -/ | cdOffline (w : RegW) (d : Die)
  /-- R331 -/ | rejoin (w : RegW) (d : Die)
  /-- R331 -/ | rejoinComplete (t : Moment) (d : Die)
  /-- R327 -/ | rcCfgWrite (w : RegW) (d : Die)
  /-- R327 -/ | rcInvalidate (w : RegW) (d : Die)
  /-- R327 -/ | rcInvalidateDone (d : Die)
  /-- R367 -/ | destinationDead (t : Moment) (p : Pkg)
  /-- R355 -/ | fence (n : Fin 96) (f : FenceSets)
  /-- R358 -/ | kDfence (n : Fin 96) (rd : Fin 32)
  /-- R357 -/ | combineTimeout (t : Moment) (n : Fin 96) (sec : Nat)
  /-- R400 -/ | coreLoad (n : Fin 96) (rd : Fin 32) (pa sz : Nat) (unsigned_ : Bool) (drain : Nat)
  /-- R400 -/ | coreStore (n : Fin 96) (rs2 : Fin 32) (pa sz : Nat) (ntl : Bool) (drain : Nat)
  /-- R400 -/ | coreAmo (n : Fin 96) (op : AmoOp) (rd rs2 : Fin 32) (pa sz : Nat)
  /-- R402 -/ | lr (n : Fin 96) (rd : Fin 32) (pa sz : Nat)
  /-- R402 -/ | sc (n : Fin 96) (rd rs2 : Fin 32) (pa sz : Nat)
  /-- R406 -/ | cbo (n : Fin 96) (op : CboOp) (pa : Nat)
  /-- R374 -/ | quireAdd (x : StoreSrc) (q : Quire) (v : BitVec 32)
  /-- R374 -/ | quireSub (x : StoreSrc) (q : Quire) (v : BitVec 32)
  /-- R381 -/ | arrive (x : StoreSrc) (q : Quire) (r : BitVec 32)
  /-- R374 -/ | set (x : StoreSrc) (q : Quire) (v : BitVec 32)
  /-- R383 -/ | config (x : StoreSrc) (q : Quire) (v : Word)
  /-- R371 -/ | deadlineStore (x : StoreSrc) (q : Quire) (v : Word)
  /-- R371 -/ | dlStepStore (x : StoreSrc) (q : Quire) (v : Word)
  /-- R371 -/ | flagClear (x : StoreSrc) (q : Quire) (v : Word)
  /-- R371 -/ | quireAccess (x : StoreSrc) (off : Nat)
  /-- R386 -/ | mirror (h : FabHdr) (q : Quire) (d : BitVec 32)
  /-- R384 -/ | gatherDeadline (t : Moment) (q : Quire)
  /-- R390 -/ | kWef (n : Fin 96) (rd rs2 : Fin 32) (pa : Nat)
  /-- R390 -/ | kRfe (n : Fin 96) (rd : Fin 32) (pa dst : Nat)
  /-- R390 -/ | kRff (n : Fin 96) (rd : Fin 32) (pa dst : Nat)
  /-- R390 -/ | kPurge (n : Fin 96) (rd : Fin 32) (pa : Nat)
  /-- R410 -/ | coreOffline (w : RegW) (n : Fin 96)
  /-- R410 -/ | coreDrained (n : Fin 96)
  /-- R410 -/ | coreOnline (w : RegW) (n : Fin 96)
  /-- R411 -/ | coreFailed (n : Fin 96)
  /-- R418 -/ | lightLoss (oe : Fin 8)
  /-- R418 -/ | lightReturn (oe : Fin 8)
  /-- R421 -/ | fabricFlit (n : Fin 16) (seq : BitVec 12) (corrected : Nat) (intact : Bool) (lane : Option (Fin 4))
  /-- R423 -/ | hello (n : Fin 16) (versions : BitVec 16)
  /-- R426 -/ | wr (h : FabHdr) (off : BitVec 42) (mask : Option (BitVec 256)) (data : List Byte)
  /-- R212 -/ | wcrc (h : FabHdr) (off : BitVec 42) (crc : BitVec 32)
  /-- R429 -/ | rd (h : FabHdr) (off : BitVec 42) (nsec : Fin 4)
  /-- R426 -/ | qsig (h : FabHdr) (q : Quire) (op : QOp) (v : BitVec 32)
  /-- R429 -/ | rdData (p : Pkg) (pseq : BitVec 24) (data : List Byte) (poison : Bool)
  /-- R428 -/ | rcpt (p : Pkg) (pseq : BitVec 24)
  /-- R428 -/ | rcptTimer (t : Moment) (p : Pkg)
  /-- R286 -/ | refuse (p : Pkg) (pseq : BitVec 24)
  /-- R427 -/ | nakE2e (p : Pkg) (pseq : BitVec 24)
  /-- R430 -/ | resync (p : Pkg) (first : BitVec 24)
  /-- R431 -/ | span (t : Moment) (view : BitVec 32) (count : BitVec 40) (arr : List SpanArr)
  /-- R431 -/ | delayReq (t : Moment) (p : Pkg) (port : Fin 16) (at_ : Word) (corr : Int)
  /-- R431 -/ | delayRsp (t : Moment) (port : Fin 16) (at_ : Word) (corr : Int) (recv send : Word) (back : Int)
  /-- R434 -/ | member (t : Moment) (p : Pkg) (votes : Fin 16) (join leave : Bool) (versions : BitVec 16) (at_ : Word)
  /-- R433 -/ | view (t : Moment) (v : ViewMsg)
  /-- R433 -/ | viewAdopt (t : Moment)
  /-- R434 -/ | memberTimeout (t : Moment) (p : Pkg)
  /-- R436 -/ | leaderSilence (t : Moment)
  /-- R440 -/ | paceRpt (t : Moment) (p : Pkg) (part : Fin 16) (q : Quire) (round : BitVec 32) (reason : BitVec 8) (at_ : Word)
  /-- R441 -/ | paceSet (t : Moment) (p : Pkg) (part : Fin 16) (stretch : BitVec 16) (base : Word)
  /-- R441 -/ | paceApply (t : Moment) (part : Fin 16)
  /-- R439 -/ | leave (w : RegW)
  /-- R438 -/ | admitMembers (w : RegW)
  /-- R437 -/ | thaw (w : RegW)
  /-- R442 -/ | drift (w : RegW)
  /-- R442 -/ | full (w : RegW)
  /-- R447 -/ | paceSend (w : RegW)
  /-- R445 -/ | fabCfgWrite (w : RegW)
  /-- R458 -/ | hostMemRead (hpa : BitVec 52) (want : HostWant)
  /-- R459 -/ | hostMemWrite (hpa : BitVec 52) (mask : BitVec 64) (data : List Byte) (poison : Bool)
  /-- R460 -/ | birsp (id : Nat)
  /-- R460 -/ | bisnpTimeout (t : Moment) (id : Nat)
  /-- R457 -/ | hdmCommit (n : Fin 4) (hpa size : BitVec 52) (ways : BitVec 8) (memEn cacheEn : Bool)
  /-- R462 -/ | hostWindowAccess (pa : BitVec 56)
  /-- R471 -/ | hlWinWrite (w : RegW)
  /-- R463 -/ | identify
  /-- R465 -/ | getEventRecords (l : Fin 4)
  /-- R465 -/ | clearEventRecords (l : Fin 4) (all : Bool) (seqs : List (BitVec 48))
  /-- R465 -/ | getEventInterruptPolicy
  /-- R465 -/ | setEventInterruptPolicy (a b c d : BitVec 8)
  /-- R463 -/ | getFwInfo
  /-- R463 -/ | transferFw (a : FwAction) (off : BitVec 32) (data : List Byte)
  /-- R463 -/ | activateFw (online : Bool)
  /-- R463 -/ | getTimestamp
  /-- R463 -/ | setTimestamp (v : Word)
  /-- R463 -/ | getSupportedLogs
  /-- R463 -/ | getLog (which : Fin 2)
  /-- R463 -/ | getBindingState
  /-- R464 -/ | recoveryTransfer (off : BitVec 32) (data : List Byte)
  /-- R464 -/ | recoveryApply
  /-- R464 -/ | recoveryCheckDone (t : Moment) (v : TrustVerdict) (b : BringUp)
  /-- R463 -/ | setWakeBudget (us : BitVec 32)
  /-- R463 -/ | getWakeBudget
  /-- R548 -/ | getServiceMap
  /-- R463 -/ | setPowerLimit (w : BitVec 16)
  /-- R463 -/ | mailboxUnsupported (op : BitVec 16)
  /-- R468 -/ | perstN (t : Moment) (k : LinkDown) (dirty : List Nat)
  /-- R468 -/ | functionLevelReset
  /-- R467 -/ | ideFail (t : Moment)
  /-- R477 -/ | powerInterval (t : Moment) (r : PowerReading)
  /-- R478 -/ | droopTrip (t : Moment) (u : DroopUnit) (det : Fin 8) (deep : Bool)
  /-- R478 -/ | droopClear (t : Moment) (u : DroopUnit) (det : Fin 8)
  /-- R479 -/ | freqSwitch (t : Moment) (dom : ClockDomain)
  /-- R480 -/ | freqChangeApply (t : Moment) (dom : ClockDomain)
  /-- R481 -/ | railLimit (t : Moment) (r : Rail) (x : RailSense)
  /-- R482 -/ | thermtrip (t : Moment) (written : Bool)
  /-- R475 -/ | throttleN (t : Moment) (l : Level)
  /-- R475 -/ | pwrLimitWrite (w : RegW)
  /-- R500 -/ | lsBandWrite (w : RegW)
  /-- R486 -/ | stepPhaseReached (t : Moment)
  /-- R486 -/ | lsMainsTimeout (t : Moment)
  /-- R498 -/ | forget (w : RegW)
  /-- R498 -/ | forgetAll (w : RegW)
  /-- R492 -/ | dozeEntry (t : Moment) (d : Die)
  /-- R494 -/ | dozeExit (t : Moment) (d : Die)
  /-- R493 -/ | arm (w : RegW)
  /-- R501 -/ | restCancel (w : RegW)
  /-- R493 -/ | restEntry (t : Moment) (wfi : List (Fin 96)) (draw : Nat)
  /-- R494 -/ | restExit (t : Moment) (x : RestCause)
  /-- R511 -/ | faultRecordAccept
  /-- R514 -/ | fqPop (w : RegW)
  /-- R517 -/ | take (w : RegW)
  /-- R522 -/ | coloCheckpointTimer (t : Moment) (fails : Bool)
  /-- R522 -/ | checkpoint (w : RegW) (fails : Bool)
  /-- R528 -/ | close (w : RegW) (fails : Bool)
  /-- R537 -/ | startUp (t : Moment) (v : TrustVerdict) (b : BringUp) (link : Option HostUp)
  /-- R537 -/ | bindTimeout (t : Moment)
  /-- R536 -/ | svnCommit (t : Moment)
  /-- R543 -/ | loadPack (w : RegW)
  /-- R543 -/ | packCheckDone (t : Moment) (v : TrustVerdict)
  /-- R544 -/ | segmentSwitch (t : Moment) (n : Fin 41) (fails : Bool)
  /-- R539 -/ | writeFlash (w : RegW)
  /-- R539 -/ | flashWriteDone (t : Moment) (v : TrustVerdict) (fails : Bool)
  /-- R549 -/ | bindCancel (w : RegW)
  /-- R546 -/ | retrimSpan (w : RegW)
  /-- R546 -/ | retrimDroop (w : RegW)
  /-- R546 -/ | retrimSensors (w : RegW)
  /-- R546 -/ | oeOffline (w : RegW)
  /-- R546 -/ | oeOnline (w : RegW)
  /-- R546 -/ | portRecal (w : RegW)
  /-- R546 -/ | svcActionDone (t : Moment) (failed : Bool)
  /-- R549 -/ | spFail (t : Moment)
  /-- R541 -/ | getVersion
  /-- R541 -/ | getCapabilities
  /-- R541 -/ | negotiateAlgorithms (offered : Bool)
  /-- R541 -/ | getDigests
  /-- R541 -/ | getCertificate (slot : Fin 8)
  /-- R541 -/ | challenge (slot : Fin 8)
  /-- R542 -/ | getMeasurements (index : BitVec 8)
  /-- R541 -/ | keyExchange (slot : Fin 8)
  /-- R541 -/ | finish (verified : Bool)
  /-- R541 -/ | endSession
  /-- R566 -/ | entdaa (addr : BitVec 7)
  /-- R566 -/ | setdasa (static_ addr : BitVec 7)
  /-- R564 -/ | resetN (t : Moment) (width : Nat)
  /-- R560 -/ | railUndervoltage (t : Moment) (dur : Nat)
  /-- R561 -/ | sysclkLoss (t : Moment)
  /-- R561 -/ | refclkLoss (t : Moment) (dirty : List Nat)
  /-- R558 -/ | regulatorTimeout (t : Moment) (r : Rail)
  /-- R575 -/ | testLogicReset
  /-- R576 -/ | extest
  /-- R576 -/ | idcode
  /-- R576 -/ | sample (cells : List Bool)
  /-- R576 -/ | preload (cells : List Bool)
  /-- R576 -/ | clamp
  /-- R576 -/ | highz
  /-- R576 -/ | extestPulse
  /-- R576 -/ | extestTrain
  /-- R576 -/ | bypass (code : BitVec 8)
  /-- R419 -/ | portTrainingDone (n : Fin 16) (lanes : BitVec 4)
  /-- R468 -/ | perstNDeassert (t : Moment) (u : HostUp)
  /-- R559 -/ | powerUp (t : Moment)
  /-- R567 -/ | powerDown (t : Moment)
  /-- R462 -/ | hostWindowResponse (pa : BitVec 56) (data : List Byte) (error poison : Bool)
  /-- R358 -/ | interruptTaken (n : Fin 96)
  /-- R397 -/ | wrs (n : Fin 96) (sto : Bool)
  /-- R397 -/ | wrsTimeout (t : Moment) (n : Fin 96)
deriving DecidableEq, Repr

end Sys2Proof
end

