-- ==== Sys2Proof/Config.lean ====
section
/-!
DEFINITION. What one part fixes and the spec leaves open: constants without a body. Each is a free value: nothing in
Lean can evaluate it or prove a value of it, so a statement about it holds whatever it is. Each is named in a row of
the assumption log.
-/

namespace Sys2Proof

/-- The fuses of the register at an MMIO offset, from bit `lo` up (R21): fixed at manufacture, no value in the spec. -/
opaque Config.fuse (offset lo : Nat) : Word

/-- A fresh value the spec leaves open: `tag` names the open point (see the assumption log), `n` is the count of free
values drawn before it (`State.drawn`). -/
opaque Config.free (tag n : Nat) : Nat

/-- The static phase table of the installed power tables (R476): die draw at its fused maximum and stack-group draw, in mW. -/
opaque Config.phaseTable (tables tag : Nat) : Option (Nat × Nat)

/-- A die's frequency-power curve (R476, R477): its draw at `f` steps of 25 MHz, in 1/65536 of its draw at its fused maximum. -/
opaque Config.curve (tables die f : Nat) : Nat

/-- The reference curve (R487): the step the reference part's domain reaches at a share in mW. -/
opaque Config.reference (tables domain share : Nat) : Nat

/-- How many steps all core grants are lowered by for a HUB draw above its maximum, in mW (R477 step 1). -/
opaque Config.coreSteps (tables excess : Nat) : Nat

/-- A sensor's predicted temperature 1 ms ahead, from its reading and its domain's grant (R482). -/
opaque Config.predict (sensor reading grant : Nat) : Nat

/-- The largest share of a stack group, in mW, whose predicted temperature stays at its throttle limit (R482). -/
opaque Config.coolShare (group hottest : Nat) : Nat

/-- How much one pacing step lowers a stack group's share, in mW (R481). -/
opaque Config.paceStep (group : Nat) : Nat

/-- How many records an event log of the host holds before it has filled (R465). -/
opaque Config.eventLogSize (log : Nat) : Nat

/-- What a fabric identity segment's bytes say (R532): FAB_CFG.PKG, VOTES and ANCHOR_ELIG. -/
opaque Config.fabIdentity (body : List (Nat × BitVec 8)) : Nat × Nat × Nat

/-- The SHA3-512 digests of the ROM (0) and of the fused public key (1) (R536, R542). -/
opaque Config.fusedDigest (n : Nat) : Nat

/-- Kenmoelo's JEP106 identity code (R576) and PCI-SIG identifier (R456). -/
opaque Config.jep106 : BitVec 11
opaque Config.pciVendor : BitVec 16

end Sys2Proof
end

