-- ==== Sys2Proof/Machine/Sparse.lean ====
section
/-!
DEFINITION. Lists of (key, value) pairs with rising keys, the form every keyed table of `State` takes: reading with a
default, writing, removing.
-/

namespace Sys2Proof.Machine

/-- The value at key `k`, or `d`. -/
def Sparse.get {α : Type} (d : α) (k : Nat) : List (Nat × α) → α
  | [] => d
  | (j, v) :: r => if j = k then v else Sparse.get d k r

/-- The value at key `k`, if listed. -/
def Sparse.find {α : Type} (k : Nat) : List (Nat × α) → Option α
  | [] => none
  | (j, v) :: r => if j = k then some v else Sparse.find k r

/-- The table with `v` at key `k`. -/
def Sparse.set {α : Type} (k : Nat) (v : α) : List (Nat × α) → List (Nat × α)
  | [] => [(k, v)]
  | (j, w) :: r =>
    if k < j then (k, v) :: (j, w) :: r
    else if j = k then (k, v) :: r
    else (j, w) :: Sparse.set k v r

/-- The table without key `k`. -/
def Sparse.del {α : Type} (k : Nat) : List (Nat × α) → List (Nat × α)
  | [] => []
  | (j, w) :: r => if j = k then r else (j, w) :: Sparse.del k r

end Sys2Proof.Machine
end

