-- ==== Sys2Proof/Machine/RegMap.lean ====
section
/-!
DEFINITION. The register map of the MMIO region: every register the spec's chapters list, its offset from
0x7F_0000_0000_0000 (R283 and the Registers section of each chapter), and its fields with their bits, type and
Reset column (R6, R9, R21). `R.X` is the offset of register X, `F.X.Y` its field Y; bits of no field are RSV.
-/

namespace Sys2Proof.Machine

/-- The type of a register field (R6). -/
inductive FTy where
  | ro | rw | wo | w1c | w1s
deriving DecidableEq, Repr

/-- The Reset column of a field (R9, R21, R528): a constant, or where the value comes from. -/
inductive Rst where
  | const (n : Nat) | image | fuse | store
deriving DecidableEq, Repr

/-- A register field: bits [hi:lo], type and reset. -/
structure Fld where
  hi : Nat
  lo : Nat
  ty : FTy
  rst : Rst
deriving DecidableEq, Repr

/-- A register, or a row of like registers: `count` of them at `base`, `stride` bytes apart, `count2` at `stride2` within
each. -/
structure RegEntry where
  base : Nat
  stride : Nat
  count : Nat
  stride2 : Nat
  count2 : Nat
  fields : List Fld
deriving DecidableEq, Repr

/-- The base of CDn's blocks (R283). -/
def R.dieBase (d : Nat) : Nat := 0x1000000 + d * 0x1000000

/-- COUNT of a counter in the layout of R138. -/
def F.CTR.COUNT : Fld := ⟨47, 0, .ro, .const 0⟩
/-- OVF of a counter in the layout of R138. -/
def F.CTR.OVF : Fld := ⟨48, 48, .w1c, .const 0⟩
/-- The fields of a counter in the layout of R138. -/
def F.CTR.all : List Fld := [F.CTR.COUNT, F.CTR.OVF]

def R.PKG_ID : Nat := 0x0
def R.PKG_UNITS : Nat := 0x8
def R.PKG_SERIAL : Nat := 0x10
def R.PKG_FUSED : Nat := 0x18
def R.SPAN_CFG : Nat := 0x10000
def R.SPAN_LEN : Nat := 0x10008
def R.SPAN_NOW : Nat := 0x10010
def R.SPAN_STATUS : Nat := 0x10018
def R.SPAN_LIMITS : Nat := 0x10020
def R.SPAN_MEAS : Nat := 0x10028
def R.SPAN_CAP_REF : Nat := 0x10030
def R.SPAN_CAP_MAINS : Nat := 0x10038
def R.SPAN_LATE : Nat := 0x10040
def R.SPAN_LATE_MAX : Nat := 0x10048
def R.SPAN_CTL : Nat := 0x10050
def R.FIRN_CFG : Nat := 0x20000
def R.FIRN_DDR : Nat := 0x20008
def R.FIRN_CTL : Nat := 0x20010
def R.FIRN_STATUS : Nat := 0x20018
def R.FIRN_SETTLES : Nat := 0x20020
def R.FIRN_MELTS : Nat := 0x20028
def R.FIRN_CMD_MELTED : Nat := 0x20030
def R.FIRN_FULL_WAITS : Nat := 0x20038
def R.FIRN_SPILLED : Nat := 0x20040
def R.FIRN_EPOCH (n : Nat) : Nat := 0x20400 + 0x8 * n
def R.FIRN_LOG (n : Nat) : Nat := 0x20C00 + 0x8 * n
def R.HUB_CX_LOST_LO (n : Nat) : Nat := 0x30000 + 0x10 * n
def R.HUB_CX_LOST_HI (n : Nat) : Nat := 0x30008 + 0x10 * n
def R.HUB_CD_CTL (n : Nat) : Nat := 0x30100 + 0x20 * n
def R.HUB_CD_STATUS (n : Nat) : Nat := 0x30108 + 0x20 * n
def R.PL_REPLAYS (n : Nat) : Nat := 0x30110 + 0x20 * n
def R.PL_RETRAINS (n : Nat) : Nat := 0x30118 + 0x20 * n
def R.HUB_HOME_RETRIES : Nat := 0x30180
def R.HUB_HOME_DIR_EVICT : Nat := 0x30188
def R.FQ_CFG : Nat := 0x40000
def R.FQ_STATUS : Nat := 0x40008
def R.FQ_DROPPED : Nat := 0x40010
def R.FQ_POP : Nat := 0x40018
def R.FQ_NEXT_SEQ : Nat := 0x40020
def R.CNT_SNAP_CTL : Nat := 0x40080
def R.CNT_SNAP_AT : Nat := 0x40088
def R.CNT_SNAP_SEL : Nat := 0x40090
def R.CNT_SNAP_VAL : Nat := 0x40098
def R.FQ_HEAD (i : Nat) : Nat := 0x40040 + 0x8 * i
def R.SYNC_STATUS : Nat := 0x50000
def R.SYNC_OPS : Nat := 0x50020
def R.SYNC_ERRORS : Nat := 0x50028
def R.SYNC_ROUNDS : Nat := 0x50030
def R.SYNC_POOL_MISS : Nat := 0x50038
def R.SYNC_WAITER_SEL : Nat := 0x50100
def R.SYNC_WAITER : Nat := 0x50108
def R.SYNC_WAITER_ARG : Nat := 0x50110
def R.SYNC_RANGE (n : Nat) : Nat := 0x50040 + 0x8 * n
def R.PWR_CFG : Nat := 0x60000
def R.PWR_LIMIT : Nat := 0x60008
def R.PWR_STATUS : Nat := 0x60010
def R.PWR_CTL : Nat := 0x60018
def R.LS_CFG : Nat := 0x60020
def R.LS_BAND : Nat := 0x60028
def R.LS_STATUS : Nat := 0x60030
def R.LS_MAINS : Nat := 0x60038
def R.PWR_REST_CFG : Nat := 0x60040
def R.PWR_REST_AT : Nat := 0x60048
def R.PWR_REST_UNTIL : Nat := 0x60050
def R.PWR_REST_CTL : Nat := 0x60058
def R.PWR_REST_STATUS : Nat := 0x60060
def R.PWR_ENERGY_PKG : Nat := 0x60080
def R.PWR_ENERGY_UNATTR : Nat := 0x60088
def R.PWR_ENERGY_SHAPING : Nat := 0x60090
def R.PWR_ENERGY_SAT : Nat := 0x60180
def R.PWR_ENERGY_PT (n : Nat) : Nat := 0x60100 + 0x8 * n
def R.PWR_PHASE (p : Nat) : Nat := 0x60400 + 0x8 * p
def R.TR_DUR (r : Nat) : Nat := 0x60200 + 0x20 * r
def R.TR_LAST_AT (r : Nat) : Nat := 0x60208 + 0x20 * r
def R.TR_LAST (r : Nat) : Nat := 0x60210 + 0x20 * r
def R.XL_INV_CTL : Nat := 0x70000
def R.XL_INV_VA : Nat := 0x70008
def R.XL_INV_LEN : Nat := 0x70010
def R.XL_INV_STATUS : Nat := 0x70018
def R.XL_PMA (n : Nat) : Nat := 0x80000 + 0x8 * n
def R.FAB_EXPORT (n : Nat) : Nat := 0x90000 + 0x8 * n
def R.FAB_EXPORT_REFUSED : Nat := 0x98000
def R.HS_STATUS (j : Nat) : Nat := 0xA0000 + 0x100 * j
def R.HS_CFG (j : Nat) : Nat := 0xA0008 + 0x100 * j
def R.HS_CTL (j : Nat) : Nat := 0xA0010 + 0x100 * j
def R.HS_META_ADDR (j : Nat) : Nat := 0xA0018 + 0x100 * j
def R.HS_ECC_CE (j : Nat) : Nat := 0xA00A0 + 0x100 * j
def R.HS_ECC_UE (j : Nat) : Nat := 0xA00A8 + 0x100 * j
def R.HS_CRC_DISCARDED (j : Nat) : Nat := 0xA00B0 + 0x100 * j
def R.HS_RETRAINS (j : Nat) : Nat := 0xA00B8 + 0x100 * j
def R.HS_HOLD_MAX (j : Nat) : Nat := 0xA00C0 + 0x100 * j
def R.HS_META (j : Nat) (i : Nat) : Nat := 0xA0020 + 0x100 * j + 0x8 * i
def R.DC_MAP : Nat := 0xB0000
def R.DC_CRC_DISCARDED : Nat := 0xB0008
def R.DC_STATUS (n : Nat) : Nat := 0xB0100 + 0x40 * n
def R.DC_ECC_CE (n : Nat) : Nat := 0xB0108 + 0x40 * n
def R.DC_ECC_UE (n : Nat) : Nat := 0xB0110 + 0x40 * n
def R.FAB_CFG : Nat := 0xC0000
def R.FAB_STATUS : Nat := 0xC0008
def R.FAB_CTL : Nat := 0xC0010
def R.FAB_AT : Nat := 0xC0018
def R.FAB_PENDING : Nat := 0xC0020
def R.FAB_REPLAYS : Nat := 0xC0080
def R.FAB_FEC_CORR : Nat := 0xC0088
def R.FAB_E2E_RESEND : Nat := 0xC0090
def R.FAB_REFUSED_RX : Nat := 0xC0098
def R.FAB_SPAN_REJ : Nat := 0xC00A0
def R.FAB_BAD_MSG : Nat := 0xC00A8
def R.FAB_DEAD_DECL : Nat := 0xC00B0
def R.FAB_PORT (n : Nat) : Nat := 0xC0100 + 0x8 * n
def R.FAB_PACE (n : Nat) : Nat := 0xC0200 + 0x20 * n
def R.FAB_PACE_BASE (n : Nat) : Nat := 0xC0208 + 0x20 * n
def R.FAB_PACE_OFFSET (n : Nat) : Nat := 0xC0210 + 0x20 * n
def R.FAB_PACE_LAG (n : Nat) : Nat := 0xC0218 + 0x20 * n
def R.FAB_MEMBER (i : Nat) : Nat := 0xC1000 + 0x8 * i
def R.FAB_DEAD (i : Nat) : Nat := 0xC1400 + 0x8 * i
def R.HL_STATUS : Nat := 0xD0000
def R.HL_CFG : Nat := 0xD0008
def R.HL_WAKE_BUDGET : Nat := 0xD0010
def R.HL_WIN : Nat := 0xD0018
def R.HL_BISNP : Nat := 0xD0080
def R.HL_POISON_TX : Nat := 0xD0088
def R.HL_UR : Nat := 0xD0090
def R.HL_REPLAYS : Nat := 0xD0098
def R.HL_HDM_DPA (n : Nat) : Nat := 0xD0040 + 0x8 * n
def R.BIND_STATUS : Nat := 0xE0000
def R.BIND_VERSION : Nat := 0xE0008
def R.BIND_ENTRY : Nat := 0xE0010
def R.BIND_CORES_LO : Nat := 0xE0018
def R.BIND_CORES_HI : Nat := 0xE0020
def R.BIND_SRC : Nat := 0xE0028
def R.BIND_LEN : Nat := 0xE0030
def R.BIND_CTL : Nat := 0xE0038
def R.BIND_OP : Nat := 0xE0040
def R.SVC_CTL : Nat := 0xE0060
def R.SVC_STATUS : Nat := 0xE0068
def R.BIND_DIGEST (i : Nat) : Nat := 0xE0080 + 0x8 * i
def R.SEG_RUN (n : Nat) : Nat := 0xE0100 + 0x8 * n
def R.SVC_MAP (i : Nat) : Nat := 0xE0300 + 0x8 * i
def R.COLO_STATUS : Nat := 0xF0000
def R.COLO_CFG : Nat := 0xF0008
def R.COLO_CTL : Nat := 0xF0010
def R.COLO_WALL : Nat := 0xF0018
def R.COLO_LIFE_SAT : Nat := 0xF0020
def R.COLO_HIST_SEL : Nat := 0xF0200
def R.COLO_ARCH_SEL : Nat := 0xF0300
def R.COLO_LIFE (n : Nat) : Nat := 0xF0100 + 0x8 * n
def R.COLO_HIST_BIN (i : Nat) : Nat := 0xF0240 + 0x8 * i
def R.COLO_ARCH (i : Nat) : Nat := 0xF0340 + 0x8 * i
def R.C_CFG (n : Nat) : Nat := 0x100000 + 0x1000 * n
def R.C_STATUS (n : Nat) : Nat := 0x100008 + 0x1000 * n
def R.C_CLK (n : Nat) : Nat := 0x100010 + 0x1000 * n
def R.C_CTL (n : Nat) : Nat := 0x100018 + 0x1000 * n
def R.C_FENCE (n : Nat) : Nat := 0x100040 + 0x1000 * n
def R.CX_CFG (d : Nat) (c : Nat) : Nat := R.dieBase d + 0x0 + 0x80 * c
def R.CX_ATP (d : Nat) (c : Nat) : Nat := R.dieBase d + 0x8 + 0x80 * c
def R.CX_QBASE (d : Nat) (c : Nat) : Nat := R.dieBase d + 0x10 + 0x80 * c
def R.CX_HEAD (d : Nat) (c : Nat) : Nat := R.dieBase d + 0x18 + 0x80 * c
def R.CX_DOORBELL (d : Nat) (c : Nat) : Nat := R.dieBase d + 0x20 + 0x80 * c
def R.CX_STATE (d : Nat) (c : Nat) : Nat := R.dieBase d + 0x28 + 0x80 * c
def R.CX_CTL (d : Nat) (c : Nat) : Nat := R.dieBase d + 0x30 + 0x80 * c
def R.CX_FAULT (d : Nat) (c : Nat) : Nat := R.dieBase d + 0x38 + 0x80 * c
def R.CX_FAULT_ADDR (d : Nat) (c : Nat) : Nat := R.dieBase d + 0x40 + 0x80 * c
def R.CX_FENCE (d : Nat) (c : Nat) : Nat := R.dieBase d + 0x48 + 0x80 * c
def R.CX_VE_LOOP (d : Nat) (c : Nat) : Nat := R.dieBase d + 0x50 + 0x80 * c
def R.CX_VE_FLAGS (d : Nat) (c : Nat) : Nat := R.dieBase d + 0x58 + 0x80 * c
def R.CX_ENERGY (d : Nat) (c : Nat) : Nat := R.dieBase d + 0x60 + 0x80 * c
def R.CX_ENERGY_SAT (d : Nat) (c : Nat) : Nat := R.dieBase d + 0x68 + 0x80 * c
def R.CD_WAIT_POLLED (d : Nat) : Nat := R.dieBase d + 0x4000
def R.MA_STATUS (d : Nat) (m : Nat) : Nat := R.dieBase d + 0x10000 + 0x100 * m
def R.MA_CFG (d : Nat) (m : Nat) : Nat := R.dieBase d + 0x10008 + 0x100 * m
def R.MA_FAULT (d : Nat) (m : Nat) : Nat := R.dieBase d + 0x10010 + 0x100 * m
def R.MA_FAULT_ADDR (d : Nat) (m : Nat) : Nat := R.dieBase d + 0x10018 + 0x100 * m
def R.MA_CTL (d : Nat) (m : Nat) : Nat := R.dieBase d + 0x10020 + 0x100 * m
def R.MA_CYC_BUSY (d : Nat) (m : Nat) : Nat := R.dieBase d + 0x10028 + 0x100 * m
def R.MA_ROWS (d : Nat) (m : Nat) : Nat := R.dieBase d + 0x10030 + 0x100 * m
def R.MA_CYC_STALL (d : Nat) (m : Nat) : Nat := R.dieBase d + 0x10038 + 0x100 * m
def R.MA_CYC_RIME (d : Nat) (m : Nat) : Nat := R.dieBase d + 0x10040 + 0x100 * m
def R.MA_CRC_UNVERIFIED (d : Nat) (m : Nat) : Nat := R.dieBase d + 0x10048 + 0x100 * m
def R.VE_STATUS (d : Nat) (v : Nat) : Nat := R.dieBase d + 0x20000 + 0x100 * v
def R.VE_FAULT (d : Nat) (v : Nat) : Nat := R.dieBase d + 0x20008 + 0x100 * v
def R.VE_FAULT_ADDR (d : Nat) (v : Nat) : Nat := R.dieBase d + 0x20010 + 0x100 * v
def R.VE_CTL (d : Nat) (v : Nat) : Nat := R.dieBase d + 0x20018 + 0x100 * v
def R.VE_CYC_BUSY (d : Nat) (v : Nat) : Nat := R.dieBase d + 0x20020 + 0x100 * v
def R.VE_ELEMS (d : Nat) (v : Nat) : Nat := R.dieBase d + 0x20028 + 0x100 * v
def R.VE_CYC_STALL (d : Nat) (v : Nat) : Nat := R.dieBase d + 0x20030 + 0x100 * v
def R.VE_TILES (d : Nat) (v : Nat) : Nat := R.dieBase d + 0x20038 + 0x100 * v
def R.VE_CRC_UNVERIFIED (d : Nat) (v : Nat) : Nat := R.dieBase d + 0x20040 + 0x100 * v
def R.SPN_STATUS (d : Nat) (m : Nat) : Nat := R.dieBase d + 0x30000 + 0x100 * m
def R.SPN_DROPPED (d : Nat) (m : Nat) : Nat := R.dieBase d + 0x30008 + 0x100 * m
def R.SPN_CYC_FULL (d : Nat) (m : Nat) : Nat := R.dieBase d + 0x30010 + 0x100 * m
def R.SPN_ENTRY (d : Nat) (m : Nat) (i : Nat) : Nat := R.dieBase d + 0x30040 + 0x100 * m + 0x8 * i
def R.SCR_CFG (d : Nat) : Nat := R.dieBase d + 0x40000
def R.SCR_CONFLICT (d : Nat) : Nat := R.dieBase d + 0x40008
def R.SCR_ECC_CE (d : Nat) : Nat := R.dieBase d + 0x40010
def R.SCR_ECC_UE (d : Nat) : Nat := R.dieBase d + 0x40018
def R.SCR_WIN (d : Nat) (n : Nat) : Nat := R.dieBase d + 0x40040 + 0x8 * n
def R.DM_STATUS (d : Nat) (e : Nat) : Nat := R.dieBase d + 0x50000 + 0x100 * e
def R.DM_FAULT (d : Nat) (e : Nat) : Nat := R.dieBase d + 0x50008 + 0x100 * e
def R.DM_FAULT_ADDR (d : Nat) (e : Nat) : Nat := R.dieBase d + 0x50010 + 0x100 * e
def R.DM_CTL (d : Nat) (e : Nat) : Nat := R.dieBase d + 0x50018 + 0x100 * e
def R.DM_CYC_BUSY (d : Nat) (e : Nat) : Nat := R.dieBase d + 0x50020 + 0x100 * e
def R.DM_BYTES_RD (d : Nat) (e : Nat) : Nat := R.dieBase d + 0x50028 + 0x100 * e
def R.DM_BYTES_WR (d : Nat) (e : Nat) : Nat := R.dieBase d + 0x50030 + 0x100 * e
def R.DM_NARROW (d : Nat) (e : Nat) : Nat := R.dieBase d + 0x50038 + 0x100 * e
def R.DM_CRC_UNVERIFIED (d : Nat) (e : Nat) : Nat := R.dieBase d + 0x50040 + 0x100 * e
def R.DM_IDX_SKIP (d : Nat) (e : Nat) : Nat := R.dieBase d + 0x50048 + 0x100 * e
def R.XL_D_MISS (d : Nat) : Nat := R.dieBase d + 0x60000
def R.XL_D_WALKS (d : Nat) : Nat := R.dieBase d + 0x60008
def R.XL_D_WALK_CYC (d : Nat) : Nat := R.dieBase d + 0x60010
def R.PWR_D_CLK (d : Nat) : Nat := R.dieBase d + 0x70000
def R.PWR_D_CFG (d : Nat) : Nat := R.dieBase d + 0x70008
def R.PWR_D_TEMP (d : Nat) : Nat := R.dieBase d + 0x70010
def R.PWR_D_DROOPS (d : Nat) : Nat := R.dieBase d + 0x70018
def R.PWR_D_STRETCH_CYC (d : Nat) : Nat := R.dieBase d + 0x70020
def R.PWR_D_BALLAST (d : Nat) : Nat := R.dieBase d + 0x70028
def R.PWR_D_DUTY (d : Nat) : Nat := R.dieBase d + 0x70030
def R.RC_CFG (d : Nat) : Nat := R.dieBase d + 0x88000
def R.RC_CTL (d : Nat) : Nat := R.dieBase d + 0x88008
def R.RC_STATUS (d : Nat) : Nat := R.dieBase d + 0x88010
def R.RC_HIT (d : Nat) : Nat := R.dieBase d + 0x88020
def R.RC_MISS (d : Nat) : Nat := R.dieBase d + 0x88028
def R.RC_PF (d : Nat) : Nat := R.dieBase d + 0x88030
def R.HOME_RETRIES (d : Nat) : Nat := R.dieBase d + 0x88038
def R.HOME_DIR_EVICT (d : Nat) : Nat := R.dieBase d + 0x88040
def R.ML_STATUS (d : Nat) (j : Nat) : Nat := R.dieBase d + 0x88080 + 0x8 * j
def R.ML_REPLAYS (d : Nat) (j : Nat) : Nat := R.dieBase d + 0x880C0 + 0x8 * j

def F.PKG_ID.PART : Fld := ⟨15, 0, .ro, .const 29728⟩
def F.PKG_ID.ARCH_GEN : Fld := ⟨19, 16, .ro, .const 1⟩
def F.PKG_ID.STEP_MAJOR : Fld := ⟨23, 20, .ro, .fuse⟩
def F.PKG_ID.STEP_MINOR : Fld := ⟨27, 24, .ro, .fuse⟩
def F.PKG_ID.GRADE : Fld := ⟨31, 28, .ro, .fuse⟩
def F.PKG_ID.KEY_SET : Fld := ⟨35, 32, .ro, .fuse⟩
def F.PKG_ID.all : List Fld := [F.PKG_ID.PART, F.PKG_ID.ARCH_GEN, F.PKG_ID.STEP_MAJOR, F.PKG_ID.STEP_MINOR, F.PKG_ID.GRADE, F.PKG_ID.KEY_SET]
def F.PKG_UNITS.NUM_CD : Fld := ⟨3, 0, .ro, .const 4⟩
def F.PKG_UNITS.NUM_MA : Fld := ⟨7, 4, .ro, .const 8⟩
def F.PKG_UNITS.NUM_CORES : Fld := ⟨15, 8, .ro, .const 96⟩
def F.PKG_UNITS.NUM_STACKS : Fld := ⟨23, 16, .ro, .const 20⟩
def F.PKG_UNITS.NUM_OE : Fld := ⟨27, 24, .ro, .const 8⟩
def F.PKG_UNITS.NUM_DC : Fld := ⟨31, 28, .ro, .const 12⟩
def F.PKG_UNITS.NUM_CX : Fld := ⟨39, 32, .ro, .const 128⟩
def F.PKG_UNITS.NUM_VE : Fld := ⟨43, 40, .ro, .const 8⟩
def F.PKG_UNITS.NUM_DM : Fld := ⟨48, 44, .ro, .const 16⟩
def F.PKG_UNITS.all : List Fld := [F.PKG_UNITS.NUM_CD, F.PKG_UNITS.NUM_MA, F.PKG_UNITS.NUM_CORES, F.PKG_UNITS.NUM_STACKS, F.PKG_UNITS.NUM_OE, F.PKG_UNITS.NUM_DC, F.PKG_UNITS.NUM_CX, F.PKG_UNITS.NUM_VE, F.PKG_UNITS.NUM_DM]
def F.PKG_SERIAL.SERIAL : Fld := ⟨63, 0, .ro, .fuse⟩
def F.PKG_SERIAL.all : List Fld := [F.PKG_SERIAL.SERIAL]
def F.PKG_FUSED.CORE_FMAX_LO : Fld := ⟨7, 0, .ro, .fuse⟩
def F.PKG_FUSED.CORE_FMAX_HI : Fld := ⟨15, 8, .ro, .fuse⟩
def F.PKG_FUSED.CD_FMAX_LO : Fld := ⟨23, 16, .ro, .fuse⟩
def F.PKG_FUSED.CD_FMAX_HI : Fld := ⟨31, 24, .ro, .fuse⟩
def F.PKG_FUSED.ENVELOPE_W : Fld := ⟨47, 32, .ro, .const 1200⟩
def F.PKG_FUSED.all : List Fld := [F.PKG_FUSED.CORE_FMAX_LO, F.PKG_FUSED.CORE_FMAX_HI, F.PKG_FUSED.CD_FMAX_LO, F.PKG_FUSED.CD_FMAX_HI, F.PKG_FUSED.ENVELOPE_W]
def F.SPAN_CFG.SOURCE : Fld := ⟨1, 0, .rw, .image⟩
def F.SPAN_CFG.SPAN_IN_SEL : Fld := ⟨2, 2, .rw, .image⟩
def F.SPAN_CFG.ANCHOR : Fld := ⟨3, 3, .rw, .image⟩
def F.SPAN_CFG.ENABLE : Fld := ⟨4, 4, .rw, .image⟩
def F.SPAN_CFG.FREE_RUN : Fld := ⟨5, 5, .rw, .image⟩
def F.SPAN_CFG.MAINS_FALLING : Fld := ⟨6, 6, .rw, .image⟩
def F.SPAN_CFG.DPLL_TC : Fld := ⟨9, 8, .rw, .image⟩
def F.SPAN_CFG.MAINS_OFFSET : Fld := ⟨23, 16, .rw, .image⟩
def F.SPAN_CFG.all : List Fld := [F.SPAN_CFG.SOURCE, F.SPAN_CFG.SPAN_IN_SEL, F.SPAN_CFG.ANCHOR, F.SPAN_CFG.ENABLE, F.SPAN_CFG.FREE_RUN, F.SPAN_CFG.MAINS_FALLING, F.SPAN_CFG.DPLL_TC, F.SPAN_CFG.MAINS_OFFSET]
def F.SPAN_LEN.LOCAL_LEN_NS : Fld := ⟨31, 0, .rw, .image⟩
def F.SPAN_LEN.all : List Fld := [F.SPAN_LEN.LOCAL_LEN_NS]
def F.SPAN_NOW.COUNT : Fld := ⟨63, 24, .ro, .const 0⟩
def F.SPAN_NOW.FRACTION : Fld := ⟨23, 0, .ro, .const 0⟩
def F.SPAN_NOW.all : List Fld := [F.SPAN_NOW.COUNT, F.SPAN_NOW.FRACTION]
def F.SPAN_STATUS.STATE : Fld := ⟨1, 0, .ro, .const 0⟩
def F.SPAN_STATUS.VALID : Fld := ⟨2, 2, .ro, .const 0⟩
def F.SPAN_STATUS.HELD : Fld := ⟨3, 3, .ro, .const 0⟩
def F.SPAN_STATUS.REF_PRESENT : Fld := ⟨4, 4, .ro, .const 0⟩
def F.SPAN_STATUS.REF_LOST : Fld := ⟨8, 8, .w1c, .const 0⟩
def F.SPAN_STATUS.SLEW_EXCEEDED : Fld := ⟨9, 9, .w1c, .const 0⟩
def F.SPAN_STATUS.WORD_ERR : Fld := ⟨10, 10, .w1c, .const 0⟩
def F.SPAN_STATUS.MAINS_RANGE : Fld := ⟨11, 11, .w1c, .const 0⟩
def F.SPAN_STATUS.CFG_REFUSED : Fld := ⟨12, 12, .w1c, .const 0⟩
def F.SPAN_STATUS.PHASE_ERR : Fld := ⟨31, 16, .ro, .const 0⟩
def F.SPAN_STATUS.HOLD_SPANS : Fld := ⟨63, 32, .ro, .const 0⟩
def F.SPAN_STATUS.all : List Fld := [F.SPAN_STATUS.STATE, F.SPAN_STATUS.VALID, F.SPAN_STATUS.HELD, F.SPAN_STATUS.REF_PRESENT, F.SPAN_STATUS.REF_LOST, F.SPAN_STATUS.SLEW_EXCEEDED, F.SPAN_STATUS.WORD_ERR, F.SPAN_STATUS.MAINS_RANGE, F.SPAN_STATUS.CFG_REFUSED, F.SPAN_STATUS.PHASE_ERR, F.SPAN_STATUS.HOLD_SPANS]
def F.SPAN_LIMITS.LOCK_THRESH_NS : Fld := ⟨15, 0, .rw, .image⟩
def F.SPAN_LIMITS.HOLDOVER_MAX : Fld := ⟨31, 16, .rw, .image⟩
def F.SPAN_LIMITS.PREARM : Fld := ⟨47, 32, .rw, .image⟩
def F.SPAN_LIMITS.SLEW_MAX_US : Fld := ⟨63, 48, .rw, .image⟩
def F.SPAN_LIMITS.all : List Fld := [F.SPAN_LIMITS.LOCK_THRESH_NS, F.SPAN_LIMITS.HOLDOVER_MAX, F.SPAN_LIMITS.PREARM, F.SPAN_LIMITS.SLEW_MAX_US]
def F.SPAN_MEAS.LAST_LEN : Fld := ⟨31, 0, .ro, .const 0⟩
def F.SPAN_MEAS.EST_LEN : Fld := ⟨63, 32, .ro, .const 0⟩
def F.SPAN_MEAS.all : List Fld := [F.SPAN_MEAS.LAST_LEN, F.SPAN_MEAS.EST_LEN]
def F.SPAN_CAP_REF.VALUE : Fld := ⟨63, 0, .ro, .const 0⟩
def F.SPAN_CAP_REF.all : List Fld := [F.SPAN_CAP_REF.VALUE]
def F.SPAN_CAP_MAINS.VALUE : Fld := ⟨63, 0, .ro, .const 0⟩
def F.SPAN_CAP_MAINS.all : List Fld := [F.SPAN_CAP_MAINS.VALUE]
def F.SPAN_LATE.LATE_COUNT : Fld := ⟨47, 0, .ro, .const 0⟩
def F.SPAN_LATE.LATE_OVF : Fld := ⟨48, 48, .w1c, .const 0⟩
def F.SPAN_LATE.all : List Fld := [F.SPAN_LATE.LATE_COUNT, F.SPAN_LATE.LATE_OVF]
def F.SPAN_LATE_MAX.MAX_AC : Fld := ⟨31, 0, .rw, .const 0⟩
def F.SPAN_LATE_MAX.all : List Fld := [F.SPAN_LATE_MAX.MAX_AC]
def F.SPAN_CTL.RELOCK : Fld := ⟨0, 0, .wo, .const 0⟩
def F.SPAN_CTL.RESTART : Fld := ⟨1, 1, .wo, .const 0⟩
def F.SPAN_CTL.all : List Fld := [F.SPAN_CTL.RELOCK, F.SPAN_CTL.RESTART]
def F.FIRN_CFG.SPILL_EN : Fld := ⟨0, 0, .rw, .image⟩
def F.FIRN_CFG.MERGE_SHARE : Fld := ⟨7, 4, .rw, .image⟩
def F.FIRN_CFG.FULL_WAIT_US : Fld := ⟨23, 8, .rw, .image⟩
def F.FIRN_CFG.all : List Fld := [F.FIRN_CFG.SPILL_EN, F.FIRN_CFG.MERGE_SHARE, F.FIRN_CFG.FULL_WAIT_US]
def F.FIRN_DDR.BASE_GIB : Fld := ⟨15, 0, .rw, .image⟩
def F.FIRN_DDR.SIZE_GIB : Fld := ⟨22, 16, .rw, .image⟩
def F.FIRN_DDR.all : List Fld := [F.FIRN_DDR.BASE_GIB, F.FIRN_DDR.SIZE_GIB]
def F.FIRN_CTL.EPOCH : Fld := ⟨7, 0, .wo, .const 0⟩
def F.FIRN_CTL.REARM : Fld := ⟨8, 8, .wo, .const 0⟩
def F.FIRN_CTL.MELT : Fld := ⟨9, 9, .wo, .const 0⟩
def F.FIRN_CTL.all : List Fld := [F.FIRN_CTL.EPOCH, F.FIRN_CTL.REARM, F.FIRN_CTL.MELT]
def F.FIRN_STATUS.FULL_NOW : Fld := ⟨0, 0, .ro, .const 0⟩
def F.FIRN_STATUS.SPILLING : Fld := ⟨1, 1, .ro, .const 0⟩
def F.FIRN_STATUS.FULL_SEEN : Fld := ⟨2, 2, .w1c, .const 0⟩
def F.FIRN_STATUS.SPILL_SEEN : Fld := ⟨3, 3, .w1c, .const 0⟩
def F.FIRN_STATUS.SETTLE_MELTED : Fld := ⟨4, 4, .w1c, .const 0⟩
def F.FIRN_STATUS.all : List Fld := [F.FIRN_STATUS.FULL_NOW, F.FIRN_STATUS.SPILLING, F.FIRN_STATUS.FULL_SEEN, F.FIRN_STATUS.SPILL_SEEN, F.FIRN_STATUS.SETTLE_MELTED]
def F.FIRN_EPOCH.STATE : Fld := ⟨2, 0, .ro, .const 0⟩
def F.FIRN_EPOCH.PART : Fld := ⟨7, 4, .rw, .image⟩
def F.FIRN_EPOCH.INSTANCE : Fld := ⟨15, 8, .ro, .const 0⟩
def F.FIRN_EPOCH.ENTRIES : Fld := ⟨47, 16, .ro, .const 0⟩
def F.FIRN_EPOCH.all : List Fld := [F.FIRN_EPOCH.STATE, F.FIRN_EPOCH.PART, F.FIRN_EPOCH.INSTANCE, F.FIRN_EPOCH.ENTRIES]
def F.FIRN_LOG.USED : Fld := ⟨29, 0, .ro, .const 0⟩
def F.FIRN_LOG.HIGH : Fld := ⟨59, 30, .rw, .const 0⟩
def F.FIRN_LOG.ABSENT : Fld := ⟨60, 60, .ro, .const 0⟩
def F.FIRN_LOG.all : List Fld := [F.FIRN_LOG.USED, F.FIRN_LOG.HIGH, F.FIRN_LOG.ABSENT]
def F.HUB_CX_LOST_LO.LOST : Fld := ⟨63, 0, .w1c, .const 0⟩
def F.HUB_CX_LOST_LO.all : List Fld := [F.HUB_CX_LOST_LO.LOST]
def F.HUB_CX_LOST_HI.LOST : Fld := ⟨63, 0, .w1c, .const 0⟩
def F.HUB_CX_LOST_HI.all : List Fld := [F.HUB_CX_LOST_HI.LOST]
def F.HUB_CD_CTL.OFFLINE : Fld := ⟨0, 0, .wo, .const 0⟩
def F.HUB_CD_CTL.ISOLATE : Fld := ⟨1, 1, .wo, .const 0⟩
def F.HUB_CD_CTL.REJOIN : Fld := ⟨2, 2, .wo, .const 0⟩
def F.HUB_CD_CTL.all : List Fld := [F.HUB_CD_CTL.OFFLINE, F.HUB_CD_CTL.ISOLATE, F.HUB_CD_CTL.REJOIN]
def F.HUB_CD_STATUS.STATE : Fld := ⟨2, 0, .ro, .const 3⟩
def F.HUB_CD_STATUS.IN_SERVICE : Fld := ⟨3, 3, .ro, .const 0⟩
def F.HUB_CD_STATUS.WIDTH_DOWN : Fld := ⟨8, 4, .ro, .const 0⟩
def F.HUB_CD_STATUS.WIDTH_UP : Fld := ⟨13, 9, .ro, .const 0⟩
def F.HUB_CD_STATUS.LINK_ERR : Fld := ⟨14, 14, .w1c, .const 0⟩
def F.HUB_CD_STATUS.LOSSES : Fld := ⟨31, 16, .ro, .const 0⟩
def F.HUB_CD_STATUS.all : List Fld := [F.HUB_CD_STATUS.STATE, F.HUB_CD_STATUS.IN_SERVICE, F.HUB_CD_STATUS.WIDTH_DOWN, F.HUB_CD_STATUS.WIDTH_UP, F.HUB_CD_STATUS.LINK_ERR, F.HUB_CD_STATUS.LOSSES]
def F.FQ_CFG.IRQ_EN : Fld := ⟨0, 0, .rw, .image⟩
def F.FQ_CFG.IRQ_CORE : Fld := ⟨7, 1, .rw, .image⟩
def F.FQ_CFG.IRQ_MIN_SEV : Fld := ⟨10, 8, .rw, .image⟩
def F.FQ_CFG.WRAP_REC : Fld := ⟨11, 11, .rw, .image⟩
def F.FQ_CFG.all : List Fld := [F.FQ_CFG.IRQ_EN, F.FQ_CFG.IRQ_CORE, F.FQ_CFG.IRQ_MIN_SEV, F.FQ_CFG.WRAP_REC]
def F.FQ_STATUS.COUNT : Fld := ⟨12, 0, .ro, .const 0⟩
def F.FQ_STATUS.MIN_SEV : Fld := ⟨15, 13, .ro, .const 0⟩
def F.FQ_STATUS.OVF : Fld := ⟨16, 16, .w1c, .const 0⟩
def F.FQ_STATUS.POP_MISS : Fld := ⟨17, 17, .w1c, .const 0⟩
def F.FQ_STATUS.all : List Fld := [F.FQ_STATUS.COUNT, F.FQ_STATUS.MIN_SEV, F.FQ_STATUS.OVF, F.FQ_STATUS.POP_MISS]
def F.FQ_POP.SEQ : Fld := ⟨47, 0, .wo, .const 0⟩
def F.FQ_POP.all : List Fld := [F.FQ_POP.SEQ]
def F.FQ_NEXT_SEQ.SEQ : Fld := ⟨47, 0, .ro, .const 0⟩
def F.FQ_NEXT_SEQ.all : List Fld := [F.FQ_NEXT_SEQ.SEQ]
def F.CNT_SNAP_CTL.TAKE : Fld := ⟨0, 0, .wo, .const 0⟩
def F.CNT_SNAP_CTL.all : List Fld := [F.CNT_SNAP_CTL.TAKE]
def F.CNT_SNAP_AT.AT : Fld := ⟨63, 0, .ro, .const 0⟩
def F.CNT_SNAP_AT.all : List Fld := [F.CNT_SNAP_AT.AT]
def F.CNT_SNAP_SEL.OFFSET : Fld := ⟨26, 3, .rw, .const 0⟩
def F.CNT_SNAP_SEL.all : List Fld := [F.CNT_SNAP_SEL.OFFSET]
def F.CNT_SNAP_VAL.VALUE : Fld := ⟨63, 0, .ro, .const 0⟩
def F.CNT_SNAP_VAL.all : List Fld := [F.CNT_SNAP_VAL.VALUE]
def F.FQ_HEAD.WORD : Fld := ⟨63, 0, .ro, .const 0⟩
def F.FQ_HEAD.all : List Fld := [F.FQ_HEAD.WORD]
def F.SYNC_STATUS.POOL_USED : Fld := ⟨13, 0, .ro, .const 0⟩
def F.SYNC_STATUS.POOL_EMPTY : Fld := ⟨14, 14, .ro, .const 0⟩
def F.SYNC_STATUS.POOL_HIGH : Fld := ⟨29, 16, .rw, .const 0⟩
def F.SYNC_STATUS.all : List Fld := [F.SYNC_STATUS.POOL_USED, F.SYNC_STATUS.POOL_EMPTY, F.SYNC_STATUS.POOL_HIGH]
def F.SYNC_WAITER_SEL.INDEX : Fld := ⟨12, 0, .rw, .const 0⟩
def F.SYNC_WAITER_SEL.all : List Fld := [F.SYNC_WAITER_SEL.INDEX]
def F.SYNC_WAITER.VALID : Fld := ⟨0, 0, .ro, .const 0⟩
def F.SYNC_WAITER.KIND : Fld := ⟨1, 1, .ro, .const 0⟩
def F.SYNC_WAITER.DIE : Fld := ⟨3, 2, .ro, .const 0⟩
def F.SYNC_WAITER.CX : Fld := ⟨10, 4, .ro, .const 0⟩
def F.SYNC_WAITER.QUIRE : Fld := ⟨24, 11, .ro, .const 0⟩
def F.SYNC_WAITER.COND : Fld := ⟨27, 25, .ro, .const 0⟩
def F.SYNC_WAITER.NEXT : Fld := ⟨40, 28, .ro, .const 0⟩
def F.SYNC_WAITER.GRANTED : Fld := ⟨41, 41, .ro, .const 0⟩
def F.SYNC_WAITER.all : List Fld := [F.SYNC_WAITER.VALID, F.SYNC_WAITER.KIND, F.SYNC_WAITER.DIE, F.SYNC_WAITER.CX, F.SYNC_WAITER.QUIRE, F.SYNC_WAITER.COND, F.SYNC_WAITER.NEXT, F.SYNC_WAITER.GRANTED]
def F.SYNC_WAITER_ARG.ARG : Fld := ⟨63, 0, .ro, .const 0⟩
def F.SYNC_WAITER_ARG.all : List Fld := [F.SYNC_WAITER_ARG.ARG]
def F.SYNC_RANGE.BASE : Fld := ⟨13, 0, .rw, .image⟩
def F.SYNC_RANGE.COUNT : Fld := ⟨29, 15, .rw, .image⟩
def F.SYNC_RANGE.REMOTE : Fld := ⟨30, 30, .rw, .image⟩
def F.SYNC_RANGE.all : List Fld := [F.SYNC_RANGE.BASE, F.SYNC_RANGE.COUNT, F.SYNC_RANGE.REMOTE]
def F.PWR_CFG.LEARN_EN : Fld := ⟨0, 0, .rw, .image⟩
def F.PWR_CFG.REPRO : Fld := ⟨1, 1, .rw, .image⟩
def F.PWR_CFG.all : List Fld := [F.PWR_CFG.LEARN_EN, F.PWR_CFG.REPRO]
def F.PWR_LIMIT.MGMT_W : Fld := ⟨15, 0, .rw, .image⟩
def F.PWR_LIMIT.HOST_W : Fld := ⟨31, 16, .rw, .const 0⟩
def F.PWR_LIMIT.PIN_W : Fld := ⟨47, 32, .rw, .image⟩
def F.PWR_LIMIT.all : List Fld := [F.PWR_LIMIT.MGMT_W, F.PWR_LIMIT.HOST_W, F.PWR_LIMIT.PIN_W]
def F.PWR_STATUS.EFF_W : Fld := ⟨15, 0, .ro, .const 0⟩
def F.PWR_STATUS.AVG_W : Fld := ⟨31, 16, .ro, .const 0⟩
def F.PWR_STATUS.REASON : Fld := ⟨39, 32, .ro, .const 0⟩
def F.PWR_STATUS.PIN : Fld := ⟨40, 40, .ro, .const 0⟩
def F.PWR_STATUS.all : List Fld := [F.PWR_STATUS.EFF_W, F.PWR_STATUS.AVG_W, F.PWR_STATUS.REASON, F.PWR_STATUS.PIN]
def F.PWR_CTL.FORGET : Fld := ⟨0, 0, .wo, .const 0⟩
def F.PWR_CTL.FORGET_ALL : Fld := ⟨1, 1, .wo, .const 0⟩
def F.PWR_CTL.PHASE : Fld := ⟨15, 8, .wo, .const 0⟩
def F.PWR_CTL.all : List Fld := [F.PWR_CTL.FORGET, F.PWR_CTL.FORGET_ALL, F.PWR_CTL.PHASE]
def F.LS_CFG.EN : Fld := ⟨0, 0, .rw, .image⟩
def F.LS_CFG.BALLAST_EN : Fld := ⟨1, 1, .rw, .image⟩
def F.LS_CFG.ALIGN : Fld := ⟨2, 2, .rw, .image⟩
def F.LS_CFG.STEP_PHASE : Fld := ⟨15, 8, .rw, .image⟩
def F.LS_CFG.all : List Fld := [F.LS_CFG.EN, F.LS_CFG.BALLAST_EN, F.LS_CFG.ALIGN, F.LS_CFG.STEP_PHASE]
def F.LS_BAND.MIN_W : Fld := ⟨15, 0, .rw, .image⟩
def F.LS_BAND.MAX_W : Fld := ⟨31, 16, .rw, .image⟩
def F.LS_BAND.RAMP_W : Fld := ⟨47, 32, .rw, .image⟩
def F.LS_BAND.all : List Fld := [F.LS_BAND.MIN_W, F.LS_BAND.MAX_W, F.LS_BAND.RAMP_W]
def F.LS_STATUS.LAST_AVG_W : Fld := ⟨15, 0, .ro, .const 0⟩
def F.LS_STATUS.FLOOR_W : Fld := ⟨31, 16, .ro, .const 0⟩
def F.LS_STATUS.CEIL_W : Fld := ⟨47, 32, .ro, .const 0⟩
def F.LS_STATUS.FLOOR_MISS : Fld := ⟨48, 48, .w1c, .const 0⟩
def F.LS_STATUS.CEIL_MISS : Fld := ⟨49, 49, .w1c, .const 0⟩
def F.LS_STATUS.BALLAST_NOW : Fld := ⟨50, 50, .ro, .const 0⟩
def F.LS_STATUS.all : List Fld := [F.LS_STATUS.LAST_AVG_W, F.LS_STATUS.FLOOR_W, F.LS_STATUS.CEIL_W, F.LS_STATUS.FLOOR_MISS, F.LS_STATUS.CEIL_MISS, F.LS_STATUS.BALLAST_NOW]
def F.LS_MAINS.PERIOD : Fld := ⟨31, 0, .ro, .const 0⟩
def F.LS_MAINS.VALID : Fld := ⟨32, 32, .ro, .const 0⟩
def F.LS_MAINS.all : List Fld := [F.LS_MAINS.PERIOD, F.LS_MAINS.VALID]
def F.PWR_REST_CFG.MAX_STATE : Fld := ⟨1, 0, .rw, .image⟩
def F.PWR_REST_CFG.DOZE_IDLE_US : Fld := ⟨17, 2, .rw, .image⟩
def F.PWR_REST_CFG.all : List Fld := [F.PWR_REST_CFG.MAX_STATE, F.PWR_REST_CFG.DOZE_IDLE_US]
def F.PWR_REST_AT.VALUE : Fld := ⟨63, 0, .rw, .const 0⟩
def F.PWR_REST_AT.all : List Fld := [F.PWR_REST_AT.VALUE]
def F.PWR_REST_UNTIL.VALUE : Fld := ⟨63, 0, .rw, .const 0⟩
def F.PWR_REST_UNTIL.all : List Fld := [F.PWR_REST_UNTIL.VALUE]
def F.PWR_REST_CTL.ARM : Fld := ⟨0, 0, .wo, .const 0⟩
def F.PWR_REST_CTL.CANCEL : Fld := ⟨1, 1, .wo, .const 0⟩
def F.PWR_REST_CTL.all : List Fld := [F.PWR_REST_CTL.ARM, F.PWR_REST_CTL.CANCEL]
def F.PWR_REST_STATUS.STATE : Fld := ⟨1, 0, .ro, .const 0⟩
def F.PWR_REST_STATUS.ARMED : Fld := ⟨2, 2, .ro, .const 0⟩
def F.PWR_REST_STATUS.TARGET : Fld := ⟨4, 3, .ro, .const 0⟩
def F.PWR_REST_STATUS.all : List Fld := [F.PWR_REST_STATUS.STATE, F.PWR_REST_STATUS.ARMED, F.PWR_REST_STATUS.TARGET]
def F.PWR_ENERGY_PKG.VALUE : Fld := ⟨63, 0, .ro, .const 0⟩
def F.PWR_ENERGY_PKG.all : List Fld := [F.PWR_ENERGY_PKG.VALUE]
def F.PWR_ENERGY_UNATTR.VALUE : Fld := ⟨63, 0, .ro, .const 0⟩
def F.PWR_ENERGY_UNATTR.all : List Fld := [F.PWR_ENERGY_UNATTR.VALUE]
def F.PWR_ENERGY_SHAPING.VALUE : Fld := ⟨63, 0, .ro, .const 0⟩
def F.PWR_ENERGY_SHAPING.all : List Fld := [F.PWR_ENERGY_SHAPING.VALUE]
def F.PWR_ENERGY_SAT.PKG : Fld := ⟨0, 0, .w1c, .const 0⟩
def F.PWR_ENERGY_SAT.UNATTR : Fld := ⟨1, 1, .w1c, .const 0⟩
def F.PWR_ENERGY_SAT.SHAPING : Fld := ⟨2, 2, .w1c, .const 0⟩
def F.PWR_ENERGY_SAT.PT : Fld := ⟨18, 3, .w1c, .const 0⟩
def F.PWR_ENERGY_SAT.all : List Fld := [F.PWR_ENERGY_SAT.PKG, F.PWR_ENERGY_SAT.UNATTR, F.PWR_ENERGY_SAT.SHAPING, F.PWR_ENERGY_SAT.PT]
def F.PWR_ENERGY_PT.VALUE : Fld := ⟨63, 0, .ro, .const 0⟩
def F.PWR_ENERGY_PT.all : List Fld := [F.PWR_ENERGY_PT.VALUE]
def F.PWR_PHASE.COUNT : Fld := ⟨7, 0, .ro, .const 0⟩
def F.PWR_PHASE.CD_W : Fld := ⟨17, 8, .ro, .const 0⟩
def F.PWR_PHASE.MEM_W : Fld := ⟨27, 18, .ro, .const 0⟩
def F.PWR_PHASE.LEARNED : Fld := ⟨28, 28, .ro, .const 0⟩
def F.PWR_PHASE.all : List Fld := [F.PWR_PHASE.COUNT, F.PWR_PHASE.CD_W, F.PWR_PHASE.MEM_W, F.PWR_PHASE.LEARNED]
def F.TR_LAST_AT.VALUE : Fld := ⟨63, 0, .ro, .const 0⟩
def F.TR_LAST_AT.all : List Fld := [F.TR_LAST_AT.VALUE]
def F.TR_LAST.DUR_US : Fld := ⟨31, 0, .ro, .const 0⟩
def F.TR_LAST.DOMAIN : Fld := ⟨39, 32, .ro, .const 0⟩
def F.TR_LAST.ONGOING : Fld := ⟨40, 40, .ro, .const 0⟩
def F.TR_LAST.all : List Fld := [F.TR_LAST.DUR_US, F.TR_LAST.DOMAIN, F.TR_LAST.ONGOING]
def F.XL_INV_CTL.START : Fld := ⟨0, 0, .wo, .const 0⟩
def F.XL_INV_CTL.SCOPE : Fld := ⟨2, 1, .rw, .const 0⟩
def F.XL_INV_CTL.SIG_EN : Fld := ⟨3, 3, .rw, .const 0⟩
def F.XL_INV_CTL.SIG_Q : Fld := ⟨17, 4, .rw, .const 0⟩
def F.XL_INV_CTL.ASID : Fld := ⟨33, 18, .rw, .const 0⟩
def F.XL_INV_CTL.all : List Fld := [F.XL_INV_CTL.START, F.XL_INV_CTL.SCOPE, F.XL_INV_CTL.SIG_EN, F.XL_INV_CTL.SIG_Q, F.XL_INV_CTL.ASID]
def F.XL_INV_VA.VA : Fld := ⟨56, 30, .rw, .const 0⟩
def F.XL_INV_VA.all : List Fld := [F.XL_INV_VA.VA]
def F.XL_INV_LEN.LEN : Fld := ⟨47, 0, .rw, .const 0⟩
def F.XL_INV_LEN.all : List Fld := [F.XL_INV_LEN.LEN]
def F.XL_INV_STATUS.BUSY : Fld := ⟨0, 0, .ro, .const 0⟩
def F.XL_INV_STATUS.DONE : Fld := ⟨1, 1, .w1c, .const 0⟩
def F.XL_INV_STATUS.CUT : Fld := ⟨2, 2, .w1c, .const 0⟩
def F.XL_INV_STATUS.LAST_US : Fld := ⟨31, 16, .ro, .const 0⟩
def F.XL_INV_STATUS.all : List Fld := [F.XL_INV_STATUS.BUSY, F.XL_INV_STATUS.DONE, F.XL_INV_STATUS.CUT, F.XL_INV_STATUS.LAST_US]
def F.XL_PMA.COHERENT : Fld := ⟨0, 0, .rw, .image⟩
def F.XL_PMA.FE : Fld := ⟨1, 1, .rw, .image⟩
def F.XL_PMA.EARLY_ACK : Fld := ⟨2, 2, .rw, .image⟩
def F.XL_PMA.all : List Fld := [F.XL_PMA.COHERENT, F.XL_PMA.FE, F.XL_PMA.EARLY_ACK]
def F.FAB_EXPORT.VALID : Fld := ⟨0, 0, .rw, .const 0⟩
def F.FAB_EXPORT.WRITE : Fld := ⟨1, 1, .rw, .const 0⟩
def F.FAB_EXPORT.TARGET : Fld := ⟨55, 30, .rw, .const 0⟩
def F.FAB_EXPORT.all : List Fld := [F.FAB_EXPORT.VALID, F.FAB_EXPORT.WRITE, F.FAB_EXPORT.TARGET]
def F.HS_STATUS.STATE : Fld := ⟨2, 0, .ro, .const 3⟩
def F.HS_STATUS.IN_SERVICE : Fld := ⟨3, 3, .ro, .const 0⟩
def F.HS_STATUS.REFRESH_2X : Fld := ⟨4, 4, .ro, .const 0⟩
def F.HS_STATUS.DRIFT_DUE : Fld := ⟨5, 5, .ro, .const 0⟩
def F.HS_STATUS.TEMP_C : Fld := ⟨15, 8, .ro, .const 0⟩
def F.HS_STATUS.all : List Fld := [F.HS_STATUS.STATE, F.HS_STATUS.IN_SERVICE, F.HS_STATUS.REFRESH_2X, F.HS_STATUS.DRIFT_DUE, F.HS_STATUS.TEMP_C]
def F.HS_CFG.AUTO_RETRAIN : Fld := ⟨0, 0, .rw, .image⟩
def F.HS_CFG.SCRUB_EN : Fld := ⟨1, 1, .rw, .image⟩
def F.HS_CFG.WIN_START : Fld := ⟨15, 8, .rw, .image⟩
def F.HS_CFG.WIN_LEN : Fld := ⟨23, 16, .rw, .image⟩
def F.HS_CFG.SCRUB_HOURS : Fld := ⟨31, 24, .rw, .image⟩
def F.HS_CFG.all : List Fld := [F.HS_CFG.AUTO_RETRAIN, F.HS_CFG.SCRUB_EN, F.HS_CFG.WIN_START, F.HS_CFG.WIN_LEN, F.HS_CFG.SCRUB_HOURS]
def F.HS_CTL.RETRAIN : Fld := ⟨0, 0, .wo, .const 0⟩
def F.HS_CTL.RECAL : Fld := ⟨1, 1, .wo, .const 0⟩
def F.HS_CTL.OFFLINE : Fld := ⟨2, 2, .wo, .const 0⟩
def F.HS_CTL.ONLINE : Fld := ⟨3, 3, .wo, .const 0⟩
def F.HS_CTL.all : List Fld := [F.HS_CTL.RETRAIN, F.HS_CTL.RECAL, F.HS_CTL.OFFLINE, F.HS_CTL.ONLINE]
def F.HS_META_ADDR.BLOCK : Fld := ⟨55, 12, .rw, .const 0⟩
def F.HS_META_ADDR.all : List Fld := [F.HS_META_ADDR.BLOCK]
def F.HS_HOLD_MAX.MAX_NS : Fld := ⟨31, 0, .rw, .const 0⟩
def F.HS_HOLD_MAX.all : List Fld := [F.HS_HOLD_MAX.MAX_NS]
def F.HS_META.RECORD : Fld := ⟨63, 0, .ro, .const 0⟩
def F.HS_META.all : List Fld := [F.HS_META.RECORD]
def F.DC_MAP.POPULATED : Fld := ⟨11, 0, .ro, .const 0⟩
def F.DC_MAP.RATE : Fld := ⟨23, 16, .ro, .const 0⟩
def F.DC_MAP.VISIBLE_GIB : Fld := ⟨47, 32, .ro, .const 0⟩
def F.DC_MAP.all : List Fld := [F.DC_MAP.POPULATED, F.DC_MAP.RATE, F.DC_MAP.VISIBLE_GIB]
def F.DC_STATUS.PRESENT : Fld := ⟨0, 0, .ro, .const 0⟩
def F.DC_STATUS.IN_SERVICE : Fld := ⟨1, 1, .ro, .const 0⟩
def F.DC_STATUS.SELF_REFRESH : Fld := ⟨2, 2, .ro, .const 0⟩
def F.DC_STATUS.TEMP_C : Fld := ⟨15, 8, .ro, .const 0⟩
def F.DC_STATUS.SIZE_GIB : Fld := ⟨25, 16, .ro, .const 0⟩
def F.DC_STATUS.all : List Fld := [F.DC_STATUS.PRESENT, F.DC_STATUS.IN_SERVICE, F.DC_STATUS.SELF_REFRESH, F.DC_STATUS.TEMP_C, F.DC_STATUS.SIZE_GIB]
def F.FAB_CFG.ENABLE : Fld := ⟨0, 0, .rw, .image⟩
def F.FAB_CFG.LASER_ON : Fld := ⟨1, 1, .rw, .image⟩
def F.FAB_CFG.PKG : Fld := ⟨14, 2, .rw, .image⟩
def F.FAB_CFG.VOTES : Fld := ⟨18, 15, .rw, .image⟩
def F.FAB_CFG.ANCHOR_ELIG : Fld := ⟨19, 19, .rw, .image⟩
def F.FAB_CFG.LOSS_SPANS : Fld := ⟨23, 20, .rw, .image⟩
def F.FAB_CFG.SHARED : Fld := ⟨39, 24, .rw, .image⟩
def F.FAB_CFG.WINDOW : Fld := ⟨51, 40, .rw, .image⟩
def F.FAB_CFG.all : List Fld := [F.FAB_CFG.ENABLE, F.FAB_CFG.LASER_ON, F.FAB_CFG.PKG, F.FAB_CFG.VOTES, F.FAB_CFG.ANCHOR_ELIG, F.FAB_CFG.LOSS_SPANS, F.FAB_CFG.SHARED, F.FAB_CFG.WINDOW]
def F.FAB_STATUS.STATE : Fld := ⟨2, 0, .ro, .const 0⟩
def F.FAB_STATUS.LEADER : Fld := ⟨3, 3, .ro, .const 0⟩
def F.FAB_STATUS.ANCHOR : Fld := ⟨4, 4, .ro, .const 0⟩
def F.FAB_STATUS.FROZEN : Fld := ⟨5, 5, .ro, .const 0⟩
def F.FAB_STATUS.VOTE_TOTAL : Fld := ⟨15, 6, .ro, .const 0⟩
def F.FAB_STATUS.LEADER_PKG : Fld := ⟨28, 16, .ro, .const 0⟩
def F.FAB_STATUS.VIEW : Fld := ⟨63, 32, .ro, .const 0⟩
def F.FAB_STATUS.all : List Fld := [F.FAB_STATUS.STATE, F.FAB_STATUS.LEADER, F.FAB_STATUS.ANCHOR, F.FAB_STATUS.FROZEN, F.FAB_STATUS.VOTE_TOTAL, F.FAB_STATUS.LEADER_PKG, F.FAB_STATUS.VIEW]
def F.FAB_CTL.LEAVE : Fld := ⟨0, 0, .wo, .const 0⟩
def F.FAB_CTL.ADMIT : Fld := ⟨1, 1, .wo, .const 0⟩
def F.FAB_CTL.THAW : Fld := ⟨2, 2, .wo, .const 0⟩
def F.FAB_CTL.DRIFT : Fld := ⟨3, 3, .wo, .const 0⟩
def F.FAB_CTL.FULL : Fld := ⟨4, 4, .wo, .const 0⟩
def F.FAB_CTL.PACE_SEND : Fld := ⟨5, 5, .wo, .const 0⟩
def F.FAB_CTL.ADMIT_PKG : Fld := ⟨18, 6, .wo, .const 0⟩
def F.FAB_CTL.ADMIT_ALL : Fld := ⟨19, 19, .wo, .const 0⟩
def F.FAB_CTL.PACE_PART : Fld := ⟨23, 20, .wo, .const 0⟩
def F.FAB_CTL.all : List Fld := [F.FAB_CTL.LEAVE, F.FAB_CTL.ADMIT, F.FAB_CTL.THAW, F.FAB_CTL.DRIFT, F.FAB_CTL.FULL, F.FAB_CTL.PACE_SEND, F.FAB_CTL.ADMIT_PKG, F.FAB_CTL.ADMIT_ALL, F.FAB_CTL.PACE_PART]
def F.FAB_AT.VALUE : Fld := ⟨63, 0, .rw, .const 0⟩
def F.FAB_AT.all : List Fld := [F.FAB_AT.VALUE]
def F.FAB_PENDING.COUNT : Fld := ⟨13, 0, .ro, .const 0⟩
def F.FAB_PENDING.FIRST : Fld := ⟨26, 14, .ro, .const 0⟩
def F.FAB_PENDING.all : List Fld := [F.FAB_PENDING.COUNT, F.FAB_PENDING.FIRST]
def F.FAB_PORT.STATE : Fld := ⟨1, 0, .ro, .const 0⟩
def F.FAB_PORT.LANES : Fld := ⟨5, 2, .ro, .const 0⟩
def F.FAB_PORT.VERSION : Fld := ⟨13, 6, .ro, .const 0⟩
def F.FAB_PORT.LINK_ERR : Fld := ⟨14, 14, .w1c, .const 0⟩
def F.FAB_PORT.DELAY : Fld := ⟨31, 16, .ro, .const 0⟩
def F.FAB_PORT.all : List Fld := [F.FAB_PORT.STATE, F.FAB_PORT.LANES, F.FAB_PORT.VERSION, F.FAB_PORT.LINK_ERR, F.FAB_PORT.DELAY]
def F.FAB_PACE.EN : Fld := ⟨0, 0, .rw, .const 0⟩
def F.FAB_PACE.AUTO : Fld := ⟨1, 1, .rw, .const 0⟩
def F.FAB_PACE.LEADER_PKG : Fld := ⟨14, 2, .rw, .const 0⟩
def F.FAB_PACE.HEAD_Q : Fld := ⟨28, 15, .rw, .const 0⟩
def F.FAB_PACE.STRETCH : Fld := ⟨44, 29, .rw, .const 0⟩
def F.FAB_PACE.LAG_THRESH : Fld := ⟨52, 45, .rw, .const 0⟩
def F.FAB_PACE.WINDOW : Fld := ⟨60, 53, .rw, .const 0⟩
def F.FAB_PACE.all : List Fld := [F.FAB_PACE.EN, F.FAB_PACE.AUTO, F.FAB_PACE.LEADER_PKG, F.FAB_PACE.HEAD_Q, F.FAB_PACE.STRETCH, F.FAB_PACE.LAG_THRESH, F.FAB_PACE.WINDOW]
def F.FAB_PACE_BASE.VALUE : Fld := ⟨63, 0, .ro, .const 0⟩
def F.FAB_PACE_BASE.all : List Fld := [F.FAB_PACE_BASE.VALUE]
def F.FAB_PACE_OFFSET.VALUE : Fld := ⟨63, 0, .ro, .const 0⟩
def F.FAB_PACE_OFFSET.all : List Fld := [F.FAB_PACE_OFFSET.VALUE]
def F.FAB_PACE_LAG.LAG_NS : Fld := ⟨31, 0, .ro, .const 0⟩
def F.FAB_PACE_LAG.LAG_PKG : Fld := ⟨44, 32, .ro, .const 0⟩
def F.FAB_PACE_LAG.all : List Fld := [F.FAB_PACE_LAG.LAG_NS, F.FAB_PACE_LAG.LAG_PKG]
def F.FAB_MEMBER.VALUE : Fld := ⟨63, 0, .ro, .const 0⟩
def F.FAB_MEMBER.all : List Fld := [F.FAB_MEMBER.VALUE]
def F.FAB_DEAD.VALUE : Fld := ⟨63, 0, .ro, .const 0⟩
def F.FAB_DEAD.all : List Fld := [F.FAB_DEAD.VALUE]
def F.HL_STATUS.LINK_UP : Fld := ⟨0, 0, .ro, .const 0⟩
def F.HL_STATUS.WIDTH : Fld := ⟨5, 1, .ro, .const 0⟩
def F.HL_STATUS.RATE : Fld := ⟨8, 6, .ro, .const 0⟩
def F.HL_STATUS.MEM_EN : Fld := ⟨9, 9, .ro, .const 0⟩
def F.HL_STATUS.CACHE_EN : Fld := ⟨10, 10, .ro, .const 0⟩
def F.HL_STATUS.IDE_ON : Fld := ⟨11, 11, .ro, .const 0⟩
def F.HL_STATUS.BIND : Fld := ⟨13, 12, .ro, .const 0⟩
def F.HL_STATUS.HOST_LOST : Fld := ⟨14, 14, .w1c, .const 0⟩
def F.HL_STATUS.all : List Fld := [F.HL_STATUS.LINK_UP, F.HL_STATUS.WIDTH, F.HL_STATUS.RATE, F.HL_STATUS.MEM_EN, F.HL_STATUS.CACHE_EN, F.HL_STATUS.IDE_ON, F.HL_STATUS.BIND, F.HL_STATUS.HOST_LOST]
def F.HL_CFG.BI_TIMEOUT_US : Fld := ⟨15, 0, .rw, .image⟩
def F.HL_CFG.all : List Fld := [F.HL_CFG.BI_TIMEOUT_US]
def F.HL_WAKE_BUDGET.BUDGET_US : Fld := ⟨31, 0, .rw, .const 0⟩
def F.HL_WAKE_BUDGET.all : List Fld := [F.HL_WAKE_BUDGET.BUDGET_US]
def F.HL_WIN.BASE : Fld := ⟨23, 0, .rw, .const 0⟩
def F.HL_WIN.SIZE : Fld := ⟨40, 24, .rw, .const 0⟩
def F.HL_WIN.all : List Fld := [F.HL_WIN.BASE, F.HL_WIN.SIZE]
def F.HL_HDM_DPA.DPA_BASE : Fld := ⟨27, 0, .rw, .const 0⟩
def F.HL_HDM_DPA.all : List Fld := [F.HL_HDM_DPA.DPA_BASE]
def F.BIND_STATUS.STATE : Fld := ⟨1, 0, .ro, .const 0⟩
def F.BIND_STATUS.SOURCE : Fld := ⟨2, 2, .ro, .const 0⟩
def F.BIND_STATUS.PACK_LOADED : Fld := ⟨3, 3, .ro, .const 0⟩
def F.BIND_STATUS.FAIL : Fld := ⟨15, 8, .ro, .const 0⟩
def F.BIND_STATUS.IMG_SVN : Fld := ⟨22, 16, .ro, .const 0⟩
def F.BIND_STATUS.FUSED_SVN : Fld := ⟨29, 23, .ro, .fuse⟩
def F.BIND_STATUS.all : List Fld := [F.BIND_STATUS.STATE, F.BIND_STATUS.SOURCE, F.BIND_STATUS.PACK_LOADED, F.BIND_STATUS.FAIL, F.BIND_STATUS.IMG_SVN, F.BIND_STATUS.FUSED_SVN]
def F.BIND_VERSION.VERSION : Fld := ⟨63, 0, .ro, .const 0⟩
def F.BIND_VERSION.all : List Fld := [F.BIND_VERSION.VERSION]
def F.BIND_ENTRY.ENTRY : Fld := ⟨55, 2, .rw, .image⟩
def F.BIND_ENTRY.all : List Fld := [F.BIND_ENTRY.ENTRY]
def F.BIND_CORES_LO.START : Fld := ⟨63, 0, .rw, .image⟩
def F.BIND_CORES_LO.all : List Fld := [F.BIND_CORES_LO.START]
def F.BIND_CORES_HI.START : Fld := ⟨31, 0, .rw, .image⟩
def F.BIND_CORES_HI.all : List Fld := [F.BIND_CORES_HI.START]
def F.BIND_SRC.ADDR : Fld := ⟨55, 12, .rw, .const 0⟩
def F.BIND_SRC.all : List Fld := [F.BIND_SRC.ADDR]
def F.BIND_LEN.LEN : Fld := ⟨31, 0, .rw, .const 0⟩
def F.BIND_LEN.all : List Fld := [F.BIND_LEN.LEN]
def F.BIND_CTL.LOAD_PACK : Fld := ⟨0, 0, .wo, .const 0⟩
def F.BIND_CTL.WRITE_FLASH : Fld := ⟨1, 1, .wo, .const 0⟩
def F.BIND_CTL.CANCEL : Fld := ⟨2, 2, .wo, .const 0⟩
def F.BIND_CTL.all : List Fld := [F.BIND_CTL.LOAD_PACK, F.BIND_CTL.WRITE_FLASH, F.BIND_CTL.CANCEL]
def F.BIND_OP.BUSY : Fld := ⟨0, 0, .ro, .const 0⟩
def F.BIND_OP.DONE : Fld := ⟨1, 1, .w1c, .const 0⟩
def F.BIND_OP.FAILED : Fld := ⟨2, 2, .w1c, .const 0⟩
def F.BIND_OP.RESULT : Fld := ⟨15, 8, .ro, .const 0⟩
def F.BIND_OP.PROGRESS : Fld := ⟨47, 16, .ro, .const 0⟩
def F.BIND_OP.all : List Fld := [F.BIND_OP.BUSY, F.BIND_OP.DONE, F.BIND_OP.FAILED, F.BIND_OP.RESULT, F.BIND_OP.PROGRESS]
def F.SVC_CTL.RETRIM_SPAN : Fld := ⟨0, 0, .wo, .const 0⟩
def F.SVC_CTL.RETRIM_DROOP : Fld := ⟨1, 1, .wo, .const 0⟩
def F.SVC_CTL.RETRIM_SENSORS : Fld := ⟨2, 2, .wo, .const 0⟩
def F.SVC_CTL.OE_OFFLINE : Fld := ⟨3, 3, .wo, .const 0⟩
def F.SVC_CTL.OE_ONLINE : Fld := ⟨4, 4, .wo, .const 0⟩
def F.SVC_CTL.PORT_RECAL : Fld := ⟨5, 5, .wo, .const 0⟩
def F.SVC_CTL.UNIT : Fld := ⟨12, 8, .wo, .const 0⟩
def F.SVC_CTL.all : List Fld := [F.SVC_CTL.RETRIM_SPAN, F.SVC_CTL.RETRIM_DROOP, F.SVC_CTL.RETRIM_SENSORS, F.SVC_CTL.OE_OFFLINE, F.SVC_CTL.OE_ONLINE, F.SVC_CTL.PORT_RECAL, F.SVC_CTL.UNIT]
def F.SVC_STATUS.BUSY : Fld := ⟨0, 0, .ro, .const 0⟩
def F.SVC_STATUS.FAILED : Fld := ⟨1, 1, .w1c, .const 0⟩
def F.SVC_STATUS.all : List Fld := [F.SVC_STATUS.BUSY, F.SVC_STATUS.FAILED]
def F.BIND_DIGEST.DIGEST : Fld := ⟨63, 0, .ro, .const 0⟩
def F.BIND_DIGEST.all : List Fld := [F.BIND_DIGEST.DIGEST]
def F.SEG_RUN.MAJOR : Fld := ⟨15, 0, .ro, .const 0⟩
def F.SEG_RUN.MINOR : Fld := ⟨31, 16, .ro, .const 0⟩
def F.SEG_RUN.PATCH : Fld := ⟨47, 32, .ro, .const 0⟩
def F.SEG_RUN.FROM_PACK : Fld := ⟨48, 48, .ro, .const 0⟩
def F.SEG_RUN.PENDING : Fld := ⟨49, 49, .ro, .const 0⟩
def F.SEG_RUN.all : List Fld := [F.SEG_RUN.MAJOR, F.SEG_RUN.MINOR, F.SEG_RUN.PATCH, F.SEG_RUN.FROM_PACK, F.SEG_RUN.PENDING]
def F.SVC_MAP.WORD : Fld := ⟨63, 0, .ro, .const 0⟩
def F.SVC_MAP.all : List Fld := [F.SVC_MAP.WORD]
def F.COLO_STATUS.EPOCH : Fld := ⟨31, 0, .ro, .const 0⟩
def F.COLO_STATUS.FIRST : Fld := ⟨32, 32, .ro, .const 0⟩
def F.COLO_STATUS.LOST_HISTORY : Fld := ⟨33, 33, .ro, .const 0⟩
def F.COLO_STATUS.PREV_CLEAN : Fld := ⟨34, 34, .ro, .const 0⟩
def F.COLO_STATUS.WRITING : Fld := ⟨35, 35, .ro, .const 0⟩
def F.COLO_STATUS.WRITE_FAIL : Fld := ⟨36, 36, .w1c, .const 0⟩
def F.COLO_STATUS.all : List Fld := [F.COLO_STATUS.EPOCH, F.COLO_STATUS.FIRST, F.COLO_STATUS.LOST_HISTORY, F.COLO_STATUS.PREV_CLEAN, F.COLO_STATUS.WRITING, F.COLO_STATUS.WRITE_FAIL]
def F.COLO_CFG.PERIOD_MIN : Fld := ⟨7, 0, .rw, .image⟩
def F.COLO_CFG.all : List Fld := [F.COLO_CFG.PERIOD_MIN]
def F.COLO_CTL.CHECKPOINT : Fld := ⟨0, 0, .wo, .const 0⟩
def F.COLO_CTL.CLOSE : Fld := ⟨1, 1, .wo, .const 0⟩
def F.COLO_CTL.all : List Fld := [F.COLO_CTL.CHECKPOINT, F.COLO_CTL.CLOSE]
def F.COLO_WALL.UTC_S : Fld := ⟨63, 0, .rw, .const 0⟩
def F.COLO_WALL.all : List Fld := [F.COLO_WALL.UTC_S]
def F.COLO_LIFE_SAT.SAT : Fld := ⟨23, 0, .ro, .store⟩
def F.COLO_LIFE_SAT.all : List Fld := [F.COLO_LIFE_SAT.SAT]
def F.COLO_HIST_SEL.HIST : Fld := ⟨4, 0, .rw, .const 0⟩
def F.COLO_HIST_SEL.EPOCH_COPY : Fld := ⟨5, 5, .rw, .const 0⟩
def F.COLO_HIST_SEL.all : List Fld := [F.COLO_HIST_SEL.HIST, F.COLO_HIST_SEL.EPOCH_COPY]
def F.COLO_ARCH_SEL.INDEX : Fld := ⟨11, 0, .rw, .const 0⟩
def F.COLO_ARCH_SEL.COUNT : Fld := ⟨24, 12, .ro, .store⟩
def F.COLO_ARCH_SEL.all : List Fld := [F.COLO_ARCH_SEL.INDEX, F.COLO_ARCH_SEL.COUNT]
def F.COLO_LIFE.COUNT : Fld := ⟨63, 0, .ro, .store⟩
def F.COLO_LIFE.all : List Fld := [F.COLO_LIFE.COUNT]
def F.COLO_HIST_BIN.US : Fld := ⟨63, 0, .ro, .store⟩
def F.COLO_HIST_BIN.all : List Fld := [F.COLO_HIST_BIN.US]
def F.COLO_ARCH.WORD : Fld := ⟨63, 0, .ro, .store⟩
def F.COLO_ARCH.all : List Fld := [F.COLO_ARCH.WORD]
def F.C_CFG.PART : Fld := ⟨3, 0, .rw, .image⟩
def F.C_CFG.PF_EN : Fld := ⟨4, 4, .rw, .image⟩
def F.C_CFG.PF_DEPTH : Fld := ⟨8, 5, .rw, .image⟩
def F.C_CFG.all : List Fld := [F.C_CFG.PART, F.C_CFG.PF_EN, F.C_CFG.PF_DEPTH]
def F.C_STATUS.STATE : Fld := ⟨2, 0, .ro, .const 2⟩
def F.C_STATUS.POISONED : Fld := ⟨19, 4, .ro, .const 0⟩
def F.C_STATUS.all : List Fld := [F.C_STATUS.STATE, F.C_STATUS.POISONED]
def F.C_CLK.FMAX : Fld := ⟨7, 0, .ro, .fuse⟩
def F.C_CLK.CAP : Fld := ⟨15, 8, .rw, .const 0⟩
def F.C_CLK.CUR : Fld := ⟨23, 16, .ro, .const 0⟩
def F.C_CLK.all : List Fld := [F.C_CLK.FMAX, F.C_CLK.CAP, F.C_CLK.CUR]
def F.C_CTL.OFFLINE : Fld := ⟨0, 0, .wo, .const 0⟩
def F.C_CTL.ONLINE : Fld := ⟨1, 1, .wo, .const 0⟩
def F.C_CTL.all : List Fld := [F.C_CTL.OFFLINE, F.C_CTL.ONLINE]
def F.C_FENCE.LOST : Fld := ⟨0, 0, .w1c, .const 0⟩
def F.C_FENCE.FIRST_PKG : Fld := ⟨28, 16, .ro, .const 0⟩
def F.C_FENCE.LOST_FENCES : Fld := ⟨47, 32, .ro, .const 0⟩
def F.C_FENCE.all : List Fld := [F.C_FENCE.LOST, F.C_FENCE.FIRST_PKG, F.C_FENCE.LOST_FENCES]
def F.CX_CFG.ENABLE : Fld := ⟨0, 0, .rw, .const 0⟩
def F.CX_CFG.FENCE_STALL : Fld := ⟨1, 1, .rw, .const 0⟩
def F.CX_CFG.PRIO : Fld := ⟨3, 2, .rw, .const 0⟩
def F.CX_CFG.PART : Fld := ⟨7, 4, .rw, .const 0⟩
def F.CX_CFG.DB_Q : Fld := ⟨21, 8, .rw, .const 0⟩
def F.CX_CFG.DB_EN : Fld := ⟨22, 22, .rw, .const 0⟩
def F.CX_CFG.QSIZE_LOG2 : Fld := ⟨28, 24, .rw, .const 6⟩
def F.CX_CFG.START_SLOT : Fld := ⟨47, 32, .rw, .const 0⟩
def F.CX_CFG.all : List Fld := [F.CX_CFG.ENABLE, F.CX_CFG.FENCE_STALL, F.CX_CFG.PRIO, F.CX_CFG.PART, F.CX_CFG.DB_Q, F.CX_CFG.DB_EN, F.CX_CFG.QSIZE_LOG2, F.CX_CFG.START_SLOT]
def F.CX_ATP.PPN : Fld := ⟨43, 0, .rw, .const 0⟩
def F.CX_ATP.ASID : Fld := ⟨59, 44, .rw, .const 0⟩
def F.CX_ATP.MODE : Fld := ⟨63, 60, .rw, .const 0⟩
def F.CX_ATP.all : List Fld := [F.CX_ATP.PPN, F.CX_ATP.ASID, F.CX_ATP.MODE]
def F.CX_QBASE.BASE : Fld := ⟨56, 12, .rw, .const 0⟩
def F.CX_QBASE.all : List Fld := [F.CX_QBASE.BASE]
def F.CX_HEAD.HEAD : Fld := ⟨15, 0, .ro, .const 0⟩
def F.CX_HEAD.ISSUE : Fld := ⟨31, 16, .ro, .const 0⟩
def F.CX_HEAD.all : List Fld := [F.CX_HEAD.HEAD, F.CX_HEAD.ISSUE]
def F.CX_DOORBELL.RING : Fld := ⟨0, 0, .wo, .const 0⟩
def F.CX_DOORBELL.all : List Fld := [F.CX_DOORBELL.RING]
def F.CX_STATE.STATE : Fld := ⟨3, 0, .ro, .const 0⟩
def F.CX_STATE.INFLIGHT : Fld := ⟨7, 4, .ro, .const 0⟩
def F.CX_STATE.IN_GROUP : Fld := ⟨8, 8, .ro, .const 0⟩
def F.CX_STATE.all : List Fld := [F.CX_STATE.STATE, F.CX_STATE.INFLIGHT, F.CX_STATE.IN_GROUP]
def F.CX_CTL.RESUME : Fld := ⟨0, 0, .wo, .const 0⟩
def F.CX_CTL.SKIP : Fld := ⟨1, 1, .wo, .const 0⟩
def F.CX_CTL.DRAIN : Fld := ⟨2, 2, .wo, .const 0⟩
def F.CX_CTL.RESET : Fld := ⟨3, 3, .wo, .const 0⟩
def F.CX_CTL.all : List Fld := [F.CX_CTL.RESUME, F.CX_CTL.SKIP, F.CX_CTL.DRAIN, F.CX_CTL.RESET]
def F.CX_FAULT.STATUS : Fld := ⟨7, 0, .ro, .const 0⟩
def F.CX_FAULT.SLOT : Fld := ⟨23, 8, .ro, .const 0⟩
def F.CX_FAULT.KIND : Fld := ⟨25, 24, .ro, .const 0⟩
def F.CX_FAULT.UNIT : Fld := ⟨29, 26, .ro, .const 0⟩
def F.CX_FAULT.GROUP_ABANDONED : Fld := ⟨30, 30, .ro, .const 0⟩
def F.CX_FAULT.DONE : Fld := ⟨31, 31, .ro, .const 0⟩
def F.CX_FAULT.all : List Fld := [F.CX_FAULT.STATUS, F.CX_FAULT.SLOT, F.CX_FAULT.KIND, F.CX_FAULT.UNIT, F.CX_FAULT.GROUP_ABANDONED, F.CX_FAULT.DONE]
def F.CX_FAULT_ADDR.ADDR : Fld := ⟨63, 0, .ro, .const 0⟩
def F.CX_FAULT_ADDR.all : List Fld := [F.CX_FAULT_ADDR.ADDR]
def F.CX_FENCE.LOST : Fld := ⟨0, 0, .w1c, .const 0⟩
def F.CX_FENCE.FIRST_PKG : Fld := ⟨28, 16, .ro, .const 0⟩
def F.CX_FENCE.LOST_FENCES : Fld := ⟨47, 32, .ro, .const 0⟩
def F.CX_FENCE.all : List Fld := [F.CX_FENCE.LOST, F.CX_FENCE.FIRST_PKG, F.CX_FENCE.LOST_FENCES]
def F.CX_VE_LOOP.LOOP : Fld := ⟨31, 0, .rw, .const 0⟩
def F.CX_VE_LOOP.all : List Fld := [F.CX_VE_LOOP.LOOP]
def F.CX_VE_FLAGS.FLAGS : Fld := ⟨4, 0, .w1c, .const 0⟩
def F.CX_VE_FLAGS.all : List Fld := [F.CX_VE_FLAGS.FLAGS]
def F.CX_ENERGY.VALUE : Fld := ⟨63, 0, .ro, .const 0⟩
def F.CX_ENERGY.all : List Fld := [F.CX_ENERGY.VALUE]
def F.CX_ENERGY_SAT.SAT : Fld := ⟨0, 0, .w1c, .const 0⟩
def F.CX_ENERGY_SAT.all : List Fld := [F.CX_ENERGY_SAT.SAT]
def F.MA_STATUS.ACTIVE : Fld := ⟨0, 0, .ro, .const 0⟩
def F.MA_STATUS.P0_VALID : Fld := ⟨1, 1, .ro, .const 0⟩
def F.MA_STATUS.P1_VALID : Fld := ⟨2, 2, .ro, .const 0⟩
def F.MA_STATUS.GROUP_OPEN : Fld := ⟨3, 3, .ro, .const 0⟩
def F.MA_STATUS.OWNER : Fld := ⟨10, 4, .ro, .const 0⟩
def F.MA_STATUS.SLOT_BASE : Fld := ⟨15, 11, .ro, .const 0⟩
def F.MA_STATUS.SLOT_COUNT : Fld := ⟨21, 16, .ro, .const 0⟩
def F.MA_STATUS.RIME : Fld := ⟨22, 22, .ro, .const 0⟩
def F.MA_STATUS.IN_SERVICE : Fld := ⟨23, 23, .ro, .const 1⟩
def F.MA_STATUS.SFMT : Fld := ⟨27, 24, .ro, .const 0⟩
def F.MA_STATUS.SLOT_LOCKED : Fld := ⟨63, 32, .ro, .const 0⟩
def F.MA_STATUS.all : List Fld := [F.MA_STATUS.ACTIVE, F.MA_STATUS.P0_VALID, F.MA_STATUS.P1_VALID, F.MA_STATUS.GROUP_OPEN, F.MA_STATUS.OWNER, F.MA_STATUS.SLOT_BASE, F.MA_STATUS.SLOT_COUNT, F.MA_STATUS.RIME, F.MA_STATUS.IN_SERVICE, F.MA_STATUS.SFMT, F.MA_STATUS.SLOT_LOCKED]
def F.MA_CFG.CRC_CHECK : Fld := ⟨0, 0, .rw, .image⟩
def F.MA_CFG.RIME_ALLOW : Fld := ⟨1, 1, .rw, .image⟩
def F.MA_CFG.all : List Fld := [F.MA_CFG.CRC_CHECK, F.MA_CFG.RIME_ALLOW]
def F.MA_FAULT.CODE : Fld := ⟨7, 0, .ro, .const 0⟩
def F.MA_FAULT.CX : Fld := ⟨14, 8, .ro, .const 0⟩
def F.MA_FAULT.SLOT : Fld := ⟨30, 15, .ro, .const 0⟩
def F.MA_FAULT.VALID : Fld := ⟨31, 31, .w1c, .const 0⟩
def F.MA_FAULT.MORE : Fld := ⟨32, 32, .w1c, .const 0⟩
def F.MA_FAULT.all : List Fld := [F.MA_FAULT.CODE, F.MA_FAULT.CX, F.MA_FAULT.SLOT, F.MA_FAULT.VALID, F.MA_FAULT.MORE]
def F.MA_FAULT_ADDR.ADDR : Fld := ⟨63, 0, .ro, .const 0⟩
def F.MA_FAULT_ADDR.all : List Fld := [F.MA_FAULT_ADDR.ADDR]
def F.MA_CTL.OFFLINE : Fld := ⟨0, 0, .wo, .const 0⟩
def F.MA_CTL.ONLINE : Fld := ⟨1, 1, .wo, .const 0⟩
def F.MA_CTL.all : List Fld := [F.MA_CTL.OFFLINE, F.MA_CTL.ONLINE]
def F.VE_STATUS.BUSY : Fld := ⟨0, 0, .ro, .const 0⟩
def F.VE_STATUS.IN_SERVICE : Fld := ⟨1, 1, .ro, .const 1⟩
def F.VE_STATUS.CX : Fld := ⟨8, 2, .ro, .const 0⟩
def F.VE_STATUS.OPCODE : Fld := ⟨16, 9, .ro, .const 0⟩
def F.VE_STATUS.all : List Fld := [F.VE_STATUS.BUSY, F.VE_STATUS.IN_SERVICE, F.VE_STATUS.CX, F.VE_STATUS.OPCODE]
def F.VE_FAULT.CODE : Fld := ⟨7, 0, .ro, .const 0⟩
def F.VE_FAULT.CX : Fld := ⟨14, 8, .ro, .const 0⟩
def F.VE_FAULT.SLOT : Fld := ⟨30, 15, .ro, .const 0⟩
def F.VE_FAULT.VALID : Fld := ⟨31, 31, .w1c, .const 0⟩
def F.VE_FAULT.MORE : Fld := ⟨32, 32, .w1c, .const 0⟩
def F.VE_FAULT.all : List Fld := [F.VE_FAULT.CODE, F.VE_FAULT.CX, F.VE_FAULT.SLOT, F.VE_FAULT.VALID, F.VE_FAULT.MORE]
def F.VE_FAULT_ADDR.ADDR : Fld := ⟨63, 0, .ro, .const 0⟩
def F.VE_FAULT_ADDR.all : List Fld := [F.VE_FAULT_ADDR.ADDR]
def F.VE_CTL.OFFLINE : Fld := ⟨0, 0, .wo, .const 0⟩
def F.VE_CTL.ONLINE : Fld := ⟨1, 1, .wo, .const 0⟩
def F.VE_CTL.all : List Fld := [F.VE_CTL.OFFLINE, F.VE_CTL.ONLINE]
def F.SPN_STATUS.COUNT : Fld := ⟨4, 0, .ro, .const 0⟩
def F.SPN_STATUS.HEAD : Fld := ⟨8, 5, .ro, .const 0⟩
def F.SPN_STATUS.FULL : Fld := ⟨9, 9, .ro, .const 0⟩
def F.SPN_STATUS.all : List Fld := [F.SPN_STATUS.COUNT, F.SPN_STATUS.HEAD, F.SPN_STATUS.FULL]
def F.SPN_ENTRY.ENTRY : Fld := ⟨47, 0, .ro, .const 0⟩
def F.SPN_ENTRY.VALID : Fld := ⟨63, 63, .ro, .const 0⟩
def F.SPN_ENTRY.all : List Fld := [F.SPN_ENTRY.ENTRY, F.SPN_ENTRY.VALID]
def F.SCR_CFG.SCRUB : Fld := ⟨0, 0, .rw, .image⟩
def F.SCR_CFG.all : List Fld := [F.SCR_CFG.SCRUB]
def F.SCR_WIN.BASE_MIB : Fld := ⟨8, 0, .rw, .image⟩
def F.SCR_WIN.SIZE_MIB : Fld := ⟨24, 16, .rw, .image⟩
def F.SCR_WIN.all : List Fld := [F.SCR_WIN.BASE_MIB, F.SCR_WIN.SIZE_MIB]
def F.DM_STATUS.BUSY : Fld := ⟨0, 0, .ro, .const 0⟩
def F.DM_STATUS.IN_SERVICE : Fld := ⟨1, 1, .ro, .const 1⟩
def F.DM_STATUS.CX : Fld := ⟨8, 2, .ro, .const 0⟩
def F.DM_STATUS.OPCODE : Fld := ⟨16, 9, .ro, .const 0⟩
def F.DM_STATUS.OUT_RD : Fld := ⟨28, 17, .ro, .const 0⟩
def F.DM_STATUS.WAIT_RCPT : Fld := ⟨29, 29, .ro, .const 0⟩
def F.DM_STATUS.all : List Fld := [F.DM_STATUS.BUSY, F.DM_STATUS.IN_SERVICE, F.DM_STATUS.CX, F.DM_STATUS.OPCODE, F.DM_STATUS.OUT_RD, F.DM_STATUS.WAIT_RCPT]
def F.DM_FAULT.CODE : Fld := ⟨7, 0, .ro, .const 0⟩
def F.DM_FAULT.CX : Fld := ⟨14, 8, .ro, .const 0⟩
def F.DM_FAULT.SLOT : Fld := ⟨30, 15, .ro, .const 0⟩
def F.DM_FAULT.VALID : Fld := ⟨31, 31, .w1c, .const 0⟩
def F.DM_FAULT.MORE : Fld := ⟨32, 32, .w1c, .const 0⟩
def F.DM_FAULT.all : List Fld := [F.DM_FAULT.CODE, F.DM_FAULT.CX, F.DM_FAULT.SLOT, F.DM_FAULT.VALID, F.DM_FAULT.MORE]
def F.DM_FAULT_ADDR.ADDR : Fld := ⟨63, 0, .ro, .const 0⟩
def F.DM_FAULT_ADDR.all : List Fld := [F.DM_FAULT_ADDR.ADDR]
def F.DM_CTL.OFFLINE : Fld := ⟨0, 0, .wo, .const 0⟩
def F.DM_CTL.ONLINE : Fld := ⟨1, 1, .wo, .const 0⟩
def F.DM_CTL.all : List Fld := [F.DM_CTL.OFFLINE, F.DM_CTL.ONLINE]
def F.PWR_D_CLK.FMAX : Fld := ⟨7, 0, .ro, .fuse⟩
def F.PWR_D_CLK.CAP : Fld := ⟨15, 8, .rw, .const 0⟩
def F.PWR_D_CLK.GRANT : Fld := ⟨23, 16, .ro, .const 0⟩
def F.PWR_D_CLK.CUR : Fld := ⟨31, 24, .ro, .const 0⟩
def F.PWR_D_CLK.STRETCH : Fld := ⟨33, 32, .ro, .const 0⟩
def F.PWR_D_CLK.PENDING : Fld := ⟨34, 34, .ro, .const 0⟩
def F.PWR_D_CLK.all : List Fld := [F.PWR_D_CLK.FMAX, F.PWR_D_CLK.CAP, F.PWR_D_CLK.GRANT, F.PWR_D_CLK.CUR, F.PWR_D_CLK.STRETCH, F.PWR_D_CLK.PENDING]
def F.PWR_D_CFG.RIME_MIN_W : Fld := ⟨9, 0, .rw, .image⟩
def F.PWR_D_CFG.DROOP_OFS : Fld := ⟨17, 10, .rw, .image⟩
def F.PWR_D_CFG.all : List Fld := [F.PWR_D_CFG.RIME_MIN_W, F.PWR_D_CFG.DROOP_OFS]
def F.PWR_D_TEMP.MAX_C : Fld := ⟨7, 0, .ro, .const 0⟩
def F.PWR_D_TEMP.PRED_C : Fld := ⟨15, 8, .ro, .const 0⟩
def F.PWR_D_TEMP.all : List Fld := [F.PWR_D_TEMP.MAX_C, F.PWR_D_TEMP.PRED_C]
def F.RC_CFG.ENABLE : Fld := ⟨0, 0, .rw, .const 0⟩
def F.RC_CFG.PF_EN : Fld := ⟨1, 1, .rw, .image⟩
def F.RC_CFG.PF_DEPTH : Fld := ⟨5, 2, .rw, .image⟩
def F.RC_CFG.STREAM_THRESH : Fld := ⟨13, 6, .rw, .image⟩
def F.RC_CFG.ACQ_ALL_MIB : Fld := ⟨21, 14, .rw, .image⟩
def F.RC_CFG.all : List Fld := [F.RC_CFG.ENABLE, F.RC_CFG.PF_EN, F.RC_CFG.PF_DEPTH, F.RC_CFG.STREAM_THRESH, F.RC_CFG.ACQ_ALL_MIB]
def F.RC_CTL.INVALIDATE : Fld := ⟨0, 0, .wo, .const 0⟩
def F.RC_CTL.all : List Fld := [F.RC_CTL.INVALIDATE]
def F.RC_STATUS.INVALIDATED : Fld := ⟨0, 0, .ro, .const 0⟩
def F.RC_STATUS.BUSY : Fld := ⟨1, 1, .ro, .const 0⟩
def F.RC_STATUS.ENABLED : Fld := ⟨2, 2, .ro, .const 0⟩
def F.RC_STATUS.REFUSED : Fld := ⟨3, 3, .w1c, .const 0⟩
def F.RC_STATUS.all : List Fld := [F.RC_STATUS.INVALIDATED, F.RC_STATUS.BUSY, F.RC_STATUS.ENABLED, F.RC_STATUS.REFUSED]
def F.ML_STATUS.STATE : Fld := ⟨1, 0, .ro, .const 2⟩
def F.ML_STATUS.WIDTH : Fld := ⟨5, 2, .ro, .const 0⟩
def F.ML_STATUS.LINK_ERR : Fld := ⟨6, 6, .w1c, .const 0⟩
def F.ML_STATUS.all : List Fld := [F.ML_STATUS.STATE, F.ML_STATUS.WIDTH, F.ML_STATUS.LINK_ERR]

/-- The registers of HUB, piece 0. -/
def hubRegs0 : List RegEntry := [
  ⟨0x0, 0x8, 1, 0x8, 1, F.PKG_ID.all⟩,
  ⟨0x8, 0x8, 1, 0x8, 1, F.PKG_UNITS.all⟩,
  ⟨0x10, 0x8, 1, 0x8, 1, F.PKG_SERIAL.all⟩,
  ⟨0x18, 0x8, 1, 0x8, 1, F.PKG_FUSED.all⟩,
  ⟨0x10000, 0x8, 1, 0x8, 1, F.SPAN_CFG.all⟩,
  ⟨0x10008, 0x8, 1, 0x8, 1, F.SPAN_LEN.all⟩,
  ⟨0x10010, 0x8, 1, 0x8, 1, F.SPAN_NOW.all⟩,
  ⟨0x10018, 0x8, 1, 0x8, 1, F.SPAN_STATUS.all⟩,
  ⟨0x10020, 0x8, 1, 0x8, 1, F.SPAN_LIMITS.all⟩,
  ⟨0x10028, 0x8, 1, 0x8, 1, F.SPAN_MEAS.all⟩,
  ⟨0x10030, 0x8, 1, 0x8, 1, F.SPAN_CAP_REF.all⟩,
  ⟨0x10038, 0x8, 1, 0x8, 1, F.SPAN_CAP_MAINS.all⟩,
  ⟨0x10040, 0x8, 1, 0x8, 1, F.SPAN_LATE.all⟩,
  ⟨0x10048, 0x8, 1, 0x8, 1, F.SPAN_LATE_MAX.all⟩,
  ⟨0x10050, 0x8, 1, 0x8, 1, F.SPAN_CTL.all⟩,
  ⟨0x20000, 0x8, 1, 0x8, 1, F.FIRN_CFG.all⟩,
  ⟨0x20008, 0x8, 1, 0x8, 1, F.FIRN_DDR.all⟩,
  ⟨0x20010, 0x8, 1, 0x8, 1, F.FIRN_CTL.all⟩,
  ⟨0x20018, 0x8, 1, 0x8, 1, F.FIRN_STATUS.all⟩,
  ⟨0x20020, 0x8, 1, 0x8, 1, F.CTR.all⟩]
/-- The registers of HUB, piece 1. -/
def hubRegs1 : List RegEntry := [
  ⟨0x20028, 0x8, 1, 0x8, 1, F.CTR.all⟩,
  ⟨0x20030, 0x8, 1, 0x8, 1, F.CTR.all⟩,
  ⟨0x20038, 0x8, 1, 0x8, 1, F.CTR.all⟩,
  ⟨0x20040, 0x8, 1, 0x8, 1, F.CTR.all⟩,
  ⟨0x20400, 0x8, 256, 0x8, 1, F.FIRN_EPOCH.all⟩,
  ⟨0x20C00, 0x8, 21, 0x8, 1, F.FIRN_LOG.all⟩,
  ⟨0x30000, 0x10, 4, 0x8, 1, F.HUB_CX_LOST_LO.all⟩,
  ⟨0x30008, 0x10, 4, 0x8, 1, F.HUB_CX_LOST_HI.all⟩,
  ⟨0x30100, 0x20, 4, 0x8, 1, F.HUB_CD_CTL.all⟩,
  ⟨0x30108, 0x20, 4, 0x8, 1, F.HUB_CD_STATUS.all⟩,
  ⟨0x30110, 0x20, 4, 0x8, 1, F.CTR.all⟩,
  ⟨0x30118, 0x20, 4, 0x8, 1, F.CTR.all⟩,
  ⟨0x30180, 0x8, 1, 0x8, 1, F.CTR.all⟩,
  ⟨0x30188, 0x8, 1, 0x8, 1, F.CTR.all⟩,
  ⟨0x40000, 0x8, 1, 0x8, 1, F.FQ_CFG.all⟩,
  ⟨0x40008, 0x8, 1, 0x8, 1, F.FQ_STATUS.all⟩,
  ⟨0x40010, 0x8, 1, 0x8, 1, F.CTR.all⟩,
  ⟨0x40018, 0x8, 1, 0x8, 1, F.FQ_POP.all⟩,
  ⟨0x40020, 0x8, 1, 0x8, 1, F.FQ_NEXT_SEQ.all⟩,
  ⟨0x40080, 0x8, 1, 0x8, 1, F.CNT_SNAP_CTL.all⟩]
/-- The registers of HUB, piece 2. -/
def hubRegs2 : List RegEntry := [
  ⟨0x40088, 0x8, 1, 0x8, 1, F.CNT_SNAP_AT.all⟩,
  ⟨0x40090, 0x8, 1, 0x8, 1, F.CNT_SNAP_SEL.all⟩,
  ⟨0x40098, 0x8, 1, 0x8, 1, F.CNT_SNAP_VAL.all⟩,
  ⟨0x40040, 0x8, 8, 0x8, 1, F.FQ_HEAD.all⟩,
  ⟨0x50000, 0x8, 1, 0x8, 1, F.SYNC_STATUS.all⟩,
  ⟨0x50020, 0x8, 1, 0x8, 1, F.CTR.all⟩,
  ⟨0x50028, 0x8, 1, 0x8, 1, F.CTR.all⟩,
  ⟨0x50030, 0x8, 1, 0x8, 1, F.CTR.all⟩,
  ⟨0x50038, 0x8, 1, 0x8, 1, F.CTR.all⟩,
  ⟨0x50100, 0x8, 1, 0x8, 1, F.SYNC_WAITER_SEL.all⟩,
  ⟨0x50108, 0x8, 1, 0x8, 1, F.SYNC_WAITER.all⟩,
  ⟨0x50110, 0x8, 1, 0x8, 1, F.SYNC_WAITER_ARG.all⟩,
  ⟨0x50040, 0x8, 16, 0x8, 1, F.SYNC_RANGE.all⟩,
  ⟨0x60000, 0x8, 1, 0x8, 1, F.PWR_CFG.all⟩,
  ⟨0x60008, 0x8, 1, 0x8, 1, F.PWR_LIMIT.all⟩,
  ⟨0x60010, 0x8, 1, 0x8, 1, F.PWR_STATUS.all⟩,
  ⟨0x60018, 0x8, 1, 0x8, 1, F.PWR_CTL.all⟩,
  ⟨0x60020, 0x8, 1, 0x8, 1, F.LS_CFG.all⟩,
  ⟨0x60028, 0x8, 1, 0x8, 1, F.LS_BAND.all⟩,
  ⟨0x60030, 0x8, 1, 0x8, 1, F.LS_STATUS.all⟩]
/-- The registers of HUB, piece 3. -/
def hubRegs3 : List RegEntry := [
  ⟨0x60038, 0x8, 1, 0x8, 1, F.LS_MAINS.all⟩,
  ⟨0x60040, 0x8, 1, 0x8, 1, F.PWR_REST_CFG.all⟩,
  ⟨0x60048, 0x8, 1, 0x8, 1, F.PWR_REST_AT.all⟩,
  ⟨0x60050, 0x8, 1, 0x8, 1, F.PWR_REST_UNTIL.all⟩,
  ⟨0x60058, 0x8, 1, 0x8, 1, F.PWR_REST_CTL.all⟩,
  ⟨0x60060, 0x8, 1, 0x8, 1, F.PWR_REST_STATUS.all⟩,
  ⟨0x60080, 0x8, 1, 0x8, 1, F.PWR_ENERGY_PKG.all⟩,
  ⟨0x60088, 0x8, 1, 0x8, 1, F.PWR_ENERGY_UNATTR.all⟩,
  ⟨0x60090, 0x8, 1, 0x8, 1, F.PWR_ENERGY_SHAPING.all⟩,
  ⟨0x60180, 0x8, 1, 0x8, 1, F.PWR_ENERGY_SAT.all⟩,
  ⟨0x60100, 0x8, 16, 0x8, 1, F.PWR_ENERGY_PT.all⟩,
  ⟨0x60400, 0x8, 256, 0x8, 1, F.PWR_PHASE.all⟩,
  ⟨0x60200, 0x20, 7, 0x8, 1, F.CTR.all⟩,
  ⟨0x60208, 0x20, 7, 0x8, 1, F.TR_LAST_AT.all⟩,
  ⟨0x60210, 0x20, 7, 0x8, 1, F.TR_LAST.all⟩,
  ⟨0x70000, 0x8, 1, 0x8, 1, F.XL_INV_CTL.all⟩,
  ⟨0x70008, 0x8, 1, 0x8, 1, F.XL_INV_VA.all⟩,
  ⟨0x70010, 0x8, 1, 0x8, 1, F.XL_INV_LEN.all⟩,
  ⟨0x70018, 0x8, 1, 0x8, 1, F.XL_INV_STATUS.all⟩,
  ⟨0x80000, 0x8, 5376, 0x8, 1, F.XL_PMA.all⟩]
/-- The registers of HUB, piece 4. -/
def hubRegs4 : List RegEntry := [
  ⟨0x90000, 0x8, 4096, 0x8, 1, F.FAB_EXPORT.all⟩,
  ⟨0x98000, 0x8, 1, 0x8, 1, F.CTR.all⟩,
  ⟨0xA0000, 0x100, 20, 0x8, 1, F.HS_STATUS.all⟩,
  ⟨0xA0008, 0x100, 20, 0x8, 1, F.HS_CFG.all⟩,
  ⟨0xA0010, 0x100, 20, 0x8, 1, F.HS_CTL.all⟩,
  ⟨0xA0018, 0x100, 20, 0x8, 1, F.HS_META_ADDR.all⟩,
  ⟨0xA00A0, 0x100, 20, 0x8, 1, F.CTR.all⟩,
  ⟨0xA00A8, 0x100, 20, 0x8, 1, F.CTR.all⟩,
  ⟨0xA00B0, 0x100, 20, 0x8, 1, F.CTR.all⟩,
  ⟨0xA00B8, 0x100, 20, 0x8, 1, F.CTR.all⟩,
  ⟨0xA00C0, 0x100, 20, 0x8, 1, F.HS_HOLD_MAX.all⟩,
  ⟨0xA0020, 0x100, 20, 0x8, 16, F.HS_META.all⟩,
  ⟨0xB0000, 0x8, 1, 0x8, 1, F.DC_MAP.all⟩,
  ⟨0xB0008, 0x8, 1, 0x8, 1, F.CTR.all⟩,
  ⟨0xB0100, 0x40, 12, 0x8, 1, F.DC_STATUS.all⟩,
  ⟨0xB0108, 0x40, 12, 0x8, 1, F.CTR.all⟩,
  ⟨0xB0110, 0x40, 12, 0x8, 1, F.CTR.all⟩,
  ⟨0xC0000, 0x8, 1, 0x8, 1, F.FAB_CFG.all⟩,
  ⟨0xC0008, 0x8, 1, 0x8, 1, F.FAB_STATUS.all⟩,
  ⟨0xC0010, 0x8, 1, 0x8, 1, F.FAB_CTL.all⟩]
/-- The registers of HUB, piece 5. -/
def hubRegs5 : List RegEntry := [
  ⟨0xC0018, 0x8, 1, 0x8, 1, F.FAB_AT.all⟩,
  ⟨0xC0020, 0x8, 1, 0x8, 1, F.FAB_PENDING.all⟩,
  ⟨0xC0080, 0x8, 1, 0x8, 1, F.CTR.all⟩,
  ⟨0xC0088, 0x8, 1, 0x8, 1, F.CTR.all⟩,
  ⟨0xC0090, 0x8, 1, 0x8, 1, F.CTR.all⟩,
  ⟨0xC0098, 0x8, 1, 0x8, 1, F.CTR.all⟩,
  ⟨0xC00A0, 0x8, 1, 0x8, 1, F.CTR.all⟩,
  ⟨0xC00A8, 0x8, 1, 0x8, 1, F.CTR.all⟩,
  ⟨0xC00B0, 0x8, 1, 0x8, 1, F.CTR.all⟩,
  ⟨0xC0100, 0x8, 16, 0x8, 1, F.FAB_PORT.all⟩,
  ⟨0xC0200, 0x20, 16, 0x8, 1, F.FAB_PACE.all⟩,
  ⟨0xC0208, 0x20, 16, 0x8, 1, F.FAB_PACE_BASE.all⟩,
  ⟨0xC0210, 0x20, 16, 0x8, 1, F.FAB_PACE_OFFSET.all⟩,
  ⟨0xC0218, 0x20, 16, 0x8, 1, F.FAB_PACE_LAG.all⟩,
  ⟨0xC1000, 0x8, 128, 0x8, 1, F.FAB_MEMBER.all⟩,
  ⟨0xC1400, 0x8, 128, 0x8, 1, F.FAB_DEAD.all⟩,
  ⟨0xD0000, 0x8, 1, 0x8, 1, F.HL_STATUS.all⟩,
  ⟨0xD0008, 0x8, 1, 0x8, 1, F.HL_CFG.all⟩,
  ⟨0xD0010, 0x8, 1, 0x8, 1, F.HL_WAKE_BUDGET.all⟩,
  ⟨0xD0018, 0x8, 1, 0x8, 1, F.HL_WIN.all⟩]
/-- The registers of HUB, piece 6. -/
def hubRegs6 : List RegEntry := [
  ⟨0xD0080, 0x8, 1, 0x8, 1, F.CTR.all⟩,
  ⟨0xD0088, 0x8, 1, 0x8, 1, F.CTR.all⟩,
  ⟨0xD0090, 0x8, 1, 0x8, 1, F.CTR.all⟩,
  ⟨0xD0098, 0x8, 1, 0x8, 1, F.CTR.all⟩,
  ⟨0xD0040, 0x8, 4, 0x8, 1, F.HL_HDM_DPA.all⟩,
  ⟨0xE0000, 0x8, 1, 0x8, 1, F.BIND_STATUS.all⟩,
  ⟨0xE0008, 0x8, 1, 0x8, 1, F.BIND_VERSION.all⟩,
  ⟨0xE0010, 0x8, 1, 0x8, 1, F.BIND_ENTRY.all⟩,
  ⟨0xE0018, 0x8, 1, 0x8, 1, F.BIND_CORES_LO.all⟩,
  ⟨0xE0020, 0x8, 1, 0x8, 1, F.BIND_CORES_HI.all⟩,
  ⟨0xE0028, 0x8, 1, 0x8, 1, F.BIND_SRC.all⟩,
  ⟨0xE0030, 0x8, 1, 0x8, 1, F.BIND_LEN.all⟩,
  ⟨0xE0038, 0x8, 1, 0x8, 1, F.BIND_CTL.all⟩,
  ⟨0xE0040, 0x8, 1, 0x8, 1, F.BIND_OP.all⟩,
  ⟨0xE0060, 0x8, 1, 0x8, 1, F.SVC_CTL.all⟩,
  ⟨0xE0068, 0x8, 1, 0x8, 1, F.SVC_STATUS.all⟩,
  ⟨0xE0080, 0x8, 8, 0x8, 1, F.BIND_DIGEST.all⟩,
  ⟨0xE0100, 0x8, 41, 0x8, 1, F.SEG_RUN.all⟩,
  ⟨0xE0300, 0x8, 8, 0x8, 1, F.SVC_MAP.all⟩,
  ⟨0xF0000, 0x8, 1, 0x8, 1, F.COLO_STATUS.all⟩]
/-- The registers of HUB, piece 7. -/
def hubRegs7 : List RegEntry := [
  ⟨0xF0008, 0x8, 1, 0x8, 1, F.COLO_CFG.all⟩,
  ⟨0xF0010, 0x8, 1, 0x8, 1, F.COLO_CTL.all⟩,
  ⟨0xF0018, 0x8, 1, 0x8, 1, F.COLO_WALL.all⟩,
  ⟨0xF0020, 0x8, 1, 0x8, 1, F.COLO_LIFE_SAT.all⟩,
  ⟨0xF0200, 0x8, 1, 0x8, 1, F.COLO_HIST_SEL.all⟩,
  ⟨0xF0300, 0x8, 1, 0x8, 1, F.COLO_ARCH_SEL.all⟩,
  ⟨0xF0100, 0x8, 24, 0x8, 1, F.COLO_LIFE.all⟩,
  ⟨0xF0240, 0x8, 16, 0x8, 1, F.COLO_HIST_BIN.all⟩,
  ⟨0xF0340, 0x8, 8, 0x8, 1, F.COLO_ARCH.all⟩,
  ⟨0x100000, 0x1000, 96, 0x8, 1, F.C_CFG.all⟩,
  ⟨0x100008, 0x1000, 96, 0x8, 1, F.C_STATUS.all⟩,
  ⟨0x100010, 0x1000, 96, 0x8, 1, F.C_CLK.all⟩,
  ⟨0x100018, 0x1000, 96, 0x8, 1, F.C_CTL.all⟩,
  ⟨0x100040, 0x1000, 96, 0x8, 1, F.C_FENCE.all⟩]
/-- The registers of HUB (R283). -/
def hubRegs : List RegEntry := hubRegs0 ++ hubRegs1 ++ hubRegs2 ++ hubRegs3 ++ hubRegs4 ++ hubRegs5 ++ hubRegs6 ++ hubRegs7
/-- The registers of a compute die, at die offsets, piece 0. -/
def dieRegs0 : List RegEntry := [
  ⟨0x0, 0x80, 128, 0x8, 1, F.CX_CFG.all⟩,
  ⟨0x8, 0x80, 128, 0x8, 1, F.CX_ATP.all⟩,
  ⟨0x10, 0x80, 128, 0x8, 1, F.CX_QBASE.all⟩,
  ⟨0x18, 0x80, 128, 0x8, 1, F.CX_HEAD.all⟩,
  ⟨0x20, 0x80, 128, 0x8, 1, F.CX_DOORBELL.all⟩,
  ⟨0x28, 0x80, 128, 0x8, 1, F.CX_STATE.all⟩,
  ⟨0x30, 0x80, 128, 0x8, 1, F.CX_CTL.all⟩,
  ⟨0x38, 0x80, 128, 0x8, 1, F.CX_FAULT.all⟩,
  ⟨0x40, 0x80, 128, 0x8, 1, F.CX_FAULT_ADDR.all⟩,
  ⟨0x48, 0x80, 128, 0x8, 1, F.CX_FENCE.all⟩,
  ⟨0x50, 0x80, 128, 0x8, 1, F.CX_VE_LOOP.all⟩,
  ⟨0x58, 0x80, 128, 0x8, 1, F.CX_VE_FLAGS.all⟩,
  ⟨0x60, 0x80, 128, 0x8, 1, F.CX_ENERGY.all⟩,
  ⟨0x68, 0x80, 128, 0x8, 1, F.CX_ENERGY_SAT.all⟩,
  ⟨0x4000, 0x8, 1, 0x8, 1, F.CTR.all⟩,
  ⟨0x10000, 0x100, 8, 0x8, 1, F.MA_STATUS.all⟩,
  ⟨0x10008, 0x100, 8, 0x8, 1, F.MA_CFG.all⟩,
  ⟨0x10010, 0x100, 8, 0x8, 1, F.MA_FAULT.all⟩,
  ⟨0x10018, 0x100, 8, 0x8, 1, F.MA_FAULT_ADDR.all⟩,
  ⟨0x10020, 0x100, 8, 0x8, 1, F.MA_CTL.all⟩]
/-- The registers of a compute die, at die offsets, piece 1. -/
def dieRegs1 : List RegEntry := [
  ⟨0x10028, 0x100, 8, 0x8, 1, F.CTR.all⟩,
  ⟨0x10030, 0x100, 8, 0x8, 1, F.CTR.all⟩,
  ⟨0x10038, 0x100, 8, 0x8, 1, F.CTR.all⟩,
  ⟨0x10040, 0x100, 8, 0x8, 1, F.CTR.all⟩,
  ⟨0x10048, 0x100, 8, 0x8, 1, F.CTR.all⟩,
  ⟨0x20000, 0x100, 8, 0x8, 1, F.VE_STATUS.all⟩,
  ⟨0x20008, 0x100, 8, 0x8, 1, F.VE_FAULT.all⟩,
  ⟨0x20010, 0x100, 8, 0x8, 1, F.VE_FAULT_ADDR.all⟩,
  ⟨0x20018, 0x100, 8, 0x8, 1, F.VE_CTL.all⟩,
  ⟨0x20020, 0x100, 8, 0x8, 1, F.CTR.all⟩,
  ⟨0x20028, 0x100, 8, 0x8, 1, F.CTR.all⟩,
  ⟨0x20030, 0x100, 8, 0x8, 1, F.CTR.all⟩,
  ⟨0x20038, 0x100, 8, 0x8, 1, F.CTR.all⟩,
  ⟨0x20040, 0x100, 8, 0x8, 1, F.CTR.all⟩,
  ⟨0x30000, 0x100, 8, 0x8, 1, F.SPN_STATUS.all⟩,
  ⟨0x30008, 0x100, 8, 0x8, 1, F.CTR.all⟩,
  ⟨0x30010, 0x100, 8, 0x8, 1, F.CTR.all⟩,
  ⟨0x30040, 0x100, 8, 0x8, 16, F.SPN_ENTRY.all⟩,
  ⟨0x40000, 0x8, 1, 0x8, 1, F.SCR_CFG.all⟩,
  ⟨0x40008, 0x8, 1, 0x8, 1, F.CTR.all⟩]
/-- The registers of a compute die, at die offsets, piece 2. -/
def dieRegs2 : List RegEntry := [
  ⟨0x40010, 0x8, 1, 0x8, 1, F.CTR.all⟩,
  ⟨0x40018, 0x8, 1, 0x8, 1, F.CTR.all⟩,
  ⟨0x40040, 0x8, 16, 0x8, 1, F.SCR_WIN.all⟩,
  ⟨0x50000, 0x100, 16, 0x8, 1, F.DM_STATUS.all⟩,
  ⟨0x50008, 0x100, 16, 0x8, 1, F.DM_FAULT.all⟩,
  ⟨0x50010, 0x100, 16, 0x8, 1, F.DM_FAULT_ADDR.all⟩,
  ⟨0x50018, 0x100, 16, 0x8, 1, F.DM_CTL.all⟩,
  ⟨0x50020, 0x100, 16, 0x8, 1, F.CTR.all⟩,
  ⟨0x50028, 0x100, 16, 0x8, 1, F.CTR.all⟩,
  ⟨0x50030, 0x100, 16, 0x8, 1, F.CTR.all⟩,
  ⟨0x50038, 0x100, 16, 0x8, 1, F.CTR.all⟩,
  ⟨0x50040, 0x100, 16, 0x8, 1, F.CTR.all⟩,
  ⟨0x50048, 0x100, 16, 0x8, 1, F.CTR.all⟩,
  ⟨0x60000, 0x8, 1, 0x8, 1, F.CTR.all⟩,
  ⟨0x60008, 0x8, 1, 0x8, 1, F.CTR.all⟩,
  ⟨0x60010, 0x8, 1, 0x8, 1, F.CTR.all⟩,
  ⟨0x70000, 0x8, 1, 0x8, 1, F.PWR_D_CLK.all⟩,
  ⟨0x70008, 0x8, 1, 0x8, 1, F.PWR_D_CFG.all⟩,
  ⟨0x70010, 0x8, 1, 0x8, 1, F.PWR_D_TEMP.all⟩,
  ⟨0x70018, 0x8, 1, 0x8, 1, F.CTR.all⟩]
/-- The registers of a compute die, at die offsets, piece 3. -/
def dieRegs3 : List RegEntry := [
  ⟨0x70020, 0x8, 1, 0x8, 1, F.CTR.all⟩,
  ⟨0x70028, 0x8, 1, 0x8, 1, F.CTR.all⟩,
  ⟨0x70030, 0x8, 1, 0x8, 1, F.CTR.all⟩,
  ⟨0x88000, 0x8, 1, 0x8, 1, F.RC_CFG.all⟩,
  ⟨0x88008, 0x8, 1, 0x8, 1, F.RC_CTL.all⟩,
  ⟨0x88010, 0x8, 1, 0x8, 1, F.RC_STATUS.all⟩,
  ⟨0x88020, 0x8, 1, 0x8, 1, F.CTR.all⟩,
  ⟨0x88028, 0x8, 1, 0x8, 1, F.CTR.all⟩,
  ⟨0x88030, 0x8, 1, 0x8, 1, F.CTR.all⟩,
  ⟨0x88038, 0x8, 1, 0x8, 1, F.CTR.all⟩,
  ⟨0x88040, 0x8, 1, 0x8, 1, F.CTR.all⟩,
  ⟨0x88080, 0x8, 5, 0x8, 1, F.ML_STATUS.all⟩,
  ⟨0x880C0, 0x8, 5, 0x8, 1, F.CTR.all⟩]
/-- The registers of a compute die, at die offsets (R283). -/
def dieRegs : List RegEntry := dieRegs0 ++ dieRegs1 ++ dieRegs2 ++ dieRegs3

/-- Does the entry hold a register at offset `o`? -/
def RegEntry.holds (e : RegEntry) (o : Nat) : Bool :=
  decide (e.base ≤ o) &&
    (let r := o - e.base
     if e.count2 = 1 then r % e.stride == 0 && decide (r / e.stride < e.count)
     else decide (r / e.stride < e.count) && r % e.stride % e.stride2 == 0 && decide (r % e.stride / e.stride2 < e.count2))

/-- The fields of the register at MMIO offset `o`, or none where no register lies (R282, R283). `FAB_EXPORT_4095` is RO
(R304) and the attribute entries 64s + 60 to 64s + 63 are RSV (R303). -/
def regFields (o : Nat) : Option (List Fld) :=
  if 0x1000000 ≤ o then
    if o < 0x5000000 then (dieRegs.find? (·.holds (o % 0x1000000))).map (·.fields) else none
  else if o = 0x97FF8 then some (F.FAB_EXPORT.all.map fun f => { f with ty := .ro })
  else if decide (0x80000 ≤ o) && decide (o < 0x80000 + 8 * 1280) && decide (60 ≤ (o - 0x80000) / 8 % 64) then
    (if o % 8 = 0 then some [] else none)
  else (hubRegs.find? (·.holds o)).map (·.fields)

/-- The value a field takes at reset; image and store fields read zero until they are loaded (R9, R528), fuse fields hold
their fuses (R21). -/
def Fld.resetValue (f : Fld) (o : Nat) : Nat :=
  match f.rst with
  | .const n => n
  | .image => 0
  | .store => 0
  | .fuse => bitsOf (Config.fuse o f.lo).toNat (f.hi - f.lo) 0

/-- The word of a register at reset. -/
def resetWord (o : Nat) : Word :=
  if o = 0x97FF8 then 0x007E000000000003#64
  else match regFields o with
    | none => 0
    | some fs => fs.foldl (fun w f => if f.rst = .const 0 ∨ f.rst = .image ∨ f.rst = .store then w else w.put f.hi f.lo (f.resetValue o)) 0

/-- The whole value a write forms before it is judged (R10): the written half from the write; in the other half the bits
of RW fields as they are and zero for the rest. -/
def formWrite (fs : List Fld) (old : Word) (w : RegW) : Word :=
  match w.half with
  | .full => w.value
  | .lo => fs.foldl (fun v f => if f.ty = .rw then v ||| (old &&& Word.mask f.hi f.lo &&& 0xFFFFFFFF00000000#64) else v)
      (w.value &&& 0xFFFFFFFF#64)
  | .hi => fs.foldl (fun v f => if f.ty = .rw then v ||| (old &&& Word.mask f.hi f.lo &&& 0xFFFFFFFF#64) else v)
      (w.value &&& 0xFFFFFFFF00000000#64)

/-- What a write does to one field by its type (R6); `v` is the formed value. -/
def Fld.write (f : Fld) (old v : Word) : Word :=
  let m := Word.mask f.hi f.lo
  match f.ty with
  | .rw => (old &&& ~~~m) ||| (v &&& m)
  | .w1c => old &&& ~~~(v &&& m)
  | .w1s => old ||| (v &&& m)
  | .ro => old
  | .wo => old

/-- What a formed write does to a register by its fields' types alone (R6). -/
def writeFields (fs : List Fld) (old v : Word) : Word := fs.foldl (fun w f => f.write w v) old

end Sys2Proof.Machine
end

