-- ==== Sys2Proof/Machine/State.lean ====
section
/-!
DEFINITION. The state of the KGS-7420 block: every register (by MMIO offset, with its Reset column as the default),
every memory, queue, log, table, mode and pin the spec gives the package, and the model's own fields (the queue of
waiting commands, the moment, the count of free values drawn, the latch of the last read). Plain data throughout. What
a table does not list has its reset value.
-/

namespace Sys2Proof.Machine

/-! ## Faults and the colophon (19_faults.md) -/

/-- A fault record in the layout of R506, before it is packed; `raisedAt` is the moment it was raised, for R515. -/
structure FaultRec where
  status : Nat := 0
  sev : Nat := 0
  detail : Nat := 0
  kind : Nat := 0
  die : Nat := 4
  index : Nat := 0
  stamp : Word := 0
  addr : Nat := 0
  phys : Bool := false
  hasAddr : Bool := false
  part : Nat := 0
  cx : Nat := 0
  cxDie : Nat := 0
  slot : Nat := 0
  pkg : Nat := 0
  hasPkg : Bool := false
  arg0 : Word := 0
  arg1 : Word := 0
  seq : Nat := 0
  raisedAt : Nat := 0
deriving DecidableEq, Repr

/-- The fault path: records raised and not yet at the queue, the queue oldest first (R509), the next SEQ (R510), the
counters latched by CNT_SNAP_CTL.TAKE (R517), the records offered to the host by event log and the logs
that have filled (R465). -/
structure FaultSt where
  raised : List FaultRec := []
  queue : List FaultRec := []
  nextSeq : Nat := 0
  snap : List (Nat × Word) := []
  snapTaken : Bool := false
  hostLogs : List (Nat × FaultRec) := []
  hostOvf : List Nat := []
deriving DecidableEq, Repr

/-- An epoch record of the colophon (R521). -/
structure EpochRec where
  number : Nat := 0
  powerOnS : Nat := 0
  version : Word := 0
  wall : Word := 0
  clean : Bool := false
  first : Bool := false
  lostHistory : Bool := false
deriving DecidableEq, Repr

/-- A checkpoint of the colophon (R522). -/
structure Checkpoint where
  life : List (Nat × Word) := []
  sat : Word := 0
  histLife : List (Nat × Nat) := []
  histEpoch : List (Nat × Nat) := []
  epoch : EpochRec := {}
  closing : Bool := false
deriving DecidableEq, Repr

/-- The colophon: its serial NOR store (both banks' newest checkpoints, which bank is written next and its slot, epoch
records, archive and per-epoch DEFERRED records), and the copy the running part counts in (R518-R522). -/
structure ColoSt where
  bank0 : Option Checkpoint := none
  bank1 : Option Checkpoint := none
  nextBank : Nat := 0
  slot0 : Nat := 0
  slot1 : Nat := 0
  storeBad : Bool := false
  epochs : List EpochRec := []
  archive : List FaultRec := []
  deferred : List (Nat × FaultRec) := []
  loaded : Bool := false
  histLife : List (Nat × Nat) := []
  histEpoch : List (Nat × Nat) := []
  epoch : EpochRec := {}
  lastAt : Nat := 0
  powerAt : Nat := 0
  urgentAt : Option Nat := none
  lastUrgentAt : Option Nat := none
  closed : Bool := false
deriving DecidableEq, Repr

/-! ## Span time (02_span_time.md) -/

/-- The span-time unit beside its registers: the value `base` it had at moment `baseAt`, the estimated span length in
1/16 ns (R578), the slew in progress (R38), and what its reference logic remembers (R34-R37). -/
structure SpanSt where
  base : Word := 0
  baseAt : Nat := 0
  len : Nat := 16000000
  slewUp : Bool := false
  slewLeft : Nat := 0
  refAcceptedAt : Option Nat := none
  lastRefAt : Option Nat := none
  lastRefCount : Option Nat := none
  measured : Bool := false
  everMeasured : Bool := false
  lockCount : Nat := 0
  holdBase : Word := 0
  lastBoundary : Nat := 0
  refCount : Option Nat := none
  pulseAt : Option Nat := none
  wordSeen : Bool := false
  runLast : Option Nat := none
  runLen : Nat := 0
  adopted : Bool := false
  mainsLevel : Level := .low
  mainsEdgeAt : Option (Nat × Word) := none
  mainsLastAt : Option Nat := none
  exportNoted : List Nat := []
  ceNoted : List Nat := []
deriving DecidableEq, Repr

/-! ## Writes, memory metadata, coherence (09, 11, 12) -/

/-- A source of writes (R340). -/
inductive Src where
  | cx (d : Die) (c : Cx)
  | core (n : Fin 96)
  | dctl (d : Die) (k : Fin 2)
  | host
  | remote (p : Pkg)
deriving DecidableEq, Repr

/-- A destination of writes (R340). -/
inductive Dst where
  | cd (d : Die)
  | hub
  | pkg (p : Pkg)
deriving DecidableEq, Repr

/-- Where a write stands (R341): sent, or accepted with its ACK not yet back. -/
inductive WStage where
  | sent | accepted
deriving DecidableEq, Repr

/-- A write of one aligned 64-byte sector in flight (R341, R344). `addr` is the sector's physical address (stack-linear,
DDR5, scratchpad, host window or fabric window); `mask` marks its bytes; `firn` its epoch and instance; `cmd` the engine
command, and `whole` that the command may cover the block wholly (R261); `crc` a CRC write of the sector's block;
`combine` a core store under early acknowledgement or from a combining buffer; `heldAt` the moment a full firn log began
to hold it (R243), `pseq` the pair sequence number of a write through the fabric (R424), `elem` the element of its command
it carries, `xl` the ASID and virtual address it was translated from (R295). -/
structure Wr where
  id : Nat
  src : Src
  dst : Dst
  addr : Nat
  mask : Nat := 0
  data : List Byte := []
  stage : WStage := .sent
  firn : Option (Nat × Nat) := none
  cmd : Nat := 0
  whole : Bool := false
  crc : Option Nat := none
  poison : Bool := false
  heldAt : Option Nat := none
  pseq : Option Nat := none
  elem : Nat := 0
  xl : Option (Nat × Nat) := none
deriving DecidableEq, Repr

/-- The metadata record of a 4 KiB block (R260): full bits by word, poison bits by sector (the firn bits are those of the
logs), CRC, GEN, state and writer; `begun` holds the commands whose first write to the block has been seen (R261). -/
structure BlockMeta where
  fe : List Nat := []
  poison : List Nat := []
  crc : Nat := 0
  gen : Nat := 0
  unchecked : Bool := true
  isOpen : Bool := false
  writer : Nat := 0
  begun : List Nat := []
deriving DecidableEq, Repr

/-- A directory state of a line (R312); B is the presence of a transaction on the line. -/
inductive DirSt where
  | sharers (l : List CAgent)
  | owner (a : CAgent)
deriving DecidableEq, Repr

/-- A line held by CORES or HOST: its bytes, whether they are dirty, and the core whose store dirtied it last (R411). -/
structure CLine where
  data : List Byte := []
  dirty : Bool := false
  owner : Option Nat := none
deriving DecidableEq, Repr

/-- A request a home takes (R314). -/
inductive ReqKind where
  | rdShared | rdOwn | rdBulk | rdOnce | wb | wr
deriving DecidableEq, Repr

/-- A transaction holding a line (state B) and a tracker (R318, R319): what it waits for. -/
structure Txn where
  id : Nat
  home : Home
  line : Nat
  req : Requester
  kind : ReqKind
  write : Nat := 0
  waitInv : List CAgent := []
  waitData : Option CAgent := none
  begun : Bool := false
  done : Bool := false
deriving DecidableEq, Repr

/-- A message on its way to an agent (R314). -/
inductive MsgKind where
  | snpInv | snpShare | snpGet | data | absent | retry | grant | invAck | snpData
deriving DecidableEq, Repr

/-- A message in flight: to whom, about which line, of which transaction or write, with its sector's bytes, when it was sent. -/
structure Msg where
  id : Nat
  kind : MsgKind
  agent : Requester
  home : Home
  line : Nat
  txn : Nat
  data : List Byte := []
  poison : Bool := false
  at_ : Nat := 0
deriving DecidableEq, Repr

/-- A retried request an agent keeps, in the order it first sent it, and whether a tracker is reserved for it (R319). -/
structure Retried where
  home : Home
  req : Requester
  kind : ReqKind
  line : Nat
  write : Nat := 0
  granted : Bool := false
deriving DecidableEq, Repr

/-- A sector of a compute die's remote cache (R323): its set and way follow from its line address and the tag list. -/
structure RcSector where
  data : List Byte := []
  bulk : Bool := true
deriving DecidableEq, Repr

/-- A tag of a remote cache: its 256 B address, way, age and sectors (R323, R324). -/
structure RcTag where
  addr : Nat
  way : Nat
  age : Nat
  sectors : List (Nat × RcSector) := []
deriving DecidableEq, Repr

/-- A compute die's remote cache beside its registers, with the step of an invalidation under way (R327). -/
structure RcSt where
  tags : List RcTag := []
  invalidating : Bool := false
deriving DecidableEq, Repr

/-- A package link's direction or a memory link (R306-R310): the next SEQ expected, how often the flit with it has failed in
a row, whether the link is retraining, its lane groups in service, and for a memory link how many groups carry data
toward the stack. -/
structure LinkSt where
  expect : Nat := 0
  fails : Nat := 0
  awaiting : Bool := false
  retraining : Bool := false
  groups : Nat := 0
  toStack : Nat := 0
  fromStack : Nat := 0
deriving DecidableEq, Repr

/-- The memory system: contents, block records, directory, caches of CORES and HOST, messages, writes in flight. -/
structure MemSt where
  cells : List Host.Cell := []
  blocks : List (Nat × BlockMeta) := []
  dir : List (Nat × DirSt) := []
  coreLines : List (Nat × CLine) := []
  hostLines : List (Nat × CLine) := []
  wrs : List Wr := []
  txns : List Txn := []
  msgs : List Msg := []
  retried : List Retried := []
  nextId : Nat := 1
  rc : List (Nat × RcSt) := []
  scrPoison : List Nat := []
  links : List (Nat × LinkSt) := []
  drainAt : List (Nat × Nat) := []
  stackDrainAt : List (Nat × Nat) := []
deriving DecidableEq, Repr

/-! ## Firn (08_firn.md) -/

/-- A firn log entry (R229): log 0-19 of a stack or 20 of HUB's region, the sector, its instance, mask and bytes. -/
structure FirnEnt where
  log : Nat
  sector : Nat
  epoch : Nat
  inst : Nat
  mask : Nat := 0
  data : List Byte := []
  settled : Bool := false
  poison : Bool := false
deriving DecidableEq, Repr

/-- The provisional tensor-block state of an instance for a block (R238). -/
structure FirnBlock where
  block : Nat
  epoch : Nat
  inst : Nat
  unchecked : Bool := true
  isOpen : Bool := false
  writer : Nat := 0
  crc : Nat := 0
  wrote : Bool := false
  sealed : Bool := false
  resealGen : Option Nat := none
  begun : List Nat := []
deriving DecidableEq, Repr

/-- Who waits for an epoch: a SETTLE or MELT command of a context (R226). -/
structure EpochWait where
  epoch : Nat
  die : Die
  cx : Cx
  slot : Nat
  isMelt : Bool
deriving DecidableEq, Repr

/-- Firn beside its registers: full instance counts, log entries, provisional block states, waiting settles and melts, and
the writes a settle waits for (R235 step 2). -/
structure FirnSt where
  insts : List (Nat × Nat) := []
  entries : List FirnEnt := []
  blocks : List FirnBlock := []
  waits : List EpochWait := []
  acting : List EpochWait := []
deriving DecidableEq, Repr

/-! ## Quires (13_quires.md) -/

/-- A quire record (R369) less its waiter list, which is that of the pool. -/
structure QuireRec where
  value : Nat := 0
  mode : Nat := 0
  head : Bool := false
  flags : Nat := 0
  src : Word := 0
  stamp : Word := 0
  participants : Nat := 0
  arrN1 : Nat := 0
  mirrorBase : Nat := 0
  mirrorCount : Nat := 0
  deadline : Word := 0
  dlStep : Nat := 0
  lateNoted : Bool := false
deriving DecidableEq, Repr

/-- What a waiter record waits for (R379, R395): a gate with its quire, condition and value, or a full/empty word. -/
inductive WaitKind where
  | gate (q : Nat) (cond : Nat) (val : Nat)
  | fe (pa : Nat) (op : FeOp)
deriving DecidableEq, Repr

/-- A waiter record in use; the list of `SyncSt.waiters` is in the order the records were placed. -/
structure Waiter where
  index : Nat
  die : Die
  cx : Cx
  slot : Nat
  kind : WaitKind
  granted : Bool := false
deriving DecidableEq, Repr

/-- A signal on its way to the sync unit or to another package (R317, R343): its source, quire, operation and argument,
the slot of the signalling command, and the source's writes that must be accepted first. -/
structure QSig where
  id : Nat
  src : Src
  pkg : Option Pkg := none
  q : Nat
  op : QOp
  arg : Nat
  slot : Nat := 0
  part : Nat := 0
  before : List Nat := []
  pseq : Option Nat := none
  mirror : Bool := false
deriving DecidableEq, Repr

/-- The sync unit: quires that differ from reset, waiter records, signals and mirror updates in
flight. -/
structure SyncSt where
  quires : List (Nat × QuireRec) := []
  waiters : List Waiter := []
  qsigs : List QSig := []
deriving DecidableEq, Repr

/-! ## Contexts (03_launch.md) -/

/-- A command of eight words: four of the slot and four of its extension (R64-R66). -/
structure Cmd where
  w0 : Word := 0
  w1 : Word := 0
  w2 : Word := 0
  w3 : Word := 0
  x0 : Word := 0
  x1 : Word := 0
  x2 : Word := 0
  x3 : Word := 0
deriving DecidableEq, Repr

/-- An entry of a spine (R162), at its place; `inst` is the instance of its epoch (R225). -/
structure SpnEnt where
  place : Nat := 0
  array : Nat := 0
  slot : Nat := 0
  marker : Bool := false
  sat : Bool := false
  poison : Bool := false
  accInt : Bool := false
  epochEn : Bool := false
  epoch : Nat := 0
  inst : Nat := 0
  part : Nat := 0
  owner : Nat := 0
  tag : Nat := 0
deriving DecidableEq, Repr

/-- A run of bytes a DMA command moves: its source, or a FILL's pattern, its destination, its length; `srcSp` and `dstSp` mark
window offsets (R199), `ckv` that its source is verified (R213). -/
structure DRun where
  src : Nat
  srcSp : Bool := false
  fill : Option Word := none
  dst : Nat
  dstSp : Bool := false
  len : Nat
  ckv : Bool := false
deriving DecidableEq, Repr

/-- What a DMA command has still to do, in order (R202-R204): check a whole run, move a piece of one, pass over a skipped index,
read descriptor `i`, go on at index `n` of descriptor `i`. -/
inductive DItem where
  | check (r : DRun) (overlap : Bool)
  | move (r : DRun)
  | skip
  | desc (i : Nat)
  | idx (i n : Nat)
deriving DecidableEq, Repr

/-- Where an issued command stands: issued to its engine and not begun, running, its work ended and its completion held
(for receipts or a run-ahead gate), completed and not retired, stopped on a fault. -/
inductive Phase where
  | issued | running | worked | complete | faulted
deriving DecidableEq, Repr

/-- An issued, unretired command of a context: its place in the queue, its words, its number as a writer (R260), its epoch's
instance, where it stands and how many elements it has finished (R80), what it faulted with, whether its gate is satisfied
(R241), the moment order of its issue, since when its run-ahead gate is polled (R72), the blocks it has read with the GEN and UNCHECKED it found (R262), the virtual address
a held access waits for (R269), the spine entry it took (R183), whether its signal has left, the element count it took at
issue (R170), the writes and signals a fence waits for (R351, R352), how far its completion actions are (R201), the
runs it has written of the blocks it covers wholly (R184, R211) and read for verification, by virtual address, the blocks it
has verified (R129, R213), and a DMA command's plan with the runs it writes and verifies. -/
structure Flight where
  slot : Nat
  ext : Bool
  cmd : Cmd
  id : Nat
  inst : Option (Nat × Nat) := none
  phase : Phase := .issued
  prog : Nat := 0
  fault : Nat := 0
  faultAddr : Nat := 0
  code : Nat := 0
  gateOk : Bool := true
  lostWrite : Bool := false
  inGroup : Bool := false
  order : Nat := 0
  polledAt : Option Nat := none
  seen : List (Nat × Nat × Bool) := []
  held : Option Nat := none
  tile : Option SpnEnt := none
  sigSent : Bool := false
  loop : Nat := 0
  waitIds : List Nat := []
  stage : Nat := 0
  out : List (Nat × List Byte) := []
  got : List (Nat × List Byte) := []
  checked : List Nat := []
  plan : List DItem := []
  dsts : List (Nat × Nat) := []
  srcs : List (Nat × Nat) := []
deriving DecidableEq, Repr

/-- A context beside its registers: the command it has read at ISSUE, its issued unretired commands, the array of the group
its queue is in, whether its gate is satisfied and by a granted unit, whether it polls its gate, a stop that waits for the
next command (R85, R375), a DRAIN that waits, the moment of a RESET that waits, whether SKIP is retiring an abandoned group, how
many slots ISSUE stands before the first slot never issued (R580),
whether its command waits only for its engine (R81) and has reserved it (R42), its loss latch (R353), since when the
command waits, and how many commands of higher priority its engine has started meanwhile (R81). -/
structure Ctx where
  cur : Option Cmd := none
  flights : List Flight := []
  groupUnit : Option Nat := none
  gateHeld : Bool := false
  consumeHeld : Bool := false
  polled : Bool := false
  stallNext : Option (Nat × Nat) := none
  drainLater : Bool := false
  resetting : Option Nat := none
  skipGroup : Bool := false
  back : Nat := 0
  inArb : Bool := false
  reserved : Bool := false
  loss : Option Pkg := none
  waitSince : Nat := 0
  passedOver : Nat := 0
deriving DecidableEq, Repr

/-! ## Cores (14_cores.md, 12_ordering.md) -/

/-- A sector of a core's combining buffer (R357): its bytes, which are written, and when the last store came. -/
structure Comb where
  sector : Nat
  mask : Nat
  data : List Byte
  lastAt : Nat
deriving DecidableEq, Repr

/-- A store in a core's store buffer: address and bytes. -/
structure SbEntry where
  addr : Nat
  data : List Byte
deriving DecidableEq, Repr

/-- A core beside its registers: its integer registers (x0 reads zero), store buffer, combining buffer, early-acknowledged
stores held by the L3, reservation (R402), loss latch (R353), interrupt 23 (R359), a waiting fence, k.dfence or wrs, and the cause and
address of its last access exception. -/
structure CoreSt where
  x : List (Nat × Word) := []
  sb : List SbEntry := []
  comb : List Comb := []
  early : List SbEntry := []
  resv : Option Nat := none
  loss : Option Pkg := none
  irq23 : Bool := false
  waitFence : Bool := false
  waitDfence : Option Nat := none
  waitWrs : Option (Bool × Nat) := none
  lastFault : Nat := 0
  faultAddr : Nat := 0
deriving DecidableEq, Repr

/-! ## The host-memory agent and the fabric's data as the engines wait for them -/

/-- A line of the host window HUB's host-memory agent holds (R462): its bytes, whether the host answered with an error. -/
structure HostLine where
  data : List Byte := []
  error : Bool := false
  poison : Bool := false
deriving DecidableEq, Repr

/-! ## Arrays and their spines (04_arrays.md, 06_spine_vector.md) -/

/-- A stationary plane (R98, R100): element codes of its loaded rows (rows not listed are zero), E8M0 scales of each row, the
context that loaded it, whether its source was poisoned (R265), whether the open group loaded it (R123), and whether the array has
taken a row since it was loaded (R126). -/
structure Plane where
  valid : Bool := false
  fmt : Nat := 0
  rows : List (List Nat) := []
  scales : List (List Nat) := []
  tag : Nat := 0
  poison : Bool := false
  inGroup : Bool := false
  taken : Bool := false
deriving DecidableEq, Repr

/-- The open accumulation group of an array (R110, R123). -/
structure Group where
  cx : Nat
  base : Nat
  count : Nat
  accInt : Bool
  part : Nat
  epoch : Option (Nat × Nat)
  activeAtOpen : Nat
deriving DecidableEq, Repr

/-- An array with its spine: planes, accumulator entries that a stream has updated (by 4,096 r + c, as 32-bit codes), slots
with SAT, POISON and INT32 contents, its group, its spine oldest first and the place of the next push, tiles wholly read
whose slots are to be released (R164), the rime rows of the gap (R126), the slots whose correctable error was
recorded this span (R113). -/
structure ArraySt where
  p0 : Plane := {}
  p1 : Plane := {}
  acc : List (Nat × Nat) := []
  sat : List Nat := []
  poison : List Nat := []
  ints : List Nat := []
  group : Option Group := none
  spine : List SpnEnt := []
  nextPlace : Nat := 0
  readOut : List Nat := []
  rimeRun : Nat := 0
  ceNoted : List Nat := []
deriving DecidableEq, Repr

/-- What a die keeps of an engine: taken out of service once its command ends (R132, R191, R220), the context last served
(R81). -/
structure EngSt where
  offReq : Bool := false
  last : Nat := 127
deriving DecidableEq, Repr

/-! ## Translation (10_translation.md) -/

/-- An entry of a die's translation caches: stream 0-255, or 256 for the die-wide cache; a leaf of level 2 (1 GiB) or 3
(512 GiB) with its ASID, its virtual page number at that level, and the entry itself (R292, R294). -/
structure TlbEnt where
  die : Nat
  stream : Nat
  asid : Nat
  level : Nat
  vpn : Nat
  pte : Word
deriving DecidableEq, Repr

/-- An invalidation in progress (R295): its scope as sent, the dies that have not acknowledged, when it started. -/
structure InvSt where
  busy : Bool := false
  scope : Nat := 0
  asid : Nat := 0
  lo : Nat := 0
  hi : Nat := 0
  dies : List Nat := []
  startedAt : Nat := 0
deriving DecidableEq, Repr

/-! ## Stacks (09_memory.md) -/

/-- A stack beside its registers: when its hold began (R269), an action waiting for self-refresh to end (R275), a removal
waiting for the retrain (R275), a retrain waiting for a neighbour (R270), its contents recalibrated since it left service
(R271, R331), an ONLINE waiting for the recalibration, the block record HS_META shows (R276). -/
structure StackSt where
  holdAt : Nat := 0
  want : Option Nat := none
  offAfter : Bool := false
  retrainDue : Bool := false
  recald : Bool := false
  onAfter : Bool := false
  metaBlock : Option Nat := none
  metaRec : List Word := []
deriving DecidableEq, Repr

/-! ## Pace (15_fabric.md) -/

/-- A partition's pace beside its registers (R441): the stretch in force, a pending PACE_SET's BASE and STRETCH, and
the last round the package sent an ARRIVE for with the span time it left (R440). -/
structure PaceSt where
  stretch : Nat := 0
  pend : Option (Word × Nat) := none
  lastRound : Option (Nat × Word) := none
deriving DecidableEq, Repr

/-! ## The fabric (15_fabric.md) -/

/-- The body of a REQ (R425). -/
inductive FabBody where
  | wr (off : Nat) (mask : Option Nat) (data : List Byte)
  | wcrc (off crc : Nat)
  | rd (off nsec : Nat)
  | qsig (q : Nat) (op : QOp) (arg : Nat)
  | mirror (q done : Nat)
deriving DecidableEq, Repr

/-- A REQ received: its number in its pair, its source unit, its body (R424). -/
structure FabIn where
  pseq : Nat
  unit : Nat
  body : FabBody
deriving DecidableEq, Repr

/-- A sector read through the fabric window (R429): what the destination has answered. -/
structure FabRd where
  id : Nat
  src : Src
  addr : Nat
  pseq : Nat
  data : Option (List Byte) := none
  poison : Bool := false
  refused : Bool := false
deriving DecidableEq, Repr

/-- A package's pair state (R426-R430): the next PSEQ toward it, the next expected from it, REQs that came early, whether any
taken from it is unreceipted, and whether it is to begin afresh. -/
structure FabPair where
  nextOut : Nat := 0
  expectIn : Nat := 0
  early : List FabIn := []
  rcptSent : Nat := 0
  resynced : Bool := false
deriving DecidableEq, Repr

/-- Messages this package has sent that answer or inform other packages (R425). -/
inductive FabOut where
  | rcpt (p pseq : Nat)
  | refuse (p pseq : Nat)
  | nak (p pseq : Nat)
  | resync (p pseq : Nat)
  | rdData (p pseq : Nat) (data : List Byte) (poison : Bool)
  | hello (port : Nat)
  | span (count : Nat)
  | delayReq (plane : Nat) (at_ : Word)
  | delayRsp (p plane : Nat) (at_ : Word) (corr : Int) (recv send : Word)
  | member (p : Nat) (join leave : Bool) (at_ : Word)
  | view (p : Nat) (v : ViewMsg)
  | paceRpt (p part round : Nat) (at_ : Word) (reason : Nat)
  | paceSet (p part stretch : Nat) (base : Word)
deriving DecidableEq, Repr

/-- A fabric port beside its register (R417-R423, R442): whether it is kept in drift mode, whether its lanes are training,
the next SEQ expected and whether its replay is awaited,
failed flits in a row, whether its light is lost, the span time at which its DELAY_REQ left. -/
structure PortSt where
  drift : Bool := false
  training : Bool := false
  expect : Nat := 0
  awaiting : Bool := false
  fails : Nat := 0
  dark : Bool := false
  reqAt : Option Word := none
deriving DecidableEq, Repr

/-- A partition's reports at its pace leader (R440, R441): the last round of each package with its arrival, the newest round
reported with its largest lag in ns, its earliest arrival and that of the round before, how many rounds in a row stayed
below half the threshold, and the round a PACE_SET was last sent for. -/
structure PaceLead where
  reports : List (Nat × Nat × Word) := []
  round : Nat := 0
  maxLag : Nat := 0
  startAt : Option Word := none
  prevStart : Option Word := none
  below : Nat := 0
  sentFor : Option Nat := none
deriving DecidableEq, Repr

/-- The fabric engine beside its registers: pair states, reads it has sent, REQs taken in pair order and not handed on,
messages sent, when each package was last heard and its last MEMBER and votes, pending joiners, views announced, when the
leader was last heard, ports, pace reports, joiners refused, optical engines out of service, boundaries passed. -/
structure FabSt where
  pairs : List (Nat × FabPair) := []
  rds : List FabRd := []
  taken : List (Nat × FabIn) := []
  sent : List FabOut := []
  heard : List (Nat × Word) := []
  memberAt : List (Nat × Word) := []
  votes : List (Nat × Nat) := []
  joins : List Nat := []
  views : List ViewMsg := []
  leaderAt : Word := 0
  ports : List (Nat × PortSt) := []
  leads : List (Nat × PaceLead) := []
  refused : List Nat := []
  oeOut : List Nat := []
  spans : Nat := 0
  anchor : Nat := 0
deriving DecidableEq, Repr

/-! ## Power (18_power.md) -/

/-- The power controller beside its registers. `tables` counts the power tables installed (the binding image's, then each power
pack's), `tablesDue` a pack's tables that take effect at the next span boundary (R543). `learnt` holds a tag's CD_W and MEM_W in
1/1024 W; `toLearn` the occurrences counted whose draws have not been taken in (R476). `totals` holds the grants of the last
100 intervals together, newest first, and the share tables each unit's share, in mW (R477). `lowered` pairs a domain with a
reason that lowers its grant now (R488). `coreGrant` is each core's granted frequency. `rails` holds the steps a rail's domains
are lowered by, `dead` the rails whose regulator does not answer (R481, R558); `bandLow` the steps the load band lowers grants by,
`bandOn` that a band is in force this span (R483). `reqs` holds frequency changes under way, `latched` those latched under a droop, `changedAt` when a domain last changed
and `clearedAt` when its droop cleared (R479, R480). `tripped` holds the detectors tripped (unit 0-3 or 4 for HUB, detector,
beyond T2), `hubStretch` HUB's stretch (R478). `upWait` holds grants held for the mains phase, `edges` the span times of the last
accepted mains edges (R486). `doze` holds the dies dozing, `ranAt` when a die's array or vector engine last ran (R492), `durAt` the throttle
durations at the last span boundary (R489). -/
structure PowerSt where
  tables : Nat := 0
  tablesDue : Bool := false
  learnt : List (Nat × Nat × Nat) := []
  toLearn : List Nat := []
  totals : List Nat := []
  dieShare : List (Nat × Nat) := []
  groupShare : List (Nat × Nat) := []
  lowered : List (Nat × Nat) := []
  coreGrant : List (Nat × Nat) := []
  rails : List (Nat × Nat) := []
  dead : List Nat := []
  bandLow : Nat := 0
  above : Bool := false
  below : Bool := false
  bandOn : Bool := false
  accruedAt : Nat := 0
  reqs : List (Nat × Nat) := []
  latched : List (Nat × Nat) := []
  changedAt : List (Nat × Nat) := []
  clearedAt : List (Nat × Nat) := []
  tripped : List (Nat × Nat × Bool) := []
  stretchedAt : List (Nat × Nat) := []
  hubStretch : Nat := 0
  upWait : List (Nat × Nat) := []
  edges : List Word := []
  edgeAt : Option Nat := none
  doze : List Nat := []
  ranAt : List (Nat × Nat) := []
  durAt : List Word := []
deriving DecidableEq, Repr

/-! ## Pins, supplies, test port (21_pins.md) -/

/-- What drives the pins while a test instruction acts (R576). -/
inductive TestDrive where
  | none | extest | clamp | highz | pulse | train
deriving DecidableEq, Repr

/-- The pins and the test logic: whether every rail is up, whether the package is held in reset, the levels of its reset and
throttle inputs, THERMTRIP_N held low and every clock stopped (R482, R567), the dynamic I3C address (R566), the test
port's instruction, the boundary register's cells as last captured and as preloaded, and what drives the pins (R575, R576). -/
structure PinSt where
  powered : Bool := true
  inReset : Bool := false
  resetLow : Bool := false
  perstLow : Bool := false
  throttle : Bool := false
  thermtrip : Bool := false
  i3c : Option (BitVec 7) := none
  ir : BitVec 8 := 1
  cells : List Bool := []
  preload : List Bool := []
  drive : TestDrive := .none
deriving DecidableEq, Repr

/-! ## The host link (17_host_link.md) -/

/-- What the part last answered a host CXL.mem request with (R458, R459): nothing yet, data, an unsupported request. A write's
completion is the receipt of its acceptance. -/
inductive HostReply where
  | none
  | data (b : List Byte) (poison : Bool)
  | unsupported
deriving DecidableEq, Repr

/-- The mailbox's return code (R463): success, a background operation started, Invalid Input, Unsupported, Busy. -/
inductive MboxCode where
  | idle | success | background | invalidInput | unsupported | busy
deriving DecidableEq, Repr

/-- What the last mailbox command returned beside its code. -/
inductive MboxOut where
  | none
  | words (l : List Word)
  | events (l : List FaultRec) (overflow : Bool)
  | policy (l : List Nat)
  | effects (l : List Nat)
deriving DecidableEq, Repr

/-- A committed HDM decoder (R457). -/
structure Decoder where
  hpa : Nat
  size : Nat
  dpa : Nat
deriving DecidableEq, Repr

/-- The host link beside its registers: committed decoders, decoders that report Commit Error, whether the link is held down for a
lost host (R468), the last answer to a host read, the mailbox, the event interrupt policy by log, the CXL timestamp with the
moment it was set (R463). -/
structure HostSt where
  decoders : List (Nat × Decoder) := []
  commitErr : List Nat := []
  lostHold : Bool := false
  reply : HostReply := .none
  code : MboxCode := .idle
  out : MboxOut := .none
  policy : List Nat := [0, 0, 0, 0]
  timestamp : Word := 0
  timestampAt : Nat := 0
deriving DecidableEq, Repr

/-! ## Binding (20_binding.md) -/

/-- A segment of an image or pack (R531): its type, target, version, length, digest and bytes. -/
structure Seg where
  kind : Nat
  target : Nat
  version : Word
  len : Nat
  digest : Nat
  body : List Host.Cell := []
deriving DecidableEq, Repr

/-- The security processor's operation under way (R464, R539, R543): none, a pack's check, a flash write from memory or for
Transfer FW, a recovery image's check. -/
inductive BindOp where
  | none
  | pack (img : List Host.Cell) (len : Nat)
  | flash (img : List Host.Cell) (len : Nat)
  | transfer (img : List Host.Cell) (len : Nat)
  | recovery
deriving DecidableEq, Repr

/-- An action of SVC_CTL (R546). -/
inductive SvcAct where
  | retrimSpan | retrimDroop | retrimSensors | oeOffline | oeOnline | portRecal
deriving DecidableEq, Repr

/-- What the SPDM responder last answered (R541). -/
inductive SpdmReply where
  | none | error | version | capabilities | algorithms
  | digests (slots : List Nat)
  | certificate (slot : Nat)
  | challengeAuth (slot : Nat)
  | measurements (l : List (Nat × Nat))
  | keyExchange | finish | endSession
deriving DecidableEq, Repr

/-- The security processor and what it keeps: whether this start has begun, when, whether it has ended (BOUND or UNBOUND); the
flash's bytes and the recovery staging (R464); the running image's digest and its configuration segment's (R542); the digests
of the firmware running by target (R542); an SVN to commit (R536); the operation under way; a Transfer FW's bytes so far; the
segments and targets still to load (R544) and the segment store (R545); the running SVC_CTL action (R546); whether the security
processor has failed (R549); die controllers out of service (R538); the SPDM responder's connection and session (R541). -/
structure BindSt where
  started : Bool := false
  startAt : Nat := 0
  ended : Bool := false
  flash : List Host.Cell := []
  staging : List Host.Cell := []
  imageDigest : Nat := 0
  cfgDigest : Nat := 0
  fw : List (Nat × Nat) := []
  commit : Option Nat := none
  op : BindOp := .none
  transfer : List Host.Cell := []
  loading : List (Nat × Seg) := []
  store : List Seg := []
  svc : Option (SvcAct × Nat) := none
  spFailed : Bool := false
  dctlOut : List Nat := []
  spdm : Nat := 0
  session : Nat := 0
  spdmReply : SpdmReply := .none
deriving DecidableEq, Repr

/-! ## The whole state -/

/-- The state of the block. -/
structure State where
  /-- the commands waiting, first in first out -/
  pending : List Instr := []
  /-- the moment, in 1/16 ns since the model's start (the model's own field) -/
  now : Nat := 0
  /-- how many free values have been drawn (the model's own field) -/
  drawn : Nat := 0
  /-- what the last register, quire or core read returned (the model's own field) -/
  readData : Word := 0
  /-- every register that differs from its Reset column, by MMIO offset -/
  regs : List (Nat × Word) := []
  faults : FaultSt := {}
  colo : ColoSt := {}
  span : SpanSt := {}
  mem : MemSt := {}
  firn : FirnSt := {}
  sync : SyncSt := {}
  /-- contexts that differ from reset, by 128 d + c -/
  cxs : List (Nat × Ctx) := []
  /-- a compute die's AC cycle count and the moment it had it (R4, R5), by die -/
  ac : List (Nat × Nat × Nat) := []
  /-- the AC counts each die had when its clock last changed, newest first: die, moment, count -/
  acHist : List (Nat × Nat × Nat) := []
  cores : List (Nat × CoreSt) := []
  /-- lines of the host window that the host has answered, by address -/
  hostWin : List (Nat × HostLine) := []
  /-- lines of the host window asked of the host and not answered -/
  hostAsked : List Nat := []
  /-- the register values the applied binding image gives (R9, R537), kept for the reset of a die's blocks -/
  imageRegs : List (Nat × Word) := []
  /-- arrays that differ from reset, by 8 d + m -/
  arrays : List (Nat × ArraySt) := []
  /-- engines that differ from reset, by 32 d + unit (arrays 0-7, vector engines 8-15, DMA engines 16-31) -/
  eng : List (Nat × EngSt) := []
  /-- how many commands have issued (the order in which engines run them) -/
  issues : Nat := 0
  tlb : List TlbEnt := []
  inv : InvSt := {}
  hs : List (Nat × StackSt) := []
  /-- paces that differ from reset, by partition -/
  pace : List (Nat × PaceSt) := []
  /-- the current phase of each compute die (R476) -/
  phase : List (Nat × Nat) := []
  /-- phase tags with an occurrence in progress: the moment it began and whether it has been counted (R476) -/
  occ : List (Nat × Nat × Bool) := []
  fab : FabSt := {}
  power : PowerSt := {}
  pins : PinSt := {}
  host : HostSt := {}
  bind : BindSt := {}
deriving DecidableEq, Repr

/-- Why a command stops: a fault. No rule of the spec stops the block at a command, so there is none but the one that
stands for an impossible command. -/
inductive Fault where
  /-- Raised by no meaning: every command of the block has an effect. Safe. -/
  | none
deriving DecidableEq, Repr

/-- Why a command has no meaning. -/
inductive Refusal where
  /-- Answered by an arm of `exec` whose command is not modelled yet. Safe: the model stops where the block goes on. -/
  | notModelled (mnemonic : String)
deriving DecidableEq, Repr

/-- The machine right after reset: every register at its Reset column, nothing in any table, queue or log, the package
powered and out of RESET_N, unbound, its queue of commands empty. -/
def State.reset : State := {}

end Sys2Proof.Machine
end

