-- ==== Sys2Proof/Machine/Status.lean ====
section
/-!
DEFINITION. The names the spec gives its codes: fault statuses (R94, R507 and 20_binding.md), severities (R505), unit
kinds (R508) and context states (R70).
-/

namespace Sys2Proof.Machine

def Sev.INFO : Nat := 0
def Sev.CORRECTED : Nat := 1
def Sev.DEFERRED : Nat := 2
def Sev.FATAL_UNIT : Nat := 3
def Sev.CRITICAL : Nat := 4

def St.BAD_VERSION : Nat := 0x01
def St.BAD_COMMAND : Nat := 0x02
def St.BAD_PARTITION : Nat := 0x03
def St.BAD_GROUP : Nat := 0x04
def St.GROUP_TOO_LONG : Nat := 0x05
def St.BAD_QUEUE : Nat := 0x06
def St.PAGE_MISSING : Nat := 0x10
def St.PAGE_DENIED : Nat := 0x11
def St.PAGE_TOO_SMALL : Nat := 0x12
def St.ABSENT : Nat := 0x20
def St.CRC_MISMATCH : Nat := 0x21
def St.FIRN_FULL : Nat := 0x22
def St.GATHER_OVERRUN : Nat := 0x23
def St.QUIRE_UNDERFLOW : Nat := 0x24
def St.DELIVERY_LOST : Nat := 0x25
def St.ENGINE_FAULT : Nat := 0x30
def St.MMIO_ACCESS : Nat := 0x100
def St.SPAN_STEP : Nat := 0x200
def St.SPAN_WORD : Nat := 0x201
def St.SPAN_REF_LOST : Nat := 0x202
def St.SPAN_UNLOCKED : Nat := 0x203
def St.SPAN_CFG_BUSY : Nat := 0x204
def St.CX_CTL_REFUSED : Nat := 0x300
def St.CX_CFG_BUSY : Nat := 0x301
def St.MA_CTL_REFUSED : Nat := 0x302
def St.VE_CTL_REFUSED : Nat := 0x303
def St.DM_CTL_REFUSED : Nat := 0x304
def St.CX_START_REFUSED : Nat := 0x305
def St.FIRN_SETTLE_MELTED : Nat := 0x400
def St.FIRN_CTL_REFUSED : Nat := 0x401
def St.FIRN_SPILL : Nat := 0x402
def St.FIRN_LOST : Nat := 0x403
def St.FIRN_CFG_BUSY : Nat := 0x404
def St.MEM_CE : Nat := 0x500
def St.MEM_UE : Nat := 0x501
def St.SCR_UE : Nat := 0x502
def St.DDR_POPULATION : Nat := 0x503
def St.DDR_CHANNEL_FAIL : Nat := 0x504
def St.HS_RETRAIN_FAIL : Nat := 0x505
def St.HS_CTL_REFUSED : Nat := 0x506
def St.ACC_CE : Nat := 0x507
def St.ACC_UE : Nat := 0x508
def St.XL_INV_BUSY : Nat := 0x600
def St.EXPORT_REFUSED : Nat := 0x601
def St.FAB_EXPORT_BAD : Nat := 0x602
def St.COH_LOST : Nat := 0x700
def St.RC_ENABLE_REFUSED : Nat := 0x701
def St.HUB_CD_CTL_REFUSED : Nat := 0x702
def St.DIE_LOST : Nat := 0x703
def St.STACK_LOST : Nat := 0x704
def St.QUIRE_ACCESS : Nat := 0x800
def St.QUIRE_DENIED : Nat := 0x801
def St.QUIRE_OVERFLOW : Nat := 0x802
def St.QUIRE_MODE : Nat := 0x803
def St.SYNC_CFG_BUSY : Nat := 0x804
def St.GATHER_LATE : Nat := 0x805
def St.CORE_REG_DENIED : Nat := 0x900
def St.CORE_CTL_REFUSED : Nat := 0x901
def St.CORE_FAILED : Nat := 0x902
def St.FAB_NO_LIGHT : Nat := 0xA00
def St.FAB_VERSION : Nat := 0xA01
def St.FAB_MINORITY : Nat := 0xA02
def St.FAB_JOIN_REFUSED : Nat := 0xA03
def St.FAB_CTL_REFUSED : Nat := 0xA04
def St.FAB_CFG_BUSY : Nat := 0xA05
def St.HL_HDM_BAD : Nat := 0xB00
def St.HL_IDE_FAIL : Nat := 0xB01
def St.HL_HOST_LOST : Nat := 0xB02
def St.HL_CFG_BUSY : Nat := 0xB03
def St.PWR_LIMIT_BAD : Nat := 0xC00
def St.PWR_CTL_REFUSED : Nat := 0xC01
def St.PWR_REST_REFUSED : Nat := 0xC02
def St.LS_MISS : Nat := 0xC03
def St.LS_CFG_BAD : Nat := 0xC04
def St.ENERGY_SAT : Nat := 0xC05
def St.THERMTRIP : Nat := 0xC06
def St.CNT_WRAP : Nat := 0xD00
def St.LIFE_SAT : Nat := 0xD01
def St.COLO_LOST : Nat := 0xD02
def St.COLO_WRITE_FAIL : Nat := 0xD03
def St.BIND_NO_IMAGE : Nat := 0xE00
def St.BIND_FORMAT : Nat := 0xE01
def St.BIND_PART : Nat := 0xE02
def St.BIND_KEY : Nat := 0xE03
def St.BIND_ROLLBACK : Nat := 0xE04
def St.BIND_SIGNATURE : Nat := 0xE05
def St.BIND_SEGMENT : Nat := 0xE06
def St.BIND_CFG_BAD : Nat := 0xE07
def St.BIND_APPLY_FAIL : Nat := 0xE08
def St.PACK_BAD : Nat := 0xE09
def St.SEG_LOAD_FAIL : Nat := 0xE0A
def St.FLASH_WRITE_FAIL : Nat := 0xE0B
def St.SP_FAIL : Nat := 0xE0C
def St.SVC_CTL_REFUSED : Nat := 0xE0D
def St.BIND_BUSY : Nat := 0xE0E

def Uk.CONTEXT : Nat := 0x01
def Uk.ARRAY : Nat := 0x02
def Uk.VECTOR : Nat := 0x03
def Uk.DMA : Nat := 0x04
def Uk.DCTL : Nat := 0x05
def Uk.DIE : Nat := 0x06
def Uk.STACK : Nat := 0x07
def Uk.DDR : Nat := 0x08
def Uk.CORE : Nat := 0x09
def Uk.OE : Nat := 0x0A
def Uk.PORT : Nat := 0x0B
def Uk.SPAN : Nat := 0x0C
def Uk.SYNC : Nat := 0x0D
def Uk.FIRN : Nat := 0x0E
def Uk.POWER : Nat := 0x0F
def Uk.HOSTLINK : Nat := 0x10
def Uk.XLATE : Nat := 0x11
def Uk.PKGLINK : Nat := 0x12
def Uk.MEMLINK : Nat := 0x13
def Uk.SECPROC : Nat := 0x14
def Uk.COLOPHON : Nat := 0x15
def Uk.REGACCESS : Nat := 0x16
def Uk.FABRIC : Nat := 0x17
def Uk.HOMERC : Nat := 0x18
def Uk.PACKAGE : Nat := 0xFF

def CxS.OFF : Nat := 0
def CxS.EMPTY : Nat := 1
def CxS.READY : Nat := 2
def CxS.WAIT_GATE : Nat := 3
def CxS.WAIT_STAMP : Nat := 4
def CxS.WAIT_FE : Nat := 5
def CxS.WAIT_FAULT : Nat := 6
def CxS.WAIT_FLIGHT : Nat := 7
def CxS.STALLED : Nat := 8
def CxS.DRAINING : Nat := 9

end Sys2Proof.Machine
end

