-- ==== Sys2Proof/Machine/Ops.lean ====
section
/-!
DEFINITION. The named operations every family shares: time, reading and writing registers and their fields, raising a
fault record, counting in an event counter, write rights, free values.
-/

namespace Sys2Proof.Machine

/-! ## The part off (R482, R559) -/

/-- Is every clock of the part still: unpowered, held in reset, or tripped (R482, R559)? -/
def State.off (s : State) : Bool := !s.pins.powered || s.pins.inReset || s.pins.thermtrip

/-- What a command does while the part runs; while it is off, nothing. -/
def State.whileOn (s t : State) : Host.Outcome State Fault Refusal := .next (if s.off then s else t)

/-! ## Registers -/

/-- The stored word of the register at MMIO offset `o`. -/
def State.reg (s : State) (o : Nat) : Word :=
  match Sparse.find o s.regs with
  | some w => w
  | none => resetWord o

/-- The state with the register at `o` holding `w`. -/
def State.setReg (s : State) (o : Nat) (w : Word) : State := { s with regs := Sparse.set o w s.regs }

/-- A field of a register, as a number. -/
def State.fld (s : State) (o : Nat) (f : Fld) : Nat := (s.reg o).get f.hi f.lo

/-- Is a field of a register non-zero? -/
def State.flag (s : State) (o : Nat) (f : Fld) : Bool := s.fld o f != 0

/-- The state with a field of a register holding the low bits of `v`. -/
def State.setFld (s : State) (o : Nat) (f : Fld) (v : Nat) : State := s.setReg o ((s.reg o).put f.hi f.lo v)

/-- The largest value of a field. -/
def Fld.top (f : Fld) : Nat := 2 ^ (f.hi + 1 - f.lo) - 1

/-- A field raised by `n`, sticking at its largest value (R516). -/
def State.bumpFld (s : State) (o : Nat) (f : Fld) (n : Nat) : State := s.setFld o f (min f.top (s.fld o f + n))

/-- A field raised to `v` if `v` is larger, sticking at its largest value. -/
def State.raiseFld (s : State) (o : Nat) (f : Fld) (v : Nat) : State :=
  if s.fld o f < v then s.setFld o f (min f.top v) else s

/-! ## Time -/

/-- Fraction units a unit of estimated length `p.len` advances from its base to moment `t` (R28). -/
def SpanSt.units (p : SpanSt) (t : Nat) : Nat := (t - p.baseAt) * 16777216 / (if p.len = 0 then 1 else p.len)

/-- How much of the slew is done by moment `t`, at 200 ppm (R38). -/
def SpanSt.slewed (p : SpanSt) (t : Nat) : Nat := min p.slewLeft (p.units t * 200 / 1000000)

/-- The span-time value at moment `t` (R28, R38). -/
def SpanSt.valueAt (p : SpanSt) (t : Nat) : Word :=
  if p.slewUp then p.base + BitVec.ofNat 64 (p.units t + p.slewed t)
  else p.base + BitVec.ofNat 64 (p.units t - p.slewed t)

/-- The unit with its base moved to moment `t`, its value unchanged. -/
def SpanSt.rebase (p : SpanSt) (t : Nat) : SpanSt :=
  { p with base := p.valueAt t, baseAt := t, slewLeft := p.slewLeft - p.slewed t }

/-- Span time now: HUB's value, and every die's replica (R31). -/
def State.spanNow (s : State) : Word := s.span.valueAt s.now

/-- The state at moment `t`, which is never before now. -/
def State.atTime (s : State) (t : Nat) : State := { s with now := max s.now t }

/-- `a` is at or past the stamp `b`: the difference read as a signed number is not negative (R29). -/
def stampReached (stamp now : Word) : Bool := decide ((stamp - now).toInt ≤ 0)

/-- AC cycles a die runs in `dt` sixteenths of a nanosecond: its frequency is in units of 25 MHz, its stretch none, three
quarters or one half (R4, R478). -/
def acCycles (dt f stretch : Nat) : Nat := dt * f * (if stretch = 1 then 3 else if stretch = 2 then 2 else 4) / 2560

/-- The count of AC cycles of a die now. -/
def State.acNow (s : State) (d : Nat) : Nat :=
  let b := Sparse.get (0, 0) d s.ac
  b.1 + acCycles (s.now - b.2) (s.fld (R.PWR_D_CLK d) F.PWR_D_CLK.CUR) (s.fld (R.PWR_D_CLK d) F.PWR_D_CLK.STRETCH)

/-- The die's AC count taken up to now, before its clock changes. -/
def State.acRebase (s : State) (d : Nat) : State :=
  { s with ac := Sparse.set d (s.acNow d, s.now) s.ac, acHist := (d, s.now, s.acNow d) :: s.acHist }

/-- The AC count a die had at moment `t`, between the counts it had when its clock changed. -/
def acBack (t now count : Nat) : List (Nat × Nat) → Nat
  | [] => if now = 0 then 0 else count * t / now
  | (m, c) :: r => if m ≤ t then (if now = m then c else c + (count - c) * (t - m) / (now - m)) else acBack t m c r

/-- AC cycles of a die from moment `t` to now. -/
def State.acSince (s : State) (d t : Nat) : Nat :=
  s.acNow d - acBack t s.now (s.acNow d) ((s.acHist.filter fun p => p.1 == d).map (·.2))

/-! ## Faults -/

/-- A fault record raised now: stamped with span time (R46) and on its way to the queue (R509). -/
def State.raise (s : State) (r : FaultRec) : State :=
  { s with faults := { s.faults with raised := s.faults.raised ++ [{ r with stamp := s.spanNow, raisedAt := s.now }] } }

/-- A record of a HUB block: severity, status and unit kind. -/
def State.raiseHub (s : State) (sev status kind : Nat) : State :=
  s.raise { status := status, sev := sev, kind := kind, die := 4, index := 0 }

/-- The unit whose block holds the register at `o` (R579): kind, die and index. -/
def unitOf (o : Nat) : Nat × Nat × Nat :=
  if 0x1000000 ≤ o then
    let d := o / 0x1000000 - 1
    let r := o % 0x1000000
    let b := r / 0x10000
    if b = 0 then (if r < 0x4000 then (Uk.CONTEXT, d, r / 0x80) else (Uk.DIE, d, d))
    else if b = 1 then (Uk.ARRAY, d, r % 0x10000 / 0x100)
    else if b = 2 then (Uk.VECTOR, d, r % 0x10000 / 0x100)
    else if b = 3 then (Uk.ARRAY, d, r % 0x10000 / 0x100)
    else if b = 4 then (Uk.DIE, d, d)
    else if b = 5 then (Uk.DMA, d, r % 0x10000 / 0x100)
    else if b = 6 then (Uk.XLATE, d, 0)
    else if b = 7 then (Uk.POWER, d, 0)
    else if 0x880C0 ≤ r then (Uk.MEMLINK, d, 5 * d + (r - 0x880C0) / 8)
    else if 0x88080 ≤ r then (Uk.MEMLINK, d, 5 * d + (r - 0x88080) / 8)
    else (Uk.HOMERC, d, 0)
  else
    let b := o / 0x10000
    if b = 1 then (Uk.SPAN, 4, 0)
    else if b = 2 then (Uk.FIRN, 4, 0)
    else if b = 3 then
      (if 0x30180 ≤ o then (Uk.HOMERC, 4, 0)
       else if 0x30100 ≤ o then
         (if 0x10 ≤ o % 0x20 then (Uk.PKGLINK, 4, (o - 0x30100) / 0x20) else (Uk.DIE, (o - 0x30100) / 0x20, (o - 0x30100) / 0x20))
       else (Uk.DIE, o % 0x10000 / 0x10, o % 0x10000 / 0x10))
    else if b = 4 then (Uk.PACKAGE, 4, 0)
    else if b = 5 then (Uk.SYNC, 4, 0)
    else if b = 6 then (Uk.POWER, 4, 0)
    else if b = 7 then (Uk.XLATE, 4, 0)
    else if b = 8 then (Uk.XLATE, 4, 0)
    else if b = 9 then (Uk.FABRIC, 4, 0)
    else if b = 10 then (Uk.STACK, o % 0x10000 / 0x100 / 5, o % 0x10000 / 0x100)
    else if b = 11 then (if 0xB0100 ≤ o then (Uk.DDR, 4, (o - 0xB0100) / 0x40) else (Uk.HOMERC, 4, 0))
    else if b = 12 then
      (if 0xC0100 ≤ o ∧ o < 0xC0180 then (Uk.PORT, 4, (o - 0xC0100) / 8) else (Uk.FABRIC, 4, 0))
    else if b = 13 then (Uk.HOSTLINK, 4, 0)
    else if b = 14 then (Uk.SECPROC, 4, 0)
    else if b = 15 then (Uk.COLOPHON, 4, 0)
    else if b = 0 then (Uk.PACKAGE, 4, 0)
    else (Uk.CORE, 4, (o - 0x100000) / 0x1000)

/-- An INFO record of a register block, naming the unit that owns the register at `o` (R579). -/
def State.raiseReg (s : State) (status o : Nat) : State :=
  let u := unitOf o
  s.raise { status := status, sev := Sev.INFO, kind := u.1, die := u.2.1, index := u.2.2 }

/-! ## Counters -/

/-- An event counter raised by `n` (R138, R516): it wraps at 2⁴⁸, sets OVF, and places CNT_WRAP if WRAP_REC = 1. -/
def State.count (s : State) (o n : Nat) : State :=
  let c := s.fld o F.CTR.COUNT + n
  let s1 := s.setFld o F.CTR.COUNT c
  if c < 0x1000000000000 then s1
  else
    let s2 := s1.setFld o F.CTR.OVF 1
    if s.flag R.FQ_CFG F.FQ_CFG.WRAP_REC then
      let u := unitOf o
      s2.raise { status := St.CNT_WRAP, sev := Sev.INFO, kind := u.1, die := u.2.1, index := u.2.2, arg0 := BitVec.ofNat 64 o }
    else s2

/-- A life counter raised by `n` (R516, R519): it sticks at 2⁶⁴ − 1, and then sets its SAT bit and places LIFE_SAT once. -/
def State.life (s : State) (i n : Nat) : State :=
  let c := (s.reg (R.COLO_LIFE i)).toNat + n
  if c < 0xFFFFFFFFFFFFFFFF then s.setReg (R.COLO_LIFE i) (BitVec.ofNat 64 c)
  else
    let s1 := s.setReg (R.COLO_LIFE i) 0xFFFFFFFFFFFFFFFF#64
    if (s.reg R.COLO_LIFE_SAT).bit i then s1
    else
      (s1.setReg R.COLO_LIFE_SAT (s.reg R.COLO_LIFE_SAT ||| BitVec.ofNat 64 (1 <<< i))).raise
        { status := St.LIFE_SAT, sev := Sev.INFO, kind := Uk.COLOPHON, arg0 := BitVec.ofNat 64 i }

/-- The microseconds since the last accrual, counted by every reason in progress (R489). -/
def State.trAccrue (s : State) : State :=
  let us := (s.now - s.power.accruedAt) / 16000
  let s1 := (List.range 7).foldl (fun t i =>
    if t.flag (R.TR_LAST i) F.TR_LAST.ONGOING then (t.count (R.TR_DUR i) us).bumpFld (R.TR_LAST i) F.TR_LAST.DUR_US us else t) s
  { s1 with power := { s1.power with accruedAt := s1.power.accruedAt + us * 16000 } }

/-! ## Free values -/

/-- A fresh value the spec leaves open, of the given tag, below `2 ^ bits`, and the state that has drawn it. -/
def State.draw (s : State) (tag bits : Nat) : Nat × State :=
  (Config.free tag s.drawn % 2 ^ bits, { s with drawn := s.drawn + 1 })

/-! ## Register writes -/

/-- The partition of a core (R409). -/
def State.corePart (s : State) (n : Nat) : Nat := s.fld (R.C_CFG n) F.C_CFG.PART

/-- May this agent write the register at `o`? Cores of the management partition and the host may; a die's controllers
may in its context, array, vector, spine, scratchpad and DMA blocks (03, 04, 06, 07), and a core in its own C_FENCE. -/
def State.mayWrite (s : State) (a : Agent) (o : Nat) : Bool :=
  match a with
  | .host => true
  | .core n => s.corePart n == 0 || o == R.C_FENCE n
  | .dctl d _ => decide (R.dieBase d ≤ o) && decide (o < R.dieBase d + 0x60000)

/-- The physical address of the MMIO offset `o` (R280). -/
def mmioAddr (o : Nat) : Nat := 0x7F000000000000 + o

/-- What a write without the right does: it is ignored, and a core's places CORE_REG_DENIED (R409). -/
def State.denyWrite (s : State) (a : Agent) (o : Nat) : State :=
  match a with
  | .core n => s.raise { status := St.CORE_REG_DENIED, sev := Sev.INFO, kind := Uk.CORE, index := n, addr := mmioAddr o,
                         phys := true, hasAddr := true, part := s.corePart n }
  | _ => s

/-- The value a write forms over the register at `o` (R10). -/
def State.formed (s : State) (w : RegW) (o : Nat) : Word := formWrite ((regFields o).getD []) (s.reg o) w

/-- A register write by an agent with the right does `act` with the formed value; without it, it is denied. -/
def State.onWrite (s : State) (w : RegW) (o : Nat) (act : Word → State → State) : State :=
  if s.mayWrite w.agent o then act (s.formed w o) s else s.denyWrite w.agent o

/-- A formed write by the field types alone (R6). -/
def State.plainWrite (s : State) (o : Nat) (v : Word) : State :=
  s.setReg o (writeFields ((regFields o).getD []) (s.reg o) v)

/-- A formed write by the field types, leaving the listed fields as they are. -/
def State.plainWriteBut (s : State) (o : Nat) (v : Word) (keep : List Fld) : State :=
  let old := s.reg o
  let new := writeFields ((regFields o).getD []) old v
  s.setReg o (keep.foldl (fun w f => (w &&& ~~~(Word.mask f.hi f.lo)) ||| (old &&& Word.mask f.hi f.lo)) new)

/-! ## HUB control processors -/

/-- Is an HUB control processor reloading its firmware: the first of those still to load (R544)? -/
def State.hcpLoading (s : State) (k : Nat) : Bool :=
  match s.bind.loading.find? fun p => decide (p.1 < 4) with
  | some p => p.1 == k
  | none => false

end Sys2Proof.Machine
end

