-- ==== Sys2Proof/Machine/CtxOps.lean ====
section
/-!
DEFINITION. What every family does to a context: its state register, its flights, stopping it on a fault (R83), waking
it (R62, R71).
-/

namespace Sys2Proof.Machine

/-- A context beside its registers. -/
def State.cx (s : State) (d : Die) (c : Cx) : Ctx := Sparse.get {} (128 * d.val + c.val) s.cxs

def State.setCx (s : State) (d : Die) (c : Cx) (x : Ctx) : State := { s with cxs := Sparse.set (128 * d.val + c.val) x s.cxs }

def State.cxState (s : State) (d : Die) (c : Cx) : Nat := s.fld (R.CX_STATE d c) F.CX_STATE.STATE
def State.setCxState (s : State) (d : Die) (c : Cx) (v : Nat) : State := s.setFld (R.CX_STATE d c) F.CX_STATE.STATE v

def State.cxPart (s : State) (d : Die) (c : Cx) : Nat := s.fld (R.CX_CFG d c) F.CX_CFG.PART

/-- The issued, incomplete commands of a context (R70, R92). -/
def Ctx.inflight (x : Ctx) : Nat := (x.flights.filter fun f => f.phase != .complete && f.phase != .faulted).length

/-- CX_STATE.INFLIGHT and IN_GROUP brought to the context (R92). -/
def State.cxShow (s : State) (d : Die) (c : Cx) : State :=
  let x := s.cx d c
  (s.setFld (R.CX_STATE d c) F.CX_STATE.INFLIGHT x.inflight).setFld (R.CX_STATE d c) F.CX_STATE.IN_GROUP
    (if x.groupUnit.isSome || x.flights.any (·.inGroup) then 1 else 0)

/-- The contexts that have been started or written, by die and number. -/
def State.cxKeys (s : State) : List (Die × Cx) :=
  s.cxs.filterMap fun p => if h : p.1 / 128 < 4 then some (⟨p.1 / 128, h⟩, ⟨p.1 % 128, Nat.mod_lt _ (by decide)⟩) else none

/-- Is a status a translation fault (R83, R293)? -/
def isXlate (status : Nat) : Bool := status == St.PAGE_MISSING || status == St.PAGE_DENIED || status == St.PAGE_TOO_SMALL

/-- The fault record of a context's stop (R83): DEFERRED for a translation fault, FATAL_UNIT for every other stall. -/
def State.cxRecord (s : State) (d : Die) (c : Cx) (status slot addr code : Nat) : State :=
  s.raise { status := status, sev := if isXlate status then Sev.DEFERRED else Sev.FATAL_UNIT, kind := Uk.CONTEXT, die := d.val,
            index := c.val, detail := code, addr := addr, hasAddr := addr != 0, part := s.cxPart d c, cx := c.val, cxDie := d.val,
            slot := slot }

/-- A context stops on a fault (R83, R94): CX_FAULT and CX_FAULT_ADDR filled, WAIT_FAULT or STALLED, one record. -/
def State.cxStop (s : State) (d : Die) (c : Cx) (status slot kind unit addr code : Nat) (abandoned done : Bool) : State :=
  let w := (((((((0 : Word).put 7 0 status).put 23 8 slot).put 25 24 kind).put 29 26 unit).put 30 30 (if abandoned then 1 else 0)).put 31 31
    (if done then 1 else 0))
  let s1 := (s.setReg (R.CX_FAULT d c) w).setReg (R.CX_FAULT_ADDR d c) (BitVec.ofNat 64 addr)
  let s2 := s1.setCxState d c (if isXlate status then CxS.WAIT_FAULT else CxS.STALLED)
  s2.cxRecord d c status slot addr code

/-- Is the context stopped until software acts (R580)? -/
def State.cxStopped (s : State) (d : Die) (c : Cx) : Bool :=
  s.cxState d c == CxS.WAIT_FAULT || s.cxState d c == CxS.STALLED

/-- A context whose earlier command erred after completing stops before its next command, with DONE = 1 (R85, R375); if it
is already stopped, once it has been resumed. -/
def State.cxStallDone (s : State) (d : Die) (c : Cx) (status slot : Nat) : State :=
  if s.cxState d c = CxS.OFF then s
  else if s.cxStopped d c then s.setCx d c { s.cx d c with stallNext := some (status, slot) }
  else s.cxStop d c status slot 0 0 0 0 false true

/-- An EMPTY context is woken: it rereads its head slot (R62). -/
def State.cxWake (s : State) (d : Die) (c : Cx) : State :=
  if s.cxState d c = CxS.EMPTY then (s.setCxState d c CxS.READY).setCx d c { s.cx d c with cur := none, waitSince := s.now } else s

/-- One flight of a context changed in place. -/
def Ctx.mapFlight (x : Ctx) (slot : Nat) (g : Flight → Flight) : Ctx :=
  { x with flights := x.flights.map fun f => if f.slot = slot then g f else f }

/-- The flight at a slot. -/
def Ctx.flight (x : Ctx) (slot : Nat) : Option Flight := x.flights.find? fun f => f.slot == slot

/-! ## Command fields (R64, R65, R66) -/

def Cmd.ver (k : Cmd) : Nat := k.w0.get 3 0
def Cmd.kind (k : Cmd) : Nat := k.w0.get 5 4
def Cmd.unit (k : Cmd) : Nat := k.w0.get 9 6
def Cmd.op (k : Cmd) : Nat := k.w0.get 17 10
def Cmd.ext (k : Cmd) : Bool := k.w0.bit 18
def Cmd.fenced (k : Cmd) : Bool := k.w0.bit 19
def Cmd.gateEn (k : Cmd) : Bool := k.w0.bit 20
def Cmd.signalEn (k : Cmd) : Bool := k.w0.bit 21
def Cmd.epochEn (k : Cmd) : Bool := k.w0.bit 22
def Cmd.runAhead (k : Cmd) : Bool := k.w0.bit 23
def Cmd.phase (k : Cmd) : Nat := k.w0.get 31 24
def Cmd.part (k : Cmd) : Nat := k.w0.get 35 32
def Cmd.gateQ (k : Cmd) : Nat := k.w0.get 49 36
def Cmd.signalQ (k : Cmd) : Nat := k.w0.get 63 50
def Cmd.epoch (k : Cmd) : Nat := k.w1.get 7 0
def Cmd.gateCond (k : Cmd) : Nat := k.w1.get 10 8
def Cmd.signalOp (k : Cmd) : Nat := k.w1.get 12 11
def Cmd.signalRemote (k : Cmd) : Bool := k.w1.bit 13
def Cmd.gateVal (k : Cmd) : Nat := k.w1.get 47 16
def Cmd.signalPkg (k : Cmd) : Nat := k.w1.get 60 48
def Cmd.stampEn (k : Cmd) : Bool := k.ext && k.x0.bit 4
def Cmd.svalEn (k : Cmd) : Bool := k.ext && k.x0.bit 5
def Cmd.signalVal (k : Cmd) : Nat := if k.svalEn then k.x2.get 31 0 else 1
def Cmd.argA (k : Cmd) : Nat := if k.ext then k.x2.get 63 32 else 0
def Cmd.argB (k : Cmd) : Word := if k.ext then k.x3 else 0

/-- The die's number for the engine a command names: arrays 0-7, vector engines 8-15, DMA engines 16-31. -/
def Cmd.engine (k : Cmd) : Nat := if k.kind = 0 then k.unit else if k.kind = 1 then 8 + k.unit else 16 + k.unit

/-! ## Engines -/

def State.eng1 (s : State) (d u : Nat) : EngSt := Sparse.get {} (32 * d + u) s.eng
def State.setEng (s : State) (d u : Nat) (e : EngSt) : State := { s with eng := Sparse.set (32 * d + u) e s.eng }

/-- The issued commands of a die that have not ended, with their contexts. -/
def State.live (s : State) (d : Die) : List (Cx × Flight) :=
  s.cxKeys.flatMap fun p => if p.1 = d then (((s.cx p.1 p.2).flights.filter fun f => f.phase == .issued || f.phase == .running).map fun f => (p.2, f)) else []

/-- The command engine `u` of a die runs or runs next: the first issued of those not ended (R73). -/
def State.front (s : State) (d : Die) (u : Nat) : Option (Cx × Flight) :=
  ((s.live d).filter fun p => p.2.cmd.kind != 3 && p.2.cmd.engine == u).foldl
    (fun b p => match b with
      | none => some p
      | some q => if p.2.order < q.2.order then some p else some q) none

/-- The first issued control command of a context with an opcode. -/
def State.ctlFront (s : State) (d : Die) (c : Cx) (op : Nat) : Option Flight :=
  (s.cx d c).flights.find? fun f => f.cmd.kind == 3 && f.cmd.op == op && (f.phase == .issued || f.phase == .running)

/-- A flight of a context changed in place. -/
def State.setFlight (s : State) (d : Die) (c : Cx) (slot : Nat) (g : Flight → Flight) : State :=
  s.setCx d c ((s.cx d c).mapFlight slot g)

/-- An array or vector engine of the die has run a command until now (R492). -/
def State.engRan (s : State) (d : Die) (c : Cx) (slot : Nat) : State :=
  match (s.cx d c).flight slot with
  | some f => if f.cmd.kind < 2 then { s with power := { s.power with ranAt := Sparse.set d.val s.now s.power.ranAt } } else s
  | none => s

/-- A flight's work has ended. -/
def State.workDone (s : State) (d : Die) (c : Cx) (slot : Nat) : State :=
  (s.engRan d c slot).setFlight d c slot fun f => { f with phase := .worked, held := none }

/-- A flight has met a fault: its status, the address concerned, the engine's code (R83); COMMAND_FAULT stops its context. -/
def State.flightFault (s : State) (d : Die) (c : Cx) (slot status addr code : Nat) : State :=
  (s.engRan d c slot).setFlight d c slot fun f => { f with phase := .faulted, fault := status, faultAddr := addr, code := code, held := none }

/-- The number that names a flight's command as a writer (R260): its id, never 0. -/
def Flight.writer (f : Flight) : Nat := f.id

end Sys2Proof.Machine
end

