-- ==== Sys2Proof/Machine/Spine.lean ====
section
/-!
DEFINITION. What arrays and vector engines share: an array beside its registers, its slots, and its spine (R110-R112,
R161-R167): pushing, matching, taking, releasing, the registers that show them.
-/

namespace Sys2Proof.Machine

def State.arr (s : State) (d m : Nat) : ArraySt := Sparse.get {} (8 * d + m) s.arrays
def State.setArr (s : State) (d m : Nat) (a : ArraySt) : State := { s with arrays := Sparse.set (8 * d + m) a s.arrays }

/-- A plane of an array. -/
def ArraySt.plane (a : ArraySt) (i : Nat) : Plane := if i = 0 then a.p0 else a.p1
def ArraySt.setPlane (a : ArraySt) (i : Nat) (p : Plane) : ArraySt := if i = 0 then { a with p0 := p } else { a with p1 := p }

/-- The active plane (R98, R133). -/
def State.maActive (s : State) (d m : Nat) : Nat := s.fld (R.MA_STATUS d m) F.MA_STATUS.ACTIVE

/-- Is slot `i` locked by a spine entry (R112)? -/
def State.slotLocked (s : State) (d m i : Nat) : Bool := (s.fld (R.MA_STATUS d m) F.MA_STATUS.SLOT_LOCKED).testBit i

/-- Slot `i` locked or released. -/
def State.lockSlot (s : State) (d m i : Nat) (on : Bool) : State :=
  let l := s.fld (R.MA_STATUS d m) F.MA_STATUS.SLOT_LOCKED
  s.setFld (R.MA_STATUS d m) F.MA_STATUS.SLOT_LOCKED (if on then l ||| (1 <<< i) else if l.testBit i then l - 2 ^ i else l)

/-- MA_STATUS brought to the array: planes, group, stationary format of the active plane (R133). -/
def State.maShow (s : State) (d m : Nat) : State :=
  let a := s.arr d m
  let o := R.MA_STATUS d m
  let s1 := ((s.setFld o F.MA_STATUS.P0_VALID (if a.p0.valid then 1 else 0)).setFld o F.MA_STATUS.P1_VALID (if a.p1.valid then 1 else 0)).setFld o F.MA_STATUS.SFMT (a.plane (s.maActive d m)).fmt
  match a.group with
  | some g => (((s1.setFld o F.MA_STATUS.GROUP_OPEN 1).setFld o F.MA_STATUS.OWNER g.cx).setFld o F.MA_STATUS.SLOT_BASE g.base).setFld o F.MA_STATUS.SLOT_COUNT g.count
  | none => s1.setFld o F.MA_STATUS.GROUP_OPEN 0

/-- SPN_STATUS brought to the spine (R195). -/
def State.spnShow (s : State) (d m : Nat) : State :=
  let a := s.arr d m
  let o := R.SPN_STATUS d m
  ((s.setFld o F.SPN_STATUS.COUNT a.spine.length).setFld o F.SPN_STATUS.FULL (if a.spine.length = 16 then 1 else 0)).setFld o F.SPN_STATUS.HEAD
    (match a.spine with | e :: _ => e.place | [] => a.nextPlace)

/-- The first place at or after `p`, cyclically, that no entry holds. -/
def freePlace (l : List SpnEnt) (p : Nat) : Nat :=
  ((List.range 16).find? fun i => !(l.any fun e => e.place == (p + i) % 16)).elim 0 fun i => (p + i) % 16

/-- An entry pushed on a spine with room (R161); a tile's slot is locked (R112). -/
def State.spnPush (s : State) (d m : Nat) (e : SpnEnt) : State :=
  let a := s.arr d m
  let p := freePlace a.spine a.nextPlace
  let s1 := s.setArr d m { a with spine := a.spine ++ [{ e with place := p }], nextPlace := (p + 1) % 16 }
  (if e.marker then s1 else s1.lockSlot d m e.slot true).spnShow d m

/-- Does an entry meet a TILE's or MARK's conditions (R163)? -/
def SpnEnt.fits (e : SpnEnt) (marker : Bool) (tag mask part : Nat) : Bool :=
  e.marker == marker && (e.tag ^^^ tag) &&& mask == 0 && e.part == part

/-- The oldest entry that fits. -/
def State.spnMatch (s : State) (d m : Nat) (marker : Bool) (tag mask part : Nat) : Option SpnEnt :=
  (s.arr d m).spine.find? fun e => e.fits marker tag mask part

/-- An entry leaves the spine (R163, R164). -/
def State.spnTake (s : State) (d m : Nat) (e : SpnEnt) : State :=
  let a := s.arr d m
  (s.setArr d m { a with spine := a.spine.filter fun x => x.place != e.place }).spnShow d m

/-- An entry that was not taken after all goes back before the younger ones. -/
def State.spnReturn (s : State) (d m : Nat) (e : SpnEnt) : State :=
  let a := s.arr d m
  (s.setArr d m { a with spine := e :: a.spine }).spnShow d m

/-- The SPN_ENTRY register of a place (R162, R196). -/
def SpnEnt.word (e : SpnEnt) : Word :=
  BitVec.ofNat 64 (e.array % 8 + (if e.marker then 0 else e.slot % 32) * 8 + (if e.marker then 2 ^ 8 else 0) + (if e.sat then 2 ^ 9 else 0) + (if e.poison then 2 ^ 10 else 0)
    + (if e.accInt then 2 ^ 11 else 0) + (if e.epochEn then 2 ^ 12 else 0) + e.epoch % 256 * 2 ^ 13 + e.part % 16 * 2 ^ 21 + e.owner % 128 * 2 ^ 25
    + e.tag % 65536 * 2 ^ 32 + 2 ^ 63)

/-- A settle of an epoch's instance clears EPOCH_EN in its spine entries (R165). -/
def State.spinesSettle (s : State) (ep inst : Nat) : State :=
  { s with arrays := s.arrays.map fun p => (p.1, { p.2 with spine := p.2.spine.map fun e => if e.epochEn && e.epoch == ep && e.inst == inst then { e with epochEn := false } else e }) }

/-- A melt removes an instance's spine entries, releases their slots and counts them (R165). -/
def State.spinesMelt (s : State) (ep inst : Nat) : State :=
  s.arrays.foldl (fun t p =>
    let d := p.1 / 8
    let m := p.1 % 8
    let gone := p.2.spine.filter fun e => e.epochEn && e.epoch == ep && e.inst == inst
    if gone.isEmpty then t
    else
      let t1 := t.setArr d m { t.arr d m with spine := (t.arr d m).spine.filter fun e => !(e.epochEn && e.epoch == ep && e.inst == inst) }
      let t2 := gone.foldl (fun u e => if e.marker then u else u.lockSlot d m e.slot false) t1
      (t2.count (R.SPN_DROPPED d m) gone.length).spnShow d m) s

/-- An array's slots released and its entries cleared. -/
def ArraySt.clearSlots (a : ArraySt) (base n : Nat) : ArraySt :=
  { a with acc := a.acc.filter (fun p => !(decide (base ≤ p.1 % 4096 / 128) && decide (p.1 % 4096 / 128 < base + n))), sat := a.sat.filter (fun i => !(decide (base ≤ i) && decide (i < base + n))), poison := a.poison.filter (fun i => !(decide (base ≤ i) && decide (i < base + n))), ints := a.ints.filter fun i => !(decide (base ≤ i) && decide (i < base + n)) }

/-- A group is abandoned (R79, R123): the plane active at OPEN is active again, a plane the group loaded is empty, its slots
are released unlocked, the array is released. -/
def State.abandonGroup (s : State) (d m : Nat) : State :=
  let a := s.arr d m
  match a.group with
  | none => s
  | some g =>
    let a1 := { (a.clearSlots g.base g.count) with group := none, p0 := (if a.p0.inGroup then {} else a.p0), p1 := (if a.p1.inGroup then {} else a.p1) }
    let s1 := (s.setArr d m a1).setFld (R.MA_STATUS d m) F.MA_STATUS.ACTIVE g.activeAtOpen
    s1.maShow d m

end Sys2Proof.Machine
end

