-- ==== Sys2Proof/Machine/Memory.lean ====
section
/-!
DEFINITION. The physical map (10_translation.md), memory contents in canonical form, block metadata and error
correction (09_memory.md), and what a reader of ice or of an epoch's instance sees (08_firn.md).
-/

namespace Sys2Proof.Machine

/-! ## The physical map -/

/-- Where a physical address lies (R280). HBM carries its stack and its stack-linear address in both views. -/
inductive Region where
  | hbm (stack lin : Nat)
  | ddr (off : Nat)
  | host (off : Nat)
  | scr (die off : Nat)
  | quire (off : Nat)
  | mmio (off : Nat)
  | fabric (pkg off : Nat)
  | outside
deriving DecidableEq, Repr

/-- The stack of block `b` of a die's interleaved window (R255). -/
def interleaveStack (b : Nat) : Nat := (b + b / 5 + b / 5 / 25) % 5

/-- The stack-linear address of die `n`'s window offset `x` (R255). -/
def interleaved (n x : Nat) : Nat :=
  (5 * n + interleaveStack (x / 4096)) * 0x1000000000 + x / 4096 / 5 * 4096 + x % 4096

/-- A stack-linear address: visible in the first 60 GiB of a slot (R253, R254). -/
def linRegion (lin : Nat) : Region :=
  if lin % 0x1000000000 < 0xF00000000 then .hbm (lin / 0x1000000000) lin else .outside

/-- The region of a physical address (R254, R280, R284, R462). -/
def State.region (s : State) (pa : Nat) : Region :=
  if 0x80000000000000 ≤ pa then
    (if pa < 0x100000000000000 then .fabric (pa / 0x40000000000 % 8192) (pa % 0x40000000000) else .outside)
  else if 0x7F000000000000 ≤ pa then .mmio (pa - 0x7F000000000000)
  else if 0x7E000000000000 ≤ pa then (if pa < 0x7E000000100000 then .quire (pa - 0x7E000000000000) else .outside)
  else if 0x7D000000000000 ≤ pa then
    (if (pa - 0x7D000000000000) / 0x100000000 < 4 ∧ (pa - 0x7D000000000000) % 0x100000000 < 0x10000000 then
       .scr ((pa - 0x7D000000000000) / 0x100000000) ((pa - 0x7D000000000000) % 0x100000000)
     else .outside)
  else if 0x200000000000 ≤ pa then
    (if pa < 0x300000000000 ∧ pa - 0x200000000000 < s.fld R.HL_WIN F.HL_WIN.SIZE * 0x10000000 then .host (pa - 0x200000000000)
     else .outside)
  else if 0x100000000000 ≤ pa then
    (if pa < 0x140000000000 ∧ pa - 0x100000000000 < s.fld R.DC_MAP F.DC_MAP.VISIBLE_GIB * 0x40000000 then
       .ddr (pa - 0x100000000000)
     else .outside)
  else if 0x40000000000 ≤ pa then
    (if pa < 0x60000000000 ∧ (pa - 0x40000000000) % 0x8000000000 < 0x4B00000000 then
       linRegion (interleaved ((pa - 0x40000000000) / 0x8000000000) ((pa - 0x40000000000) % 0x8000000000))
     else .outside)
  else if pa < 0x14000000000 then linRegion pa
  else .outside

/-- The address a memory cell is kept under: stack-linear for HBM in either view (R256), the physical address else. -/
def Region.key : Region → Nat → Nat
  | .hbm _ lin, _ => lin
  | _, pa => pa

/-- The number of the populated DDR5 channel an offset lies on (R267). -/
def State.ddrChannel (s : State) (off : Nat) : Nat :=
  let p := off / 256
  let m := p + p / 12 + p / 144
  if s.fld R.DC_MAP F.DC_MAP.POPULATED = 0xFFF then m % 12 else 2 * (m % 6)

/-- Is a compute die in service and not fenced (R328)? -/
def State.dieIn (s : State) (d : Nat) : Bool :=
  s.flag (R.HUB_CD_STATUS d) F.HUB_CD_STATUS.IN_SERVICE && s.fld (R.HUB_CD_STATUS d) F.HUB_CD_STATUS.STATE == 0

/-- Is a stack in service (R273), its memory link not fenced (R329)? -/
def State.stackIn (s : State) (j : Nat) : Bool :=
  s.flag (R.HS_STATUS j) F.HS_STATUS.IN_SERVICE && (Sparse.find j s.mem.stackDrainAt).isNone

/-- Are a region's accesses held: by a retrain of its stack (R269) or of its memory link (R308), or by self-refresh (R258)? -/
def State.held (s : State) : Region → Bool
  | .hbm j _ => s.fld (R.HS_STATUS j) F.HS_STATUS.STATE == 1 || s.fld (R.HS_STATUS j) F.HS_STATUS.STATE == 4 || (match Sparse.find (8 + j) s.mem.links with | some x => x.retraining | none => false)
  | _ => false

/-- Is package `p` a member of the view (R451), and not declared dead (R430)? -/
def State.pkgIn (s : State) (p : Nat) : Bool :=
  (s.reg (R.FAB_MEMBER (p / 64))).bit (p % 64) && !(s.reg (R.FAB_DEAD (p / 64))).bit (p % 64)

/-- Does an access to the region complete ABSENT (R27, R257, R268, R288, R367)? -/
def State.absent (s : State) : Region → Bool
  | .hbm j _ => !(s.stackIn j && s.dieIn (j / 5))
  | .ddr off => !s.flag (R.DC_STATUS (s.ddrChannel off)) F.DC_STATUS.IN_SERVICE
  | .scr d _ => !s.dieIn d
  | .fabric p _ => p != s.fld R.FAB_CFG F.FAB_CFG.PKG && !s.pkgIn p
  | _ => false

/-- The home of a region's lines (R311). -/
def Region.home : Region → Home
  | .hbm j _ => if h : j / 5 < 4 then .cd ⟨j / 5, h⟩ else .hub
  | _ => .hub

/-- The destination of a write to a region (R340). -/
def Region.dst : Region → Dst
  | .hbm j _ => if h : j / 5 < 4 then .cd ⟨j / 5, h⟩ else .hub
  | .scr d _ => if h : d < 4 then .cd ⟨d, h⟩ else .hub
  | .fabric p _ => if h : p < 8192 then .pkg ⟨p, h⟩ else .hub
  | _ => .hub

/-- The attribute entry of a region (R289, R303): 64s + g for HBM granules, 1,280 + d for DDR5. -/
def Region.pma : Region → Option Nat
  | .hbm j lin => some (64 * j + lin % 0x1000000000 / 0x40000000)
  | .ddr off => some (1280 + off / 0x40000000)
  | _ => none

/-- Is the region coherent (R280, R289)? -/
def State.coherent (s : State) (r : Region) : Bool :=
  match r with
  | .host _ => true
  | _ => match r.pma with
    | some n => s.flag (R.XL_PMA n) F.XL_PMA.COHERENT
    | none => false

/-- Has the region's granule full/empty bits (R289)? -/
def State.hasFE (s : State) (r : Region) : Bool :=
  match r.pma with
  | some n => s.flag (R.XL_PMA n) F.XL_PMA.FE
  | none => false

/-- Is it HBM or DDR5 memory? -/
def Region.isMem : Region → Bool
  | .hbm _ _ => true
  | .ddr _ => true
  | _ => false

/-! ## Memory contents -/

/-- What an unlisted byte of memory reads as. -/
def Memory.unlisted : Byte := 0

/-- The byte at address `a`. -/
def Memory.read (a : Nat) : List Host.Cell → Byte
  | [] => Memory.unlisted
  | (j, v) :: r => if j = a then v else if a < j then Memory.unlisted else Memory.read a r

/-- The memory with byte `v` at address `a`, in canonical form. -/
def Memory.write (a : Nat) (v : Byte) : List Host.Cell → List Host.Cell
  | [] => if v = Memory.unlisted then [] else [(a, v)]
  | (j, w) :: r =>
    if a < j then (if v = Memory.unlisted then (j, w) :: r else (a, v) :: (j, w) :: r)
    else if j = a then (if v = Memory.unlisted then r else (a, v) :: r)
    else (j, w) :: Memory.write a v r

/-- The canonical form: addresses strictly rising from above `lo`, no entry equal to what an unlisted byte reads as. -/
def Memory.wfFrom (lo : Option Nat) : List Host.Cell → Bool
  | [] => true
  | (j, v) :: r => (match lo with | none => true | some l => decide (l < j)) && v != Memory.unlisted && Memory.wfFrom (some j) r

/-- The canonical form of memory. -/
def Memory.wf (m : List Host.Cell) : Bool := Memory.wfFrom none m

/-- Bytes written from address `a` upward. -/
def Memory.writeBytes (a : Nat) : List Byte → List Host.Cell → List Host.Cell
  | [], m => m
  | b :: bs, m => Memory.writeBytes (a + 1) bs (Memory.write a b m)

/-- Bytes written from `a` upward where the mask from bit `i` up has a one. -/
def Memory.writeMask (a mask i : Nat) : List Byte → List Host.Cell → List Host.Cell
  | [], m => m
  | b :: bs, m => Memory.writeMask a mask (i + 1) bs (if mask.testBit i then Memory.write (a + i) b m else m)

/-- `n` bytes from address `a`. -/
def State.cells (s : State) (a n : Nat) : List Byte := (List.range n).map fun i => Memory.read (a + i) s.mem.cells

/-- The state with other memory contents. -/
def State.setCells (s : State) (m : List Host.Cell) : State := { s with mem := { s.mem with cells := m } }

/-- A range of memory cleared to what unlisted bytes read as. -/
def Memory.clear (lo n : Nat) (m : List Host.Cell) : List Host.Cell := m.filter fun c => decide (c.1 < lo ∨ lo + n ≤ c.1)

/-- The bytes of `over` where the mask from bit `i` up has a one, else those of `under`. -/
def overlay (mask i : Nat) : List Byte → List Byte → List Byte
  | u :: us, o :: os => (if mask.testBit i then o else u) :: overlay mask (i + 1) us os
  | us, _ => us

/-! ## Ice and firn as readers see them (R231, R235) -/

/-- Ice in a sector: memory, with the bytes of settled entries not yet merged over it. -/
def State.ice (s : State) (sec : Nat) : List Byte :=
  (s.firn.entries.filter (fun e => e.settled && e.sector == sec)).foldl (fun b e => overlay e.mask 0 b e.data) (s.cells sec 64)

/-- A sector as a reader of an instance sees it, or as any other reader does. -/
def State.sectorFor (s : State) (inst : Option (Nat × Nat)) (sec : Nat) : List Byte :=
  match inst with
  | none => s.ice sec
  | some (e, i) =>
    (s.firn.entries.filter (fun x => !x.settled && x.sector == sec && x.epoch == e && x.inst == i)).foldl
      (fun b x => overlay x.mask 0 b x.data) (s.ice sec)

/-! ## Block metadata (R260, R261) -/

/-- The metadata record of the block at address `a` (any address in it). -/
def State.block (s : State) (a : Nat) : BlockMeta := Sparse.get {} (a / 4096) s.mem.blocks

def State.setBlock (s : State) (a : Nat) (b : BlockMeta) : State :=
  { s with mem := { s.mem with blocks := Sparse.set (a / 4096) b s.mem.blocks } }

/-- Is the sector at `a` marked POISON? -/
def State.poisoned (s : State) (a : Nat) : Bool := (s.block a).poison.contains (a % 4096 / 64)

/-- Is the aligned word at `a` full (R260)? -/
def State.wordFull (s : State) (a : Nat) : Bool := (s.block a).fe.contains (a % 4096 / 8)

def State.setWordFull (s : State) (a : Nat) (full : Bool) : State :=
  let b := s.block a
  let i := a % 4096 / 8
  s.setBlock a { b with fe := if full then (if b.fe.contains i then b.fe else i :: b.fe) else b.fe.filter (· != i) }

/-- The POISON bit of the sector at `a`. -/
def State.setPoison (s : State) (a : Nat) (p : Bool) : State :=
  let b := s.block a
  let i := a % 4096 / 64
  s.setBlock a { b with poison := if p then (if b.poison.contains i then b.poison else i :: b.poison) else b.poison.filter (· != i) }

/-- A block's record after a data write (R261): by command `cmd` when it may cover the block wholly, else by anyone. -/
def BlockMeta.dataWrite (b : BlockMeta) (whole : Bool) (cmd : Nat) : BlockMeta :=
  let b1 := { b with gen := (b.gen + 1) % 65536, unchecked := true }
  if whole then
    if b.begun.contains cmd then b1
    else if b.isOpen && b.writer != cmd then { b1 with isOpen := false, begun := cmd :: b.begun }
    else { b1 with isOpen := true, writer := cmd, begun := cmd :: b.begun }
  else { b1 with isOpen := false }

/-- The counter of CRC writes discarded at a region's memory (R261). -/
def crcDiscardReg : Region → Nat
  | .hbm j _ => R.HS_CRC_DISCARDED j
  | _ => R.DC_CRC_DISCARDED

/-- A CRC write of command `cmd` at ice's record (R261). -/
def State.crcWrite (s : State) (r : Region) (a cmd crc : Nat) : State :=
  let b := s.block a
  if b.isOpen && b.writer == cmd then s.setBlock a { b with crc := crc, unchecked := false, isOpen := false }
  else s.count (crcDiscardReg r) 1

/-- A plain write of a sector at its home (R234, R237, R261, R265): a settled entry not yet merged is merged first. -/
def State.writeIce (s : State) (a mask : Nat) (data : List Byte) (whole : Bool) (cmd : Nat) (poison : Bool) : State :=
  let merged := s.ice a
  let m0 := if (s.firn.entries.any fun e => e.settled && e.sector == a) then Memory.writeBytes a merged s.mem.cells else s.mem.cells
  let s1 := { s with firn := { s.firn with entries := s.firn.entries.filter (fun e => !(e.settled && e.sector == a)) } }
  let s2 := s1.setCells (Memory.writeMask a mask 0 data m0)
  let s3 := s2.setBlock a ((s2.block a).dataWrite whole cmd)
  if poison then s3.setPoison a true
  else if mask % 2 ^ 64 = 2 ^ 64 - 1 then s3.setPoison a false
  else s3

/-! ## Error correction (R264) -/

/-- What the memory's code finds in a sector on a read or by patrol (R264). -/
def State.eccFind (s : State) (f : EccFinding) : State :=
  let sec := f.addr / 64 * 64
  let r := s.region sec
  let regs := match r with
    | .hbm j _ => some (R.HS_ECC_CE j, R.HS_ECC_UE j, Uk.STACK, j / 5, j)
    | .ddr off => some (R.DC_ECC_CE (s.ddrChannel off), R.DC_ECC_UE (s.ddrChannel off), Uk.DDR, 4, s.ddrChannel off)
    | _ => none
  match regs with
  | none => s
  | some (ce, ue, k, d, i) =>
    let k0 := r.key sec
    let rec0 : FaultRec := { kind := k, die := d, index := i, addr := sec, phys := true, hasAddr := true }
    match f.kind with
    | .correctable =>
      let s1 := (s.count ce 1).life 14 1
      if s.span.ceNoted.contains k0 then s1
      else { s1 with span := { s1.span with ceNoted := k0 :: s1.span.ceNoted } }.raise { rec0 with status := St.MEM_CE, sev := Sev.CORRECTED }
    | .uncorrectable =>
      if s.poisoned k0 then s
      else (((s.setPoison k0 true).count ue 1).life 15 1).raise { rec0 with status := St.MEM_UE, sev := Sev.DEFERRED }

/-- All findings of one access. -/
def State.eccAll (s : State) (fs : List EccFinding) : State := fs.foldl State.eccFind s

end Sys2Proof.Machine
end

