-- ==== Sys2Proof/Machine/Sync.lean ====
section
/-!
DEFINITION. The sync unit (13_quires.md): quire records, operations and their errors, waiters, gatherings, mirrors,
admission of stores.
-/

namespace Sys2Proof.Machine

def Qm.NATIVE : Nat := 0
def Qm.COMPAT : Nat := 1
def Qm.GATHER : Nat := 2
def Qm.MIRROR : Nat := 3

/-- Flag bits of a quire (R369). -/
def Qf.UNDERFLOW : Nat := 0
def Qf.OVERFLOW : Nat := 1
def Qf.SATURATED : Nat := 2
def Qf.OVERRUN : Nat := 3
def Qf.LATE : Nat := 4
def Qf.REFUSED : Nat := 5
def Qf.POLLED : Nat := 6

/-- SRC_OP codes (R369). -/
def Qo.ADD : Nat := 0
def Qo.SUB : Nat := 1
def Qo.ARRIVE : Nat := 2
def Qo.SET : Nat := 3
def Qo.MIRROR : Nat := 4
def Qo.CONSUME : Nat := 5

def State.quire (s : State) (q : Nat) : QuireRec := Sparse.get {} q s.sync.quires
def State.setQuire (s : State) (q : Nat) (r : QuireRec) : State := { s with sync := { s.sync with quires := Sparse.set q r s.sync.quires } }

def QuireRec.setFlag (r : QuireRec) (b : Nat) : QuireRec := { r with flags := r.flags ||| (1 <<< b) }

/-- The source of an operation at the sync unit: one of R340's, or a sync unit, this one or another package's (R386). -/
inductive QSource where
  | src (x : Src)
  | unit (p : Nat)
deriving DecidableEq, Repr

/-- This package's number (R445). -/
def State.pkg (s : State) : Nat := s.fld R.FAB_CFG F.FAB_CFG.PKG

/-- Word 2 of a quire record: source, operation and argument (R369). -/
def State.srcWord (s : State) (x : QSource) (op arg : Nat) : Word :=
  let (k, d, i, p) := match x with
    | .src (.cx d c) => (0, d.val, c.val, s.pkg)
    | .src (.core n) => (1, 0, n.val, s.pkg)
    | .src (.dctl _ k) => (1, 0, k.val, s.pkg)
    | .src .host => (2, 0, 0, s.pkg)
    | .src (.remote p) => (3, 0, 0, p.val)
    | .unit p => (2, 0, 0, p)
  (((((0 : Word).put 1 0 k).put 3 2 d).put 10 4 i).put 23 11 p).put 26 24 op |>.put 63 32 arg

/-- The physical address of a quire's record. -/
def quireAddr (q : Nat) : Nat := 0x7E000000000000 + 64 * q

/-- A record the sync unit places about an operation (R375, R581). -/
def State.quireRecord (s : State) (x : QSource) (status sev q op arg : Nat) : State :=
  let r : FaultRec := { status := status, sev := sev, kind := Uk.SYNC, addr := quireAddr q, phys := true, hasAddr := true, arg0 := s.srcWord x op arg }
  match x with
  | .src (.cx d c) => s.raise { r with part := s.cxPart d c, cx := c.val, cxDie := d.val }
  | .src (.core n) => s.raise { r with part := s.corePart n }
  | .src (.remote p) => s.raise { r with pkg := p.val, hasPkg := true }
  | _ => s.raise r

/-! ## Waiters -/

/-- POOL_USED, POOL_EMPTY and POOL_HIGH brought to the pool (R392). -/
def State.syncShow (s : State) : State :=
  let n := s.sync.waiters.length
  ((s.setFld R.SYNC_STATUS F.SYNC_STATUS.POOL_USED n).setFld R.SYNC_STATUS F.SYNC_STATUS.POOL_EMPTY (if n = 8192 then 1 else 0)).raiseFld
    R.SYNC_STATUS F.SYNC_STATUS.POOL_HIGH n

/-- Does a quire compare DONE as R377 gives for a gathering head or a mirror? -/
def QuireRec.wraps (r : QuireRec) : Bool := (r.mode == Qm.GATHER && r.head) || r.mode == Qm.MIRROR

/-- Is a gate condition true of a quire (R65, R377)? CONSUME is judged by its grant. -/
def QuireRec.gateTrue (r : QuireRec) (cond val : Nat) : Bool :=
  if cond = 0 then r.value == val
  else if cond = 1 then
    (if r.wraps then decide ((BitVec.ofNat 32 r.value - BitVec.ofNat 32 val).toInt ≥ 0) else decide (val ≤ r.value))
  else false

/-- A satisfied waiter: its context's command, or its run-ahead flight, has its gate (R377, R241). -/
def State.wakeWaiter (s : State) (w : Waiter) (granted : Bool) : State :=
  let x := s.cx w.die w.cx
  match x.flight w.slot with
  | some _ => s.setCx w.die w.cx (x.mapFlight w.slot fun f => { f with gateOk := true })
  | none =>
    let s1 := s.setCx w.die w.cx { x with gateHeld := true, consumeHeld := granted, waitSince := s.now }
    if s.cxState w.die w.cx = CxS.WAIT_GATE then s1.setCxState w.die w.cx CxS.READY else s1

/-- Does a waiter wait for a plain gate of quire `q` that is true? -/
def Waiter.ready (w : Waiter) (q : Nat) (r : QuireRec) : Bool :=
  match w.kind with
  | .gate q' cond val => q' == q && cond != 2 && r.gateTrue cond val
  | .fe _ _ => false

/-- Does a waiter wait, ungranted, to CONSUME from quire `q`? -/
def Waiter.consumes (w : Waiter) (q : Nat) : Bool :=
  match w.kind with
  | .gate q' cond _ => q' == q && cond == 2 && !w.granted
  | .fe _ _ => false

/-- The quire's waiters re-evaluated (R377, R378): every true gate is satisfied, oldest first; then one unit is granted to
the oldest CONSUME waiter while VALUE is at least 1, each grant being an operation itself. `fuel` bounds the grants. -/
def State.evalWaiters (q : Nat) : Nat → State → State
  | 0, s => s
  | fuel + 1, s =>
    let r := s.quire q
    let go := s.sync.waiters.filter fun w => w.ready q r
    let s1 : State := { s with sync := { s.sync with waiters := s.sync.waiters.filter fun w => !w.ready q r } }
    let s2 := go.foldl (fun t w => t.wakeWaiter w false) s1
    match s2.sync.waiters.find? (fun w => w.consumes q) with
    | none => s2
    | some w =>
      if r.value = 0 ∨ r.mode = Qm.GATHER ∨ r.mode = Qm.MIRROR then s2
      else
        let r1 := { r with value := r.value - 1, src := s.srcWord (.src (.cx w.die w.cx)) Qo.CONSUME 1, stamp := s.spanNow }
        let s3 := (s2.setQuire q r1).count R.SYNC_OPS 1
        let s4 : State := { s3 with sync := { s3.sync with waiters := s3.sync.waiters.map fun v => if v.index = w.index then { v with granted := true } else v } }
        State.evalWaiters q fuel (s4.wakeWaiter w true)

/-- Contexts whose doorbell quire is `q` are woken from EMPTY (R62). -/
def State.ringDoorbells (s : State) (q : Nat) : State :=
  s.cxKeys.foldl (fun t p =>
    if t.flag (R.CX_CFG p.1 p.2) F.CX_CFG.DB_EN && t.fld (R.CX_CFG p.1 p.2) F.CX_CFG.DB_Q == q then t.cxWake p.1 p.2 else t) s

/-- What follows an effective operation: waiters, doorbells, the pool's report (R374, R62). -/
def State.afterOp (s : State) (q : Nat) : State :=
  ((State.evalWaiters q (s.sync.waiters.length + 1) s).ringDoorbells q).syncShow

/-- An effective operation leaves `r` in the quire, with words 2 and 3 (R374), counted, and its waiters re-evaluated. -/
def State.effective (s : State) (x : QSource) (op arg q : Nat) (r : QuireRec) : State :=
  ((s.setQuire q { r with src := s.srcWord x op arg, stamp := s.spanNow }).count R.SYNC_OPS 1).afterOp q

/-- A refused operation: its flag, the error count, and its report under R375. -/
def State.quireRefuse (s : State) (x : QSource) (flag status q op arg slot : Nat) : State :=
  let s1 := (s.setQuire q ((s.quire q).setFlag flag)).count R.SYNC_ERRORS 1
  match x with
  | .src (.cx d c) =>
    if status = St.QUIRE_UNDERFLOW ∨ status = St.GATHER_OVERRUN then s1.cxStallDone d c status slot
    else s1.quireRecord x status Sev.DEFERRED q op arg
  | _ => s1.quireRecord x status Sev.DEFERRED q op arg

/-! ## Gatherings (R380-R386) -/

/-- The next number of the pair toward package `p` (R426). -/
def State.takePseq (s : State) (p : Nat) : Nat × State :=
  let x := Sparse.get ({} : FabPair) p s.fab.pairs
  (x.nextOut, { s with fab := { s.fab with pairs := Sparse.set p { x with nextOut := (x.nextOut + 1) % 16777216 } s.fab.pairs } })

/-- A mirror update of quire `q` toward package `p`, or lost because `p` is dead or no member (R386, R367). -/
def State.mirrorTo (s : State) (q done p : Nat) : State :=
  if h : p < 8192 then
    if p = s.pkg ∨ !s.pkgIn p then s
    else
      let (n, s1) := s.takePseq p
      let g : QSig := { id := s1.mem.nextId, src := .remote ⟨s.pkg % 8192, Nat.mod_lt _ (by decide)⟩, pkg := some ⟨p, h⟩, q := q, op := .add, arg := done, pseq := some n, mirror := true }
      { s1 with sync := { s1.sync with qsigs := s1.sync.qsigs ++ [g] }, mem := { s1.mem with nextId := s1.mem.nextId + 1 } }
  else s

/-- A mirror update of quire `q` carrying DONE, to its mirror set (R386). -/
def State.sendMirror (s : State) (q : Nat) (r : QuireRec) : State :=
  (List.range r.mirrorCount).foldl (fun t i => t.mirrorTo q r.value (r.mirrorBase + i)) s

/-- The round completes (R382), and the next at once if all its arrivals are in. -/
def State.completeRounds (q : Nat) : Nat → State → State
  | 0, s => s
  | fuel + 1, s =>
    let h := s.quire q
    let t := s.quire (q + 1)
    if t.value < h.participants then s
    else
      let dl := if h.deadline = 0 then 0 else if h.dlStep = 0 then 0 else h.deadline + BitVec.ofNat 64 h.dlStep
      let h1 := { h with value := (h.value + 1) % 2 ^ 32, deadline := dl, lateNoted := false }
      let s1 := (((s.setQuire q h1).setQuire (q + 1) { t with value := t.arrN1, arrN1 := 0 }).count R.SYNC_ROUNDS 1).sendMirror q h1
      State.completeRounds q fuel s1

/-- An ARRIVE r at a gathering head (R381). -/
def State.arriveHead (s : State) (x : QSource) (q r slot : Nat) : State :=
  let h := s.quire q
  let t := s.quire (q + 1)
  let d := (BitVec.ofNat 32 r - BitVec.ofNat 32 h.value).toInt
  if d = 0 then
    let s1 := s.setQuire (q + 1) { t with value := t.value + 1 }
    ((State.completeRounds q 3 s1).effective x Qo.ARRIVE r q ((State.completeRounds q 3 s1).quire q)).afterOp (q + 1)
  else if d = 1 ∧ t.arrN1 < h.participants then
    ((s.setQuire (q + 1) { t with arrN1 := t.arrN1 + 1 }).effective x Qo.ARRIVE r q h).afterOp (q + 1)
  else s.quireRefuse x Qf.OVERRUN St.GATHER_OVERRUN q Qo.ARRIVE r slot

/-- ADD v at a quire (R374). -/
def State.quireAdd (s : State) (x : QSource) (q v slot : Nat) : State :=
  let r := s.quire q
  if r.mode = Qm.NATIVE then
    (if r.value + v < 2 ^ 32 then s.effective x Qo.ADD v q { r with value := r.value + v }
     else s.quireRefuse x Qf.OVERFLOW St.QUIRE_OVERFLOW q Qo.ADD v slot)
  else if r.mode = Qm.COMPAT then
    (if r.value + v < 2 ^ 32 then s.effective x Qo.ADD v q { r with value := r.value + v }
     else (s.effective x Qo.ADD v q ({ r with value := 2 ^ 32 - 1 }.setFlag Qf.SATURATED)).count R.SYNC_ERRORS 1)
  else s.quireRefuse x Qf.REFUSED St.QUIRE_MODE q Qo.ADD v slot

/-- SUB v from a quire (R374). -/
def State.quireSub (s : State) (x : QSource) (q v slot : Nat) : State :=
  let r := s.quire q
  if r.mode = Qm.NATIVE then
    (if v ≤ r.value then s.effective x Qo.SUB v q { r with value := r.value - v }
     else s.quireRefuse x Qf.UNDERFLOW St.QUIRE_UNDERFLOW q Qo.SUB v slot)
  else if r.mode = Qm.COMPAT then
    (if v ≤ r.value then s.effective x Qo.SUB v q { r with value := r.value - v }
     else (s.effective x Qo.SUB v q ({ r with value := 0 }.setFlag Qf.SATURATED)).count R.SYNC_ERRORS 1)
  else s.quireRefuse x Qf.REFUSED St.QUIRE_MODE q Qo.SUB v slot

/-- ARRIVE r at a quire (R374, R381). -/
def State.quireArrive (s : State) (x : QSource) (q r slot : Nat) : State :=
  if (s.quire q).mode = Qm.GATHER ∧ (s.quire q).head then s.arriveHead x q r slot
  else s.quireRefuse x Qf.REFUSED St.QUIRE_MODE q Qo.ARRIVE r slot

/-- SET v (R374): a head's DONE, its arrivals to zero. -/
def State.quireSet (s : State) (x : QSource) (q v : Nat) : State :=
  let r := s.quire q
  if r.mode = Qm.GATHER then
    if r.head then
      let t := s.quire (q + 1)
      ((s.setQuire (q + 1) { t with value := 0, arrN1 := 0 }).effective x Qo.SET v q { r with value := v, lateNoted := false }).afterOp (q + 1)
    else s.quireRefuse x Qf.REFUSED St.QUIRE_MODE q Qo.SET v 0
  else s.effective x Qo.SET v q { r with value := v }

/-- MIRROR d, from the sync unit of package `p` (R374, R386). -/
def State.quireMirror (s : State) (p q d : Nat) : State :=
  let r := s.quire q
  if r.mode = Qm.MIRROR then
    (if 0 < (BitVec.ofNat 32 d - BitVec.ofNat 32 r.value).toInt then s.effective (.unit p) Qo.MIRROR d q { r with value := d }
     else s.effective (.unit p) Qo.MIRROR d q r)
  else s.quireRefuse (.unit p) Qf.REFUSED St.QUIRE_MODE q Qo.MIRROR d 0

/-- A signal's operation at its quire (R65, R374). -/
def State.quireSignal (s : State) (x : QSource) (op : QOp) (q arg slot : Nat) : State :=
  match op with
  | .add => s.quireAdd x q arg slot
  | .sub => s.quireSub x q arg slot
  | .arrive => s.quireArrive x q arg slot

/-! ## Admission and stores (R371, R372, R383) -/

/-- Is quire `q` in the range of partition `p` (R394)? -/
def State.inRange (s : State) (p q : Nat) : Bool :=
  decide (s.fld (R.SYNC_RANGE p) F.SYNC_RANGE.BASE ≤ q) &&
    decide (q < s.fld (R.SYNC_RANGE p) F.SYNC_RANGE.BASE + s.fld (R.SYNC_RANGE p) F.SYNC_RANGE.COUNT)

/-- Does some partition's range with REMOTE = 1 hold quire `q` (R372)? -/
def State.remoteOk (s : State) (q : Nat) : Bool :=
  (List.range 16).any fun p => s.inRange p q && s.flag (R.SYNC_RANGE p) F.SYNC_RANGE.REMOTE

/-- The source of a store to the quire region (R371). -/
def storeSource : StoreSrc → Src
  | .agent (.core n) => .core n
  | .agent (.dctl d k) => .dctl d k
  | .agent .host => .host
  | .remote p => .remote p

/-- May the source store ADD, SUB or ARRIVE to quire `q` (R371, R372)? -/
def State.mayCount (s : State) (x : StoreSrc) (q : Nat) : Bool :=
  match x with
  | .agent (.core n) => s.inRange (s.corePart n) q
  | .agent _ => true
  | .remote _ => s.remoteOk q

/-- May the source store SET, CONFIG, DEADLINE, DL_STEP or clear flags (R371)? -/
def State.mayManage (s : State) (x : StoreSrc) : Bool :=
  match x with
  | .agent (.core n) => s.corePart n == 0
  | .agent .host => true
  | _ => false

/-- A store that is not allowed its source, or a refused CONFIG: REFUSED and an INFO QUIRE_DENIED record (R371, R383). -/
def State.quireDeny (s : State) (x : StoreSrc) (q op arg : Nat) : State :=
  (s.setQuire q ((s.quire q).setFlag Qf.REFUSED)).quireRecord (.src (storeSource x)) St.QUIRE_DENIED Sev.INFO q op arg

/-- A store to a quire: QUIRE_ADD (R374). -/
def storeAdd (x : StoreSrc) (q : Quire) (v : BitVec 32) (s : State) : State :=
  if s.mayCount x q then s.quireAdd (.src (storeSource x)) q v.toNat 0 else s.quireDeny x q Qo.ADD v.toNat

/-- QUIRE_ADD (R374). -/
def execQuireAdd (x : StoreSrc) (q : Quire) (v : BitVec 32) (s : State) : Host.Outcome State Fault Refusal := s.whileOn (storeAdd x q v s)

/-- A store to a quire: QUIRE_SUB (R374). -/
def storeSub (x : StoreSrc) (q : Quire) (v : BitVec 32) (s : State) : State :=
  if s.mayCount x q then s.quireSub (.src (storeSource x)) q v.toNat 0 else s.quireDeny x q Qo.SUB v.toNat

/-- QUIRE_SUB (R374). -/
def execQuireSub (x : StoreSrc) (q : Quire) (v : BitVec 32) (s : State) : Host.Outcome State Fault Refusal := s.whileOn (storeSub x q v s)

/-- A store to a quire: ARRIVE (R381). -/
def storeArrive (x : StoreSrc) (q : Quire) (r : BitVec 32) (s : State) : State :=
  if s.mayCount x q then s.quireArrive (.src (storeSource x)) q r.toNat 0 else s.quireDeny x q Qo.ARRIVE r.toNat

/-- ARRIVE (R381). -/
def execArrive (x : StoreSrc) (q : Quire) (r : BitVec 32) (s : State) : Host.Outcome State Fault Refusal := s.whileOn (storeArrive x q r s)

/-- A store to a quire: SET (R374). -/
def storeSet (x : StoreSrc) (q : Quire) (v : BitVec 32) (s : State) : State :=
  if s.mayManage x then s.quireSet (.src (storeSource x)) q v.toNat else s.quireDeny x q Qo.SET v.toNat

/-- SET (R374). -/
def execSet (x : StoreSrc) (q : Quire) (v : BitVec 32) (s : State) : Host.Outcome State Fault Refusal := s.whileOn (storeSet x q v s)

/-- Has the quire a waiter record (R383)? -/
def State.hasWaiters (s : State) (q : Nat) : Bool :=
  s.sync.waiters.any fun w => match w.kind with
    | .gate q' _ _ => q' == q
    | .fe _ _ => false

/-- The tally of a head being reconfigured, and the clearing of a head that leaves GATHER (R383). -/
def State.configure (s : State) (q : Nat) (v : Word) : State :=
  let m := v.get 1 0
  let r := s.quire q
  if m = r.mode then
    if m = Qm.GATHER then
      let h := { r with participants := v.get 25 2, mirrorBase := v.get 38 26, mirrorCount := v.get 52 39 }
      let s2 := State.completeRounds q 3 (s.setQuire q h)
      let t := s2.quire (q + 1)
      let s3 := if h.participants < t.arrN1 then
          (s2.setQuire (q + 1) { t with arrN1 := h.participants }).setQuire q ((s2.quire q).setFlag Qf.OVERRUN) else s2
      if s3.quire q = h then s3 else (s3.afterOp q).afterOp (q + 1)
    else s
  else
    let s1 := if r.mode = Qm.GATHER then s.setQuire (q + 1) {} else s
    let r1 := { r with mode := m, value := 0, head := false, arrN1 := 0, deadline := 0, dlStep := 0, participants := 0, mirrorBase := 0,
                       mirrorCount := 0, lateNoted := false }
    if m = Qm.GATHER then
      (s1.setQuire q { r1 with head := true, participants := v.get 25 2, mirrorBase := v.get 38 26, mirrorCount := v.get 52 39 }).setQuire
        (q + 1) { s1.quire (q + 1) with mode := Qm.GATHER, head := false, value := 0, arrN1 := 0, deadline := 0, dlStep := 0, participants := 0, mirrorBase := 0, mirrorCount := 0 }
    else s1.setQuire q r1

/-- A CONFIG store's value at quire `q` (R383): refused with QUIRE_DENIED or SYNC_CFG_BUSY, or carried out. -/
def State.quireConfig (s : State) (x : StoreSrc) (q : Nat) (v : Word) : State :=
  let m := v.get 1 0
  let r := s.quire q
  let tally := r.mode == Qm.GATHER && !r.head
  let hd := r.mode == Qm.GATHER && r.head
  if (q % 2 = 1 ∧ m = Qm.GATHER) ∨ tally ∨ (m = Qm.GATHER ∧ v.get 25 2 = 0) ∨ (m = Qm.MIRROR ∧ hd) then s.quireDeny x q 0 (v.get 31 0)
  else if m ≠ r.mode ∧ (s.hasWaiters q || ((hd || m == Qm.GATHER) && s.hasWaiters (q + 1))) then
    s.quireRecord (.src (storeSource x)) St.SYNC_CFG_BUSY Sev.INFO q 0 (v.get 31 0)
  else s.configure q v

/-- A store to a quire: CONFIG (R383). -/
def storeConfig (x : StoreSrc) (q : Quire) (v : Word) (s : State) : State :=
  if s.mayManage x then s.quireConfig x q v else s.quireDeny x q 0 (v.get 31 0)

/-- CONFIG (R383). -/
def execConfig (x : StoreSrc) (q : Quire) (v : Word) (s : State) : Host.Outcome State Fault Refusal := s.whileOn (storeConfig x q v s)

/-- Is the quire a gathering head? -/
def State.isHead (s : State) (q : Nat) : Bool := (s.quire q).mode == Qm.GATHER && (s.quire q).head

/-- A store to a quire: DEADLINE_STORE (R371, R384). -/
def storeDeadline (x : StoreSrc) (q : Quire) (v : Word) (s : State) : State :=
  if s.mayManage x then
      (if s.isHead q then s.setQuire q { s.quire q with deadline := v, lateNoted := false }
       else s.quireRefuse (.src (storeSource x)) Qf.REFUSED St.QUIRE_MODE q 0 (v.get 31 0) 0)
    else s.quireDeny x q 0 (v.get 31 0)

/-- DEADLINE_STORE (R371, R384). -/
def execDeadlineStore (x : StoreSrc) (q : Quire) (v : Word) (s : State) : Host.Outcome State Fault Refusal := s.whileOn (storeDeadline x q v s)

/-- A store to a quire: DL_STEP_STORE (R371). -/
def storeDlStep (x : StoreSrc) (q : Quire) (v : Word) (s : State) : State :=
  if s.mayManage x then
      (if s.isHead q then s.setQuire q { s.quire q with dlStep := v.get 39 0 }
       else s.quireRefuse (.src (storeSource x)) Qf.REFUSED St.QUIRE_MODE q 0 (v.get 31 0) 0)
    else s.quireDeny x q 0 (v.get 31 0)

/-- DL_STEP_STORE (R371). -/
def execDlStepStore (x : StoreSrc) (q : Quire) (v : Word) (s : State) : Host.Outcome State Fault Refusal := s.whileOn (storeDlStep x q v s)

/-- A store to a quire: FLAG_CLEAR (R371). -/
def storeFlags (x : StoreSrc) (q : Quire) (v : Word) (s : State) : State :=
  if s.mayManage x then
      s.setQuire q { s.quire q with flags := (BitVec.ofNat 8 (s.quire q).flags &&& ~~~(BitVec.ofNat 8 (v.get 7 0))).toNat }
    else s.quireDeny x q 0 (v.get 31 0)

/-- FLAG_CLEAR (R371). -/
def execFlagClear (x : StoreSrc) (q : Quire) (v : Word) (s : State) : Host.Outcome State Fault Refusal := s.whileOn (storeFlags x q v s)

/-- Any other write to the region is ignored, with an INFO record (R371). -/
def storeBad (x : StoreSrc) (off : Nat) (s : State) : State :=
  s.quireRecord (.src (storeSource x)) St.QUIRE_ACCESS Sev.INFO (off % 0x100000 / 64) 0 0

/-- QUIRE_ACCESS (R371). -/
def execQuireAccess (x : StoreSrc) (off : Nat) (s : State) : Host.Outcome State Fault Refusal := s.whileOn (storeBad x off s)

/-- An aligned 8-byte store of `v` at offset `off` of the quire region (R371). -/
def quireStore (x : StoreSrc) (off : Nat) (v : Word) (s : State) : State :=
  let q : Quire := ⟨off / 64 % 16384, Nat.mod_lt _ (by decide)⟩
  let a : BitVec 32 := BitVec.ofNat 32 v.toNat
  match off % 64 / 8 with
  | 0 => storeAdd x q a s
  | 1 => storeSub x q a s
  | 2 => storeArrive x q a s
  | 3 => storeSet x q a s
  | 4 => storeConfig x q v s
  | 5 => storeDeadline x q v s
  | 6 => storeDlStep x q v s
  | _ => storeFlags x q v s

/-- A masked write of the sector at offset `off` of the quire region: a store of each word it covers (R371). -/
def quireSector (x : StoreSrc) (off mask : Nat) (data : List Byte) (s : State) : State :=
  (List.range 8).foldl (fun t i =>
    let m := mask >>> (8 * i) % 256
    if m = 0 then t
    else if m = 255 then quireStore x (off + 8 * i) (BitVec.ofNat 64 (((data.drop (8 * i)).take 8).reverse.foldl (fun a b => a * 256 + b.toNat) 0)) t
    else storeBad x (off + 8 * i) t) s

/-- The waiters on a quire, oldest first. -/
def State.waitersOf (s : State) (q : Nat) : List Waiter :=
  s.sync.waiters.filter fun w => match w.kind with
    | .gate q' _ _ => q' == q
    | .fe _ _ => false

/-- A word of a quire's record as a load reads it (R369). -/
def State.quireWord (s : State) (q i : Nat) : Word :=
  let r := s.quire q
  let ws := s.waitersOf q
  let hd := r.mode == Qm.GATHER && r.head
  match i with
  | 0 => (((0 : Word).put 31 0 r.value).put 33 32 r.mode |>.put 34 34 (if hd then 1 else 0)).put 47 40 r.flags
  | 1 => (((0 : Word).put 13 0 ws.length).put 26 14 ((ws.head?.map (·.index)).getD 0)).put 39 27 ((ws.getLast?.map (·.index)).getD 0)
  | 2 => r.src
  | 3 => r.stamp
  | 4 => if hd then (((0 : Word).put 23 0 r.participants).put 36 24 r.mirrorBase).put 50 37 r.mirrorCount
         else if r.mode = Qm.GATHER then BitVec.ofNat 64 r.arrN1 else 0
  | 6 => if hd then r.deadline else 0
  | 7 => if hd then BitVec.ofNat 64 r.dlStep else 0
  | _ => 0

/-- `n` bytes of the quire region from offset `off`. -/
def State.quireBytes (s : State) (off n : Nat) : List Byte :=
  (List.range n).map fun i => BitVec.ofNat 8 ((s.quireWord ((off + i) / 64) ((off + i) % 64 / 8)).toNat >>> (8 * ((off + i) % 8)))

/-- Span time reaching a head's DEADLINE with its round open (R384). -/
def gatherDeadline (q : Nat) (s : State) : State :=
  let h := s.quire q
  if s.isHead q && h.deadline != 0 && stampReached h.deadline s.spanNow && !h.lateNoted then
    (s.setQuire q ({ h with lateNoted := true }.setFlag Qf.LATE)).raise
      { status := St.GATHER_LATE, sev := Sev.DEFERRED, kind := Uk.SYNC, addr := quireAddr q, phys := true, hasAddr := true,
        arg0 := BitVec.ofNat 64 h.value, arg1 := BitVec.ofNat 64 ((s.quire (q + 1)).value + h.participants * 2 ^ 32) }
  else s

/-- GATHER_DEADLINE (R384). -/
def execGatherDeadline (t : Moment) (q : Quire) (s : State) : Host.Outcome State Fault Refusal :=
  s.whileOn (gatherDeadline q (s.atTime t))

/-! ## Placing a waiter (R72, R379) -/

/-- The lowest waiter index not in use. -/
def State.freeWaiter (s : State) : Nat :=
  ((List.range 8192).find? fun i => !(s.sync.waiters.any fun w => w.index == i)).getD 0

/-- A wait that finds the pool empty is polled (R72, R379). -/
def State.pollWait (s : State) (d : Die) (c : Cx) (k : WaitKind) : State :=
  let s1 := (s.count (R.CD_WAIT_POLLED d) 1).count R.SYNC_POOL_MISS 1
  let s2 := s1.setCx d c { s1.cx d c with polled := true, waitSince := s.now }
  match k with
  | .gate q _ _ => s2.setQuire q ((s2.quire q).setFlag Qf.POLLED)
  | .fe _ _ => s2

/-- A waiter record placed, its condition checked once (R377), or the wait polled. -/
def State.placeWaiter (s : State) (d : Die) (c : Cx) (slot : Nat) (k : WaitKind) : State :=
  if 8192 ≤ s.sync.waiters.length then s.pollWait d c k
  else
    let s1 : State := { s with sync := { s.sync with waiters := s.sync.waiters ++ [{ index := s.freeWaiter, die := d, cx := c, slot := slot, kind := k }] } }
    match k with
    | .gate q _ _ => (State.evalWaiters q (s1.sync.waiters.length + 1) s1).syncShow
    | .fe _ _ => s1.syncShow

/-- Is a waiter of a context's command at a slot in the pool? -/
def Waiter.of (w : Waiter) (d : Die) (c : Cx) (slot : Nat) : Bool := w.die == d && w.cx == c && w.slot == slot

/-- The waiter of a context's command freed; a granted unit is returned, as an ADD 1 from the sync unit, when asked
(R378, R379). -/
def State.freeWaiterOf (s : State) (d : Die) (c : Cx) (slot : Nat) (giveBack : Bool) : State :=
  let mine := s.sync.waiters.filter fun w => w.of d c slot
  let s1 : State := { s with sync := { s.sync with waiters := s.sync.waiters.filter fun w => !w.of d c slot } }
  let s2 := if giveBack then
      mine.foldl (fun t w => match w.kind with
        | .gate q _ _ => if w.granted then t.quireAdd (.unit s.pkg) q 1 0 else t
        | .fe _ _ => t) s1
    else s1
  s2.syncShow

end Sys2Proof.Machine
end

