-- ==== Sys2Proof/Machine/Coherence.lean ====
section
/-!
DEFINITION. Homes, the directory, the remote caches and the messages between them (11_coherence.md), the life of a
write (12_ordering.md), and the accesses the engines and cores make through them. A line is named by the key of its
memory (`Region.key`): the stack-linear address, or the physical address outside HBM.
-/

namespace Sys2Proof.Machine

/-! ## Sources that lose a write (R341, R353, R359) -/

def State.core (s : State) (n : Nat) : CoreSt := Sparse.get {} n s.cores
def State.setCore (s : State) (n : Nat) (k : CoreSt) : State := { s with cores := Sparse.set n k s.cores }

/-- A write of `src` by engine command `cmd` toward package `p` is lost: the source's loss latch is set, a core raises
interrupt 23 (R353, R359). -/
def State.loseWrite (s : State) (src : Src) (cmd : Nat) (p : Pkg) : State :=
  match src with
  | .cx d c =>
    let x := s.cx d c
    s.setCx d c { x with loss := (match x.loss with | some q => some q | none => some p), flights := x.flights.map fun f => if f.id = cmd then { f with lostWrite := true } else f }
  | .core n =>
    let k := s.core n
    let s1 := s.setCore n { k with loss := (match k.loss with | some q => some q | none => some p), irq23 := true }
    if s.flag (R.C_FENCE n) F.C_FENCE.LOST then s1
    else (s1.setFld (R.C_FENCE n) F.C_FENCE.LOST 1).setFld (R.C_FENCE n) F.C_FENCE.FIRST_PKG p.val
  | _ => s

/-- A write is lost: its source's latch is set, or, for a write another package sent, the source is told by REFUSE (R428). -/
def State.lostWr (s : State) (w : Wr) (p : Pkg) : State :=
  match w.src with
  | .remote q => { s with fab := { s.fab with sent := s.fab.sent ++ [.refuse q.val (w.pseq.getD 0)] } }
  | _ => s.loseWrite w.src w.cmd p

/-- This package's number as a destination. -/
def State.ownPkg (s : State) : Pkg := ⟨s.pkg % 8192, Nat.mod_lt _ (by decide)⟩

/-! ## Copies (R312) -/

def State.dirOf (s : State) (line : Nat) : Option DirSt := Sparse.find line s.mem.dir

def State.setDir (s : State) (line : Nat) (x : Option DirSt) : State :=
  { s with mem := { s.mem with dir := match x with
    | some (.sharers []) => Sparse.del line s.mem.dir
    | some v => Sparse.set line v s.mem.dir
    | none => Sparse.del line s.mem.dir } }

/-- The agents that hold tracked copies of a line. -/
def State.copies (s : State) (line : Nat) : List CAgent :=
  match s.dirOf line with
  | none => []
  | some (.sharers l) => l
  | some (.owner a) => [a]

/-- A remote cache beside its registers. -/
def State.rc (s : State) (d : Nat) : RcSt := Sparse.get {} d s.mem.rc
def State.setRc (s : State) (d : Nat) (r : RcSt) : State := { s with mem := { s.mem with rc := Sparse.set d r s.mem.rc } }

/-- The sector of a remote cache at a line, if it is there (R323). -/
def RcSt.sector (r : RcSt) (line : Nat) : Option RcSector :=
  match r.tags.find? (fun t => t.addr == line / 256 * 256) with
  | none => none
  | some t => Sparse.find (line / 64 % 4) t.sectors

/-- The cache with one sector removed. -/
def RcSt.drop (r : RcSt) (line : Nat) : RcSt :=
  { r with tags := r.tags.map fun t => if t.addr = line / 256 * 256 then { t with sectors := Sparse.del (line / 64 % 4) t.sectors } else t }

/-- A hit sets the way's age to 0 (R324). -/
def RcSt.touch (r : RcSt) (line : Nat) : RcSt :=
  { r with tags := r.tags.map fun t => if t.addr = line / 256 * 256 then { t with age := 0 } else t }

/-- The lowest way below 16 that no tag of a set uses. -/
def freeWay (ts : List RcTag) : Option Nat := (List.range 16).find? fun w => !(ts.any fun t => t.way == w)

/-- The victim of a full set (R324): all ways age together until one has age 3; then the lowest-numbered of age 3. -/
def victimWay (ts : List RcTag) : Nat :=
  let m := ts.foldl (fun a t => max a t.age) 0
  ((List.range 16).find? fun w => ts.any fun t => t.way == w && t.age == m).getD 0

/-- A sector filled (R323, R324): at age 2, or 3 for a streaming fill. -/
def RcSt.fill (r : RcSt) (line : Nat) (x : RcSector) (streaming : Bool) : RcSt :=
  let a := line / 256 * 256
  let i := line / 64 % 4
  if r.tags.any (fun t => t.addr == a) then
    { r with tags := r.tags.map fun t => if t.addr = a then { t with sectors := Sparse.set i x t.sectors } else t }
  else
    let set := line / 256 % 12288
    let mine := r.tags.filter fun t => t.addr / 256 % 12288 == set
    let age := if streaming then 3 else 2
    match freeWay mine with
    | some w => { r with tags := r.tags ++ [{ addr := a, way := w, age := age, sectors := [(i, x)] }] }
    | none =>
      let v := victimWay mine
      let m := mine.foldl (fun b t => max b t.age) 0
      let rest := r.tags.filterMap fun t =>
        if t.addr / 256 % 12288 = set then (if t.way = v then none else some { t with age := min 3 (t.age + (3 - m)) }) else some t
      { r with tags := rest ++ [{ addr := a, way := v, age := age, sectors := [(i, x)] }] }

/-- One agent's copy of a line dropped. -/
def State.dropCopy (s : State) (a : CAgent) (line : Nat) : State :=
  match a with
  | .cores => { s with mem := { s.mem with coreLines := Sparse.del line s.mem.coreLines } }
  | .host => { s with mem := { s.mem with hostLines := Sparse.del line s.mem.hostLines } }
  | .cd d => s.setRc d ((s.rc d).drop line)

/-- The line CORES or HOST holds. -/
def State.heldLine (s : State) (a : CAgent) (line : Nat) : Option CLine :=
  match a with
  | .cores => Sparse.find line s.mem.coreLines
  | .host => Sparse.find line s.mem.hostLines
  | .cd _ => none

def State.setHeld (s : State) (a : CAgent) (line : Nat) (x : CLine) : State :=
  match a with
  | .cores => { s with mem := { s.mem with coreLines := Sparse.set line x s.mem.coreLines } }
  | .host => { s with mem := { s.mem with hostLines := Sparse.set line x s.mem.hostLines } }
  | .cd _ => s

/-- Data an owner returns, written at the home (WB, SNP_DATA); the block's record changed when ownership was granted. -/
def State.returnData (s : State) (line : Nat) (data : List Byte) : State := s.setCells (Memory.writeBytes line data s.mem.cells)

/-- An owner's dirty data returned to the home, the owner keeping a clean copy (SNP_SHARE). -/
def State.homeShare (s : State) (line : Nat) : State :=
  match s.dirOf line with
  | some (.owner a) =>
    let s0 := if a = .host then s.count R.HL_BISNP 1 else s
    match s0.heldLine a line with
    | some x => ((if x.dirty then s0.returnData line x.data else s0).setHeld a line { x with dirty := false }).setDir line (some (.sharers [a]))
    | none => s0.setDir line none
  | _ => s

/-- Every tracked copy of a line but `keep`'s invalidated, an owner's dirty data taken back first (SNP_INV, SNP_GET). -/
def State.homeInval (s : State) (line : Nat) (keep : Option CAgent) : State :=
  let s0 := s.homeShare line
  let l := s0.copies line
  let s1 := if l.contains .host ∧ keep ≠ some .host ∧ s.dirOf line ≠ some (.owner .host) then s0.count R.HL_BISNP 1 else s0
  let s2 := (l.filter fun a => some a ≠ keep).foldl (fun t a => t.dropCopy a line) s1
  s2.setDir line (some (.sharers (l.filter fun a => some a = keep)))

/-- A core's reservation on the granule of a line is lost when another agent owns or writes it (R402). -/
def State.breakResv (s : State) (line : Nat) (by_ : Option Nat) : State :=
  { s with cores := s.cores.map fun p =>
      if p.2.resv = some (line / 128) ∧ by_ ≠ some p.1 then (p.1, { p.2 with resv := none, waitWrs := none }) else p }

/-- CORES or HOST obtains a line exclusive (RD_OWN): the block becomes UNCHECKED at the grant (R261). -/
def State.homeOwn (s : State) (a : CAgent) (line : Nat) : State :=
  if s.dirOf line = some (.owner a) then s
  else
    let s1 := s.homeInval line (some a)
    let s2 := s1.setHeld a line { data := s1.ice line, dirty := false }
    (s2.setBlock line ((s2.block line).dataWrite false 0)).setDir line (some (.owner a))

/-- An agent obtains a tracked shared copy (RD_SHARED). -/
def State.homeShared (s : State) (a : CAgent) (line : Nat) : State :=
  if s.dirOf line = some (.owner a) then s
  else
    let s1 := s.homeShare line
    let l := s1.copies line
    let s2 := if l.contains a then s1 else s1.setDir line (some (.sharers (l ++ [a])))
    match s2.heldLine a line with
    | some _ => s2
    | none => s2.setHeld a line { data := s2.ice line, dirty := false }

/-! ## Writes in flight (R341-R344) -/

/-- A full sector mask. -/
def fullMask : Nat := 2 ^ 64 - 1

/-- The mask of `n` bytes from byte `o` of a sector. -/
def byteMask (o n : Nat) : Nat := ((2 ^ n - 1) <<< o) % 2 ^ 64

/-- Bytes placed at offset `o` of a sector. -/
def atOffset (o : Nat) (bs : List Byte) : List Byte := List.replicate o 0 ++ bs ++ List.replicate (64 - o - bs.length) 0

/-- A remote cache as a write of its own die passes it (R322): a bulk copy is updated, a coherent copy dropped. -/
def State.rcPass (s : State) (d : Die) (line mask : Nat) (data : List Byte) : State :=
  match (s.rc d).sector line with
  | none => s
  | some x =>
    if x.bulk then
      s.setRc d { s.rc d with tags := (s.rc d).tags.map fun t =>
        if t.addr = line / 256 * 256 then { t with sectors := Sparse.set (line / 64 % 4) { x with data := overlay mask 0 x.data data } t.sectors } else t }
    else (s.setRc d ((s.rc d).drop line)).setDir line (some (.sharers ((s.copies line).filter fun a => a ≠ .cd d)))

/-- Does the source sit on the die (its own stacks and scratchpad need no message)? -/
def Src.die : Src → Option Die
  | .cx d _ => some d
  | .dctl d _ => some d
  | _ => none

/-- A sector written at its home, once no tracked copy stands in the way (R315). -/
def State.acceptAt (s : State) (line mask : Nat) (data : List Byte) (whole : Bool) (cmd : Nat) (poison : Bool) : State :=
  match s.region line with
  | .hbm _ _ => (s.homeInval line none).writeIce line mask data whole cmd poison |>.breakResv line none
  | .ddr _ => (s.homeInval line none).writeIce line mask data whole cmd poison |>.breakResv line none
  | .scr _ _ =>
    let s1 := s.setCells (Memory.writeMask line mask 0 data s.mem.cells)
    if poison then { s1 with mem := { s1.mem with scrPoison := if s1.mem.scrPoison.contains line then s1.mem.scrPoison else line :: s1.mem.scrPoison } }
    else if mask = fullMask then { s1 with mem := { s1.mem with scrPoison := s1.mem.scrPoison.filter (· != line) } }
    else s1
  | _ => s

/-- Is a write of `src` to `dst` sent and not accepted? A later one is not accepted before it (R342). -/
def State.behind (s : State) (src : Src) (dst : Dst) : Bool :=
  s.mem.wrs.any fun v => v.src == src && v.dst == dst && v.stage == .sent

/-- One sector write, or CRC write, by a source (R341): to its own die's scratchpad or untracked memory, with none of its
writes there before it, it is accepted at once; a destination out of service loses it; otherwise it is sent. The address is
its memory's key. -/
def State.sendWrite (s : State) (w : Wr) : State :=
  let r := s.region w.addr
  if s.absent r then s.loseWrite w.src w.cmd (match r.dst with | .pkg p => p | _ => s.ownPkg)
  else
    let own := !s.behind w.src r.dst && (match w.src.die, r with
      | some d, .scr e _ => d.val == e
      | some d, .hbm j _ => d.val == j / 5 && w.firn == none && s.copies w.addr == [] && !s.held r
      | _, _ => false)
    let s0 := match w.src, w.crc with
      | .cx d _, none => s.rcPass d w.addr w.mask w.data
      | _, _ => s
    if own then
      (match w.crc with
       | some k => s0.crcWrite r w.addr w.cmd k
       | none => s0.acceptAt w.addr w.mask w.data w.whole w.cmd w.poison)
    else
      let (n, s1) := match r.dst with
        | .pkg p => (some (s0.takePseq p.val).1, (s0.takePseq p.val).2)
        | _ => (none, s0)
      { s1 with mem := { s1.mem with wrs := s1.mem.wrs ++ [{ w with id := s1.mem.nextId, dst := r.dst, stage := .sent, pseq := n }], nextId := s1.mem.nextId + 1 } }

/-- The write in flight with an id. -/
def State.wr (s : State) (id : Nat) : Option Wr := s.mem.wrs.find? fun w => w.id == id

def State.setWr (s : State) (id : Nat) (g : Wr → Wr) : State :=
  { s with mem := { s.mem with wrs := s.mem.wrs.map fun w => if w.id = id then g w else w } }

def State.dropWr (s : State) (id : Nat) : State := { s with mem := { s.mem with wrs := s.mem.wrs.filter fun w => w.id != id } }

/-- Is the write the oldest unaccepted one of its source to its destination (R342)? -/
def State.wrFirst (s : State) (w : Wr) : Bool :=
  (s.mem.wrs.find? fun v => v.src == w.src && v.dst == w.dst && v.stage == .sent).map (·.id) == some w.id

/-- The write accepted at its home: ACK is on its way (R315). -/
def State.acceptWr (s : State) (w : Wr) : State :=
  (s.acceptAt w.addr w.mask w.data w.whole w.cmd w.poison).setWr w.id fun v => { v with stage := .accepted }

/-- A CRC write in flight reaches its block's record (R261); another package's next command writes the block afresh. -/
def State.acceptCrc (s : State) (w : Wr) (crc : Nat) : State :=
  let s1 := s.crcWrite (s.region w.addr) w.addr w.cmd crc
  let s2 := match w.src with
    | .remote _ => s1.setBlock w.addr { s1.block w.addr with begun := (s1.block w.addr).begun.filter (· != w.cmd) }
    | _ => s1
  s2.setWr w.id fun v => { v with stage := .accepted }

/-- Writes a source has sent to memory of the package and that no home has accepted (R343). -/
def State.unaccepted (s : State) (src : Src) : List Nat :=
  (s.mem.wrs.filter fun w => w.src == src && w.stage == .sent && (match w.dst with | .pkg _ => false | _ => true)).map (·.id)

/-- Writes of a source not yet receipted, to any destination (R352). -/
def State.unreceipted (s : State) (src : Src) : List Nat := (s.mem.wrs.filter fun w => w.src == src).map (·.id)

/-- Every write of the list has been accepted or has ceased to be in flight. -/
def State.allAccepted (s : State) (ids : List Nat) : Bool :=
  ids.all fun i => match s.wr i with | some w => w.stage == .accepted | none => true

/-- Every write of the list has been receipted or lost. -/
def State.allReceipted (s : State) (ids : List Nat) : Bool := ids.all fun i => (s.wr i).isNone

/-- The bytes of a sector with a source's own unaccepted writes over them (R342). -/
def State.ownOver (s : State) (src : Src) (inst : Option (Nat × Nat)) (line : Nat) (b : List Byte) : List Byte :=
  (s.mem.wrs.filter fun w => w.src == src && w.addr == line && w.stage == .sent && w.crc == none && (w.firn == none || w.firn == inst)).foldl
    (fun x w => overlay w.mask 0 x w.data) b

/-! ## An engine's read of a sector (R314, R321-R324, R233) -/

/-- What a sector read returns: data, poisoned data, or nothing because the home is unreachable. -/
inductive ReadRes where
  | data (b : List Byte) (poison : Bool)
  | absent
  | refused
  | wait
deriving DecidableEq, Repr

def ReadRes.bytes : ReadRes → List Byte
  | .data b _ => b
  | _ => []

/-- Does the remote cache keep lines of the region for its die (R321)? -/
def State.rcMay (s : State) (d : Die) (r : Region) (inst : Option (Nat × Nat)) : Bool :=
  s.flag (R.RC_STATUS d) F.RC_STATUS.ENABLED && inst == none && r.isMem && r.home != .cd d

/-- Where an access of this package through its own export table, or of a remote package, lands (R284, R285): the physical
address, or nothing if the entry refuses it. -/
def State.exportAddr (s : State) (off : Nat) (write : Bool) : Option Nat :=
  let e := off / 0x40000000
  let w := s.reg (R.FAB_EXPORT e)
  if e = 4095 then (if off % 0x40000000 < 0x100000 then some (0x7E000000000000 + off % 0x40000000) else none)
  else if w.bit 0 && (!write || w.bit 1) then
    (let pa := w.get 55 30 * 0x40000000 + off % 0x40000000
     if (s.region pa).isMem then some pa else none)
  else none

/-- An access of package `p` is refused by the export table (R285): counted, one INFO record a span. -/
def State.exportRefuse (s : State) (p off : Nat) : State :=
  let s1 := s.count R.FAB_EXPORT_REFUSED 1
  if s.span.exportNoted = [] then
    { s1 with span := { s1.span with exportNoted := [1] } }.raise
      { status := St.EXPORT_REFUSED, sev := Sev.INFO, kind := Uk.XLATE, pkg := p, hasPkg := true, arg0 := BitVec.ofNat 64 off }
  else s1

/-- A sector asked of another package (R429), or its answer, which is used up. -/
def State.fabRead (s : State) (src : Src) (p line : Nat) : ReadRes × State :=
  match s.fab.rds.find? fun r => r.src == src && r.addr == line with
  | some r =>
    let s1 : State := { s with fab := { s.fab with rds := s.fab.rds.filter fun x => x.id != r.id } }
    if r.refused then (.refused, s1)
    else match r.data with
      | some b => (.data b r.poison, s1)
      | none => (.wait, s)
  | none =>
    let (n, s1) := s.takePseq p
    (.wait, { s1 with fab := { s1.fab with rds := s1.fab.rds ++ [{ id := s1.mem.nextId, src := src, addr := line, pseq := n }] }, mem := { s1.mem with nextId := s1.mem.nextId + 1 } })

/-- A sector read of the package's own exports through the fabric window: bulk and uncached (R288). -/
def State.loopRead (s : State) (off : Nat) : ReadRes × State :=
  match s.exportAddr off false with
  | none => (.refused, s.exportRefuse s.pkg off)
  | some pa =>
    let g := s.region pa
    if !g.isMem then (.data (s.quireBytes (off % 0x100000 / 64 * 64) 64) false, s)
    else if s.absent g then (.absent, s)
    else if s.held g then (.wait, s)
    else
      let line := g.key pa / 64 * 64
      let s1 := s.homeShare line
      (.data (s1.ice line) (s1.poisoned line), s1)

/-- A read of the sector `line` by a context's engine. `streaming` marks a weight-row fill. -/
def State.engineRead (s : State) (d : Die) (c : Cx) (inst : Option (Nat × Nat)) (line : Nat) (streaming : Bool) : ReadRes × State :=
  let r := s.region line
  if s.absent r then (.absent, s)
  else if s.held r then (.wait, s)
  else
    match r with
    | .hbm _ _ | .ddr _ =>
      let fin := fun (t : State) (b : List Byte) => ReadRes.data (t.ownOver (.cx d c) inst line b) (t.poisoned line)
      if s.rcMay d r inst then
        match (s.rc d).sector line with
        | some x => (.data (s.ownOver (.cx d c) inst line x.data) false, (s.setRc d ((s.rc d).touch line)).count (R.RC_HIT d) 1)
        | none =>
          let s1 := (s.homeShare line).count (R.RC_MISS d) 1
          if s1.poisoned line then (fin s1 (s1.ice line), s1)
          else
            let coh := s1.coherent r
            let s2 := s1.setRc d ((s1.rc d).fill line { data := s1.ice line, bulk := !coh } streaming)
            let s3 := if coh && !(s2.copies line).contains (.cd d) then s2.setDir line (some (.sharers (s2.copies line ++ [.cd d]))) else s2
            (fin s3 (s3.ice line), s3)
      else
        let s1 := s.homeShare line
        (fin s1 (s1.sectorFor inst line), if r.home = .cd d then s1 else s1.count (R.RC_MISS d) 1)
    | .scr _ _ => (.data (s.ownOver (.cx d c) none line (s.cells line 64)) (s.mem.scrPoison.contains line), s)
    | .host _ =>
      match Sparse.find line s.hostWin with
      | some h => (if h.error then .refused else .data h.data h.poison, { s with hostWin := Sparse.del line s.hostWin })
      | none => (.wait, { s with hostAsked := if s.hostAsked.contains line then s.hostAsked else s.hostAsked ++ [line] })
    | .fabric p off => if p = s.pkg then s.loopRead off else s.fabRead (.cx d c) p line
    | _ => (.absent, s)

end Sys2Proof.Machine
end

