-- ==== Sys2Proof/Machine/Homes.lean ====
section
/-!
DEFINITION. Requests and answers at the homes with trackers, retries and grants (R314-R320), writes taken at their home,
the links (R306-R310), the remote cache's registers (R327), and the isolation, planned removal and return of a compute
die or stack (R328-R331).
-/

namespace Sys2Proof.Machine

/-! ## Transactions -/

/-- The trackers of a home (R319). -/
def homeTrackers : Home → Nat
  | .cd _ => 2048
  | .hub => 4096

def State.freshId (s : State) : State := { s with mem := { s.mem with nextId := s.mem.nextId + 1 } }

/-- A message sent (R314); it has the next id. -/
def State.sendMsg (s : State) (k : MsgKind) (a : Requester) (h : Home) (line txn : Nat) (data : List Byte) (p : Bool) : State :=
  let s1 := if a = .agent .host ∧ (k = .snpInv ∨ k = .snpShare ∨ k = .snpGet) then s.count R.HL_BISNP 1 else s
  { s1 with mem := { s1.mem with msgs := s1.mem.msgs ++ [{ id := s1.mem.nextId, kind := k, agent := a, home := h, line := line, txn := txn, data := data, poison := p, at_ := s1.now }], nextId := s1.mem.nextId + 1 } }

def State.msg (s : State) (id : Nat) : Option Msg := s.mem.msgs.find? fun m => m.id == id
def State.dropMsg (s : State) (id : Nat) : State := { s with mem := { s.mem with msgs := s.mem.msgs.filter fun m => m.id != id } }
def State.txn (s : State) (id : Nat) : Option Txn := s.mem.txns.find? fun t => t.id == id
def State.setTxn (s : State) (id : Nat) (g : Txn → Txn) : State :=
  { s with mem := { s.mem with txns := s.mem.txns.map fun t => if t.id = id then g t else t } }
def State.dropTxn (s : State) (id : Nat) : State := { s with mem := { s.mem with txns := s.mem.txns.filter fun t => t.id != id } }

/-- The register a home counts its RETRYs in (R338). -/
def retryReg : Home → Nat
  | .cd d => R.HOME_RETRIES d
  | .hub => R.HUB_HOME_RETRIES

/-- The agent of a requester, if it is tracked. -/
def reqAgent : Requester → Option CAgent
  | .agent a => some a
  | .fabric => none

/-- A home sends the snoops a transaction needs, or finds it needs none (R314, R315): the state after, and what it waits
for. -/
def State.snoops (s : State) (t : Txn) : State × List CAgent × Option CAgent :=
  let other := (s.copies t.line).filter fun a => some a ≠ reqAgent t.req
  let owner := match s.dirOf t.line with
    | some (DirSt.owner a) => if some a = reqAgent t.req then none else some a
    | _ => none
  match t.kind with
  | .rdOwn | .wr =>
    match owner with
    | some a => (s.sendMsg .snpGet (.agent a) t.home t.line t.id [] false, [], some a)
    | none => (other.foldl (fun u a => u.sendMsg .snpInv (.agent a) t.home t.line t.id [] false) s, other, none)
  | .wb => (s, [], none)
  | _ =>
    match owner with
    | some a => (s.sendMsg .snpShare (.agent a) t.home t.line t.id [] false, [], some a)
    | none => (s, [], none)

/-- A transaction whose snoops are answered takes effect at the home: a write is accepted, a read's DATA is sent. -/
def State.finishTxn (s : State) (t : Txn) : State :=
  match t.kind with
  | .wr => match s.wr t.write with
    | some w => (s.acceptWr w).dropTxn t.id
    | none => s.dropTxn t.id
  | .wb => s.dropTxn t.id
  | _ =>
    let s1 := match t.kind, reqAgent t.req with
      | .rdOwn, some a => (s.setBlock t.line ((s.block t.line).dataWrite false 0)).setDir t.line (some (DirSt.owner a))
      | .rdShared, some a =>
        if s.dirOf t.line = some (DirSt.owner a) ∨ (s.copies t.line).contains a then s
        else s.setDir t.line (some (.sharers (s.copies t.line ++ [a])))
      | _, _ => s
    (s1.sendMsg .data t.req t.home t.line t.id (s1.ice t.line) (s1.poisoned t.line)).setTxn t.id fun u => { u with done := true }

/-- The transaction begins: its snoops leave, or it finishes at once. -/
def State.beginTxn (s : State) (t : Txn) : State :=
  let (s1, inv, dat) := s.snoops t
  let s2 := s1.setTxn t.id fun u => { u with begun := true, waitInv := inv, waitData := dat }
  if inv = [] ∧ dat = none then s2.finishTxn t else s2

/-- Is a line in state B (R312)? -/
def State.lineBusy (s : State) (line : Nat) : Bool := s.mem.txns.any fun t => t.line == line && t.begun

/-- The oldest waiting transaction of a line begins when the line is free (R318). -/
def State.nextOnLine (s : State) (line : Nat) : State :=
  if s.lineBusy line then s
  else match s.mem.txns.find? fun t => t.line == line with
    | some t => s.beginTxn t
    | none => s

/-- Trackers of a home in use or reserved (R319). -/
def State.trackersUsed (s : State) (h : Home) : Nat :=
  (s.mem.txns.filter fun t => t.home == h).length + (s.mem.retried.filter fun r => r.home == h && r.granted).length

/-- A freed tracker is reserved for the oldest record of the grant queue, and CREDIT_GRANT sent (R319). -/
def State.grantNext (s : State) (h : Home) : State :=
  match s.mem.retried.find? fun r => r.home == h && !r.granted with
  | none => s
  | some r =>
    if s.trackersUsed h < homeTrackers h then
      let rest := s.mem.retried.map fun x => if x = r then { x with granted := true } else x
      { s with mem := { s.mem with retried := rest } }.sendMsg .grant r.req h r.line 0 [] false
    else s

/-- Is the agent behind a home's retry fence (R319)? -/
def State.fenced (s : State) (h : Home) (r : Requester) : Bool := s.mem.retried.any fun x => x.home == h && x.req == r

/-- A home takes a request with a tracker it has (R318): the request becomes the line's transaction or waits for the line. -/
def State.takeTracked (s : State) (h : Home) (r : Requester) (k : ReqKind) (line write : Nat) : State :=
  let s1 : State := { s with mem := { s.mem with txns := s.mem.txns ++ [({ id := s.mem.nextId, home := h, line := line, req := r, kind := k, write := write } : Txn)], nextId := s.mem.nextId + 1 } }
  s1.nextOnLine line

/-- A request reaches a home (R314, R319): ABSENT if the home is unreachable, RETRY if no tracker is free or the agent is
behind the retry fence, else it is taken. -/
def State.takeReq (s : State) (r : Requester) (k : ReqKind) (pa write : Nat) : State :=
  let g := s.region pa
  let line := g.key pa / 64 * 64
  let h := g.home
  if s.absent g then s.sendMsg .absent r h line 0 [] false
  else if s.held g then s
  else if s.fenced h r || decide (homeTrackers h ≤ s.trackersUsed h) then
    let s1 : State := { s with mem := { s.mem with retried := s.mem.retried ++ [({ home := h, req := r, kind := k, line := line, write := write } : Retried)] } }
    (s1.sendMsg .retry r h line 0 [] false).count (retryReg h) 1
  else s.takeTracked h r k line write

/-- RD_SHARED (R314). -/
def execRdShared (r : Requester) (pa : Nat) (s : State) : Host.Outcome State Fault Refusal := s.whileOn (s.takeReq r .rdShared pa 0)

/-- May the requester hold a line exclusive (R312)? -/
def reqMayOwn : Requester → Bool
  | .agent .cores => true
  | .agent .host => true
  | _ => false

/-- RD_OWN (R314). -/
def execRdOwn (r : Requester) (pa : Nat) (s : State) : Host.Outcome State Fault Refusal :=
  s.whileOn (if reqMayOwn r then s.takeReq r .rdOwn pa 0 else s)

/-- RD_BULK (R314). -/
def execRdBulk (r : Requester) (pa : Nat) (s : State) : Host.Outcome State Fault Refusal := s.whileOn (s.takeReq r .rdBulk pa 0)

/-- RD_ONCE (R314). -/
def execRdOnce (r : Requester) (pa : Nat) (s : State) : Host.Outcome State Fault Refusal := s.whileOn (s.takeReq r .rdOnce pa 0)

/-- An owner returns its dirty data (WB) and keeps no copy. -/
def writeBack (a : CAgent) (pa : Nat) (s : State) : State :=
  let line := (s.region pa).key pa / 64 * 64
  if s.dirOf line = some (DirSt.owner a) ∧ !s.absent (s.region pa) then
    match s.heldLine a line with
    | some x => ((if x.dirty then s.returnData line x.data else s).dropCopy a line).setDir line none
    | none => s.setDir line none
  else s

/-- WB (R314). -/
def execWb (a : CAgent) (pa : Nat) (s : State) : Host.Outcome State Fault Refusal := s.whileOn (writeBack a pa s)

/-! ## Writes at their home -/

/-- The agent of a write's source, for trackers and the retry fence. -/
def Src.requester : Src → Requester
  | .cx d _ => .agent (.cd d)
  | .dctl d _ => .agent (.cd d)
  | .core _ => .agent .cores
  | .host => .agent .host
  | .remote _ => .fabric

/-- Is the write waiting in a transaction or in the grant queue already? -/
def State.wrPending (s : State) (id : Nat) : Bool :=
  (s.mem.txns.any fun t => t.kind == .wr && t.write == id) || (s.mem.retried.any fun r => r.kind == .wr && r.write == id)

/-- A write through the package's own fabric window is made through its own export table (R288): refused, it is lost. -/
def State.loopWrite (s : State) (w : Wr) : State :=
  match s.exportAddr (w.addr % 0x40000000000) true with
  | none => ((s.exportRefuse s.pkg (w.addr % 0x40000000000)).loseWrite w.src w.cmd s.ownPkg).dropWr w.id
  | some pa =>
    let g := s.region pa
    if !g.isMem then
      (match w.crc with
       | some _ => s
       | none => quireSector (.remote s.ownPkg) (w.addr % 0x100000 / 64 * 64) w.mask w.data s).setWr w.id fun v => { v with stage := .accepted }
    else if s.absent g then (s.loseWrite w.src w.cmd s.ownPkg).dropWr w.id
    else if s.held g then s
    else
      let line := g.key pa / 64 * 64
      match w.crc with
      | some k => (s.crcWrite g line w.cmd k).setWr w.id fun v => { v with stage := .accepted }
      | none => (s.acceptAt line w.mask w.data w.whole w.cmd w.poison).setWr w.id fun v => { v with stage := .accepted }

/-- Writes of a remote package to one home wait for its earlier writes to another (R426). -/
def State.wrSameHome (s : State) (w : Wr) : Bool :=
  match w.src with
  | .remote _ => ((s.mem.wrs.takeWhile fun v => v.id != w.id).filter fun v => v.src == w.src && v.stage == .sent).all fun v => v.dst == w.dst
  | _ => true

/-- A home takes a write that is the oldest of its source to its destination (R315, R342): scratchpad banks take it at once,
an unreachable home completes it ABSENT. -/
def State.takeWrite (s : State) (w : Wr) : State :=
  let g := s.region w.addr
  match w.dst with
  | .pkg p => if p.val = s.pkg ∧ s.wrFirst w then s.loopWrite w else s
  | _ =>
    if s.absent g then (s.lostWr w s.ownPkg).dropWr w.id
    else if s.held g || s.wrPending w.id || !s.wrFirst w || !s.wrSameHome w then s
    else match w.crc with
      | some k => s.acceptCrc w k
      | none =>
        match g with
        | .scr _ _ => s.acceptWr w
        | .hbm _ _ | .ddr _ =>
          if s.copies w.addr = [] ∧ !s.lineBusy w.addr ∧ s.trackersUsed g.home < homeTrackers g.home ∧ !s.fenced g.home w.src.requester then s.acceptWr w
          else s.takeReq w.src.requester .wr w.addr w.id
        | _ => s

/-- WR_LINE (R315): the write in flight `id` writes a whole line. -/
def execWrLine (id : Nat) (s : State) : Host.Outcome State Fault Refusal :=
  s.whileOn (match s.wr id with
    | some w => if w.mask = fullMask ∧ w.firn = none ∧ w.stage = .sent then s.takeWrite w else s
    | none => s)

/-- WR_PART (R315): the write in flight `id` writes part of a line. -/
def execWrPart (id : Nat) (s : State) : Host.Outcome State Fault Refusal :=
  s.whileOn (match s.wr id with
    | some w => if w.mask ≠ fullMask ∧ w.firn = none ∧ w.stage = .sent then s.takeWrite w else s
    | none => s)

/-- ACK (R315): the source receives the receipt of the accepted write `id`. -/
def execAck (id : Nat) (s : State) : Host.Outcome State Fault Refusal :=
  s.whileOn (match s.wr id with
    | some w => if w.stage = .accepted then s.dropWr id else s
    | none => s)

/-! ## Agents' answers -/

/-- An agent receives SNP_INV: it drops its copy and answers INV_ACK. -/
def snpInv (m : Msg) (s : State) : State :=
  match m.agent with
  | .agent a => ((s.dropMsg m.id).dropCopy a m.line).sendMsg .invAck m.agent m.home m.line m.txn [] false
  | .fabric => s.dropMsg m.id

/-- An owner receives SNP_SHARE: it keeps a clean copy and returns the data. -/
def snpShare (m : Msg) (s : State) : State :=
  match m.agent with
  | .agent a =>
    match s.heldLine a m.line with
    | some x => ((s.dropMsg m.id).setHeld a m.line { x with dirty := false }).sendMsg .snpData m.agent m.home m.line m.txn x.data false
    | none => (s.dropMsg m.id).sendMsg .snpData m.agent m.home m.line m.txn (s.ice m.line) false
  | .fabric => s.dropMsg m.id

/-- An owner receives SNP_GET: it returns the data and drops the line. -/
def snpGet (m : Msg) (s : State) : State :=
  match m.agent with
  | .agent a =>
    match s.heldLine a m.line with
    | some x => ((s.dropMsg m.id).dropCopy a m.line).sendMsg .snpData m.agent m.home m.line m.txn x.data false
    | none => (s.dropMsg m.id).sendMsg .snpData m.agent m.home m.line m.txn (s.ice m.line) false
  | .fabric => s.dropMsg m.id

/-- The effect of a message of a given kind with id `id`, if there is one. -/
def State.onMsg (s : State) (id : Nat) (k : MsgKind) (act : Msg → State → State) : State :=
  match s.msg id with
  | some m => if m.kind = k then act m s else s
  | none => s

/-- SNP_INV (R314). -/
def execSnpInv (id : Nat) (s : State) : Host.Outcome State Fault Refusal := s.whileOn (s.onMsg id .snpInv snpInv)
/-- SNP_SHARE (R314). -/
def execSnpShare (id : Nat) (s : State) : Host.Outcome State Fault Refusal := s.whileOn (s.onMsg id .snpShare snpShare)
/-- SNP_GET (R314). -/
def execSnpGet (id : Nat) (s : State) : Host.Outcome State Fault Refusal := s.whileOn (s.onMsg id .snpGet snpGet)

/-- The home counts an answer; the last one lets its transaction take effect. -/
def State.answered (s : State) (tid : Nat) : State :=
  match s.txn tid with
  | some t => if t.begun ∧ t.waitInv = [] ∧ t.waitData = none ∧ !t.done then s.finishTxn t else s
  | none => s

/-- A home receives INV_ACK for a copy it invalidated (R315). -/
def invAck (m : Msg) (s : State) : State :=
  let s1 := s.dropMsg m.id
  match m.agent with
  | .agent a =>
    let s2 := s1.setDir m.line (some (.sharers ((s1.copies m.line).filter fun b => b ≠ a)))
    (s2.setTxn m.txn fun t => { t with waitInv := t.waitInv.filter fun b => b ≠ a }).answered m.txn
  | .fabric => s1

/-- INV_ACK (R315). -/
def execInvAck (id : Nat) (s : State) : Host.Outcome State Fault Refusal := s.whileOn (s.onMsg id .invAck invAck)

/-- A home receives an owner's data (R314): written at home, the owner a sharer or gone. -/
def snpData (m : Msg) (s : State) : State :=
  let s1 := (s.dropMsg m.id).returnData m.line m.data
  match m.agent with
  | .agent a =>
    let keeps := (s1.heldLine a m.line).isSome
    let s2 := s1.setDir m.line (some (.sharers (if keeps then [a] else [])))
    (s2.setTxn m.txn fun t => { t with waitData := none }).answered m.txn
  | .fabric => s1

/-- SNP_DATA (R314). -/
def execSnpData (id : Nat) (s : State) : Host.Outcome State Fault Refusal := s.whileOn (s.onMsg id .snpData snpData)

/-- A requester receives line data (R314, R321): CORES and HOST keep the line they asked for, a remote cache the sector it
allocates; the transaction ends, its tracker frees, the line's next request begins. -/
def dataReceived (m : Msg) (s : State) : State :=
  let s1 := s.dropMsg m.id
  match s1.txn m.txn with
  | none => s1
  | some t =>
    let s2 := match m.agent, t.kind with
      | .agent (.cd d), .rdBulk =>
        if s1.flag (R.RC_STATUS d) F.RC_STATUS.ENABLED && !m.poison then s1.setRc d ((s1.rc d).fill m.line { data := m.data, bulk := true } false) else s1
      | .agent (.cd d), .rdShared =>
        if s1.flag (R.RC_STATUS d) F.RC_STATUS.ENABLED && !m.poison then s1.setRc d ((s1.rc d).fill m.line { data := m.data, bulk := false } false) else s1
      | .agent a, .rdShared => s1.setHeld a m.line { data := m.data, dirty := false }
      | .agent a, .rdOwn => s1.setHeld a m.line { data := m.data, dirty := false }
      | _, _ => s1
    ((s2.dropTxn t.id).nextOnLine m.line).grantNext m.home

/-- DATA (R314). -/
def execData (id : Nat) (s : State) : Host.Outcome State Fault Refusal := s.whileOn (s.onMsg id .data dataReceived)

/-- RETRY (R319): the agent keeps the request; the home's record of it is already in the grant queue. -/
def execRetry (id : Nat) (s : State) : Host.Outcome State Fault Refusal :=
  s.whileOn (s.onMsg id .retry fun m t => (t.dropMsg m.id).grantNext m.home)

/-- CREDIT_GRANT (R319): the agent resends its oldest retried request, and the reserved tracker takes it. -/
def creditGrant (m : Msg) (s : State) : State :=
  let s1 := s.dropMsg m.id
  match s1.mem.retried.find? fun r => r.home == m.home && r.req == m.agent with
  | none => s1
  | some r =>
    let s2 := { s1 with mem := { s1.mem with retried := s1.mem.retried.erase r } }
    s2.takeTracked r.home r.req r.kind r.line r.write

/-- CREDIT_GRANT (R319). -/
def execCreditGrant (id : Nat) (s : State) : Host.Outcome State Fault Refusal := s.whileOn (s.onMsg id .grant creditGrant)

/-- ABSENT (R314): the requester receives it. -/
def execAbsent (id : Nat) (s : State) : Host.Outcome State Fault Refusal := s.whileOn (s.onMsg id .absent fun m t => t.dropMsg m.id)

/-! ## Quire signals (R317, R343) -/

/-- A signal of this package takes effect at this package's sync unit (R317, R372); one sent to the package's own number is
admitted as another package's would be. -/
def State.signalEffect (s : State) (g : QSig) : State :=
  if g.pkg.isSome && !s.remoteOk g.q then (s.setQuire g.q ((s.quire g.q).setFlag Qf.REFUSED)).loseWrite g.src 0 s.ownPkg
  else s.quireSignal (.src g.src) g.op g.q g.arg g.slot

/-- Does a signal go to this package's sync unit? -/
def State.signalHere (s : State) (g : QSig) : Bool :=
  match g.pkg with
  | none => true
  | some p => p.val == s.pkg

/-- A signal reaches the sync unit and takes effect once its source's earlier writes are accepted; a source's signals to one
quire keep their order. -/
def linkQsig (id : Nat) (s : State) : State :=
  match s.sync.qsigs.find? fun q => q.id == id with
  | none => s
  | some g =>
    if s.signalHere g && s.allAccepted g.before && (s.sync.qsigs.find? fun h => h.src == g.src && h.pkg == g.pkg && h.q == g.q) == some g then
      ({ s with sync := { s.sync with qsigs := s.sync.qsigs.filter fun q => q.id != id } }).signalEffect g
    else s

/-- LINK_QSIG (R317). -/
def execLinkQsig (id : Nat) (s : State) : Host.Outcome State Fault Refusal := s.whileOn (linkQsig id s)

/-! ## The remote cache's registers (R327) -/

/-- A write of RC_CFG (R327, R336). -/
def rcCfgAct (d : Nat) (v : Word) (s : State) : State :=
  let o := R.RC_CFG d
  if v.bit 0 then
    if s.flag (R.RC_STATUS d) F.RC_STATUS.INVALIDATED then
      (s.plainWrite o v).setFld (R.RC_STATUS d) F.RC_STATUS.ENABLED 1
    else
      let s1 := (s.plainWriteBut o v [F.RC_CFG.ENABLE]).setFld (R.RC_STATUS d) F.RC_STATUS.REFUSED 1
      s1.raise { status := St.RC_ENABLE_REFUSED, sev := Sev.INFO, kind := Uk.HOMERC, die := d, index := 0 }
  else ((s.plainWrite o v).setFld (R.RC_STATUS d) F.RC_STATUS.ENABLED 0).setFld (R.RC_STATUS d) F.RC_STATUS.INVALIDATED 0

/-- RC_CFG_WRITE (R327). -/
def execRcCfgWrite (w : RegW) (d : Die) (s : State) : Host.Outcome State Fault Refusal :=
  s.whileOn (s.onWrite w (R.RC_CFG d) (rcCfgAct d))

/-- RC_CTL.INVALIDATE (R327): every sector drops, and every home is told. -/
def rcInvalidateAct (d : Nat) (v : Word) (s : State) : State :=
  if v.bit 0 then (s.setRc d { tags := [], invalidating := true }).setFld (R.RC_STATUS d) F.RC_STATUS.BUSY 1 else s

/-- RC_INVALIDATE (R327). -/
def execRcInvalidate (w : RegW) (d : Die) (s : State) : Host.Outcome State Fault Refusal :=
  s.whileOn (s.onWrite w (R.RC_CTL d) (rcInvalidateAct d))

/-- Every home clears the die from its sharer vectors. -/
def State.clearSharer (s : State) (d : Die) : State :=
  { s with mem := { s.mem with dir := s.mem.dir.filterMap fun p => match p.2 with
    | .sharers l => if l.filter (fun a => a ≠ .cd d) = [] then none else some (p.1, .sharers (l.filter fun a => a ≠ .cd d))
    | .owner a => some (p.1, .owner a) } }

/-- The drop and every home's clearing are done (R327). -/
def rcInvalidateDone (d : Die) (s : State) : State :=
  if (s.rc d).invalidating then
    let s1 := (s.clearSharer d).setRc d { (s.rc d) with invalidating := false }
    (s1.setFld (R.RC_STATUS d) F.RC_STATUS.BUSY 0).setFld (R.RC_STATUS d) F.RC_STATUS.INVALIDATED 1
  else s

/-- RC_INVALIDATE_DONE (R327). -/
def execRcInvalidateDone (d : Die) (s : State) : Host.Outcome State Fault Refusal := s.whileOn (rcInvalidateDone d s)

/-! ## Losing a die or stack (R328-R330) -/

/-- Does a line's key lie on a stack of the list? -/
def onStacks (l : List Nat) (line : Nat) : Bool := decide (line < 0x14000000000) && l.contains (line / 0x1000000000)

/-- Copies of lines on the stacks dropped everywhere: remote caches, cores, host; how many dirty lines were discarded
(R328 steps 4 and 5). -/
def State.dropLines (s : State) (l : List Nat) : State × Nat :=
  let n := ((s.mem.coreLines ++ s.mem.hostLines).filter fun p => onStacks l p.1 && p.2.dirty).length
  ({ s with mem := { s.mem with coreLines := s.mem.coreLines.filter (fun p => !onStacks l p.1), hostLines := s.mem.hostLines.filter (fun p => !onStacks l p.1), dir := s.mem.dir.filter (fun p => !onStacks l p.1), rc := s.mem.rc.map fun r => (r.1, { r.2 with tags := r.2.tags.filter fun t => !onStacks l t.addr }) } }, n)

/-- Dirty lines of cores on the stacks written back first (R330). -/
def State.writeBackLines (s : State) (l : List Nat) : State :=
  (s.mem.coreLines.filter fun p => onStacks l p.1 && p.2.dirty).foldl (fun t p => t.returnData p.1 p.2.data) s

/-- FIRN_LOG_n.USED and HIGH brought to the log (R252). -/
def State.firnShow (s : State) (n : Nat) : State :=
  let u := (s.firn.entries.filter fun e => e.log == n).length
  (s.setFld (R.FIRN_LOG n) F.FIRN_LOG.USED u).raiseFld (R.FIRN_LOG n) F.FIRN_LOG.HIGH u

/-- A stack's firn lost, with its DEFERRED FIRN_LOST record if it held any (R245). -/
def State.loseFirn (s : State) (j : Nat) : State :=
  let had := s.firn.entries.any fun e => e.log == j
  let s1 := { s with firn := { s.firn with entries := s.firn.entries.filter (fun e => e.log != j), blocks := s.firn.blocks.filter fun b => !onStacks [j] b.block } }
  let s2 := s1.firnShow j
  if had then s2.raise { status := St.FIRN_LOST, sev := Sev.DEFERRED, kind := Uk.STACK, die := j / 5, index := j } else s2

/-- Writes in flight to a home that has gone: they complete ABSENT and are lost (R328 step 3). -/
def State.loseWritesTo (s : State) (p : Wr → Bool) : State :=
  (s.mem.wrs.filter p).foldl (fun t w => (t.lostWr w t.ownPkg).dropWr w.id) s

/-- The contexts of a die are lost: their bits in HUB_CX_LOST, their waiters freed without return (R96, R328, R379). -/
def State.loseContexts (s : State) (d : Die) : State :=
  let lost := (s.cxKeys.filter fun p => p.1 == d && s.cxState p.1 p.2 != CxS.OFF).map (·.2.val)
  let lo := (lost.filter (· < 64)).foldl (fun w i => w ||| BitVec.ofNat 64 (1 <<< i)) (s.reg (R.HUB_CX_LOST_LO d))
  let hi := (lost.filter (64 ≤ ·)).foldl (fun w i => w ||| BitVec.ofNat 64 (1 <<< (i - 64))) (s.reg (R.HUB_CX_LOST_HI d))
  let s1 := (s.setReg (R.HUB_CX_LOST_LO d) lo).setReg (R.HUB_CX_LOST_HI d) hi
  { s1 with sync := { s1.sync with waiters := s1.sync.waiters.filter (fun w => w.die != d), qsigs := s1.sync.qsigs }, cxs := s1.cxs.filter fun p => p.1 / 128 != d.val, firn := { s1.firn with waits := s1.firn.waits.filter (fun w => w.die != d), acting := s1.firn.acting.filter fun w => w.die != d } }.syncShow

/-- The stacks of a die. -/
def dieStacks (d : Nat) : List Nat := [5 * d, 5 * d + 1, 5 * d + 2, 5 * d + 3, 5 * d + 4]

/-- Isolation begins: the link is fenced and the drain timer runs (R328 steps 1 and 2). -/
def State.isolate (s : State) (d : Die) : State :=
  let s1 := (s.setFld (R.HUB_CD_STATUS d) F.HUB_CD_STATUS.STATE 2).bumpFld (R.HUB_CD_STATUS d) F.HUB_CD_STATUS.LOSSES 1
  { s1 with mem := { s1.mem with drainAt := Sparse.set d (s.now + 32000) s1.mem.drainAt } }.life 17 1

def State.cdState (s : State) (d : Nat) : Nat := s.fld (R.HUB_CD_STATUS d) F.HUB_CD_STATUS.STATE

/-- HUB_CD_CTL_n.ISOLATE (R328, R333). -/
def isolateAct (d : Die) (v : Word) (s : State) : State :=
  if v.get 2 0 = 2 then
    if s.cdState d = 0 ∨ s.cdState d = 1 then s.isolate d else s.raiseReg St.HUB_CD_CTL_REFUSED (R.HUB_CD_CTL d)
  else if v.get 2 0 = 3 ∨ v.get 2 0 = 6 ∨ v.get 2 0 = 7 then s.raiseReg St.HUB_CD_CTL_REFUSED (R.HUB_CD_CTL d)
  else s

/-- ISOLATE (R328). -/
def execIsolate (w : RegW) (d : Die) (s : State) : Host.Outcome State Fault Refusal :=
  s.whileOn (s.onWrite w (R.HUB_CD_CTL d) (isolateAct d))

/-- HUB's clock monitor finds the die's clock lost (R328). -/
def dieClockLoss (d : Die) (s : State) : State := if s.cdState d = 0 ∨ s.cdState d = 1 then s.isolate d else s

/-- DIE_CLOCK_LOSS (R328). -/
def execDieClockLoss (d : Die) (s : State) : Host.Outcome State Fault Refusal := s.whileOn (dieClockLoss d s)

/-- What a lost die's outstanding traffic becomes (R328 step 3): requests to its homes complete ABSENT, its own requests are
discarded with their trackers and grant-queue records. -/
def State.dropTraffic (s : State) (d : Die) : State :=
  let s1 := s.loseWritesTo fun w => w.dst == Dst.cd d && w.src.die != some d
  let gone := s1.mem.txns.filter fun t => t.home == Home.cd d
  let s2 := { s1 with mem := { s1.mem with wrs := s1.mem.wrs.filter (fun w => w.src.die != some d), txns := s1.mem.txns.filter (fun t => t.home != Home.cd d && t.req != Requester.agent (.cd d)), retried := s1.mem.retried.filter (fun r => r.home != Home.cd d && r.req != Requester.agent (.cd d)), msgs := s1.mem.msgs.filter fun m => m.home != Home.cd d && m.agent != Requester.agent (.cd d) } }
  let s3 := (gone.filter fun t => t.req != Requester.agent (.cd d) && t.kind != .wr && !t.done).foldl (fun u t => u.sendMsg .absent t.req t.home t.line 0 [] false) s2
  s3.clearSharer d

/-- Two microseconds after a fence (R328 steps 3-7). -/
def drainTimer (d : Die) (s : State) : State :=
  match Sparse.find d.val s.mem.drainAt with
  | none => s
  | some at_ =>
    if s.now < at_ then s
    else
      let s0 := { s with mem := { s.mem with drainAt := Sparse.del d.val s.mem.drainAt } }
      let (s1, n) := (s0.dropTraffic d).dropLines (dieStacks d)
      let s2 := s1.raise { status := St.COH_LOST, sev := Sev.DEFERRED, kind := Uk.HOMERC, die := 4, index := 0, arg0 := BitVec.ofNat 64 n }
      let s3 := s2.loseContexts d
      let s4 := s3.raise { status := St.DIE_LOST, sev := Sev.FATAL_UNIT, kind := Uk.DIE, die := d.val, index := d.val }
      let s5 := (dieStacks d).foldl State.loseFirn s4
      let s6 := (dieStacks d).foldl (fun t j => t.setFld (R.FIRN_LOG j) F.FIRN_LOG.ABSENT 1) s5
      s6.setFld (R.HUB_CD_STATUS d) F.HUB_CD_STATUS.IN_SERVICE 0

/-- DRAIN_TIMER (R328). -/
def execDrainTimer (t : Moment) (d : Die) (s : State) : Host.Outcome State Fault Refusal := s.whileOn (drainTimer d (s.atTime t))

/-- A stack leaves with its base die's reset, its memory link's loss, or its die's failure to reach it (R329): fenced at
once; its steps after the 2 µs drain timer are `stackDrained`. -/
def State.stackFence (s : State) (j : Fin 20) : State :=
  { s with mem := { s.mem with stackDrainAt := Sparse.set j (s.now + 32000) s.mem.stackDrainAt } }

/-- The end of a stack's isolation (R329). -/
def State.stackDrained (s : State) (j : Fin 20) : State :=
  let s1 := s.loseWritesTo fun w => onStacks [j] w.addr
  let (s2, n) := s1.dropLines [j]
  let s3 := s2.raise { status := St.COH_LOST, sev := Sev.DEFERRED, kind := Uk.HOMERC, die := 4, index := 0, arg0 := BitVec.ofNat 64 n }
  let s4 := ((s3.loseFirn j).setFld (R.HS_STATUS j) F.HS_STATUS.STATE 3).setFld (R.HS_STATUS j) F.HS_STATUS.IN_SERVICE 0
  let s5 := (s4.setFld (R.FIRN_LOG j) F.FIRN_LOG.ABSENT 1).life 18 1
  s5.raise { status := St.STACK_LOST, sev := Sev.FATAL_UNIT, kind := Uk.STACK, die := j.val / 5, index := j.val }

/-- STACK_ISOLATION (R329): the first step fences the stack; one 2 µs or more later ends its isolation. -/
def stackIsolation (j : Fin 20) (s : State) : State :=
  match Sparse.find j.val s.mem.stackDrainAt with
  | none => if s.flag (R.HS_STATUS j) F.HS_STATUS.IN_SERVICE then s.stackFence j else s
  | some at_ =>
    if s.now < at_ then s
    else ({ s with mem := { s.mem with stackDrainAt := Sparse.del j.val s.mem.stackDrainAt } }).stackDrained j

/-- STACK_ISOLATION (R329). -/
def execStackIsolation (t : Moment) (j : Fin 20) (s : State) : Host.Outcome State Fault Refusal :=
  s.whileOn (stackIsolation j (s.atTime t))

/-- A planned removal of a stack (R330): drained, then fenced with no drain timer, no loss record but FIRN_LOST. -/
def State.removeStack (s : State) (j : Nat) : State :=
  let s1 := s.writeBackLines [j]
  let s2 := (s1.loseWritesTo fun w => onStacks [j] w.addr && w.stage == .sent).dropLines [j]
  let s3 := s2.1.loseFirn j
  ((s3.setFld (R.HS_STATUS j) F.HS_STATUS.STATE 3).setFld (R.HS_STATUS j) F.HS_STATUS.IN_SERVICE 0).setFld (R.FIRN_LOG j) F.FIRN_LOG.ABSENT 1

/-- A planned removal of a die (R330): unaccepted requests complete ABSENT, cores write back, contexts left running are
lost, and the link is fenced. -/
def State.removeDie (s : State) (d : Die) : State :=
  let s1 := s.writeBackLines (dieStacks d)
  let s2 := ((s1.dropTraffic d).dropLines (dieStacks d)).1
  let s3 := s2.loseContexts d
  let s4 := (dieStacks d).foldl State.loseFirn s3
  let s5 := (dieStacks d).foldl (fun t j => t.setFld (R.FIRN_LOG j) F.FIRN_LOG.ABSENT 1) s4
  (s5.setFld (R.HUB_CD_STATUS d) F.HUB_CD_STATUS.STATE 4).setFld (R.HUB_CD_STATUS d) F.HUB_CD_STATUS.IN_SERVICE 0

/-- HUB_CD_CTL_n.OFFLINE (R330, R333). -/
def cdOfflineAct (d : Die) (v : Word) (s : State) : State :=
  if v.get 2 0 = 1 then
    if s.cdState d = 0 then s.removeDie d else s.raiseReg St.HUB_CD_CTL_REFUSED (R.HUB_CD_CTL d)
  else if v.get 2 0 = 3 ∨ v.get 2 0 = 5 ∨ v.get 2 0 = 7 then s.raiseReg St.HUB_CD_CTL_REFUSED (R.HUB_CD_CTL d)
  else s

/-- CD_OFFLINE (R330). -/
def execCdOffline (w : RegW) (d : Die) (s : State) : Host.Outcome State Fault Refusal :=
  s.whileOn (s.onWrite w (R.HUB_CD_CTL d) (cdOfflineAct d))

end Sys2Proof.Machine
end

