-- ==== Sys2Proof/Machine/Links.lean ====
section
/-!
DEFINITION. Package links and memory links (R306-R310): flits checked, replays, retrains and the lane groups that come
out of them, the turning of a memory link's groups.
-/

namespace Sys2Proof.Machine

/-- The number of a link in the link table: package links down 0-3, up 4-7, memory links 8-27. -/
def linkKey : LinkId → Nat
  | .pkgDown d => d.val
  | .pkgUp d => 4 + d.val
  | .mem j => 8 + j.val

def State.link (s : State) (l : LinkId) : LinkSt := Sparse.get {} (linkKey l) s.mem.links
def State.setLink (s : State) (l : LinkId) (x : LinkSt) : State :=
  { s with mem := { s.mem with links := Sparse.set (linkKey l) x s.mem.links } }

/-- The link's counter of replays (R335, R339). -/
def linkReplays : LinkId → Nat
  | .pkgDown d => R.PL_REPLAYS d
  | .pkgUp d => R.PL_REPLAYS d
  | .mem j => R.ML_REPLAYS (j / 5) (j % 5)

/-- LINK_ERR set: a retrain or narrowing occurred (R334, R339). -/
def State.linkErr (s : State) (l : LinkId) : State :=
  match l with
  | .pkgDown d => s.setFld (R.HUB_CD_STATUS d) F.HUB_CD_STATUS.LINK_ERR 1
  | .pkgUp d => s.setFld (R.HUB_CD_STATUS d) F.HUB_CD_STATUS.LINK_ERR 1
  | .mem j => s.setFld (R.ML_STATUS (j / 5) (j % 5)) F.ML_STATUS.LINK_ERR 1

/-- A flit that failed eight times in a row retrains its link, which holds its traffic (R308). -/
def State.linkRetrain (s : State) (l : LinkId) : State :=
  let s1 := (s.setLink l { s.link l with retraining := true, fails := 0 }).linkErr l
  match l with
  | .pkgDown d => s1.count (R.PL_RETRAINS d) 1
  | .pkgUp d => s1.count (R.PL_RETRAINS d) 1
  | .mem j => s1.setFld (R.ML_STATUS (j / 5) (j % 5)) F.ML_STATUS.STATE 1

/-- A flit with sequence number `seq` and a CRC that holds or not is received (R306, R308): taken if good and in order; the
first that is not is discarded with a NAK, and so is every later one until the replay brings the flit awaited. -/
def flitReceive (l : LinkId) (seq : Nat) (crcOk : Bool) (s : State) : State :=
  let x := s.link l
  if x.retraining then s
  else if crcOk && seq == x.expect then s.setLink l { x with expect := (x.expect + 1) % 4096, fails := 0, awaiting := false }
  else if x.awaiting && seq != x.expect then s
  else
    let s1 := (s.setLink l { x with fails := x.fails + 1, awaiting := true }).count (linkReplays l) 1
    if 8 ≤ x.fails + 1 then s1.linkRetrain l else s1

/-- FLIT_RECEIVE (R308). -/
def execFlitReceive (l : LinkId) (seq : BitVec 12) (crcOk : Bool) (s : State) : Host.Outcome State Fault Refusal :=
  s.whileOn (flitReceive l seq.toNat crcOk s)

/-- Lane groups in service shown, and LINK_ERR if the link narrowed (R309, R334, R339). -/
def State.linkWidth (s : State) (l : LinkId) (g : Nat) : State :=
  let s0 := if g < (s.link l).groups then s.linkErr l else s
  let s1 := s0.setLink l { s0.link l with groups := g, retraining := false, fails := 0, awaiting := false }
  match l with
  | .pkgDown d => s1.setFld (R.HUB_CD_STATUS d) F.HUB_CD_STATUS.WIDTH_DOWN g
  | .pkgUp d => s1.setFld (R.HUB_CD_STATUS d) F.HUB_CD_STATUS.WIDTH_UP g
  | .mem j => (s1.setFld (R.ML_STATUS (j / 5) (j % 5)) F.ML_STATUS.WIDTH g).setFld (R.ML_STATUS (j / 5) (j % 5)) F.ML_STATUS.STATE (if g < 4 then 2 else 0)

/-- Training of a link ends with `g` lane groups (R308, R309): too few and the link leaves service, isolating its die or
stack (R328, R329). -/
def linkRetrainDone (l : LinkId) (g : Nat) (s : State) : State :=
  if (s.link l).retraining then
    let s1 := s.linkWidth l g
    match l with
    | .pkgDown d => if g < 8 then (if s1.cdState d = 0 ∨ s1.cdState d = 1 then s1.isolate d else s1) else s1
    | .pkgUp d => if g < 8 then (if s1.cdState d = 0 ∨ s1.cdState d = 1 then s1.isolate d else s1) else s1
    | .mem j => if g < 4 then stackIsolation j s1 else s1
  else s

/-- LINK_RETRAIN_DONE (R308). -/
def execLinkRetrainDone (t : Moment) (l : LinkId) (g : Fin 17) (s : State) : Host.Outcome State Fault Refusal :=
  s.whileOn (linkRetrainDone l g (s.atTime t))

/-- A memory link's groups turned by the bytes queued each way (R310): a direction with nothing queued gets none; how two
busy directions share them is left open. -/
def groupTurn (j : Fin 20) (toStack fromStack : Nat) (s : State) : State :=
  let x := s.link (.mem j)
  if toStack = 0 ∧ fromStack = 0 then s.setLink (.mem j) { x with toStack := 0, fromStack := 0 }
  else if fromStack = 0 then s.setLink (.mem j) { x with toStack := x.groups, fromStack := 0 }
  else if toStack = 0 then s.setLink (.mem j) { x with toStack := 0, fromStack := x.groups }
  else
    let p := s.draw 2 8
    let n := 1 + p.1 % (max 1 (x.groups - 1))
    p.2.setLink (.mem j) { x with toStack := min n x.groups, fromStack := x.groups - min n x.groups }

/-- GROUP_TURN (R310). -/
def execGroupTurn (j : Fin 20) (toStack fromStack : Nat) (s : State) : Host.Outcome State Fault Refusal :=
  s.whileOn (groupTurn j toStack fromStack s)

/-- A link comes up with the lane groups its training gave (R309). -/
def State.linkUp (s : State) (l : LinkId) (g : Nat) : State := (s.setLink l {}).linkWidth l g

end Sys2Proof.Machine
end

