-- ==== Sys2Proof/Machine/Stack.lean ====
section
/-!
DEFINITION. The stacks and the DDR5 channels (09_memory.md): refresh, patrol scrubbing, retrains and their window,
recalibration, service, the metadata window, channel failure.
-/

namespace Sys2Proof.Machine

def State.hsSt (s : State) (j : Nat) : StackSt := Sparse.get {} j s.hs
def State.setHsSt (s : State) (j : Nat) (x : StackSt) : State := { s with hs := Sparse.set j x s.hs }

def HsS.RUN : Nat := 0
def HsS.RETRAIN : Nat := 1
def HsS.RECAL : Nat := 2
def HsS.OFFLINE : Nat := 3
def HsS.SELF_REFRESH : Nat := 4

def State.hsState (s : State) (j : Nat) : Nat := s.fld (R.HS_STATUS j) F.HS_STATUS.STATE
def State.setHsState (s : State) (j v : Nat) : State := s.setFld (R.HS_STATUS j) F.HS_STATUS.STATE v

/-! ## Refresh and scrubbing -/

/-- The base die reads its core dies' temperatures (R258): doubled refresh from 85 °C, normal once all are below 80 °C. -/
def refresh (j : Fin 20) (hottest : Nat) (s : State) : State :=
  let s1 := s.setFld (R.HS_STATUS j) F.HS_STATUS.TEMP_C (min 255 hottest)
  if 85 ≤ hottest then s1.setFld (R.HS_STATUS j) F.HS_STATUS.REFRESH_2X 1
  else if hottest < 80 then s1.setFld (R.HS_STATUS j) F.HS_STATUS.REFRESH_2X 0
  else s1

/-- REFRESH (R258). -/
def execRefresh (j : Fin 20) (hottest : Nat) (s : State) : Host.Outcome State Fault Refusal := s.whileOn (refresh j hottest s)

/-- Patrol scrubbing reads a sector and corrects what it finds (R264, R265): a stack's while SCRUB_EN = 1. -/
def patrolScrub (addr : Nat) (found : Option EccKind) (s : State) : State :=
  let r := s.region addr
  let on := match r with
    | .hbm j _ => s.stackIn j && s.flag (R.HS_CFG j) F.HS_CFG.SCRUB_EN
    | .ddr off => s.flag (R.DC_STATUS (s.ddrChannel off)) F.DC_STATUS.IN_SERVICE
    | _ => false
  match found with
  | some k => if on then s.eccFind { addr := addr, kind := k } else s
  | none => s

/-- PATROL_SCRUB (R264). -/
def execPatrolScrub (addr : BitVec 56) (found : Option EccKind) (s : State) : Host.Outcome State Fault Refusal :=
  s.whileOn (patrolScrub addr.toNat found s)

/-! ## Retrains (R269, R270) -/

/-- Does another stack of the die hold accesses for a retrain? -/
def State.neighbourHolds (s : State) (j : Nat) : Bool :=
  (dieStacks (j / 5)).any fun k => k != j && s.hsState k == HsS.RETRAIN

/-- A retrain starts, or waits for its neighbour's hold to end (R269 step 1, R270). -/
def State.startRetrain (s : State) (j : Nat) : State :=
  if s.neighbourHolds j then s.setHsSt j { s.hsSt j with retrainDue := true }
  else (s.setHsState j HsS.RETRAIN).setHsSt j { s.hsSt j with holdAt := s.now, retrainDue := false }

/-- Does span time's fraction lie in the stack's retrain window (R270)? -/
def State.inWindow (s : State) (j : Nat) : Bool :=
  let len := s.fld (R.HS_CFG j) F.HS_CFG.WIN_LEN
  let f := s.spanNow.get 23 16
  len == 0 || decide ((f + 256 - s.fld (R.HS_CFG j) F.HS_CFG.WIN_START) % 256 < len)

/-- An automatic retrain, if the monitor has passed its threshold, AUTO_RETRAIN = 1 and the window is open (R269, R270). -/
def State.autoRetrain (s : State) (j : Nat) (any : Bool) : State :=
  if s.hsState j == HsS.RUN && s.flag (R.HS_STATUS j) F.HS_STATUS.DRIFT_DUE && s.flag (R.HS_CFG j) F.HS_CFG.AUTO_RETRAIN && (any || s.inWindow j) then
    s.startRetrain j else s

/-- The drift monitor passes its threshold, or twice it (R270); in self-refresh the retrain waits for the exit (R272). -/
def driftThreshold (j : Fin 20) (twice : Bool) (s : State) : State :=
  let s1 := s.setFld (R.HS_STATUS j) F.HS_STATUS.DRIFT_DUE 1
  if s1.hsState j = HsS.SELF_REFRESH then s1.setHsSt j { s1.hsSt j with retrainDue := s1.flag (R.HS_CFG j) F.HS_CFG.AUTO_RETRAIN }
  else s1.autoRetrain j twice

/-- DRIFT_THRESHOLD (R270). -/
def execDriftThreshold (t : Moment) (j : Fin 20) (twice : Bool) (s : State) : Host.Outcome State Fault Refusal :=
  s.whileOn (driftThreshold j twice (s.atTime t))

/-- RETRAIN_WINDOW (R270): span time reaches the stack's window. -/
def execRetrainWindow (t : Moment) (j : Fin 20) (s : State) : Host.Outcome State Fault Refusal :=
  s.whileOn ((s.atTime t).autoRetrain j false)

/-- Is an HS_CTL write of one action bit allowed in the stack's state (R275)? Self-refresh acts as RUN. -/
def hsAllowed (act st : Nat) : Bool :=
  if act = 1 then st == HsS.RUN || st == HsS.SELF_REFRESH
  else if act = 4 then st == HsS.RUN || st == HsS.RETRAIN || st == HsS.SELF_REFRESH
  else st == HsS.OFFLINE

/-- An HS_CTL write (R275): refused unless one bit is set in a state that allows it; in self-refresh it waits. `act` is the
bit of the row, whose effect is `eff`. -/
def hsCtl (j : Fin 20) (act : Nat) (eff : State → State) (v : Word) (s : State) : State :=
  let b := v.get 3 0
  if b % (2 * act) / act = 0 then s
  else if b ≠ act ∨ !hsAllowed act (s.hsState j) then s.raiseReg St.HS_CTL_REFUSED (R.HS_CTL j)
  else if s.hsState j = HsS.SELF_REFRESH then s.setHsSt j { s.hsSt j with want := some act }
  else eff s

/-- RETRAIN (R269). -/
def execRetrain (t : Moment) (w : RegW) (j : Fin 20) (s : State) : Host.Outcome State Fault Refusal :=
  s.whileOn ((s.atTime t).onWrite w (R.HS_CTL j) (hsCtl j 1 fun u => u.startRetrain j))

/-- A removal of the stack under R330: its contents are no longer those of a recalibrated stack. -/
def State.hsOffline (s : State) (j : Nat) : State :=
  (s.removeStack j).setHsSt j { s.hsSt j with recald := false, offAfter := false, retrainDue := false }

/-- A retrain's training ends (R269 steps 3 and 4): done, or failed with the previous trim restored. -/
def retrainComplete (j : Fin 20) (failed : Bool) (s : State) : State :=
  if s.hsState j = HsS.RETRAIN then
    let ns := min 0xFFFFFFFF ((s.now - (s.hsSt j).holdAt) / 16)
    let s1 := (((s.setHsState j HsS.RUN).count (R.HS_RETRAINS j) 1).raiseFld (R.HS_HOLD_MAX j) F.HS_HOLD_MAX.MAX_NS ns).life 16 1
    let s2 := if failed then s1.raise { status := St.HS_RETRAIN_FAIL, sev := Sev.DEFERRED, kind := Uk.STACK, die := j.val / 5, index := j.val }
      else s1.setFld (R.HS_STATUS j) F.HS_STATUS.DRIFT_DUE 0
    let s3 := if (s2.hsSt j).offAfter then s2.hsOffline j else s2
    match (dieStacks (j / 5)).find? fun k => (s3.hsSt k).retrainDue && s3.hsState k == HsS.RUN with
    | some k => s3.startRetrain k
    | none => s3
  else s

/-- RETRAIN_COMPLETE (R269). -/
def execRetrainComplete (t : Moment) (j : Fin 20) (failed : Bool) (s : State) : Host.Outcome State Fault Refusal :=
  s.whileOn (retrainComplete j failed (s.atTime t))

/-! ## Recalibration and service (R271, R275, R331) -/

/-- A stack's memory zero and its block records reset (R261, R271 step 4); any firn it still held is lost. -/
def State.stackZero (s : State) (j : Nat) : State :=
  let s1 := s.loseFirn j
  { s1 with mem := { s1.mem with cells := Memory.clear (j * 0x1000000000) 0x1000000000 s1.mem.cells, blocks := s1.mem.blocks.filter fun b => b.1 / 0x1000000 != j, dir := s1.mem.dir.filter fun p => !onStacks [j] p.1 } }

/-- RECAL (R271): allowed on a stack out of service. -/
def execRecal (w : RegW) (j : Fin 20) (s : State) : Host.Outcome State Fault Refusal :=
  s.whileOn (s.onWrite w (R.HS_CTL j) (hsCtl j 2 fun u => u.setHsState j HsS.RECAL))

/-- The stack returned to service. -/
def State.stackOn (s : State) (j : Nat) : State :=
  (((s.setHsState j HsS.RUN).setFld (R.HS_STATUS j) F.HS_STATUS.IN_SERVICE 1).setFld (R.FIRN_LOG j) F.FIRN_LOG.ABSENT 0).setHsSt j { s.hsSt j with onAfter := false, recald := false }

/-- A full recalibration ends (R271 step 4); an ONLINE that asked for it returns the stack (R331). -/
def recalComplete (j : Fin 20) (s : State) : State :=
  if s.hsState j = HsS.RECAL then
    let s1 := (s.stackZero j).setHsState j HsS.OFFLINE
    if (s1.hsSt j).onAfter then s1.stackOn j else s1.setHsSt j { s1.hsSt j with recald := true }
  else s

/-- RECAL_COMPLETE (R271). -/
def execRecalComplete (j : Fin 20) (s : State) : Host.Outcome State Fault Refusal := s.whileOn (recalComplete j s)

/-- HS_OFFLINE (R275, R330): in a retrain it takes effect after the retrain. -/
def execHsOffline (w : RegW) (j : Fin 20) (s : State) : Host.Outcome State Fault Refusal :=
  s.whileOn (s.onWrite w (R.HS_CTL j) (hsCtl j 4 fun u =>
    if u.hsState j = HsS.RETRAIN then u.setHsSt j { u.hsSt j with offAfter := true } else u.hsOffline j))

/-- HS_ONLINE (R275, R331): a stack not recalibrated since it left service is recalibrated first. -/
def execHsOnline (w : RegW) (j : Fin 20) (s : State) : Host.Outcome State Fault Refusal :=
  s.whileOn (s.onWrite w (R.HS_CTL j) (hsCtl j 8 fun u =>
    if (u.hsSt j).recald then u.stackOn j else (u.setHsState j HsS.RECAL).setHsSt j { u.hsSt j with onAfter := true }))

/-- A stack leaves self-refresh (R272, R275): what waited for it happens. -/
def State.hsWake (s : State) (j : Nat) : State :=
  let x := s.hsSt j
  if s.hsState j = HsS.SELF_REFRESH then
    let s1 := (s.setHsState j HsS.RUN).setHsSt j { x with want := none, retrainDue := false }
    let s2 := if x.want = some 4 then s1.hsOffline j else if x.want = some 1 ∨ x.retrainDue then s1.startRetrain j else s1
    s2
  else s

/-! ## The metadata window (R260, R276) -/

/-- A set of small numbers as bits of 64-bit word `i`. -/
def bitsWord (l : List Nat) (i : Nat) : Word :=
  l.foldl (fun w n => if n / 64 = i then w ||| BitVec.ofNat 64 (1 <<< (n % 64)) else w) 0

/-- The sectors of a block with firn entries (R229, R260). -/
def State.firnBits (s : State) (a : Nat) : List Nat :=
  (s.firn.entries.filter fun e => e.sector / 4096 == a / 4096).map fun e => e.sector % 4096 / 64

/-- The sixteen words of the record of the block at `a` (R260). -/
def State.metaWords (s : State) (a : Nat) : List Word :=
  let b := s.block a
  (List.range 8).map (bitsWord b.fe) ++
    [bitsWord (s.firnBits a) 0, bitsWord b.poison 0,
     BitVec.ofNat 64 (b.crc % 2 ^ 32 + b.gen % 65536 * 2 ^ 32 + (if b.unchecked then 2 ^ 48 else 0) + (if b.isOpen then 2 ^ 49 else 0)),
     BitVec.ofNat 64 (b.writer % 2 ^ 32), 0, 0, 0, 0]

/-- A write of HS_META_ADDR loads a block's record; a block not of this stack, or at a reserved offset, loads zeros. -/
def hsMetaAct (j : Fin 20) (v : Word) (s : State) : State :=
  let s1 := s.plainWrite (R.HS_META_ADDR j) v
  let a := v.get 55 12 * 4096
  let ok := decide (a / 0x1000000000 = j.val) && decide (a % 0x1000000000 < 0xF00000000)
  s1.setHsSt j { s1.hsSt j with metaBlock := some a, metaRec := if ok then s1.metaWords a else List.replicate 16 0 }

/-- HS_META_ADDR_WRITE (R276). -/
def execHsMetaAddrWrite (w : RegW) (j : Fin 20) (s : State) : Host.Outcome State Fault Refusal :=
  s.whileOn (s.onWrite w (R.HS_META_ADDR j) (hsMetaAct j))

/-! ## DDR5 channels (R268) -/

/-- A channel in service fails: its addresses are ABSENT from now on. -/
def ddrChannelFail (n : Fin 12) (s : State) : State :=
  if s.flag (R.DC_STATUS n) F.DC_STATUS.IN_SERVICE then
    (s.setFld (R.DC_STATUS n) F.DC_STATUS.IN_SERVICE 0).raise { status := St.DDR_CHANNEL_FAIL, sev := Sev.FATAL_UNIT, kind := Uk.DDR, index := n.val }
  else s

/-- DDR_CHANNEL_FAIL (R268). -/
def execDdrChannelFail (n : Fin 12) (s : State) : Host.Outcome State Fault Refusal := s.whileOn (ddrChannelFail n s)

end Sys2Proof.Machine
end

