-- ==== Sys2Proof/Machine/Translate.lean ====
section
/-!
DEFINITION. Engine translation (10_translation.md): the Sv57 walk, the translation caches of a die, invalidation, the export
table's writes.
-/

namespace Sys2Proof.Machine

/-! ## The walk (R291) -/

/-- What a translation gives: a physical address, a fault's status, or nothing yet (an entry read is held). -/
inductive XRes where
  | ok (pa : Nat)
  | fault (status : Nat)
  | wait
deriving DecidableEq, Repr

/-- Bits of a page-table entry. -/
def pteLeaf (w : Word) : Bool := w.bit 1 || w.bit 2 || w.bit 3
def ptePpn (w : Word) : Nat := w.get 53 10

/-- Is an entry malformed at a level, as R291's fourth row says? -/
def pteBad (w : Word) (level : Nat) : Bool :=
  (w.bit 2 && !w.bit 1) || w.get 60 54 != 0 || w.bit 63 || w.get 62 61 == 3 ||
    (pteLeaf w && (level == 4 || ptePpn w % 2 ^ (9 * level) != 0))

/-- Does a leaf grant the access (R291)? -/
def pteGrants (w : Word) (write : Bool) : Bool :=
  w.bit 4 && w.bit 6 && (if write then w.bit 2 && w.bit 7 else w.bit 1)

/-- The virtual page number of a level. -/
def vpnAt (va level : Nat) : Nat := va / 2 ^ (12 + 9 * level)

/-- The physical address a leaf gives. -/
def leafAddr (w : Word) (level va : Nat) : Nat := ptePpn w * 4096 / 2 ^ (12 + 9 * level) * 2 ^ (12 + 9 * level) + va % 2 ^ (12 + 9 * level)

/-- What a walk finds: a leaf and its level, a fault, or a held read. -/
inductive WalkRes where
  | leaf (level : Nat) (pte : Word)
  | fault (status : Nat)
  | wait
deriving DecidableEq, Repr

/-- The walk from the table at `base` down `fuel` levels, at `level` (R291). The entry is read at its home. -/
def State.walkFrom (va : Nat) (write : Bool) : Nat → Nat → Nat → State → WalkRes × State
  | 0, _, _, s => (.fault St.PAGE_TOO_SMALL, s)
  | fuel + 1, level, base, s =>
    let pa := base + va / 2 ^ (12 + 9 * level) % 512 * 8
    let r := s.region pa
    if s.absent r then (.fault St.ABSENT, s)
    else if !r.isMem then (.fault St.PAGE_DENIED, s)
    else if s.held r then (.wait, s)
    else
      let k := r.key pa
      let line := k / 64 * 64
      if s.poisoned line then (.fault St.PAGE_DENIED, s)
      else
        let s1 := s.homeShare line
        let w : Word := BitVec.ofNat 64 (leNat (((s1.ice line).drop (k % 64)).take 8))
        if !w.bit 0 then (.fault St.PAGE_MISSING, s1)
        else if pteBad w level then (.fault St.PAGE_DENIED, s1)
        else if pteLeaf w then (if pteGrants w write then (.leaf level w, s1) else (.fault St.PAGE_DENIED, s1))
        else if level = 2 then (.fault St.PAGE_TOO_SMALL, s1)
        else State.walkFrom va write fuel (level - 1) (ptePpn w * 4096) s1

/-- The walk of a context's tables (R291). -/
def State.walk (s : State) (d : Die) (c : Cx) (va : Nat) (write : Bool) : WalkRes × State :=
  State.walkFrom va write 3 4 ((s.reg (R.CX_ATP d c)).get 43 0 * 4096) (s.count (R.XL_D_WALKS d) 1)

/-! ## The caches (R292, R294) -/

/-- The stream of an engine: arrays have three, vector engines five, DMA engines four, each context one for its queue. -/
def arrayStream (m k : Nat) : Nat := 3 * m + k
def veStream (v k : Nat) : Nat := 24 + 5 * v + k
def dmStream (e k : Nat) : Nat := 64 + 4 * e + k
def queueStream (c : Nat) : Nat := 128 + c

/-- The engine a stream belongs to, or none for a context's queue stream. -/
def streamEngine (n : Nat) : Option Nat :=
  if n < 24 then some (n / 3) else if n < 64 then some (8 + (n - 24) / 5) else if n < 128 then some (16 + (n - 64) / 4) else none

def TlbEnt.hits (e : TlbEnt) (d n asid va : Nat) : Bool :=
  e.die == d && e.stream == n && e.asid == asid && e.vpn == vpnAt va e.level

/-- The entry of a stream's cache for an address. -/
def State.tlbFind (s : State) (d n asid va : Nat) : Option TlbEnt := s.tlb.find? fun e => e.hits d n asid va

/-- A leaf put in a stream's cache, in place of what the stream held for the address. -/
def State.tlbPut (s : State) (d n asid va level : Nat) (pte : Word) : State :=
  { s with tlb := s.tlb.filter (fun e => !e.hits d n asid va) ++ [{ die := d, stream := n, asid := asid, level := level, vpn := vpnAt va level, pte := pte }] }

/-- The ASID of a context. -/
def State.asid (s : State) (d : Die) (c : Cx) : Nat := (s.reg (R.CX_ATP d c)).get 59 44

/-- A walk whose leaf fills the stream's cache and the die-wide cache. -/
def State.walkFill (s : State) (d : Die) (c : Cx) (n va : Nat) (write : Bool) : XRes × State :=
  match s.walk d c va write with
  | (.leaf l w, s1) => (.ok (leafAddr w l va), (s1.tlbPut d n (s.asid d c) va l w).tlbPut d 256 (s.asid d c) va l w)
  | (.fault st, s1) => (.fault st, s1)
  | (.wait, s1) => (.wait, s1)

/-- The translation of an access of a stream of a context's engine (R292, R294). -/
def State.translate (s : State) (d : Die) (c : Cx) (n va : Nat) (write : Bool) : XRes × State :=
  let a := s.asid d c
  match s.tlbFind d n a va with
  | some e => if pteGrants e.pte write then (.ok (leafAddr e.pte e.level va), s) else s.walkFill d c n va write
  | none =>
    let s1 := s.count (R.XL_D_MISS d) 1
    match s1.tlbFind d 256 a va with
    | some e => if pteGrants e.pte write then (.ok (leafAddr e.pte e.level va), s1.tlbPut d n a va e.level e.pte) else s1.walkFill d c n va write
    | none => s1.walkFill d c n va write

/-- A walk for a stream: its leaf fills the caches; a fault is the fault of the command the stream's engine runs for the
context, or stops the context at its queue slot (R291, R293). -/
def tableWalk (d : Die) (c : Cx) (n va : Nat) (write : Bool) (s : State) : State :=
  match s.walkFill d c n va write with
  | (.fault st, s1) =>
    match streamEngine n with
    | some u => match s1.front d u with
      | some (c', f) => if c' = c then s1.flightFault d c f.slot st va 0 else s1
      | none => s1
    | none =>
      if s1.cxState d c = CxS.READY ∧ (s1.cx d c).cur = none then
        s1.cxStop d c st (s1.fld (R.CX_HEAD d c) F.CX_HEAD.ISSUE) 0 0 va 0 false false
      else s1
  | (_, s1) => s1

/-- TABLE_WALK (R291). -/
def execTableWalk (d : Die) (c : Cx) (n : Fin 256) (va : BitVec 57) (write : Bool) (s : State) : Host.Outcome State Fault Refusal :=
  s.whileOn (tableWalk d c n va.toNat write s)

/-! ## Invalidation (R295-R298) -/

/-- Is an address of an ASID in the scope of an invalidation? A 512 GiB entry matches if it overlaps the range. -/
def InvSt.covers (v : InvSt) (asid lo size : Nat) : Bool :=
  if v.scope = 0 then true
  else if v.scope = 1 then asid == v.asid
  else asid == v.asid && decide (lo < v.hi) && decide (v.lo < lo + size)

def InvSt.drops (v : InvSt) (e : TlbEnt) : Bool :=
  v.dies.contains e.die && v.covers e.asid (e.vpn * 2 ^ (12 + 9 * e.level)) (2 ^ (12 + 9 * e.level))

/-- The invalidation a write of XL_INV_CTL asks for, its range widened to whole gigabytes (R295). -/
def State.invScope (s : State) (dies : List Nat) : InvSt :=
  let va := s.fld R.XL_INV_VA F.XL_INV_VA.VA * 0x40000000
  let len := s.fld R.XL_INV_LEN F.XL_INV_LEN.LEN
  { busy := true, scope := s.fld R.XL_INV_CTL F.XL_INV_CTL.SCOPE, asid := s.fld R.XL_INV_CTL F.XL_INV_CTL.ASID, lo := va, hi := (va + len + 0x3FFFFFFF) / 0x40000000 * 0x40000000, dies := dies, startedAt := s.now }

/-- Every die has acknowledged: the invalidation is complete (R295 step 5). -/
def State.invDone (s : State) : State :=
  if s.inv.busy ∧ s.inv.dies = [] then
    let us := min 0xFFFF ((s.now - s.inv.startedAt) / 16000)
    let s1 := ((({ s with inv := {} }).setFld R.XL_INV_STATUS F.XL_INV_STATUS.BUSY 0).setFld R.XL_INV_STATUS F.XL_INV_STATUS.DONE 1).setFld R.XL_INV_STATUS F.XL_INV_STATUS.LAST_US us
    if s.flag R.XL_INV_CTL F.XL_INV_CTL.SIG_EN then s1.quireAdd (.unit s.pkg) (s.fld R.XL_INV_CTL F.XL_INV_CTL.SIG_Q) 1 0 else s1
  else s

/-- A write of XL_INV_CTL (R295, R298, R300): its fields, then START. -/
def invStartAct (v : Word) (s : State) : State :=
  let s1 := if v.get 2 1 = 3 then s.plainWriteBut R.XL_INV_CTL v [F.XL_INV_CTL.SCOPE] else s.plainWrite R.XL_INV_CTL v
  if v.bit 0 then
    if s.inv.busy then s1.raiseReg St.XL_INV_BUSY R.XL_INV_CTL
    else
      let iv := s1.invScope ((List.range 4).filter s1.dieIn)
      (({ s1 with inv := iv, tlb := s1.tlb.filter fun e => !iv.drops e }).setFld R.XL_INV_STATUS F.XL_INV_STATUS.BUSY 1).invDone
  else s1

/-- INVALIDATION_START (R295). -/
def execInvalidationStart (w : RegW) (s : State) : Host.Outcome State Fault Refusal := s.whileOn (s.onWrite w R.XL_INV_CTL invStartAct)

/-- Is a write a transfer of the die that an invalidation waits for (R295 step 3)? -/
def InvSt.waitsWrite (v : InvSt) (d : Die) (w : Wr) : Bool :=
  w.src.die == some d && w.stage == .sent && (match w.dst with | .pkg _ => false | _ => true) &&
    (match w.xl with | some (a, va) => v.covers a va 64 | none => false)

/-- Does a flight wait for a read the invalidation covers? -/
def InvSt.waitsRead (v : InvSt) (asid : Nat) (f : Flight) : Bool :=
  match f.held with
  | some va => v.covers asid va 64
  | none => false

/-- Has every transfer of a die that a dropped entry translated completed? -/
def State.invClear (s : State) (d : Die) : Bool :=
  !(s.mem.wrs.any (s.inv.waitsWrite d)) && !((s.live d).any fun p => s.inv.waitsRead (s.asid d p.1) p.2)

/-- A die acknowledges (R295 step 4). -/
def invAckDie (d : Die) (s : State) : State :=
  if s.inv.busy && s.inv.dies.contains d.val && (s.invClear d || !s.dieIn d) then
    ({ s with inv := { s.inv with dies := s.inv.dies.filter (· != d.val) } }).invDone
  else s

/-- INVALIDATION_DIE_ACK (R295). -/
def execInvalidationDieAck (t : Moment) (d : Die) (s : State) : Host.Outcome State Fault Refusal := s.whileOn (invAckDie d (s.atTime t))

/-- A command whose transfer is cut stops with PAGE_MISSING at its first element not finished (R296). -/
def State.cutFlight (s : State) (d : Die) (c : Cx) (f : Flight) : State :=
  let mine := s.mem.wrs.filter fun w => s.inv.waitsWrite d w && w.cmd == f.id
  if s.inv.waitsRead (s.asid d c) f || !mine.isEmpty then
    let first := mine.foldl (fun m w => min m w.elem) f.prog
    let va := match mine with
      | [] => f.held.getD 0
      | w :: r => (r.foldl (fun b x => if x.elem < b.elem then x else b) w).xl.elim 0 (·.2)
    (s.setFlight d c f.slot fun g => { g with prog := first }).flightFault d c f.slot St.PAGE_MISSING va 0
  else s

/-- Transfers still incomplete 20 µs after the entries were dropped are cut (R296). -/
def invCut (d : Die) (s : State) : State :=
  if s.inv.busy && s.inv.dies.contains d.val && decide (s.inv.startedAt + 320000 ≤ s.now) && !s.invClear d then
    let s1 := ((s.cxKeys.filter fun p => p.1 == d).flatMap fun p => (s.cx p.1 p.2).flights.map fun f => (p.2, f)).foldl (fun t p => if p.2.phase = .complete ∨ p.2.phase = .faulted then t else t.cutFlight d p.1 p.2) s
    ({ s1 with mem := { s1.mem with wrs := s1.mem.wrs.filter fun w => !s.inv.waitsWrite d w } }).setFld R.XL_INV_STATUS F.XL_INV_STATUS.CUT 1
  else s

/-- INVALIDATION_CUT (R296). -/
def execInvalidationCut (t : Moment) (d : Die) (s : State) : Host.Outcome State Fault Refusal := s.whileOn (invCut d (s.atTime t))

/-! ## The export table (R304) -/

/-- A write of FAB_EXPORT_n. -/
def fabExportAct (n : Nat) (v : Word) (s : State) : State :=
  if v.bit 0 && !(s.region (v.get 55 30 * 0x40000000)).isMem then s.raiseReg St.FAB_EXPORT_BAD (R.FAB_EXPORT n)
  else s.plainWrite (R.FAB_EXPORT n) v

/-- FAB_EXPORT_WRITE (R304). Entry 4,095 is RO. -/
def execFabExportWrite (w : RegW) (n : Fin 4096) (s : State) : Host.Outcome State Fault Refusal :=
  s.whileOn (s.onWrite w (R.FAB_EXPORT n) (fabExportAct n))

end Sys2Proof.Machine
end

