-- ==== Sys2Proof/Machine/Firn.lean ====
section
/-!
DEFINITION. Firn epochs (08_firn.md): states and instances, provisional writes in the logs, settles, melts, the run-ahead
commands they end, log capacity, the firn registers.
-/

namespace Sys2Proof.Machine

def Ep.IDLE : Nat := 0
def Ep.LIVE : Nat := 1
def Ep.SETTLING : Nat := 2
def Ep.MELTING : Nat := 3
def Ep.MELTED : Nat := 4

def State.epState (s : State) (e : Nat) : Nat := s.fld (R.FIRN_EPOCH e) F.FIRN_EPOCH.STATE
def State.setEpState (s : State) (e v : Nat) : State := s.setFld (R.FIRN_EPOCH e) F.FIRN_EPOCH.STATE v

/-- The full count of the epoch's current instance (R225). -/
def State.epInst (s : State) (e : Nat) : Nat := Sparse.get 0 e s.firn.insts

/-- Entries of an instance in the logs. -/
def FirnEnt.ofInst (x : FirnEnt) (e i : Nat) : Bool := !x.settled && x.epoch == e && x.inst == i

/-- FIRN_EPOCH_n.ENTRIES of an epoch brought to the logs (R251). -/
def State.epShow (s : State) (e : Nat) : State :=
  s.setFld (R.FIRN_EPOCH e) F.FIRN_EPOCH.ENTRIES (min 0xFFFFFFFF (s.firn.entries.filter fun x => x.ofInst e (s.epInst e)).length)

/-- FIRN_STATUS.FULL_NOW and SPILLING, and every log's USED and HIGH, brought to the logs (R249, R252). -/
def State.firnStatus (s : State) : State :=
  let s1 := s.setFld R.FIRN_STATUS F.FIRN_STATUS.FULL_NOW (if s.mem.wrs.any (fun w => w.heldAt.isSome) then 1 else 0)
  let s2 := s1.setFld R.FIRN_STATUS F.FIRN_STATUS.SPILLING (if s.firn.entries.any (fun x => x.log == 20 && decide (x.sector < 0x14000000000)) then 1 else 0)
  (List.range 21).foldl State.firnShow s2

/-- A new instance begins (R225). -/
def State.newInstance (s : State) (e : Nat) : State :=
  let i := s.epInst e + 1
  let s1 : State := { s with firn := { s.firn with insts := Sparse.set e i s.firn.insts } }
  ((s1.setEpState e Ep.IDLE).setFld (R.FIRN_EPOCH e) F.FIRN_EPOCH.INSTANCE i).epShow e

/-! ## Contexts waiting on melted epochs (R227) -/

/-- A context waiting at a gate, stamp or word of a command of the epoch re-evaluates it: its waiter is freed (R227, R379). -/
def State.recheckEpoch (s : State) (e : Nat) : State :=
  s.cxKeys.foldl (fun t p =>
    match (t.cx p.1 p.2).cur with
    | some k =>
      let st := t.cxState p.1 p.2
      if k.epochEn && k.epoch == e && (st == CxS.WAIT_GATE || st == CxS.WAIT_STAMP || st == CxS.WAIT_FE) then
        let u := t.freeWaiterOf p.1 p.2 (t.fld (R.CX_HEAD p.1 p.2) F.CX_HEAD.ISSUE) true
        (u.setCx p.1 p.2 { u.cx p.1 p.2 with gateHeld := false, consumeHeld := false, polled := false }).setCxState p.1 p.2 CxS.READY
      else t
    | none => t) s

/-- A flight that ends without a completion point is complete: it sends nothing and retires (R227, R239). -/
def Flight.melt (f : Flight) : Flight := { f with phase := .complete, sigSent := true, held := none, tile := none, inGroup := false }

/-- Does a flight belong to an instance, or read a tile of it (R165), and not stand complete? -/
def Flight.meltsWith (f : Flight) (e i : Nat) : Bool :=
  (f.inst == some (e, i) || (match f.tile with | some t => t.epochEn && t.epoch == e && t.inst == i | none => false)) && f.phase != .complete

/-- The tile slot of a flight that held a spine entry is released (R164, R165). -/
def State.releaseTile (s : State) (d : Die) (f : Flight) : State :=
  match f.tile with
  | some e => if e.marker then s else s.lockSlot d.val e.array e.slot false
  | none => s

/-- What a melted flight's context keeps: a fault of the flight that had stopped it is cleared, and it goes on (R239). -/
def State.unstopMelted (s : State) (d : Die) (c : Cx) (slots : List Nat) : State :=
  if s.cxStopped d c && slots.contains (s.fld (R.CX_FAULT d c) F.CX_FAULT.SLOT) && !s.flag (R.CX_FAULT d c) F.CX_FAULT.DONE then
    (s.setReg (R.CX_FAULT d c) 0).setReg (R.CX_FAULT_ADDR d c) 0 |>.setCxState d c CxS.READY
  else s

/-- Every command of the instance that is issued and has not completed ends (R239): counted, its tile's slot released, an open
group of it abandoned and not rewound, its context shown. -/
def State.meltFlights (s : State) (e i : Nat) : State :=
  s.cxKeys.foldl (fun t p =>
    let x := t.cx p.1 p.2
    let mine := x.flights.filter fun f => f.meltsWith e i
    let groups := (x.flights.filter fun f => f.inGroup && f.inst == some (e, i)).map (·.cmd.unit)
    if mine.isEmpty && groups.isEmpty then t
    else
      let t1 := mine.foldl (fun u f => (u.releaseTile p.1 f).freeWaiterOf p.1 p.2 f.slot true) t
      let t2 := groups.foldl (fun u m => u.abandonGroup p.1.val m) t1
      let y := t2.cx p.1 p.2
      let t3 := t2.setCx p.1 p.2 { y with flights := y.flights.map (fun f => if f.meltsWith e i then f.melt else if f.inst == some (e, i) then { f with inGroup := false } else f), groupUnit := if y.groupUnit.any groups.contains then none else y.groupUnit }
      let t4 := if t3.cxState p.1 p.2 == CxS.WAIT_FE && !((t3.cx p.1 p.2).flights.any fun f => f.phase == .issued && f.cmd.kind == 3 && decide (0x20 ≤ f.cmd.op)) then t3.setCxState p.1 p.2 CxS.READY else if t3.cxState p.1 p.2 == CxS.WAIT_FLIGHT && !mine.isEmpty then t3.setCxState p.1 p.2 CxS.READY else t3
      ((t4.unstopMelted p.1 p.2 (mine.map (·.slot))).count R.FIRN_CMD_MELTED mine.length).cxShow p.1 p.2) s

/-! ## Melts (R239) -/

/-- An instance melts: its entries, its writes in flight, its commands, its spine entries, its block states. -/
def State.meltNow (s : State) (e : Nat) : State :=
  let i := s.epInst e
  let s1 := (s.setEpState e Ep.MELTING).meltFlights e i
  let s2 : State := { s1 with firn := { s1.firn with entries := s1.firn.entries.filter (fun x => !x.ofInst e i), blocks := s1.firn.blocks.filter fun b => !(b.epoch == e && b.inst == i) }, mem := { s1.mem with wrs := s1.mem.wrs.filter fun w => w.firn != some (e, i) } }
  (((s2.spinesMelt e i).recheckEpoch e).epShow e).firnStatus

/-- Waiting SETTLE and MELT commands of an epoch, and the one it acts for, removed and given. -/
def State.takeWaits (s : State) (e : Nat) : List EpochWait × State :=
  (s.firn.waits.filter (·.epoch == e), { s with firn := { s.firn with waits := s.firn.waits.filter (·.epoch != e) } })

/-- A SETTLE's or MELT's work ends: its context completes it (R69). -/
def State.epochCmdDone (s : State) (w : EpochWait) : State := s.workDone w.die w.cx w.slot

/-- The commands the epoch was acting for end. -/
def State.endActing (s : State) (e : Nat) : State :=
  let mine := s.firn.acting.filter (·.epoch == e)
  mine.foldl State.epochCmdDone { s with firn := { s.firn with acting := s.firn.acting.filter (·.epoch != e) } }

/-- A SETTLE of an epoch, for a command, in the state R226 gives. -/
def State.settleFor (s : State) (w : EpochWait) : State :=
  let e := w.epoch
  let st := s.epState e
  if st = Ep.IDLE then s.epochCmdDone w
  else if st = Ep.LIVE then (({ s with firn := { s.firn with acting := s.firn.acting ++ [w] } }).setEpState e Ep.SETTLING)
  else if st = Ep.MELTED then
    ((s.setFld R.FIRN_STATUS F.FIRN_STATUS.SETTLE_MELTED 1).raiseHub Sev.INFO St.FIRN_SETTLE_MELTED Uk.FIRN).epochCmdDone w
  else { s with firn := { s.firn with waits := s.firn.waits ++ [w] } }

/-- A MELT of an epoch, for a command, in the state R226 gives. -/
def State.meltFor (s : State) (w : EpochWait) : State :=
  let e := w.epoch
  let st := s.epState e
  if st = Ep.IDLE ∨ st = Ep.LIVE then ({ s with firn := { s.firn with acting := s.firn.acting ++ [w] } }).meltNow e
  else if st = Ep.MELTED then s.epochCmdDone w
  else { s with firn := { s.firn with waits := s.firn.waits ++ [w] } }

/-- The waits of an epoch tried again in the order they came (R226). -/
def State.retryWaits (s : State) (e : Nat) : State :=
  let (l, s1) := s.takeWaits e
  l.foldl (fun t w => if w.isMelt then t.meltFor w else t.settleFor w) s1

/-- Is a stack that holds an entry of the instance in a retrain hold (R272)? -/
def State.firnHeld (s : State) (e i : Nat) : Bool :=
  s.firn.entries.any fun x => x.ofInst e i && s.held (s.region x.sector)

/-- A melt's effects are finished everywhere (R239): MELTED; the MELT completes and signals. -/
def meltComplete (e : Nat) (s : State) : State :=
  if s.epState e = Ep.MELTING then
    ((((s.setEpState e Ep.MELTED).count R.FIRN_MELTS 1).endActing e)).retryWaits e
  else s

/-- MELT_COMPLETE (R239). -/
def execMeltComplete (e : Fin 256) (s : State) : Host.Outcome State Fault Refusal := s.whileOn (meltComplete e s)

/-! ## Settles (R235-R238) -/

/-- An instance's provisional state of a block becomes ice's (R238). -/
def State.flipBlock (s : State) (b : FirnBlock) : State :=
  let r := s.block b.block
  let clean := match b.resealGen with
    | some g => g == r.gen
    | none => b.sealed && !b.unchecked
  let r1 := { r with isOpen := false, unchecked := !clean, crc := if clean then b.crc else r.crc, gen := if b.wrote then (r.gen + 1) % 65536 else r.gen }
  s.setBlock b.block r1

/-- The flip of a settle (R235 steps 3 and 4): the tracked copies of its sectors are invalidated, its entries read as ice. -/
def State.flip (s : State) (e : Nat) : State :=
  let i := s.epInst e
  let mine := s.firn.entries.filter fun x => x.ofInst e i
  let s1 := mine.foldl (fun t x => (t.homeInval x.sector none).breakResv x.sector none) s
  let blks := s1.firn.blocks.filter fun b => b.epoch == e && b.inst == i
  let s2 : State := { s1 with firn := { s1.firn with entries := s1.firn.entries.filter (fun x => !x.ofInst e i) ++ mine.map (fun x => { x with settled := true }), blocks := s1.firn.blocks.filter fun b => !(b.epoch == e && b.inst == i) } }
  let s3 := (blks.foldl State.flipBlock s2).spinesSettle e i
  let s4 := ((s3.newInstance e).count R.FIRN_SETTLES 1).endActing e
  s4.retryWaits e

/-- Has every firn write of the instance that left its engine entered its log (R235 step 2)? -/
def State.firnArrived (s : State) (e i : Nat) : Bool := !(s.mem.wrs.any fun w => w.firn == some (e, i) && w.stage == .sent)

/-- SETTLE_FLIP (R235). -/
def execSettleFlip (e : Fin 256) (s : State) : Host.Outcome State Fault Refusal :=
  s.whileOn (if s.epState e = Ep.SETTLING ∧ s.firnArrived e (s.epInst e) ∧ !s.firnHeld e (s.epInst e) then s.flip e else s)

/-- A sector's settled bytes written into ice, its entries freed (R235 step 5, R237). -/
def State.mergeSector (s : State) (sec : Nat) : State :=
  let mine := s.firn.entries.filter fun x => x.settled && x.sector == sec
  let s1 : State := { s with firn := { s.firn with entries := s.firn.entries.filter fun x => !(x.settled && x.sector == sec) } }
  let s2 := s1.setCells (Memory.writeBytes sec (s.ice sec) s.mem.cells)
  let s3 := if mine.any (·.poison) then s2.setPoison sec true else if mine.any (fun x => x.mask == fullMask) then s2.setPoison sec false else s2
  s3.firnStatus

/-- Background merging on a log (R237): the oldest settled entry's sector. -/
def firnMerge (n : Fin 21) (s : State) : State :=
  match s.firn.entries.find? fun x => x.settled && x.log == n.val with
  | some x => if s.held (s.region x.sector) then s else s.mergeSector x.sector
  | none => s

/-- FIRN_MERGE (R237). -/
def execFirnMerge (n : Fin 21) (s : State) : Host.Outcome State Fault Refusal := s.whileOn (firnMerge n s)

/-! ## Firn writes (R229-R232, R238, R243, R244) -/

/-- The log a sector's entries belong to. -/
def Region.log : Region → Nat
  | .hbm j _ => j
  | _ => 20

/-- The entries a log holds at most (R229, R247). -/
def State.logSize (s : State) (n : Nat) : Nat :=
  if n < 20 then 16777216 else s.fld R.FIRN_DDR F.FIRN_DDR.SIZE_GIB * 8388608

def State.logFull (s : State) (n : Nat) : Bool := decide (s.logSize n ≤ (s.firn.entries.filter fun x => x.log == n).length)

/-- The provisional state of a block for an instance (R238). -/
def State.firnBlock (s : State) (a e i : Nat) : FirnBlock :=
  (s.firn.blocks.find? fun b => b.block == a / 4096 * 4096 && b.epoch == e && b.inst == i).getD { block := a / 4096 * 4096, epoch := e, inst := i }

def State.setFirnBlock (s : State) (b : FirnBlock) : State :=
  { s with firn := { s.firn with blocks := s.firn.blocks.filter (fun x => !(x.block == b.block && x.epoch == b.epoch && x.inst == b.inst)) ++ [b] } }

/-- A data write of an instance to a block (R238, under the rows of R261). -/
def FirnBlock.dataWrite (b : FirnBlock) (whole : Bool) (cmd : Nat) : FirnBlock :=
  let b1 := { b with unchecked := true, wrote := true, sealed := false, resealGen := none }
  if whole then
    if b.begun.contains cmd then b1
    else if b.isOpen && b.writer != cmd then { b1 with isOpen := false, begun := cmd :: b.begun }
    else { b1 with isOpen := true, writer := cmd, begun := cmd :: b.begun }
  else { b1 with isOpen := false }

/-- A CRC write that reaches an instance's provisional state (R238). -/
def State.firnCrc (s : State) (w : Wr) (e i crc : Nat) : State :=
  let b := s.firnBlock w.addr e i
  if b.isOpen && b.writer == w.cmd then s.setFirnBlock { b with crc := crc, unchecked := false, isOpen := false, sealed := true }
  else s.count (crcDiscardReg (s.region w.addr)) 1

/-- The entry of an instance for a sector, updated with a write or new in log `n`. -/
def State.firnPut (s : State) (w : Wr) (e i n : Nat) : State :=
  let mine := s.firn.entries.any fun x => x.ofInst e i && x.sector == w.addr
  let es := if mine then
      s.firn.entries.map fun x => if x.ofInst e i && x.sector == w.addr then
        { x with mask := x.mask ||| w.mask, data := overlay w.mask 0 x.data w.data, poison := w.poison || (x.poison && w.mask != fullMask) } else x
    else s.firn.entries ++ [{ log := n, sector := w.addr, epoch := e, inst := i, mask := w.mask, data := w.data, poison := w.poison }]
  let s1 : State := { s with firn := { s.firn with entries := es } }
  (s1.setFirnBlock ((s1.firnBlock w.addr e i).dataWrite w.whole w.cmd)).epShow e

/-- A firn write accepted: it has entered its log (R232). -/
def State.firnAccept (s : State) (w : Wr) : State :=
  (s.setWr w.id fun v => { v with stage := .accepted, heldAt := none }).firnStatus

/-- The first spill after SPILL_SEEN was last clear is recorded (R244). -/
def State.noteSpill (s : State) (j : Nat) : State :=
  let s1 := (s.count R.FIRN_SPILLED 1).life 13 1
  if s.flag R.FIRN_STATUS F.FIRN_STATUS.SPILL_SEEN then s1
  else (s1.setFld R.FIRN_STATUS F.FIRN_STATUS.SPILL_SEEN 1).raise { status := St.FIRN_SPILL, sev := Sev.INFO, kind := Uk.STACK, die := j / 5, index := j }

/-- A firn write finds its log full and waits (R243): counted once for the write. -/
def State.firnHold (s : State) (w : Wr) : State :=
  match w.heldAt with
  | some _ => s
  | none =>
    (((s.setWr w.id fun v => { v with heldAt := some s.now }).count R.FIRN_FULL_WAITS 1).setFld R.FIRN_STATUS F.FIRN_STATUS.FULL_SEEN 1).firnStatus

/-- A firn write in flight reaches its log (R229, R230, R238, R239, R243, R244). -/
def firnWrite (w : Wr) (e i : Nat) (s : State) : State :=
  let r := s.region w.addr
  if s.absent r then (s.loseWrite w.src w.cmd s.ownPkg).dropWr w.id
  else if s.held r || !s.wrFirst w then s
  else if s.epInst e = i ∧ Ep.MELTING ≤ s.epState e then (s.dropWr w.id).firnStatus
  else match w.crc with
    | some k => (s.firnCrc w e i k).firnAccept w
    | none =>
      let n := r.log
      if (s.firn.entries.any fun x => x.ofInst e i && x.sector == w.addr) || !s.logFull n then (s.firnPut w e i n).firnAccept w
      else if n < 20 ∧ s.flag R.FIRN_CFG F.FIRN_CFG.SPILL_EN ∧ !s.logFull 20 then ((s.firnPut w e i 20).noteSpill n).firnAccept w
      else s.firnHold w

/-- A firn write still on its way, taken by the log. -/
def firnWriteStep (id : Nat) (s : State) : State :=
  match s.wr id with
  | some w => match w.firn with
    | some (e, i) => if w.stage = .sent then firnWrite w e i s else s
    | none => s
  | none => s

/-- FIRN_WRITE (R229): the firn write in flight `id`. -/
def execFirnWrite (t : Moment) (id : Nat) (s : State) : Host.Outcome State Fault Refusal :=
  s.whileOn (firnWriteStep id (s.atTime t))

/-- A write held for FULL_WAIT_US stops its command with FIRN_FULL at the first element not written (R243). -/
def firnFullTimeout (w : Wr) (s : State) : State :=
  match w.heldAt, w.src with
  | some h, .cx d c =>
    let us := s.fld R.FIRN_CFG F.FIRN_CFG.FULL_WAIT_US
    if us ≠ 0 ∧ h + us * 16000 ≤ s.now then
      match (s.cx d c).flights.find? fun f => f.id == w.cmd with
      | some f =>
        let mine := s.mem.wrs.filter fun v => v.cmd == w.cmd && v.stage == .sent
        let first := mine.foldl (fun m v => min m v.elem) w.elem
        let s1 : State := { s with mem := { s.mem with wrs := s.mem.wrs.filter fun v => !(v.cmd == w.cmd && v.stage == .sent) } }
        let s2 := (s1.setFlight d c f.slot fun g => { g with prog := first }).flightFault d c f.slot St.FIRN_FULL 0 0
        (s2.life 12 1).firnStatus
      | none => s
    else s
  | _, _ => s

/-- FIRN_FULL_TIMEOUT (R243). -/
def execFirnFullTimeout (t : Moment) (id : Nat) (s : State) : Host.Outcome State Fault Refusal :=
  s.whileOn (match s.wr id with
    | some w => firnFullTimeout w (s.atTime t)
    | none => s.atTime t)

/-! ## Control commands (R69, R226) -/

/-- A SETTLE or MELT command of a context, once. -/
def epochCommand (isMelt : Bool) (d : Die) (c : Cx) (s : State) : State :=
  match s.ctlFront d c (if isMelt then 0x11 else 0x10) with
  | some f =>
    if f.phase = .issued then
      let w : EpochWait := { epoch := f.cmd.w2.get 7 0, die := d, cx := c, slot := f.slot, isMelt := isMelt }
      let s1 := s.setFlight d c f.slot fun g => { g with phase := .running }
      if isMelt then s1.meltFor w else s1.settleFor w
    else s
  | none => s

/-- SETTLE (R235). -/
def execSettle (d : Die) (c : Cx) (s : State) : Host.Outcome State Fault Refusal := s.whileOn (epochCommand false d c s)
/-- MELT (R239). -/
def execMelt (d : Die) (c : Cx) (s : State) : Host.Outcome State Fault Refusal := s.whileOn (epochCommand true d c s)

/-! ## Registers (R226, R245, R247, R248, R251) -/

/-- A refused write of FIRN_CTL. -/
def State.firnRefuse (s : State) : State := s.raiseReg St.FIRN_CTL_REFUSED R.FIRN_CTL

/-- FIRN_CTL with REARM (R226). -/
def firnRearmAct (v : Word) (s : State) : State :=
  let e := v.get 7 0
  if v.bit 8 then
    if v.bit 9 then s.firnRefuse
    else if s.epState e = Ep.IDLE then s
    else if s.epState e = Ep.MELTED then s.newInstance e
    else s.firnRefuse
  else s

/-- FIRN_CTL_REARM (R226). -/
def execFirnCtlRearm (w : RegW) (s : State) : Host.Outcome State Fault Refusal := s.whileOn (s.onWrite w R.FIRN_CTL firnRearmAct)

/-- FIRN_CTL with MELT (R226, R248): a melt with no command and no signal; in SETTLING it waits for the new instance. -/
def firnMeltAct (v : Word) (s : State) : State :=
  let e := v.get 7 0
  if v.bit 9 then
    if v.bit 8 then s.firnRefuse
    else if s.epState e = Ep.IDLE ∨ s.epState e = Ep.LIVE then s.meltNow e
    else if s.epState e = Ep.SETTLING then
      { s with firn := { s.firn with waits := s.firn.waits ++ [{ epoch := e, die := 0, cx := 0, slot := 65536, isMelt := true }] } }
    else s
  else s

/-- FIRN_CTL_MELT (R248). -/
def execFirnCtlMelt (w : RegW) (s : State) : Host.Outcome State Fault Refusal := s.whileOn (s.onWrite w R.FIRN_CTL firnMeltAct)

/-- Is any epoch LIVE, SETTLING or MELTING? -/
def State.anyLive (s : State) : Bool :=
  (List.range 256).any fun e => s.epState e == Ep.LIVE || s.epState e == Ep.SETTLING || s.epState e == Ep.MELTING

/-- A write of FIRN_DDR (R247). -/
def firnDdrAct (v : Word) (s : State) : State :=
  if s.anyLive then s.raiseReg St.FIRN_CFG_BUSY R.FIRN_DDR
  else if 64 < v.get 22 16 then s
  else s.plainWrite R.FIRN_DDR v

/-- FIRN_DDR_WRITE (R247). -/
def execFirnDdrWrite (w : RegW) (s : State) : Host.Outcome State Fault Refusal := s.whileOn (s.onWrite w R.FIRN_DDR firnDdrAct)

/-- A write of FIRN_EPOCH_n (R245): PART stays while the epoch is LIVE, SETTLING or MELTING. -/
def firnEpochAct (e : Nat) (v : Word) (s : State) : State :=
  let st := s.epState e
  let o := R.FIRN_EPOCH e
  if (st = Ep.LIVE ∨ st = Ep.SETTLING ∨ st = Ep.MELTING) ∧ v.get 7 4 ≠ s.fld o F.FIRN_EPOCH.PART then s.raiseReg St.FIRN_CFG_BUSY o
  else s.plainWrite o v

/-- FIRN_EPOCH_WRITE (R245). -/
def execFirnEpochWrite (w : RegW) (e : Fin 256) (s : State) : Host.Outcome State Fault Refusal :=
  s.whileOn (s.onWrite w (R.FIRN_EPOCH e) (firnEpochAct e))

end Sys2Proof.Machine
end

