-- ==== Sys2Proof/Machine/Formats.lean ====
section
/-!
DEFINITION. Number formats (05_formats.md): decoding, exact values, rounding, conversions with their flags, scale formats,
packing of elements in memory, T5.
-/

namespace Sys2Proof.Machine

/-! ## Codes (R114) and shapes (R139, R140) -/

def Fmt.FP32 : Nat := 0
def Fmt.BF16 : Nat := 1
def Fmt.FP16 : Nat := 2
def Fmt.E5M2 : Nat := 3
def Fmt.E4M3 : Nat := 4
def Fmt.E3M2 : Nat := 5
def Fmt.E2M3 : Nat := 6
def Fmt.E2M1 : Nat := 7
def Fmt.E8M0 : Nat := 8
def Fmt.UE4M3 : Nat := 9
def Fmt.INT4 : Nat := 10
def Fmt.INT8 : Nat := 11
def Fmt.INT16 : Nat := 12
def Fmt.INT32 : Nat := 13
def Fmt.T5 : Nat := 14

/-- Bits per element (R139); T5 is counted apart. -/
def fmtBits (f : Nat) : Nat :=
  if f = 0 ∨ f = 13 then 32
  else if f = 1 ∨ f = 2 ∨ f = 12 then 16
  else if f = 5 ∨ f = 6 then 6
  else if f = 7 ∨ f = 10 then 4
  else 8

/-- Is it an integer format (R146)? -/
def fmtInt (f : Nat) : Bool := decide (10 ≤ f) && decide (f ≤ 13)

/-- A floating format (R140): mantissa bits, exponent bias, code of the largest finite magnitude, has infinity, NaN code. -/
structure FloatFmt where
  man : Nat
  bias : Int
  maxFinite : Nat
  inf : Option Nat
  nan : Option Nat
  signBit : Nat
deriving DecidableEq, Repr

def floatFmt (f : Nat) : Option FloatFmt :=
  match f with
  | 0 => some ⟨23, 127, 0x7F7FFFFF, some 0x7F800000, some 0x7FC00000, 31⟩
  | 1 => some ⟨7, 127, 0x7F7F, some 0x7F80, some 0x7FC0, 15⟩
  | 2 => some ⟨10, 15, 0x7BFF, some 0x7C00, some 0x7E00, 15⟩
  | 3 => some ⟨2, 15, 0x7B, some 0x7C, some 0x7E, 7⟩
  | 4 => some ⟨3, 7, 0x7E, none, some 0x7F, 7⟩
  | 5 => some ⟨2, 3, 0x1F, none, none, 5⟩
  | 6 => some ⟨3, 1, 0x1F, none, none, 5⟩
  | 7 => some ⟨1, 1, 0x7, none, none, 3⟩
  | _ => none

/-- Is a format one of the integers INT4 to INT32 (R114)? -/
def isIntFmt (f : Nat) : Bool := decide (10 ≤ f) && decide (f ≤ 13)

/-! ## Values -/

/-- The value of an element: a finite (−1)^neg × m × 2^e, an infinity, a NaN. -/
inductive Num where
  | fin (neg : Bool) (m : Nat) (e : Int)
  | inf (neg : Bool)
  | nan (signalling : Bool)
deriving DecidableEq, Repr

def Num.isNaN : Num → Bool
  | .nan _ => true
  | _ => false

def Num.neg : Num → Bool
  | .fin n _ _ => n
  | .inf n => n
  | .nan _ => false

def Num.isZero : Num → Bool
  | .fin _ m _ => m == 0
  | _ => false

def Num.abs : Num → Num
  | .fin _ m e => .fin false m e
  | .inf _ => .inf false
  | x => x

def Num.negate : Num → Num
  | .fin n m e => .fin (!n) m e
  | .inf n => .inf (!n)
  | x => x

/-- A whole number as a value. -/
def Num.ofInt (i : Int) : Num := .fin (decide (i < 0)) i.natAbs 0

/-- A signed dyadic number m × 2^e as a value; zero is +0. -/
def Num.ofDyadic (i e : Int) : Num := .fin (decide (i < 0)) i.natAbs e

/-- A code of `bits` bits read in two's complement. -/
def signedCode (bits c : Nat) : Int := if 2 ^ (bits - 1) ≤ c % 2 ^ bits then (c % 2 ^ bits : Nat) - (2 ^ bits : Nat) else (c % 2 ^ bits : Nat)

/-- The value of a code of a signed floating format (R140). -/
def FloatFmt.decode (f : FloatFmt) (c : Nat) : Num :=
  let neg := c.testBit f.signBit
  let mag := c % 2 ^ f.signBit
  match f.inf with
  | some i =>
    if mag = i then .inf neg
    else if i < mag then .nan (!(mag.testBit (f.man - 1)))
    else if mag < 2 ^ f.man then .fin neg mag (1 - f.bias - f.man)
    else .fin neg (mag % 2 ^ f.man + 2 ^ f.man) ((mag / 2 ^ f.man : Nat) - f.bias - f.man)
  | none =>
    if f.nan = some mag then .nan false
    else if mag < 2 ^ f.man then .fin neg mag (1 - f.bias - f.man)
    else .fin neg (mag % 2 ^ f.man + 2 ^ f.man) ((mag / 2 ^ f.man : Nat) - f.bias - f.man)

/-- The value of an element code of any format but T5 (R140-R146). -/
def decodeNum (f c : Nat) : Num :=
  match floatFmt f with
  | some g => g.decode c
  | none =>
    if f = Fmt.E8M0 then (if c % 256 = 255 then .nan false else .fin false 1 ((c % 256 : Nat) - 127))
    else if f = Fmt.UE4M3 then
      (if 0x7F ≤ c % 256 then .nan false
       else if c % 256 < 8 then .fin false (c % 256) (-9)
       else .fin false (c % 8 + 8) ((c % 256 / 8 : Nat) - 10))
    else .ofInt (signedCode (fmtBits f) c)

/-! ## Flags (R154) -/

def Flag.INVALID : Nat := 1
def Flag.OVERFLOW : Nat := 2
def Flag.UNDERFLOW : Nat := 4
def Flag.INEXACT : Nat := 8
def Flag.SATURATED : Nat := 16

/-! ## Rounding (R151) -/

/-- Is q, the floor of a magnitude, to be raised by one: `rem` against `den` is the part cut off? -/
def roundUp (mode : Nat) (neg : Bool) (q rem den : Nat) : Bool :=
  if rem = 0 then false
  else if mode = 0 then decide (den < 2 * rem) || (2 * rem == den && q % 2 == 1)
  else if mode = 1 then false
  else if mode = 2 then neg
  else if mode = 3 then !neg
  else decide (den ≤ 2 * rem)

/-- The magnitude n/d × 2^e (n, d positive) as a multiple of 2^u, rounded by the mode: the multiple, and is it exact? -/
def roundAt (mode : Nat) (neg : Bool) (n d : Nat) (e u : Int) : Nat × Bool :=
  let s := e - u
  let n' := if 0 ≤ s then n <<< s.toNat else n
  let d' := if 0 ≤ s then d else d <<< (-s).toNat
  let q := n' / d'
  let r := n' % d'
  (if roundUp mode neg q r d' then q + 1 else q, r == 0)

/-- The floor of log₂ of n/d × 2^e (n, d positive). -/
def log2Frac (n d : Nat) (e : Int) : Int :=
  let k : Int := (Nat.log2 n : Int) - (Nat.log2 d : Int)
  let ok := if 0 ≤ k then decide (d <<< k.toNat ≤ n) else decide (d ≤ n <<< (-k).toNat)
  (if ok then k else k - 1) + e

/-- A finite non-zero magnitude n/d × 2^e rounded to a floating format: the code of the magnitude as if it had no largest
value, and the flags UNDERFLOW and INEXACT (R141: tininess after rounding). -/
def FloatFmt.round (f : FloatFmt) (mode : Nat) (neg : Bool) (n d : Nat) (e : Int) : Nat × Nat :=
  let l := log2Frac n d e
  let lo := 1 - f.bias - f.man
  let u := max lo (l - f.man)
  let (q, exact) := roundAt mode neg n d e u
  let (q', _) := roundAt mode neg n d e (l - f.man)
  let tiny := decide (l - f.man < lo) && decide (q' < 2 ^ f.man * 2 ^ (lo - (l - f.man)).toNat)
  let code := (u - lo).toNat * 2 ^ f.man + q
  (code, (if exact then 0 else Flag.INEXACT) + (if tiny && !exact then Flag.UNDERFLOW else 0))

/-- Does the mode round an overflow of this sign away from zero, to an infinity (IEEE 754)? -/
def overflowAway (mode : Nat) (neg : Bool) : Bool := mode == 0 || mode == 4 || (mode == 2 && neg) || (mode == 3 && !neg)

/-- Adds the sign to a magnitude's code. -/
def FloatFmt.signed (f : FloatFmt) (neg : Bool) (c : Nat) : Nat := if neg then c + 2 ^ f.signBit else c

/-- Conversion of a finite n/d × 2^e to a floating format (R152). -/
def FloatFmt.ofFrac (f : FloatFmt) (mode : Nat) (sat : Bool) (neg : Bool) (n d : Nat) (e : Int) : Nat × Nat :=
  if n = 0 then (f.signed neg 0, 0)
  else
    let (c, fl) := f.round mode neg n d e
    if c ≤ f.maxFinite then (f.signed neg c, fl)
    else
      let fl' := Flag.OVERFLOW + Flag.INEXACT
      if sat || !overflowAway mode neg then (f.signed neg f.maxFinite, fl')
      else match f.inf, f.nan with
        | some i, _ => (f.signed neg i, fl')
        | none, some x => (x, fl')
        | none, none => (f.signed neg f.maxFinite, fl')

/-- Conversion of an infinity or NaN to a floating format (R152). -/
def FloatFmt.ofSpecial (f : FloatFmt) (sat : Bool) (x : Num) : Nat × Nat :=
  match x with
  | .inf neg =>
    if sat then (f.signed neg f.maxFinite, Flag.OVERFLOW)
    else match f.inf, f.nan with
      | some i, _ => (f.signed neg i, 0)
      | none, some k => (k, Flag.INVALID)
      | none, none => (f.signed neg f.maxFinite, Flag.OVERFLOW)
  | .nan sig => match f.nan with
    | some k => (k, if sig then Flag.INVALID else 0)
    | none => (0, Flag.INVALID)
  | .fin _ _ _ => (0, 0)

/-- Conversion to a two's complement format of `bits` bits (R152); `fromInt` marks integer narrowing. -/
def intOfFrac (bits mode : Nat) (fromInt neg : Bool) (n d : Nat) (e : Int) : Nat × Nat :=
  let (q, exact) := if n = 0 then (0, true) else roundAt mode neg n d e 0
  let lim := if neg then 2 ^ (bits - 1) else 2 ^ (bits - 1) - 1
  if q ≤ lim then ((if neg then (2 ^ bits - q) % 2 ^ bits else q), if exact then 0 else Flag.INEXACT)
  else ((if neg then 2 ^ (bits - 1) else 2 ^ (bits - 1) - 1), Flag.OVERFLOW + (if fromInt then 0 else Flag.INEXACT))

/-- Conversion to E8M0 of a positive finite n/d × 2^e (R153). -/
def e8m0OfFrac (mode n d : Nat) (e : Int) : Nat × Nat :=
  let l := log2Frac n d e
  let s := e - l
  let n' := if 0 ≤ s then n <<< s.toNat else n
  let d' := if 0 ≤ s then d else d <<< (-s).toNat
  let exact := n' == d'
  let k :=
    if exact then l
    else if mode = 1 ∨ mode = 2 then l
    else if mode = 3 then l + 1
    else if 2 * n' < 3 * d' then l
    else if 3 * d' < 2 * n' then l + 1
    else if mode = 4 then l + 1
    else if (l + 127) % 2 = 0 then l else l + 1
  let fl := if exact then 0 else Flag.INEXACT
  if 127 < k then (254, fl + Flag.OVERFLOW)
  else if k < -127 then (0, fl + Flag.UNDERFLOW)
  else ((k + 127).toNat, fl)

/-- A T5 trit as its digit (R147): 0, 1, 2 for −1, 0, +1; conversion under R152. -/
def tritOfFrac (mode : Nat) (neg : Bool) (n d : Nat) (e : Int) : Nat × Nat :=
  let (q, exact) := if n = 0 then (0, true) else roundAt mode neg n d e 0
  if q = 0 then (1, if exact then 0 else Flag.INEXACT)
  else if q = 1 then (if neg then 0 else 2, if exact then 0 else Flag.INEXACT)
  else (if neg then 0 else 2, Flag.INEXACT)

/-- A value divided by a scale of n2/1 × 2^e2 and converted (R151-R153); `fromInt` marks an integer source. T5 results are
digits. -/
def convertDiv (dst mode : Nat) (sat fromInt : Bool) (x : Num) (m2 : Nat) (e2 : Int) : Nat × Nat :=
  match floatFmt dst with
  | some f => match x with
    | .fin neg m e => f.ofFrac mode sat neg m m2 (e - e2)
    | _ => f.ofSpecial sat x
  | none =>
    if dst = Fmt.T5 then match x with
      | .fin neg m e => tritOfFrac mode neg m m2 (e - e2)
      | .inf neg => (if neg then 0 else 2, Flag.OVERFLOW)
      | .nan _ => (1, Flag.INVALID)
    else if dst = Fmt.E8M0 then match x with
      | .fin neg m e => if m = 0 then (0, Flag.UNDERFLOW) else if neg then (0xFF, Flag.INVALID) else e8m0OfFrac mode m m2 (e - e2)
      | .inf neg => (0xFF, if neg then Flag.INVALID else Flag.OVERFLOW)
      | .nan _ => (0xFF, Flag.INVALID)
    else if dst = Fmt.UE4M3 then match x with
      | .fin neg m e =>
        if m = 0 then (0, 0) else if neg then (0x7F, Flag.INVALID)
        else FloatFmt.ofFrac ⟨3, 7, 0x7E, none, some 0x7F, 7⟩ mode true false m m2 (e - e2)
      | .inf neg => if neg then (0x7F, Flag.INVALID) else (0x7E, Flag.OVERFLOW)
      | .nan _ => (0x7F, Flag.INVALID)
    else match x with
      | .fin neg m e => intOfFrac (fmtBits dst) mode fromInt neg m m2 (e - e2)
      | .inf neg => ((if neg then 2 ^ (fmtBits dst - 1) else 2 ^ (fmtBits dst - 1) - 1), Flag.OVERFLOW)
      | .nan _ => (0, Flag.INVALID)

/-- Conversion without a scale (R151-R153). -/
def convertNum (dst mode : Nat) (sat fromInt : Bool) (x : Num) : Nat × Nat := convertDiv dst mode sat fromInt x 1 0

/-! ## Block quantisation (R155, R156) -/

/-- emax of a destination (R155). -/
def emaxOf (dst : Nat) : Int := if dst = 3 then 15 else if dst = 4 then 8 else if dst = 5 then 4 else if dst = 6 then 2 else if dst = 7 then 2 else 0

/-- maxfinite of a destination times 2 (R155). -/
def maxFinite2 (dst : Nat) : Nat := if dst = 3 then 114688 else if dst = 4 then 896 else if dst = 5 then 56 else if dst = 6 then 15 else if dst = 7 then 12 else 2

/-- Does |x| exceed |y| for finite magnitudes? -/
def magLt (m1 : Nat) (e1 : Int) (m2 : Nat) (e2 : Int) : Bool :=
  if e1 ≤ e2 then decide (m1 < m2 <<< (e2 - e1).toNat) else decide (m1 <<< (e1 - e2).toNat < m2)

/-- The largest finite magnitude of a list. -/
def amaxOf (xs : List Num) : Nat × Int :=
  xs.foldl (fun a x => match x with
    | .fin _ m e => if magLt a.1 a.2 m e then (m, e) else a
    | _ => a) (0, 0)

/-- The element code of +0 (a T5 digit 1). -/
def zeroCode (dst : Nat) : Nat := if dst = Fmt.T5 then 1 else 0

def orFlags (l : List (Nat × Nat)) : Nat := l.foldl (fun a p => a ||| p.2) 0

/-- One block under AUTO (R155): the scale's code, the elements, the flags. -/
def autoBlock (dst mode : Nat) (ue : Bool) (xs : List Num) : Nat × List Nat × Nat :=
  let zeros := xs.map fun _ => zeroCode dst
  if xs.any Num.isNaN then (if ue then 0x7F else 0xFF, zeros, Flag.INVALID)
  else if xs.any (fun x => match x with | .inf _ => true | _ => false) then (if ue then 0x7F else 0xFF, zeros, Flag.OVERFLOW)
  else
    let (m, e) := amaxOf xs
    if ue then
      if m = 0 then (0, zeros, 0)
      else
        let (sc, fl) := convertDiv Fmt.UE4M3 3 true false (.fin false (2 * m) e) (maxFinite2 dst) 0
        match decodeNum Fmt.UE4M3 sc with
        | .fin _ sm se =>
          let ys := xs.map fun x => convertDiv dst mode true false x sm se
          (sc, ys.map (·.1), fl ||| orFlags ys)
        | _ => (sc, zeros, fl)
    else
      let k0 := if m = 0 then -127 else log2Frac m 1 e - emaxOf dst
      let k := max (-127) (min 127 k0)
      let fl := (if 127 < k0 then Flag.OVERFLOW else 0) + (if k0 < -127 then Flag.UNDERFLOW else 0)
      let ys := xs.map fun x => convertDiv dst mode true false x 1 k
      ((k + 127).toNat, ys.map (·.1), fl ||| orFlags ys)

/-- One block under GIVEN with a scale read from memory (R156). -/
def givenBlock (dst mode : Nat) (ue : Bool) (sc : Nat) (xs : List Num) : List Nat × Nat :=
  match decodeNum (if ue then Fmt.UE4M3 else Fmt.E8M0) sc with
  | .fin _ sm se =>
    if sm = 0 then (xs.map fun _ => zeroCode dst, 0)
    else
      let ys := xs.map fun x => convertDiv dst mode true false x sm se
      (ys.map (·.1), orFlags ys)
  | _ => (xs.map fun _ => zeroCode dst, Flag.INVALID)

/-- A list cut in blocks of `b` elements, the last perhaps short. -/
def blocksOf {α : Type} (b : Nat) (xs : List α) : List (List α) :=
  (List.range ((xs.length + b - 1) / b)).map fun j => (xs.drop (j * b)).take b

/-! ## Elements in memory (R147-R150) -/

/-- Bytes that `n` elements of a format occupy from element 0 (R148, R150). -/
def fmtBytes (f n : Nat) : Nat := if f = Fmt.T5 then n / 128 * 26 + (n % 128 + 4) / 5 else (n * fmtBits f + 7) / 8

/-- The bytes of element codes of any format but T5, packed (R150). -/
def packBits (w : Nat) (cs : List Nat) : List Byte :=
  leBytes ((cs.length * w + 7) / 8) (cs.foldr (fun c a => a * 2 ^ w + c % 2 ^ w) 0)

/-- A T5 byte from up to five digits, absent places zero trits (R147, R148). -/
def t5Byte (ds : List Nat) : Byte :=
  BitVec.ofNat 8 ((ds.getD 0 1) + 3 * (ds.getD 1 1) + 9 * (ds.getD 2 1) + 27 * (ds.getD 3 1) + 81 * (ds.getD 4 1))

/-- The bytes of T5 digits in chunks of 128 (R148). -/
def packT5 (ds : List Nat) : List Byte := (blocksOf 128 ds).flatMap fun c => (blocksOf 5 c).map t5Byte

/-- The bytes of elements of any format. -/
def packElems (f : Nat) (cs : List Nat) : List Byte := if f = Fmt.T5 then packT5 cs else packBits (fmtBits f) cs

/-- `n` element codes of any format but T5 from bytes (R150). -/
def unpackBits (w n : Nat) (bs : List Byte) : List Nat := (List.range n).map fun k => (leNat bs / 2 ^ (k * w)) % 2 ^ w

/-- The digit of a T5 element of a chunk's bytes; a reserved code reads as zero trits (R147-R149). -/
def t5Digit (b : Byte) (i : Nat) : Nat := if 243 ≤ b.toNat then 1 else b.toNat / 3 ^ i % 3

/-- The digit of element k of T5 bytes: place j mod 5 of byte ⌊j / 5⌋ of its chunk (R148). -/
def t5Elem (bs : List Byte) (k : Nat) : Nat := t5Digit (bs.getD (k / 128 * 26 + k % 128 / 5) 0x79) (k % 128 % 5)

/-- `n` values of a format from bytes, and whether a reserved T5 code was read. -/
def readNums (f n : Nat) (bs : List Byte) : List Num × Bool :=
  if f = Fmt.T5 then ((List.range n).map fun k => .ofInt ((t5Elem bs k : Int) - 1), (bs.take (fmtBytes Fmt.T5 n)).any fun b => decide (243 ≤ b.toNat))
  else ((unpackBits (fmtBits f) n bs).map (decodeNum f), false)

end Sys2Proof.Machine
end

