-- ==== Sys2Proof/Machine/Commands.lean ====
section
/-!
DEFINITION. When a command of a queue is malformed, and with which status (R67 and the rules that add cases to it), and what
its fields name.
-/

namespace Sys2Proof.Machine

/-! ## Opcodes -/

def Op.NOP : Nat := 0x00
def Op.HALT : Nat := 0x01
def Op.ACQ : Nat := 0x08
def Op.FLUSH : Nat := 0x09
def Op.DFENCE : Nat := 0x0A
def Op.SETTLE : Nat := 0x10
def Op.MELT : Nat := 0x11
def Op.WEF : Nat := 0x20
def Op.RFE : Nat := 0x21
def Op.RFF : Nat := 0x22
def Op.PURGE : Nat := 0x23

/-- Is the command the array opcode `op` (R115-R118: OPEN 1, LOAD 2, STREAM 3, SEAL 4)? -/
def Cmd.isArray (k : Cmd) (op : Nat) : Bool := k.kind == 0 && k.op == op
def Cmd.isOpen (k : Cmd) : Bool := k.isArray 1
def Cmd.isSeal (k : Cmd) : Bool := k.isArray 4
/-- Is the command the control opcode `op` (R69)? -/
def Cmd.isCtl (k : Cmd) (op : Nat) : Bool := k.kind == 3 && k.op == op
/-- Is it a full/empty operation? -/
def Cmd.isFe (k : Cmd) : Bool := k.kind == 3 && decide (0x20 ≤ k.op) && decide (k.op ≤ 0x23)

/-! ## BAD_COMMAND -/

/-- The listed opcodes of a kind (R69, R115-R118, R175, R199). -/
def opcodesOf (kind : Nat) : List Nat :=
  if kind = 0 then [1, 2, 3, 4]
  else if kind = 1 then [0x01, 0x02, 0x03, 0x10, 0x11, 0x12, 0x13, 0x14, 0x15, 0x16, 0x20, 0x21, 0x22, 0x23, 0x24, 0x25, 0x30, 0x31, 0x32, 0x40, 0x50, 0x51]
  else if kind = 2 then [1, 2, 3]
  else [0x00, 0x01, 0x08, 0x09, 0x0A, 0x10, 0x11, 0x20, 0x21, 0x22, 0x23]

/-- The cases of words 0 and 1 and of the extension (R64-R67, R373). -/
def Cmd.badHeader (k : Cmd) : Bool :=
  !(opcodesOf k.kind).contains k.op || decide (3 ≤ k.gateCond) || k.signalOp == 3 || k.w1.get 15 14 != 0 || k.w1.get 63 61 != 0 ||
    (if k.kind = 3 then k.unit != 0 else k.kind != 2 && decide (8 ≤ k.unit)) ||
    (k.runAhead && !(k.gateEn && k.epochEn && k.gateCond != 2)) || (k.ext && k.x0.get 63 6 != 0) ||
    (k.signalEn && k.signalOp == 2 && !k.svalEn)

/-- The RSV operand bits of a control command, and the alignment of a full/empty word (R69, R388). -/
def Cmd.badControl (k : Cmd) : Bool :=
  if k.op = Op.ACQ ∨ k.op = Op.FLUSH then k.w2.get 63 57 != 0 || k.w3.get 63 40 != 0
  else if k.op = Op.SETTLE ∨ k.op = Op.MELT then k.w2.get 63 8 != 0 || k.w3 != 0
  else if k.op = Op.WEF then k.w2.get 63 57 != 0 || k.w2.get 2 0 != 0
  else if k.op = Op.RFE ∨ k.op = Op.RFF then k.w2.get 63 57 != 0 || k.w2.get 2 0 != 0 || k.w3.get 63 57 != 0
  else if k.op = Op.PURGE then k.w2.get 63 57 != 0 || k.w2.get 2 0 != 0 || k.w3 != 0
  else k.w2 != 0 || k.w3 != 0

/-- The stationary and the streamed formats (R114, R116, R104). -/
def stationaryFmts : List Nat := [Fmt.BF16, Fmt.FP16, Fmt.E5M2, Fmt.E4M3, Fmt.INT8, Fmt.INT16]
def streamedFmts : List Nat := [Fmt.BF16, Fmt.FP16, Fmt.E5M2, Fmt.E4M3, Fmt.E3M2, Fmt.E2M3, Fmt.E2M1, Fmt.INT4, Fmt.INT8, Fmt.INT16, Fmt.T5]

/-- The operand cases of an array command (R110, R114-R118). -/
def Cmd.badArray (k : Cmd) : Bool :=
  if k.op = 1 then k.w2.get 10 5 == 0 || decide (32 < k.w2.get 4 0 + k.w2.get 10 5) || k.w2.get 63 12 != 0 || k.w3 != 0
  else if k.op = 2 then k.w2.get 63 57 != 0 || !stationaryFmts.contains (k.w3.get 10 7)
  else if k.op = 3 then
    k.w2.get 63 58 != 0 || k.w3.get 63 58 != 0 || !streamedFmts.contains (k.w3.get 27 24) || k.w3.get 29 28 == 3 || (k.w3.get 29 28 != 0 && !k.ext)
  else k.w2.get 63 17 != 0 || k.w3 != 0

/-- Is a destination format one that QMODE may quantise to (R169)? -/
def quantFmt (f : Nat) : Bool := (decide (3 ≤ f) && decide (f ≤ 7)) || f == Fmt.T5

/-- Does a vector opcode take a B operand (R169)? -/
def hasB (op : Nat) : Bool := (decide (0x11 ≤ op) && decide (op ≤ 0x16)) || op == 0x20

/-- The cases of a vector command in the layout of R168 (R151, R169, R179). -/
def Cmd.badVector (k : Cmd) : Bool :=
  let afmt := k.w2.get 63 60
  let dfmt := k.w2.get 59 56
  let bfmt := k.w3.get 31 28
  let bmode := k.w3.get 53 52
  let qmode := k.w3.get 55 54
  k.w3.get 63 57 != 0 || decide (5 ≤ k.w3.get 50 48) || qmode == 3 || (qmode != 0 && (!quantFmt dfmt || !k.ext)) ||
    afmt == 15 || dfmt == 15 || (hasB k.op && bfmt == 15) || (hasB k.op && bmode == 1 && !k.ext) || k.argB.get 63 44 != 0 ||
    (k.op == 0x20 && (bmode != 2 || !k.ext))

/-- TRANSPOSE (R178, R179). -/
def Cmd.badTranspose (k : Cmd) : Bool :=
  let f := k.w2.get 63 60
  !k.ext || f != k.w2.get 59 56 || f == 15 || f == Fmt.T5 || !([8, 16, 32].contains (fmtBits f)) || k.w3.get 55 48 != 0 || k.w3.get 63 57 != 0 ||
    decide (2 ^ 20 ≤ k.argA) || k.argB.get 63 20 != 0

/-- TILE (R179, R180). -/
def Cmd.badTile (k : Cmd) : Bool :=
  let dfmt := k.w2.get 60 57
  let qmode := k.w3.get 57 56
  decide (4 ≤ k.w3.get 61 59) || qmode == 3 || (qmode != 0 && (!k.ext || !quantFmt dfmt)) || dfmt == 15 || decide (5 ≤ k.w3.get 54 52) ||
    decide (k.argA / 2 ^ 26 % 64 ≠ 0)

/-- The operand cases of a vector command. -/
def Cmd.badVe (k : Cmd) : Bool :=
  if k.op = 1 then k.badTile
  else if k.op = 2 then k.w2.get 60 0 != 0 || k.w3.get 63 32 != 0
  else if k.op = 3 then k.w2.get 63 33 != 0 || k.w3.get 63 28 != 0
  else if k.op = 0x40 then k.badTranspose
  else if k.op = 0x50 ∨ k.op = 0x51 then k.w2.get 63 57 != 0 || k.w3.get 63 40 != 0
  else k.badVector

/-- The operand cases of a DMA command (R199, R201). -/
def Cmd.badDma (k : Cmd) : Bool :=
  if k.op = 1 then !k.ext || k.w2.get 63 59 != 0 || k.w3.get 63 58 != 0 || decide (2 ^ 28 ≤ k.argA) || k.argB.get 63 40 != 0
  else if k.op = 2 then !k.ext || k.w2.get 63 58 != 0 || decide (2 ^ 28 ≤ k.argA) || k.argB.get 63 40 != 0
  else k.w2.get 63 57 != 0 || k.w3.get 63 44 != 0

/-- Is a command malformed with BAD_COMMAND? -/
def Cmd.badCommand (k : Cmd) : Bool :=
  k.badHeader || (if k.kind = 0 then k.badArray else if k.kind = 1 then k.badVe else if k.kind = 2 then k.badDma else k.badControl)

/-! ## The other statuses -/

/-- BAD_VERSION (R67). -/
def State.badVersion (s : State) (k : Cmd) : Bool :=
  k.ver != s.fld R.PKG_ID F.PKG_ID.ARCH_GEN || (k.ext && k.x0.get 3 0 != k.ver)

/-- BAD_PARTITION (R67, R224, R372). -/
def State.badPartition (s : State) (d : Die) (c : Cx) (k : Cmd) : Bool :=
  k.part != s.cxPart d c || (k.epochEn && s.fld (R.FIRN_EPOCH k.epoch) F.FIRN_EPOCH.PART != k.part) ||
    (k.gateEn && !s.inRange k.part k.gateQ) || (k.signalEn && !k.signalRemote && !s.inRange k.part k.signalQ)

/-- The flight of the OPEN of a context's group on array `m`. -/
def Ctx.openOf (x : Ctx) (m : Nat) : Option Flight := x.flights.find? fun f => f.inGroup && f.cmd.isOpen && f.cmd.unit == m

/-- BAD_GROUP (R76, R242, Commands in 04_arrays.md). -/
def Ctx.badGroup (x : Ctx) (k : Cmd) : Bool :=
  match x.groupUnit with
  | none => k.isArray 3 || k.isSeal || (k.isOpen && k.signalEn)
  | some m =>
    k.kind != 0 || k.unit != m || k.isOpen || k.runAhead || (k.signalEn && !k.isSeal) ||
      (match x.openOf m with
       | some o => o.cmd.epochEn != k.epochEn || o.cmd.epoch != k.epoch
       | none => false)

/-- The status of a malformed command but for BAD_GROUP: the first that applies in the order of R67. -/
def State.malformed (s : State) (d : Die) (c : Cx) (k : Cmd) : Option Nat :=
  if s.badVersion k then some St.BAD_VERSION
  else if k.badCommand then some St.BAD_COMMAND
  else if s.badPartition d c k then some St.BAD_PARTITION
  else none

end Sys2Proof.Machine
end

