-- ==== Sys2Proof/Machine/Span.lean ====
section
/-!
DEFINITION. The span-time unit (02_span_time.md): configuration, lock states, reference events from SPAN_IN and
MAINS_REF, steps and slews, timeouts, RELOCK and RESTART.
-/

namespace Sys2Proof.Machine

def SpanS.FREE : Nat := 0
def SpanS.ACQUIRING : Nat := 1
def SpanS.LOCKED : Nat := 2
def SpanS.HOLDOVER : Nat := 3

def State.spanState (s : State) : Nat := s.fld R.SPAN_STATUS F.SPAN_STATUS.STATE
def State.setSpanState (s : State) (v : Nat) : State := s.setFld R.SPAN_STATUS F.SPAN_STATUS.STATE v
def State.spanValid (s : State) : Bool := s.flag R.SPAN_STATUS F.SPAN_STATUS.VALID
def State.spanEnabled (s : State) : Bool := s.flag R.SPAN_CFG F.SPAN_CFG.ENABLE
def State.spanSource (s : State) : Nat := s.fld R.SPAN_CFG F.SPAN_CFG.SOURCE
def State.spanFreeRun (s : State) : Bool := s.flag R.SPAN_CFG F.SPAN_CFG.FREE_RUN

/-- The LOCAL span length in 1/16 ns, or 1 ms while LOCAL_LEN_NS reads zero (R578). -/
def State.localLen (s : State) : Nat :=
  if s.fld R.SPAN_LEN F.SPAN_LEN.LOCAL_LEN_NS = 0 then 16000000 else s.fld R.SPAN_LEN F.SPAN_LEN.LOCAL_LEN_NS * 16

/-- The unit's estimated span length from now on (R578). -/
def State.setSpanLen (s : State) (len : Nat) : State := { s with span := { (s.span.rebase s.now) with len := len } }

/-- The unit's value replaced by `v`: a step, with its SPAN_STEP record (R30). -/
def State.spanStepTo (s : State) (v : Word) : State :=
  let before := s.spanNow
  let s1 := { s with span := { (s.span.rebase s.now) with base := v, slewLeft := 0 } }
  s1.raise { status := St.SPAN_STEP, sev := Sev.INFO, kind := Uk.SPAN, arg0 := before, arg1 := v }

/-- Entry to FREE (R37, R39): VALID clears; unless ENABLE was written, a DEFERRED SPAN_UNLOCKED record is placed. -/
def State.spanToFree (s : State) (byEnable : Bool) : State :=
  let was := s.spanState
  let s1 := ((s.setSpanState SpanS.FREE).setFld R.SPAN_STATUS F.SPAN_STATUS.VALID 0).setFld R.SPAN_STATUS F.SPAN_STATUS.HOLD_SPANS 0
  let s2 := { s1 with span := { (s1.span.rebase s1.now) with slewLeft := 0, lastRefAt := none, lastRefCount := none, measured := false, lockCount := 0, refCount := none, runLast := none, runLen := 0 } }
  if byEnable || was == SpanS.FREE then s2 else s2.raiseHub Sev.DEFERRED St.SPAN_UNLOCKED Uk.SPAN

/-- Entry to HOLDOVER (R37, R39): REF_LOST, HOLD_SPANS from zero, an INFO SPAN_REF_LOST record. -/
def State.spanToHoldover (s : State) : State :=
  let s1 := ((s.setSpanState SpanS.HOLDOVER).setFld R.SPAN_STATUS F.SPAN_STATUS.REF_LOST 1).setFld R.SPAN_STATUS F.SPAN_STATUS.HOLD_SPANS 0
  { s1 with span := { s1.span with holdBase := s1.spanNow } }.raiseHub Sev.INFO St.SPAN_REF_LOST Uk.SPAN

/-- Entry to ACQUIRING with the count of 16 restarted (R37). -/
def State.spanToAcquiring (s : State) : State :=
  let s1 := (s.setSpanState SpanS.ACQUIRING).setFld R.SPAN_STATUS F.SPAN_STATUS.HOLD_SPANS 0
  { s1 with span := { s1.span with lockCount := 0 } }

/-- Entry to LOCKED, which sets VALID (R37, R39). -/
def State.spanToLocked (s : State) : State :=
  ((s.setSpanState SpanS.LOCKED).setFld R.SPAN_STATUS F.SPAN_STATUS.VALID 1).setFld R.SPAN_STATUS F.SPAN_STATUS.HOLD_SPANS 0

/-- HOLD_SPANS brought up to now: whole spans since entry to HOLDOVER (R51). -/
def State.spanHold (s : State) : State :=
  if s.spanState = SpanS.HOLDOVER then
    s.setFld R.SPAN_STATUS F.SPAN_STATUS.HOLD_SPANS (min 0xFFFFFFFF ((s.spanNow - s.span.holdBase).toNat / 16777216))
  else s

/-- An offset of fraction units in sixteenths of a nanosecond times 2²⁴. -/
def State.offsetTime (s : State) (e : Int) : Nat := e.natAbs * s.span.len

/-- The offset `e` (local minus reference, in fraction units) removed as R38 and R30 allow: by a step, by slewing at 200
ppm, or, beyond SLEW_MAX_US, not at all: the unit enters FREE with SLEW_EXCEEDED. -/
def State.removeOffset (s : State) (e : Int) : State :=
  if e = 0 then s
  else if !s.spanValid && (decide (e < 0) || !s.spanFreeRun) then s.spanStepTo (s.spanNow - BitVec.ofInt 64 e)
  else if s.fld R.SPAN_LIMITS F.SPAN_LIMITS.SLEW_MAX_US * 16000 * 16777216 < s.offsetTime e then
    (s.setFld R.SPAN_STATUS F.SPAN_STATUS.SLEW_EXCEEDED 1).spanToFree false
  else { s with span := { (s.span.rebase s.now) with slewUp := decide (e < 0), slewLeft := e.natAbs } }

/-- PHASE_ERR of an offset, in ns, saturating at ±32,767 (R51). -/
def State.phaseErr (s : State) (e : Int) : Nat :=
  let ns : Nat := min 32767 (s.offsetTime e / (16 * 16777216))
  if e < 0 then (65536 - ns) % 65536 else ns

/-- Is the offset within LOCK_THRESH_NS? -/
def State.withinLock (s : State) (e : Int) : Bool :=
  decide (s.offsetTime e ≤ s.fld R.SPAN_LIMITS F.SPAN_LIMITS.LOCK_THRESH_NS * 16 * 16777216)

/-- An accepted reference event with offset `e` (R37): captured, its phase error shown, the lock state moved. -/
def State.refEvent (s : State) (e : Int) : State :=
  let s1 := (s.setReg R.SPAN_CAP_REF s.spanNow).setFld R.SPAN_STATUS F.SPAN_STATUS.PHASE_ERR (s.phaseErr e)
  let s2 := { s1 with span := { s1.span with refAcceptedAt := some s1.now } }
  if s.spanState = SpanS.FREE then s2.spanToAcquiring.removeOffset e
  else if s.spanState = SpanS.HOLDOVER then s2.spanToAcquiring.removeOffset e
  else if s.spanState = SpanS.LOCKED then
    (if s.withinLock e then s2 else s2.spanToAcquiring.removeOffset e)
  else
    let n := if s.withinLock e then s.span.lockCount + 1 else 0
    let s3 := { s2 with span := { s2.span with lockCount := n } }
    if 16 ≤ n then s3.spanToLocked else s3.removeOffset e

/-- A measurement at the reference event at moment `at_` carrying span count `c`, if any (R578): LAST_LEN is the interval
over the spans it covers; the PLL's new estimate is a free value. -/
def State.spanMeasure (s : State) (at_ : Nat) (c : Option Nat) : State :=
  let s1 : State := { s with span := { s.span with lastRefAt := some at_, lastRefCount := c } }
  match s.span.lastRefAt with
  | none => s1
  | some a =>
    let iv := at_ - a
    let r := max 1 ((iv + s.span.len / 2) / (max 1 s.span.len))
    let m := match c, s.span.lastRefCount with
      | some x, some y => if y < x then x - y else r
      | _, _ => r
    let (est, s2) := s1.draw 1 32
    let s3 := (s2.setFld R.SPAN_MEAS F.SPAN_MEAS.LAST_LEN (iv / m)).setSpanLen est
    { s3 with span := { s3.span with measured := true, everMeasured := true } }

/-- The signed offset of a fraction from a reference fraction, the nearer way round. -/
def fracOffset (f ref : Nat) : Int :=
  let x := (f + 16777216 - ref % 16777216) % 16777216
  if x < 8388608 then (x : Int) else (x : Int) - 16777216

/-- Is the unit following SPAN_IN, or MAINS_REF, or the fabric? -/
def State.onSpanIn (s : State) : Bool :=
  s.spanEnabled && s.spanSource == 1 && s.flag R.SPAN_CFG F.SPAN_CFG.SPAN_IN_SEL
def State.onMains (s : State) : Bool := s.spanEnabled && s.spanSource == 2
def State.onFabric (s : State) : Bool :=
  s.spanEnabled && s.spanSource == 1 && !s.flag R.SPAN_CFG F.SPAN_CFG.SPAN_IN_SEL

/-- The effect of a write of SPAN_CFG (R48, R47, R37). -/
def spanCfgAct (v : Word) (s : State) : State :=
  let old := s.reg R.SPAN_CFG
  let v1 := if v.get 1 0 = 3 then v.put 1 0 (old.get 1 0) else v
  let busy := old.bit 4 && v1.bit 4
  let refused := busy && (v1.get 3 0 != old.get 3 0)
  let v2 := if busy then v1.put 3 0 (old.get 3 0) else v1
  let s1 := s.plainWrite R.SPAN_CFG v2
  let s2 := if refused then (s1.setFld R.SPAN_STATUS F.SPAN_STATUS.CFG_REFUSED 1).raiseHub Sev.INFO St.SPAN_CFG_BUSY Uk.SPAN else s1
  if !v2.bit 4 then s2.spanToFree true
  else if !old.bit 4 && v2.get 1 0 == 0 then (s2.setSpanLen s2.localLen).spanToLocked
  else s2

/-- SPAN_CFG_WRITE (R48). -/
def execSpanCfgWrite (w : RegW) (s : State) : Host.Outcome State Fault Refusal :=
  s.whileOn (s.onWrite w R.SPAN_CFG spanCfgAct)

/-- The effect of a write of SPAN_LEN (R49): out of range it leaves the field and sets CFG_REFUSED. -/
def spanLenAct (v : Word) (s : State) : State :=
  let n := v.get 31 0
  if n < 100000 ∨ 100000000 < n then s.setFld R.SPAN_STATUS F.SPAN_STATUS.CFG_REFUSED 1
  else
    let s1 := s.plainWrite R.SPAN_LEN v
    if (s.spanEnabled && s.spanSource == 0) || !s.span.everMeasured then s1.setSpanLen s1.localLen else s1

/-- SPAN_LEN_WRITE (R49). -/
def execSpanLenWrite (w : RegW) (s : State) : Host.Outcome State Fault Refusal :=
  s.whileOn (s.onWrite w R.SPAN_LEN spanLenAct)

/-- SPAN_CTL.RELOCK (R57). -/
def relockAct (v : Word) (s : State) : State :=
  if v.bit 0 && s.spanEnabled && s.spanSource != 0 && s.spanState != SpanS.FREE then s.spanToAcquiring else s

/-- RELOCK (R57). -/
def execRelock (w : RegW) (s : State) : Host.Outcome State Fault Refusal :=
  s.whileOn (s.onWrite w R.SPAN_CTL relockAct)

/-- SPAN_CTL.RESTART (R57). -/
def restartAct (v : Word) (s : State) : State :=
  if v.bit 1 then
    if s.spanEnabled then s.setFld R.SPAN_STATUS F.SPAN_STATUS.CFG_REFUSED 1 else s.spanStepTo 0
  else s

/-- RESTART (R57). -/
def execRestart (w : RegW) (s : State) : Host.Outcome State Fault Refusal :=
  s.whileOn (s.onWrite w R.SPAN_CTL restartAct)

/-- A boundary pulse on SPAN_IN (R34): a reference event, judged by its place in the local span; its word may follow. -/
def spanInPulse (s : State) : State :=
  if s.onSpanIn then
    let e := fracOffset (s.spanNow.get 23 0) 0
    let s1 := s.refEvent e
    { s1 with span := { s1.span with pulseAt := some s.now, wordSeen := false } }
  else s

/-- SPAN_IN_PULSE (R34). -/
def execSpanInPulse (t : Moment) (s : State) : Host.Outcome State Fault Refusal := s.whileOn (spanInPulse (s.atTime t))

/-- One step of the CRC-8 of R35. -/
def spanCrcStep (crc : Nat) (b : Bool) : Nat :=
  if (crc % 2 == 1) != b then (crc / 2) ^^^ 0xE0 else crc / 2

/-- The CRC-8 of bits [55:0] of a span word (R35). -/
def spanCrc (w : Word) : Nat := (List.range 56).foldl (fun c i => spanCrcStep c (w.bit i)) 0

/-- Is a span word valid: preamble and CRC correct (R35)? -/
def spanWordValid (w : Word) : Bool := w.get 7 0 == 0xB4 && w.get 63 56 == spanCrc w

/-- A bad word, or a valid one out of sequence: WORD_ERR and an INFO SPAN_WORD record (R35). -/
def State.spanWordErr (s : State) : State :=
  (s.setFld R.SPAN_STATUS F.SPAN_STATUS.WORD_ERR 1).raiseHub Sev.INFO St.SPAN_WORD Uk.SPAN

/-- The local value less the reference's, given that the span of count `c` began at moment `p`. -/
def State.countOffset (s : State) (c p : Nat) : Int :=
  (s.spanNow - BitVec.ofNat 64 (c * 16777216 + (s.now - p) * 16777216 / (max 1 s.span.len))).toInt

/-- A word received for the pulse at `p` (R35). -/
def spanWordTaken (w : Word) (p : Nat) (s : State) : State :=
  let s0 : State := { s with span := { s.span with wordSeen := true } }
  let c := w.get 47 8
  if spanWordValid w then
    let inSeq := match s.span.refCount with
      | none => true
      | some r => c == (r + 1) % 0x10000000000
    if inSeq then
      let s1 := { s0 with span := { s0.span with refCount := some c, runLast := none, runLen := 0 } }.spanMeasure p (some c)
      let off := s1.countOffset c p
      if s1.spanState = SpanS.ACQUIRING ∧ 8388608 ≤ off.natAbs then s1.removeOffset off else s1
    else
      let n := match s.span.runLast with
        | some l => if c == (l + 1) % 0x10000000000 then s.span.runLen + 1 else 1
        | none => 1
      let s1 := ({ s0 with span := { s0.span with runLast := some c, runLen := n } }.spanWordErr).spanMeasure p (some c)
      if 4 ≤ n then
        let s2 : State := { s1 with span := { s1.span with refCount := some c, runLast := none, runLen := 0 } }
        if s2.spanState = SpanS.LOCKED ∨ s2.spanState = SpanS.ACQUIRING then s2.removeOffset (s2.countOffset c p) else s2
      else s1
  else
    ({ s0 with span := { s0.span with runLast := none, runLen := 0 } }.spanWordErr).spanMeasure p none

/-- A span word received on SPAN_IN within 10 µs of its pulse (R35). -/
def spanWordAct (w : Word) (s : State) : State :=
  match s.span.pulseAt with
  | some p => if !s.span.wordSeen && decide (s.now ≤ p + 160000) then spanWordTaken w p s else s
  | none => s

/-- SPAN_WORD (R35). -/
def execSpanWord (t : Moment) (w : Word) (s : State) : Host.Outcome State Fault Refusal := s.whileOn (spanWordAct w (s.atTime t))

/-- No valid word within 10 µs of a pulse (R35). -/
def spanWordTimeout (s : State) : State :=
  match s.span.pulseAt with
  | some p =>
    if !s.span.wordSeen && decide (p + 160000 ≤ s.now) then
      ({ s with span := { s.span with wordSeen := true, runLast := none, runLen := 0 } }.spanWordErr).spanMeasure p none
    else s
  | none => s

/-- SPAN_WORD_TIMEOUT (R35). -/
def execSpanWordTimeout (t : Moment) (s : State) : Host.Outcome State Fault Refusal := s.whileOn (spanWordTimeout (s.atTime t))

/-- A level change on MAINS_REF starts the 50 µs filter (R36); the edge is timed here, at its threshold crossing (R563). -/
def mainsEdge (l : Level) (s : State) : State :=
  if s.span.mainsLevel = l then s
  else { s with span := { s.span with mainsLevel := l, mainsEdgeAt := some (s.now, s.spanNow) } }

/-- MAINS_REF_EDGE (R36). -/
def execMainsRefEdge (t : Moment) (l : Level) (s : State) : Host.Outcome State Fault Refusal := s.whileOn (mainsEdge l (s.atTime t))

/-- Has the last edge held 50 µs, and has it the polarity chosen (R36)? -/
def State.mainsDue (s : State) : Bool :=
  match s.span.mainsEdgeAt with
  | some e => decide (e.1 + 800000 ≤ s.now) &&
      (s.span.mainsLevel == (if s.flag R.SPAN_CFG F.SPAN_CFG.MAINS_FALLING then Level.low else Level.high))
  | none => false

/-- What R36 makes of an edge at moment `e` after the last accepted edge: rejected, accepted, accepted with its interval. -/
inductive MainsJudge where
  | reject | accept | acceptMeasured
deriving DecidableEq, Repr

def State.mainsJudge (s : State) (e : Nat) : MainsJudge :=
  match s.span.mainsLastAt with
  | none => .accept
  | some a =>
    if a + 444448000 ≤ e then .accept
    else if a + 246160000 ≤ e ∧ e ≤ a + 355552000 then .acceptMeasured
    else .reject

/-- The fraction the reference has at an edge under MAINS: the boundary falls MAINS_OFFSET/256 of a cycle after it (R36). -/
def State.mainsRefFrac (s : State) : Nat := (16777216 - s.fld R.SPAN_CFG F.SPAN_CFG.MAINS_OFFSET * 65536) % 16777216

/-- An edge that passed the filter, accepted or rejected (R36), at the span time of its crossing (R563). -/
def mainsTake (e : Nat) (v : Word) (s : State) : State :=
  let s0 : State := { s with span := { s.span with mainsEdgeAt := none } }
  match s.mainsJudge e with
  | .reject => s0.setFld R.SPAN_STATUS F.SPAN_STATUS.MAINS_RANGE 1
  | j =>
    let s1 := { s0 with span := { s0.span with mainsLastAt := some e } }.setReg R.SPAN_CAP_MAINS v
    if s.onMains then
      let s2 := (s1.refEvent (fracOffset (v.get 23 0) s.mainsRefFrac)).setReg R.SPAN_CAP_REF v
      if j = .acceptMeasured then s2.spanMeasure e none
      else { s2 with span := { s2.span with lastRefAt := some e, lastRefCount := none } }
    else s1

def mainsAccept (s : State) : State :=
  match s.span.mainsEdgeAt with
  | some e => if s.mainsDue then mainsTake e.1 e.2 s else s
  | none => s

/-- The time after the last reference event at which the unit loses its reference (R37, R578), in 1/16 ns. -/
def State.refLimit (s : State) : Nat :=
  if s.span.measured then s.span.len * 5 / 4 else if s.spanSource = 2 then 444448000 else 2000000000

/-- No reference event within 1.25 estimated spans (R37). -/
def refTimeout (s : State) : State :=
  match s.span.refAcceptedAt with
  | some a =>
    if s.spanEnabled && s.spanSource != 0 && decide (a + s.refLimit ≤ s.now) then
      if s.spanState = SpanS.LOCKED then s.spanToHoldover
      else if s.spanState = SpanS.ACQUIRING then (if s.spanValid then s.spanToHoldover else s.spanToFree false)
      else s
    else s
  | none => s

/-- REF_TIMEOUT (R37). -/
def execRefTimeout (t : Moment) (s : State) : Host.Outcome State Fault Refusal := s.whileOn (refTimeout (s.atTime t))

/-- HOLD_SPANS reaching HOLDOVER_MAX (R37). -/
def holdoverExpiry (s : State) : State :=
  let s1 := s.spanHold
  let m := s.fld R.SPAN_LIMITS F.SPAN_LIMITS.HOLDOVER_MAX
  if s1.spanState = SpanS.HOLDOVER ∧ m ≠ 0 ∧ m ≤ s1.fld R.SPAN_STATUS F.SPAN_STATUS.HOLD_SPANS then s1.spanToFree false else s1

/-- HOLDOVER_EXPIRY (R37). -/
def execHoldoverExpiry (t : Moment) (s : State) : Host.Outcome State Fault Refusal := s.whileOn (holdoverExpiry (s.atTime t))

/-- May a stamped command be released so far as span time's validity goes (R41)? -/
def State.spanUsable (s : State) : Bool := s.spanValid || s.spanFreeRun

end Sys2Proof.Machine
end

