-- ==== Sys2Proof/Machine/Ring.lean ====
section
/-!
DEFINITION. A context's queue and its place in it (03_launch.md): reading slots, ISSUE and HEAD, gates and stamps, groups
abandoned, signals sent, entry to OFF.
-/

namespace Sys2Proof.Machine

/-! ## The ring (R58, R90) -/

def State.qsize (s : State) (d : Die) (c : Cx) : Nat := 2 ^ s.fld (R.CX_CFG d c) F.CX_CFG.QSIZE_LOG2
def State.headAt (s : State) (d : Die) (c : Cx) : Nat := s.fld (R.CX_HEAD d c) F.CX_HEAD.HEAD
def State.issueAt (s : State) (d : Die) (c : Cx) : Nat := s.fld (R.CX_HEAD d c) F.CX_HEAD.ISSUE
def State.setIssue (s : State) (d : Die) (c : Cx) (v : Nat) : State := s.setFld (R.CX_HEAD d c) F.CX_HEAD.ISSUE v

/-- The slots a command takes (R64). -/
def Cmd.slots (k : Cmd) : Nat := if k.ext then 2 else 1

/-- Slots from `a` on to `b` in a ring of `n`. -/
def ringDist (n a b : Nat) : Nat := (b + n - a % n) % n

/-- ISSUE advanced by `k` slots. -/
def State.advance (s : State) (d : Die) (c : Cx) (k : Nat) : State :=
  let x := s.cx d c
  (s.setIssue d c ((s.issueAt d c + k) % s.qsize d c)).setCx d c { x with back := x.back - k, cur := none, gateHeld := false, consumeHeld := false, polled := false, inArb := false, reserved := false, passedOver := 0 }

/-- ISSUE returned to slot `p` (R79, R580). -/
def State.rewind (s : State) (d : Die) (c : Cx) (p : Nat) : State :=
  let x := s.cx d c
  let n := s.qsize d c
  let k := ringDist n p (s.issueAt d c)
  (s.setIssue d c p).setCx d c { x with back := x.back + (if k = 0 ∧ x.flights ≠ [] then n else k), cur := none, gateHeld := false, consumeHeld := false, polled := false, inArb := false, reserved := false, passedOver := 0 }

/-- A flight put in queue order. -/
def State.addFlight (s : State) (d : Die) (c : Cx) (f : Flight) : State :=
  let x := s.cx d c
  let n := s.qsize d c
  let h := s.headAt d c
  let before := fun (g : Flight) => decide (ringDist n h g.slot < ringDist n h f.slot)
  s.setCx d c { x with flights := x.flights.filter before ++ f :: x.flights.filter fun g => !before g }

/-- What a read of a slot gives. -/
inductive SlotRes where
  | words (w0 w1 w2 w3 : Word)
  | fault (status addr : Nat)
  | wait
deriving DecidableEq, Repr

/-- The virtual address of a slot (R89). -/
def State.slotVa (s : State) (d : Die) (c : Cx) (slot : Nat) : Nat :=
  ((s.reg (R.CX_QBASE d c)).get 56 12 * 4096 + 32 * slot) % 2 ^ 57

/-- A word of a list of bytes. -/
def wordAt (bs : List Byte) (i : Nat) : Word := BitVec.ofNat 64 (leNat ((bs.drop i).take 8))

/-- A slot read through the context's queue stream (R58, R60, R86). -/
def State.readSlot (s : State) (d : Die) (c : Cx) (slot : Nat) : SlotRes × State :=
  let va := s.slotVa d c slot
  match s.translate d c (queueStream c) va false with
  | (.wait, s1) => (.wait, s1)
  | (.fault st, s1) => (.fault st va, s1)
  | (.ok pa, s1) =>
    let r := s1.region pa
    if !(r.isMem && s1.coherent r) then (.fault St.BAD_QUEUE va, s1)
    else if s1.absent r then (.fault St.ABSENT va, s1)
    else if s1.held r then (.wait, s1)
    else
      let k := r.key pa
      let line := k / 64 * 64
      if s1.poisoned line then (.fault St.PAGE_MISSING va, s1)
      else
        let s2 := s1.homeShare line
        let bs := (s2.ownOver (.cx d c) none line (s2.ice line)).drop (k % 64)
        (.words (wordAt bs 0) (wordAt bs 8) (wordAt bs 16) (wordAt bs 24), s2)

/-! ## Stamps (R41-R43, R441) -/

/-- The effective stamp of a command (R441). -/
def State.effStamp (s : State) (k : Cmd) : Word :=
  let n := k.part
  if s.flag (R.FAB_PACE n) F.FAB_PACE.EN then
    let dlt := (k.x1 - s.reg (R.FAB_PACE_BASE n)).toInt
    let st := (Sparse.get ({} : PaceSt) n s.pace).stretch
    k.x1 + s.reg (R.FAB_PACE_OFFSET n) + BitVec.ofNat 64 (dlt.toNat * st / 65536)
  else k.x1

/-- Is the partition held by R436: frozen and shared? -/
def State.frozen (s : State) (part : Nat) : Bool :=
  s.flag R.FAB_STATUS F.FAB_STATUS.FROZEN && (s.fld R.FAB_CFG F.FAB_CFG.SHARED).testBit part

/-- Is a command's stamp released (R41)? -/
def State.stampOk (s : State) (k : Cmd) : Bool :=
  !k.stampEn || (stampReached (s.effStamp k) s.spanNow && s.spanUsable && !s.frozen k.part)

/-- The moment the replica reached a stamp that is past. -/
def State.stampMoment (s : State) (e : Word) : Nat := s.now - (s.spanNow - e).toNat * s.span.len / 16777216

/-- A stamped command is released now: counted if late (R43). -/
def State.noteLate (s : State) (d : Die) (c : Cx) (k : Cmd) : State :=
  if k.stampEn then
    let t := s.stampMoment (s.effStamp k)
    let late := s.acSince d t
    if 2 < late ∨ t < (s.cx d c).waitSince then (s.count R.SPAN_LATE 1).raiseFld R.SPAN_LATE_MAX F.SPAN_LATE_MAX.MAX_AC late else s
  else s

/-! ## Gates (R65, R72, R377-R379) -/

/-- What a command at ISSUE holds of its gate is given up: its waiter record freed, a granted unit returned (R378). -/
def State.returnGate (s : State) (d : Die) (c : Cx) : State :=
  let x := s.cx d c
  let slot := s.issueAt d c
  let had := s.sync.waiters.any fun w => w.of d c slot
  let s1 := if (x.flight slot).isSome then s else s.freeWaiterOf d c slot true
  let s2 := if x.consumeHeld && !had then (match x.cur with | some k => s1.quireAdd (.unit s.pkg) k.gateQ 1 0 | none => s1) else s1
  s2.setCx d c { s2.cx d c with gateHeld := false, consumeHeld := false, polled := false }

/-- A gate is put to its quire: the waiter record is placed, and the context waits unless the gate is true at once. -/
def State.putGate (s : State) (d : Die) (c : Cx) (k : Cmd) : State :=
  let s1 := s.placeWaiter d c (s.issueAt d c) (.gate k.gateQ k.gateCond k.gateVal)
  if (s1.cx d c).gateHeld then s1 else s1.setCxState d c CxS.WAIT_GATE

/-! ## Groups (R76-R79) -/

/-- An open group of a context on array `m` is abandoned: its flights leave, the array discards it, ISSUE returns to OPEN. -/
def State.abandonCx (s : State) (d : Die) (c : Cx) (m : Nat) : State :=
  let x := s.cx d c
  let mine := x.flights.filter fun f => f.inGroup && f.cmd.unit == m
  let s1 := mine.foldl (fun t f => t.freeWaiterOf d c f.slot true) s
  let y := s1.cx d c
  let s2 := s1.setCx d c { y with flights := y.flights.filter (fun f => !(f.inGroup && f.cmd.unit == m)), groupUnit := if y.groupUnit = some m then none else y.groupUnit }
  let s3 := match (s2.arr d m).group with
    | some g => if g.cx = c.val then s2.abandonGroup d m else s2
    | none => s2
  match x.openOf m with
  | some o => (s3.rewind d c o.slot).cxShow d c
  | none => s3.cxShow d c

/-- A context stops at the command at ISSUE without issuing it (R67, R86): an open group is abandoned first. -/
def State.stopAt (s : State) (d : Die) (c : Cx) (k : Cmd) (status addr : Nat) : State :=
  let slot := s.issueAt d c
  let s1 := s.returnGate d c
  match (s.cx d c).groupUnit with
  | some m => (s1.abandonCx d c m).cxStop d c status slot k.kind k.unit addr 0 true false
  | none => s1.cxStop d c status slot k.kind k.unit addr 0 false false

/-! ## Signals (R65, R74) -/

def QOp.ofCode (n : Nat) : QOp := if n = 0 then .add else if n = 1 then .sub else .arrive

/-- The round and span time of an ARRIVE to the partition's gathering head, for its pace reports (R440). -/
def State.noteArrive (s : State) (part q : Nat) (pkg : Nat) (round : Nat) : State :=
  let o := R.FAB_PACE part
  if s.fld o F.FAB_PACE.LEADER_PKG = pkg ∧ s.fld o F.FAB_PACE.HEAD_Q = q then
    { s with pace := Sparse.set part { Sparse.get ({} : PaceSt) part s.pace with lastRound := some (round, s.spanNow) } s.pace }
  else s

/-- A signal leaves its source (R317, R343): it carries the writes that must be accepted before it. -/
def State.sendQsig (s : State) (src : Src) (pkg : Option Pkg) (q : Nat) (op : QOp) (arg slot part : Nat) : State :=
  let before := match pkg with
    | none => s.unaccepted src
    | some p => (s.mem.wrs.filter fun w => w.src == src && w.dst == Dst.pkg p).map (·.id)
  let g : QSig := { id := s.mem.nextId, src := src, pkg := pkg, q := q, op := op, arg := arg, slot := slot, part := part, before := before }
  let away := match pkg with | some p => p.val != s.pkg && !s.pkgIn p.val | none => false
  let (n, s0) := match pkg with
    | some p => if away then (none, s) else (some (s.takePseq p.val).1, (s.takePseq p.val).2)
    | none => (none, s)
  let s1 := if away then s.loseWrite src 0 (pkg.getD s.ownPkg)
    else { s0 with sync := { s0.sync with qsigs := s0.sync.qsigs ++ [{ g with pseq := n }] }, mem := { s0.mem with nextId := s0.mem.nextId + 1 } }
  if op = .arrive then s1.noteArrive part q (match pkg with | some p => p.val | none => s.pkg) arg else s1

/-- A command's completion signal (R74). -/
def State.sendSignal (s : State) (d : Die) (c : Cx) (f : Flight) : State :=
  let k := f.cmd
  if k.signalEn && !f.sigSent then
    s.sendQsig (.cx d c) (if k.signalRemote then some ⟨k.signalPkg % 8192, Nat.mod_lt _ (by decide)⟩ else none) k.signalQ (QOp.ofCode k.signalOp) k.signalVal f.slot k.part
  else s

/-! ## Engines -/

/-- The register that says whether an engine is in service, and the field's place. -/
def State.engIn (s : State) (d u : Nat) : Bool :=
  if u < 8 then s.flag (R.MA_STATUS d u) F.MA_STATUS.IN_SERVICE
  else if u < 16 then s.flag (R.VE_STATUS d (u - 8)) F.VE_STATUS.IN_SERVICE
  else s.flag (R.DM_STATUS d (u - 16)) F.DM_STATUS.IN_SERVICE

def State.setEngIn (s : State) (d u : Nat) (on : Bool) : State :=
  let v := if on then 1 else 0
  if u < 8 then s.setFld (R.MA_STATUS d u) F.MA_STATUS.IN_SERVICE v
  else if u < 16 then s.setFld (R.VE_STATUS d (u - 8)) F.VE_STATUS.IN_SERVICE v
  else s.setFld (R.DM_STATUS d (u - 16)) F.DM_STATUS.IN_SERVICE v

/-- The flights of a die with their contexts. -/
def State.dieFlights (s : State) (d : Die) : List (Cx × Flight) :=
  s.cxKeys.flatMap fun p => if p.1 = d then (s.cx p.1 p.2).flights.map fun f => (p.2, f) else []

/-- Does the flight still occupy its engine: not ended, or a DMA command at its completion point and not held by a gate (R214,
R241)? -/
def Flight.busy (f : Flight) : Bool :=
  f.phase == .issued || f.phase == .running || (f.phase == .worked && f.cmd.kind == 2 && f.gateOk)

/-- The context whose group holds array `m` (R77): its SEAL has not pushed its last entry. -/
def State.groupOwner (s : State) (d : Die) (m : Nat) : Option Cx :=
  ((s.dieFlights d).find? fun p => p.2.inGroup && p.2.cmd.unit == m &&
    !((s.cx d p.1).flights.any fun f => f.inGroup && f.cmd.unit == m && f.cmd.isSeal && (f.phase == .worked || f.phase == .complete))).map (·.1)

/-- BUSY, CX and OPCODE of a vector or DMA engine brought to its running command (R192, R221). -/
def State.engShow (s : State) (d : Die) (u : Nat) : State :=
  if u < 8 then s
  else
    let run := (s.dieFlights d).find? fun p => p.2.cmd.kind != 3 && p.2.cmd.engine == u && p.2.busy
    let put := fun (o : Nat) (b x q : Fld) => match run with
      | some p => ((s.setFld o b 1).setFld o x p.1.val).setFld o q p.2.cmd.op
      | none => s.setFld o b 0
    if u < 16 then put (R.VE_STATUS d (u - 8)) F.VE_STATUS.BUSY F.VE_STATUS.CX F.VE_STATUS.OPCODE
    else put (R.DM_STATUS d (u - 16)) F.DM_STATUS.BUSY F.DM_STATUS.CX F.DM_STATUS.OPCODE

/-- An engine asked to leave service leaves it once its command, or its array's group, has ended (R132, R191, R220). -/
def State.leaveIfIdle (s : State) (d : Die) (u : Nat) : State :=
  let s1 := s.engShow d u
  if (s1.eng1 d u).offReq && !((s1.dieFlights d).any fun p => p.2.cmd.kind != 3 && p.2.cmd.engine == u && (p.2.busy || (decide (u < 8) && p.2.inGroup))) then
    (s1.setEngIn d u false).setEng d u { s1.eng1 d u with offReq := false }
  else s1

/-- The engine's fault register takes its first fault; a later one sets MORE (R135, R193, R222). -/
def State.engNote (s : State) (d u : Nat) (code : Nat) (c slot addr : Nat) : State :=
  let (o, a) := if u < 8 then (R.MA_FAULT d u, R.MA_FAULT_ADDR d u) else if u < 16 then (R.VE_FAULT d (u - 8), R.VE_FAULT_ADDR d (u - 8))
    else (R.DM_FAULT d (u - 16), R.DM_FAULT_ADDR d (u - 16))
  if s.flag o F.MA_FAULT.VALID then s.setFld o F.MA_FAULT.MORE 1
  else ((((s.setFld o F.MA_FAULT.CODE code).setFld o F.MA_FAULT.CX c).setFld o F.MA_FAULT.SLOT slot).setFld o F.MA_FAULT.VALID 1).setReg a (BitVec.ofNat 64 addr)

/-- An engine ends a flight with a fault of its own: ENGINE_FAULT with the code in its register (R131, R190, R218). -/
def State.engFault (s : State) (d : Die) (c : Cx) (f : Flight) (code addr : Nat) : State :=
  (s.engNote d f.cmd.engine code c.val f.slot addr).flightFault d c f.slot St.ENGINE_FAULT addr code

/-! ## Entry to OFF -/

/-- A context enters OFF: ENABLE clears (R87). -/
def State.enterOff (s : State) (d : Die) (c : Cx) : State :=
  (s.setCxState d c CxS.OFF).setFld (R.CX_CFG d c) F.CX_CFG.ENABLE 0

/-- A RESET ends (R84): unretired flights are dropped, tiles they held released. -/
def State.finishReset (s : State) (d : Die) (c : Cx) : State :=
  let x := s.cx d c
  let s1 := x.flights.foldl (fun t f => (t.releaseTile d f).freeWaiterOf d c f.slot true) s
  ((s1.setCx d c {}).enterOff d c).cxShow d c

/-- A draining or reset context with nothing left enters OFF (R69, R84). -/
def State.settleCtx (s : State) (d : Die) (c : Cx) : State :=
  let x := s.cx d c
  match x.resetting with
  | some _ => if x.flights.all (fun f => f.phase == .complete || f.phase == .faulted) then s.finishReset d c else s
  | none => if s.cxState d c = CxS.DRAINING ∧ x.flights = [] then (s.setCx d c { x with cur := none, back := 0 }).enterOff d c else s

end Sys2Proof.Machine
end

