-- ==== Sys2Proof/Machine/Launch.lean ====
section
/-!
DEFINITION. Contexts at work (03_launch.md): reading slots, issue and arbitration, completion, retirement, faults, the CX_CTL
actions and the context's registers; stamped launches (02_span_time.md).
-/

namespace Sys2Proof.Machine

/-! ## SLOT_READ (R59, R68, R78, R580) -/

/-- A command retires without effect at ISSUE (R84, R227): an unretired flight that has completed and sends nothing. -/
def State.passAt (s : State) (d : Die) (c : Cx) (k : Cmd) : State :=
  (s.addFlight d c { slot := s.issueAt d c, ext := k.ext, cmd := k, id := 0, phase := .complete, sigSent := true }).advance d c k.slots

/-- A command taken from its slot: under SKIP of an abandoned group it retires at once, up to the group's SEAL (R84). -/
def State.takeSlot (s : State) (d : Die) (c : Cx) (k : Cmd) : State :=
  let x := s.cx d c
  if x.skipGroup then
    let s1 := s.passAt d c k
    s1.setCx d c { s1.cx d c with skipGroup := !k.isSeal }
  else s.setCx d c { x with cur := some k, waitSince := s.now }

/-- A context at an empty slot (R59, R68). -/
def State.goEmpty (s : State) (d : Die) (c : Cx) : State :=
  (s.setCxState d c CxS.EMPTY).setCx d c { s.cx d c with waitSince := s.now }

/-- The slot at ISSUE read, with its extension (R59, R60, R68, R86). -/
def State.fetchSlot (s : State) (d : Die) (c : Cx) : State :=
  let slot := s.issueAt d c
  match s.readSlot d c slot with
  | (.wait, s1) => s1
  | (.fault st va, s1) => s1.cxStop d c st slot 0 0 va 0 false false
  | (.words w0 w1 w2 w3, s1) =>
    if w0.get 3 0 = 0 then s1.goEmpty d c
    else if w0.bit 18 then
      match s1.readSlot d c ((slot + 1) % s1.qsize d c) with
      | (.wait, s2) => s2
      | (.fault st va, s2) => s2.cxStop d c st slot 0 0 va 0 false false
      | (.words x0 x1 x2 x3, s2) => if x0.get 3 0 = 0 then s2.goEmpty d c else s2.takeSlot d c ⟨w0, w1, w2, w3, x0, x1, x2, x3⟩
    else s1.takeSlot d c ⟨w0, w1, w2, w3, 0, 0, 0, 0⟩

/-- Has the context a full/empty operation that has not ended (R69)? -/
def Ctx.inFe (x : Ctx) : Bool := x.flights.any fun f => f.cmd.isFe && (f.phase == .issued || f.phase == .running || f.phase == .faulted)

/-- A context reads at ISSUE: it passes over a command already issued (R580), stops a group that fills its queue (R78), or reads
the slot. -/
def slotRead (d : Die) (c : Cx) (s : State) : State :=
  let x := s.cx d c
  if s.cxState d c ≠ CxS.READY ∨ x.cur ≠ none ∨ x.resetting ≠ none ∨ x.inFe = true then s
  else
    match x.flight (s.issueAt d c) with
    | some f =>
      if 0 < x.back then
        let s1 := s.advance d c f.cmd.slots
        if f.cmd.isCtl Op.HALT then s1.setCxState d c CxS.DRAINING else s1
      else
        match x.groupUnit with
        | some m =>
          if (x.openOf m).map (·.slot) = some f.slot then
            (s.abandonCx d c m).cxStop d c St.GROUP_TOO_LONG f.slot f.cmd.kind f.cmd.unit 0 0 true false
          else s
        | none => s
    | none => s.fetchSlot d c

/-- SLOT_READ (R59). -/
def execSlotRead (d : Die) (c : Cx) (s : State) : Host.Outcome State Fault Refusal := s.whileOn (slotRead d c s)

/-! ## Arbitration (R77, R81, R42, R44) -/

/-- Does the engine take this command of the context now, arbitration apart (R77, R163, R226, R580)? -/
def State.takeable (s : State) (d : Die) (c : Cx) (k : Cmd) : Bool :=
  let u := k.engine
  let fl := s.dieFlights d
  if u < 8 then
    match s.groupOwner d u with
    | some o => o == c && (s.cx d c).groupUnit == some u
    | none => !(fl.any fun p => p.1 != c && p.2.cmd.kind == 0 && p.2.cmd.unit == u && p.2.busy) && !(fl.any fun p => p.1 == c && p.2.inGroup && p.2.cmd.unit == u) &&
        !(s.eng1 d u).offReq
  else
    !(fl.any fun p => p.2.cmd.kind != 3 && p.2.cmd.engine == u && p.2.busy) && !(s.eng1 d u).offReq &&
      (if k.kind = 1 ∧ (k.op = 1 ∨ k.op = 2) then (s.spnMatch d.val (k.w2.get 63 61) (k.op == 2) (k.w3.get 15 0) (k.w3.get 31 16) k.part).isSome else true)

/-- Is an epoch settling, so that no command of it is taken (R226)? -/
def State.settling (s : State) (k : Cmd) : Bool := k.epochEn && s.epState k.epoch == Ep.SETTLING

/-- The contexts of a die that wait only for engine `u`, with their commands. -/
def State.waitingFor (s : State) (d : Die) (u : Nat) : List (Cx × Cmd) :=
  s.cxKeys.filterMap fun p =>
    if p.1 = d ∧ s.cxState p.1 p.2 = CxS.READY ∧ (s.cx p.1 p.2).inArb = true then
      match (s.cx p.1 p.2).cur with
      | some k => if k.kind ≠ 3 ∧ k.engine = u then some (p.2, k) else none
      | none => none
    else none

/-- The stamped commands that have reserved engine `u` (R42). -/
def State.reservers (s : State) (d : Die) (u : Nat) : List (Cx × Cmd) :=
  s.cxKeys.filterMap fun p =>
    if p.1 = d ∧ (s.cx p.1 p.2).reserved = true then
      match (s.cx p.1 p.2).cur with
      | some k => if k.kind ≠ 3 ∧ k.engine = u then some (p.2, k) else none
      | none => none
    else none

/-- The reservation that goes first: the earlier stamp, or the lower context (R44). -/
def State.firstReserver (s : State) (d : Die) (u : Nat) : Option Cx :=
  ((s.reservers d u).foldl (fun b p => match b with
    | none => some p
    | some q =>
      let x := (s.effStamp p.2 - s.effStamp q.2).toInt
      if x < 0 ∨ (x = 0 ∧ p.1 < q.1) then some p else some q) none).map (·.1)

/-- Places after the context last served (R81). -/
def placeAfter (last c : Nat) : Nat := (c + 127 - last) % 128

/-- Does context `a` go before context `b` at an engine (R81)? -/
def State.arbBefore (s : State) (d : Die) (u : Nat) (a b : Cx) : Bool :=
  let sa := decide (64 ≤ (s.cx d a).passedOver)
  let sb := decide (64 ≤ (s.cx d b).passedOver)
  let pa := s.fld (R.CX_CFG d a) F.CX_CFG.PRIO
  let pb := s.fld (R.CX_CFG d b) F.CX_CFG.PRIO
  let last := (s.eng1 d u).last
  if sa != sb then sa else if pa ≠ pb then decide (pb < pa) else decide (placeAfter last a < placeAfter last b)

/-- Does the context win its engine (R81)? -/
def State.wins (s : State) (d : Die) (c : Cx) (k : Cmd) : Bool :=
  let u := k.engine
  if !s.takeable d c k || s.settling k then false
  else if decide (u < 8) && s.groupOwner d u == some c then true
  else match s.firstReserver d u with
    | some r => r == c
    | none => ((s.waitingFor d u).filter fun p => s.takeable d p.1 p.2 && !s.settling p.2).all fun p => p.1 == c || s.arbBefore d u c p.1

/-- A command of `c` starts on its engine: contexts of lower priority that wait for it are passed over, once for a group. -/
def State.passOthers (s : State) (d : Die) (c : Cx) (k : Cmd) : State :=
  let u := k.engine
  let s1 := s.setEng d u { s.eng1 d u with last := c.val }
  if k.kind = 0 ∧ (s.cx d c).groupUnit ≠ none ∧ !k.isOpen then s1
  else
    (s.waitingFor d u).foldl (fun t p =>
      if p.1 ≠ c ∧ s.fld (R.CX_CFG d p.1) F.CX_CFG.PRIO < s.fld (R.CX_CFG d c) F.CX_CFG.PRIO then
        t.setCx d p.1 { t.cx d p.1 with passedOver := (t.cx d p.1).passedOver + 1 } else t) s1

/-! ## The phase table's occurrences (R476) -/

/-- An occurrence of 2 µs or more is counted once (R476), and its draws are to be taken in. -/
def State.countPhase (s : State) (p since : Nat) : State :=
  if s.flag R.PWR_CFG F.PWR_CFG.LEARN_EN ∧ since + 32000 ≤ s.now then
    let s1 := s.bumpFld (R.PWR_PHASE p) F.PWR_PHASE.COUNT 1
    let s2 := s1.setFld (R.PWR_PHASE p) F.PWR_PHASE.LEARNED (if 16 ≤ s1.fld (R.PWR_PHASE p) F.PWR_PHASE.COUNT then 1 else 0)
    { s2 with power := { s2.power with toLearn := s2.power.toLearn ++ [p] } }
  else s

/-- The current phase of a die becomes `p` (R476). -/
def State.setPhase (s : State) (d : Die) (p : Nat) : State :=
  let old := Sparse.find d.val s.phase
  if old = some p then s
  else
    let others := (s.phase.filter fun x => x.1 != d.val).map (·.2)
    let s1 : State := { s with phase := Sparse.set d.val p s.phase, occ := if others.contains p then s.occ else s.occ ++ [(p, s.now, false)] }
    match old with
    | none => s1
    | some q =>
      if others.contains q then s1
      else
        let s2 := (s1.occ.filter fun x => x.1 == q && !x.2.2).foldl (fun t x => t.countPhase x.1 x.2.1) s1
        { s2 with occ := s2.occ.filter fun x => x.1 != q }

/-! ## COMMAND_ISSUE (R73) -/

/-- What a fence or a full/empty operation waits for at its issue (R351, R352, R388). -/
def State.fenceIds (s : State) (d : Die) (c : Cx) (k : Cmd) : List Nat :=
  if k.isCtl Op.DFENCE then s.unreceipted (.cx d c) ++ (s.sync.qsigs.filter fun g => g.src == .cx d c).map (·.id)
  else if k.isFe then s.unaccepted (.cx d c)
  else if k.isCtl Op.FLUSH then (s.mem.wrs.filter fun w => w.src.die == some d && w.stage == .sent).map (·.id)
  else []

/-- The spine entry a TILE or MARK takes as it issues (R163). -/
def State.entryFor (s : State) (d : Die) (k : Cmd) : Option SpnEnt :=
  if k.kind = 1 ∧ (k.op = 1 ∨ k.op = 2) then s.spnMatch d.val (k.w2.get 63 61) (k.op == 2) (k.w3.get 15 0) (k.w3.get 31 16) k.part else none

/-- The context's state after a command has issued: a HALT, or a DRAIN that waited for it, ends issuing (R69, R84). -/
def State.afterIssue (s : State) (d : Die) (c : Cx) (k : Cmd) : State :=
  let x := s.cx d c
  if k.isCtl Op.HALT then s.setCxState d c CxS.DRAINING
  else if x.drainLater && x.groupUnit.isNone then (s.setCx d c { x with drainLater := false }).setCxState d c CxS.DRAINING
  else s

/-- A run-ahead command's gate, put to its quire as it issues (R241). -/
def State.runAheadGate (s : State) (d : Die) (c : Cx) (slot : Nat) (k : Cmd) : State :=
  if 8192 ≤ s.sync.waiters.length then
    let s1 := (s.count (R.CD_WAIT_POLLED d) 1).count R.SYNC_POOL_MISS 1
    (s1.setQuire k.gateQ ((s1.quire k.gateQ).setFlag Qf.POLLED)).setFlight d c slot fun f => { f with polledAt := some s.now }
  else s.placeWaiter d c slot (.gate k.gateQ k.gateCond k.gateVal)

/-- The command at ISSUE issues (R73, R225, R76). -/
def State.doIssue (s : State) (d : Die) (c : Cx) (k : Cmd) : State :=
  let slot := s.issueAt d c
  let s1 := (s.noteLate d c k).freeWaiterOf d c slot false
  let s2 := if k.epochEn ∧ s1.epState k.epoch = Ep.IDLE then s1.setEpState k.epoch Ep.LIVE else s1
  let s3 := if k.kind = 3 then s2 else (s2.passOthers d c k).setPhase d k.phase
  let ent := s3.entryFor d k
  let s4 := match ent with
    | some e => s3.spnTake d.val (k.w2.get 63 61) e
    | none => s3
  let x := s4.cx d c
  let grp := x.groupUnit.isSome || k.isOpen
  let f : Flight := { slot := slot, ext := k.ext, cmd := k, id := s4.mem.nextId, inst := if k.epochEn then some (k.epoch, s4.epInst k.epoch) else none, gateOk := !k.runAhead, inGroup := grp, order := s4.issues, tile := ent, loop := s4.fld (R.CX_VE_LOOP d c) F.CX_VE_LOOP.LOOP, waitIds := s4.fenceIds d c k }
  let s5 : State := { s4 with issues := s4.issues + 1, mem := { s4.mem with nextId := s4.mem.nextId + 1 } }
  let s6 := ((s5.setCx d c { x with groupUnit := if k.isOpen then some k.unit else if k.isSeal then none else x.groupUnit }).addFlight d c f).advance d c k.slots
  let s7 := if k.runAhead then s6.runAheadGate d c slot k else s6
  let s8 := if k.kind = 3 then s7 else s7.engShow d k.engine
  (s8.afterIssue d c k).cxShow d c

/-- The command waits only for its engine (R73, R81); an engine out of service stalls it (R86), and a
dozing die's engines start nothing (R492). -/
def State.issueEngine (s : State) (d : Die) (c : Cx) (k : Cmd) : State :=
  if k.kind = 3 then (if s.settling k then s else s.doIssue d c k)
  else if !s.engIn d k.engine then s.stopAt d c k St.ABSENT 0
  else if decide (k.kind < 2) && s.power.doze.contains d.val then s
  else
    let s1 := s.setCx d c { s.cx d c with inArb := true }
    if s1.wins d c k then s1.doIssue d c k else s1

/-- A CONSUME gate is put only when nothing else but the engine is needed (R378). -/
def State.issueConsume (s : State) (d : Die) (c : Cx) (k : Cmd) : State :=
  if k.gateEn && k.gateCond == 2 && !(s.cx d c).gateHeld then
    let s1 := s.putGate d c k
    if (s1.cx d c).gateHeld then s1.issueEngine d c k else s1
  else s.issueEngine d c k

/-- Stamp and flights (R41, R70, R73). -/
def State.issueStamp (s : State) (d : Die) (c : Cx) (k : Cmd) : State :=
  if !s.stampOk k then s.setCxState d c CxS.WAIT_STAMP
  else if 8 ≤ (s.cx d c).inflight then s.setCxState d c CxS.WAIT_FLIGHT
  else s.issueConsume d c k

/-- The gate, but for CONSUME and run-ahead (R73). -/
def State.issueGate (s : State) (d : Die) (c : Cx) (k : Cmd) : State :=
  if k.gateEn && !k.runAhead && k.gateCond != 2 && !(s.cx d c).gateHeld then
    let s1 := s.putGate d c k
    if (s1.cx d c).gateHeld then s1.issueStamp d c k else s1
  else s.issueStamp d c k

/-- The command at ISSUE is judged (R67, R227, R76, R378) and, if it may be, issued. -/
def State.judge (s : State) (d : Die) (c : Cx) (k : Cmd) : State :=
  match s.malformed d c k with
  | some st => s.stopAt d c k st 0
  | none =>
    if k.epochEn && decide (Ep.MELTING ≤ s.epState k.epoch) then ((s.returnGate d c).passAt d c k).count R.FIRN_CMD_MELTED 1
    else if (s.cx d c).badGroup k then s.stopAt d c k St.BAD_GROUP 0
    else if k.gateEn && k.gateCond == 2 && decide (Qm.GATHER ≤ (s.quire k.gateQ).mode) then s.stopAt d c k St.BAD_COMMAND 0
    else s.issueGate d c k

def commandIssue (d : Die) (c : Cx) (s : State) : State :=
  let x := s.cx d c
  match x.cur with
  | some k => if s.cxState d c = CxS.READY ∧ x.resetting = none then s.judge d c k else s
  | none => s

/-- COMMAND_ISSUE (R73). -/
def execCommandIssue (d : Die) (c : Cx) (s : State) : Host.Outcome State Fault Refusal := s.whileOn (commandIssue d c s)

/-! ## Stamps and gates while waiting -/

/-- The prearm point of a waiting stamped engine command (R42). -/
def prearmReached (d : Die) (c : Cx) (s : State) : State :=
  let x := s.cx d c
  match x.cur with
  | some k =>
    let left := (s.effStamp k - s.spanNow).toInt.toNat * s.span.len / 16777216
    if k.stampEn && k.kind != 3 && s.cxState d c == CxS.WAIT_STAMP && decide (left ≤ s.fld R.SPAN_LIMITS F.SPAN_LIMITS.PREARM * 160) then
      s.setCx d c { x with reserved := true }
    else s
  | none => s

/-- PREARM_REACHED (R42). -/
def execPrearmReached (t : Moment) (d : Die) (c : Cx) (s : State) : Host.Outcome State Fault Refusal :=
  s.whileOn (prearmReached d c (s.atTime t))

/-- A waiting stamp released (R41). -/
def stampReachedStep (d : Die) (c : Cx) (s : State) : State :=
  match (s.cx d c).cur with
  | some k => if s.cxState d c = CxS.WAIT_STAMP ∧ s.stampOk k then s.setCxState d c CxS.READY else s
  | none => s

/-- STAMP_REACHED (R41). -/
def execStampReached (t : Moment) (d : Die) (c : Cx) (s : State) : Host.Outcome State Fault Refusal :=
  s.whileOn (stampReachedStep d c (s.atTime t))

/-- A polled gate reread (R72, R379): CONSUME takes its unit as it finds one. -/
def State.pollGate (s : State) (d : Die) (c : Cx) (k : Cmd) : State :=
  let x := s.cx d c
  let r := s.quire k.gateQ
  let pass := fun (t : State) (g : Bool) => (t.setCx d c { t.cx d c with gateHeld := true, consumeHeld := g, polled := false, waitSince := s.now }).setCxState d c CxS.READY
  if k.gateCond = 2 then
    (if 1 ≤ r.value then pass (s.effective (.src (.cx d c)) Qo.CONSUME 1 k.gateQ { r with value := r.value - 1 }) true
     else s.setCx d c { x with waitSince := s.now })
  else if r.gateTrue k.gateCond k.gateVal then pass s false
  else s.setCx d c { x with waitSince := s.now }

/-- Polled run-ahead gates reread. -/
def State.pollFlights (s : State) (d : Die) (c : Cx) : State :=
  let x := s.cx d c
  s.setCx d c { x with flights := x.flights.map fun f =>
    match f.polledAt with
    | some t =>
      if t + 16000 ≤ s.now then
        (if (s.quire f.cmd.gateQ).gateTrue f.cmd.gateCond f.cmd.gateVal then { f with gateOk := true, polledAt := none } else { f with polledAt := some s.now })
      else f
    | none => f }

/-- A reread 1 µs after the last (R72). A polled full/empty operation is tried again. -/
def gatePoll (d : Die) (c : Cx) (s : State) : State :=
  let s1 := s.pollFlights d c
  let x := s1.cx d c
  if x.polled = true ∧ x.waitSince + 16000 ≤ s1.now then
    if s1.cxState d c = CxS.WAIT_GATE then (match x.cur with | some k => s1.pollGate d c k | none => s1)
    else s1.setCx d c { x with polled := false, waitSince := s1.now }
  else s1

/-- GATE_POLL (R72). -/
def execGatePoll (t : Moment) (d : Die) (c : Cx) (s : State) : Host.Outcome State Fault Refusal := s.whileOn (gatePoll d c (s.atTime t))

/-! ## COMMAND_COMPLETE (R74) -/

/-- Has the command's gate been satisfied (R241), a SEAL's group's for a SEAL (R242)? -/
def Ctx.gateDone (x : Ctx) (f : Flight) : Bool :=
  f.gateOk && (if f.cmd.isSeal then (match x.openOf f.cmd.unit with | some o => o.gateOk | none => true) else true)

/-- Writes of a command still to be receipted. -/
def State.cmdWrites (s : State) (f : Flight) : Bool := s.mem.wrs.any fun w => w.cmd == f.id

/-- Firn writes of a command that have not entered their log (R243), or the value an RFE or RFF writes (R388). -/
def State.cmdFirnHeld (s : State) (f : Flight) : Bool := s.mem.wrs.any fun w => w.cmd == f.id && w.firn.isSome && w.stage == .sent

/-- A DFENCE that ends with the loss latch set (R85, R352, R353). -/
def State.fenceLost (s : State) (d : Die) (c : Cx) (slot : Nat) : State :=
  match (s.cx d c).loss with
  | none => s
  | some p =>
    let o := R.CX_FENCE d c
    let s1 := s.setCx d c { s.cx d c with loss := none }
    let s2 := if s1.flag o F.CX_FENCE.LOST then s1.bumpFld o F.CX_FENCE.LOST_FENCES 1
      else ((s1.setFld o F.CX_FENCE.LOST 1).setFld o F.CX_FENCE.FIRST_PKG p.val).setFld o F.CX_FENCE.LOST_FENCES 1
    if s2.flag (R.CX_CFG d c) F.CX_CFG.FENCE_STALL then s2.cxStallDone d c St.DELIVERY_LOST slot else s2

/-- A command completes (R74, R75, R77): its signal leaves, its group's commands may retire, its engine may leave service. -/
def State.completeFlight (s : State) (d : Die) (c : Cx) (f : Flight) : State :=
  let s1 := (s.sendSignal d c f).setFlight d c f.slot fun g => { g with phase := .complete, sigSent := true, tile := none }
  let s2 := if f.cmd.isSeal then
      s1.setCx d c { s1.cx d c with flights := (s1.cx d c).flights.map fun g => if g.inGroup && g.cmd.unit == f.cmd.unit then { g with inGroup := false } else g }
    else s1
  let s3 := if f.cmd.isCtl Op.DFENCE then s2.fenceLost d c f.slot else s2
  let s4 := if s3.cxState d c = CxS.WAIT_FLIGHT then (s3.setCxState d c CxS.READY).setCx d c { s3.cx d c with waitSince := s3.now } else s3
  let s5 := if f.cmd.kind = 3 then s4 else s4.leaveIfIdle d f.cmd.engine
  (s5.settleCtx d c).cxShow d c

/-- A command whose work has ended completes, or is held: for its gate, for receipts under FENCED, for its firn (R74, R241). -/
def commandComplete (d : Die) (c : Cx) (slot : Nat) (s : State) : State :=
  let x := s.cx d c
  match x.flight slot with
  | some f =>
    if f.phase ≠ .worked ∨ f.cmd.kind = 2 ∨ !x.gateDone f ∨ s.cmdFirnHeld f then s
    else if f.cmd.fenced && s.cmdWrites f then s
    else if f.cmd.fenced && f.lostWrite then s.flightFault d c slot St.DELIVERY_LOST 0 0
    else s.completeFlight d c f
  | none => s

/-- COMMAND_COMPLETE (R74). -/
def execCommandComplete (d : Die) (c : Cx) (slot : Nat) (s : State) : Host.Outcome State Fault Refusal :=
  s.whileOn (commandComplete d c slot s)

/-! ## COMMAND_RETIRE (R63, R75) -/

/-- Bytes 0-7 of a slot written zero; on a fault, its status. -/
def State.clearSlot (s : State) (d : Die) (c : Cx) (slot : Nat) : XRes × State :=
  match s.translate d c (queueStream c) (s.slotVa d c slot) true with
  | (.ok pa, s1) =>
    let k := (s1.region pa).key pa
    (.ok pa, s1.sendWrite { id := 0, src := .cx d c, dst := .hub, addr := k / 64 * 64, mask := byteMask (k % 64) 8, data := List.replicate 64 0, xl := some (s1.asid d c, s1.slotVa d c slot) })
  | r => r

/-- Is a signal of the command still on its way to this package's sync unit (R63)? -/
def State.signalOut (s : State) (d : Die) (c : Cx) (slot : Nat) : Bool :=
  s.sync.qsigs.any fun g => g.src == .cx d c && g.slot == slot && g.pkg.isNone

/-- The head command retires: its slots are cleared, HEAD moves past them (R63). -/
def State.retireHead (s : State) (d : Die) (c : Cx) (f : Flight) : State :=
  let n := s.qsize d c
  match s.clearSlot d c f.slot with
  | (.wait, s1) => s1
  | (.fault st, s1) => if s1.cxStopped d c then s1 else s1.cxStop d c st f.slot f.cmd.kind f.cmd.unit (s1.slotVa d c f.slot) 0 false true
  | (.ok _, s1) =>
    let s2 := if f.ext then (s1.clearSlot d c ((f.slot + 1) % n)).2 else s1
    let s3 := s2.setFld (R.CX_HEAD d c) F.CX_HEAD.HEAD ((f.slot + (if f.ext then 2 else 1)) % n)
    let s4 := s3.setCx d c { s3.cx d c with flights := (s3.cx d c).flights.filter fun g => g.slot != f.slot }
    (s4.settleCtx d c).cxShow d c

def commandRetire (d : Die) (c : Cx) (s : State) : State :=
  match (s.cx d c).flight (s.headAt d c) with
  | some f => if f.phase = .complete ∧ !f.inGroup ∧ !s.signalOut d c f.slot ∧ s.cxState d c ≠ CxS.OFF then s.retireHead d c f else s
  | none => s

/-- COMMAND_RETIRE (R75). -/
def execCommandRetire (d : Die) (c : Cx) (s : State) : Host.Outcome State Fault Refusal := s.whileOn (commandRetire d c s)

/-! ## COMMAND_FAULT (R83, R79, R580) -/

/-- A faulted flight stops its context (R83): its group is abandoned, or ISSUE returns to it. -/
def commandFault (d : Die) (c : Cx) (slot : Nat) (s : State) : State :=
  let x := s.cx d c
  match x.flight slot with
  | some f =>
    if f.phase ≠ .faulted ∨ s.cxStopped d c ∨ s.cxState d c = CxS.OFF then s
    else if x.resetting ≠ none then s.settleCtx d c
    else
      let s1 := s.returnGate d c
      let s2 := if s1.cxState d c = CxS.DRAINING then s1.setCx d c { s1.cx d c with drainLater := true } else s1
      let s3 := if f.inGroup then s2.abandonCx d c f.cmd.unit else s2.rewind d c slot
      let s4 := s3.cxStop d c f.fault slot f.cmd.kind f.cmd.unit f.faultAddr f.code f.inGroup false
      (if f.cmd.kind = 3 then s4 else s4.leaveIfIdle d f.cmd.engine).cxShow d c
  | none => s

/-- COMMAND_FAULT (R83). -/
def execCommandFault (d : Die) (c : Cx) (slot : Nat) (s : State) : Host.Outcome State Fault Refusal :=
  s.whileOn (commandFault d c slot s)

/-! ## CX_CTL (R84, R93) -/

/-- A refused CX_CTL action. -/
def State.ctlRefuse (s : State) (d : Die) (c : Cx) : State := s.raiseReg St.CX_CTL_REFUSED (R.CX_CTL d c)

/-- An action of CX_CTL: carried out if its bit alone is set; more than one bit is refused (R93). -/
def ctlAct (d : Die) (c : Cx) (bit : Nat) (act : State → State) (v : Word) (s : State) : State :=
  if v.get 3 0 = 2 ^ bit then act s
  else if v.get 3 0 = 0 ∨ v.get 3 0 = 1 ∨ v.get 3 0 = 2 ∨ v.get 3 0 = 4 ∨ v.get 3 0 = 8 then s
  else s.ctlRefuse d c

/-- CX_FAULT cleared and the context READY; a stop or a DRAIN that waited takes effect (R84, R375). -/
def State.goOn (s : State) (d : Die) (c : Cx) : State :=
  let s1 := (((s.setReg (R.CX_FAULT d c) 0).setReg (R.CX_FAULT_ADDR d c) 0).setCxState d c CxS.READY)
  let x := s1.cx d c
  let s2 := s1.setCx d c { x with cur := none, inArb := false, waitSince := s1.now }
  match x.stallNext with
  | some (st, slot) => (s2.setCx d c { s2.cx d c with stallNext := none }).cxStop d c st slot 0 0 0 0 false true
  | none =>
    if x.drainLater && x.groupUnit.isNone then ((s2.setCx d c { s2.cx d c with drainLater := false }).setCxState d c CxS.DRAINING).settleCtx d c
    else s2

/-- A faulted command runs again from the element it reached (R80, R84); an engine out of service faults it with ABSENT. -/
def State.rerun (s : State) (d : Die) (c : Cx) (f : Flight) : State :=
  let ok := f.cmd.kind == 3 || s.engIn d f.cmd.engine
  let s1 := s.setFlight d c f.slot fun g =>
    if ok then { g with phase := .issued, fault := 0, faultAddr := 0, code := 0, lostWrite := false, order := s.issues }
    else { g with fault := St.ABSENT, faultAddr := 0, code := 0 }
  ({ s1 with issues := s1.issues + 1 }).advance d c f.cmd.slots

/-- RESUME (R84). -/
def resumeAct (d : Die) (c : Cx) (s : State) : State :=
  if s.cxStopped d c then
    let o := R.CX_FAULT d c
    let s1 := if s.flag o F.CX_FAULT.DONE ∨ s.flag o F.CX_FAULT.GROUP_ABANDONED then s
      else match (s.cx d c).flight (s.fld o F.CX_FAULT.SLOT) with
        | some f => if f.phase = .faulted then s.rerun d c f else s
        | none => s
    (s1.goOn d c).cxShow d c
  else s.ctlRefuse d c

/-- RESUME (R84). -/
def execResume (w : RegW) (d : Die) (c : Cx) (s : State) : Host.Outcome State Fault Refusal :=
  s.whileOn (s.onWrite w (R.CX_CTL d c) (ctlAct d c 0 (resumeAct d c)))

/-- The failed command retires without signal or completion action (R84). -/
def State.skipOne (s : State) (d : Die) (c : Cx) : State :=
  let x := s.cx d c
  let slot := s.fld (R.CX_FAULT d c) F.CX_FAULT.SLOT
  match x.flight slot with
  | some f => ((s.releaseTile d f).setFlight d c slot fun g => { g with phase := .complete, sigSent := true, tile := none, inGroup := false }).advance d c f.cmd.slots
  | none => s.passAt d c (x.cur.getD {})

/-- SKIP (R84). -/
def skipAct (d : Die) (c : Cx) (s : State) : State :=
  let o := R.CX_FAULT d c
  if s.cxState d c = CxS.STALLED ∧ !s.flag o F.CX_FAULT.DONE then
    let s1 := if s.flag o F.CX_FAULT.GROUP_ABANDONED then s.setCx d c { s.cx d c with skipGroup := true } else s.skipOne d c
    (s1.goOn d c).cxShow d c
  else s.ctlRefuse d c

/-- SKIP (R84). -/
def execSkip (w : RegW) (d : Die) (c : Cx) (s : State) : Host.Outcome State Fault Refusal :=
  s.whileOn (s.onWrite w (R.CX_CTL d c) (ctlAct d c 1 (skipAct d c)))

/-- DRAIN (R84). -/
def drainAct (d : Die) (c : Cx) (s : State) : State :=
  let x := s.cx d c
  let st := s.cxState d c
  if st = CxS.OFF then s.ctlRefuse d c
  else if x.resetting ≠ none ∨ st = CxS.DRAINING then s
  else if s.cxStopped d c ∨ x.groupUnit ≠ none ∨ x.consumeHeld = true then s.setCx d c { x with drainLater := true }
  else
    let s1 := s.returnGate d c
    ((s1.setCx d c { s1.cx d c with cur := none, inArb := false, reserved := false }).setCxState d c CxS.DRAINING).settleCtx d c

/-- DRAIN (R84). -/
def execDrain (w : RegW) (d : Die) (c : Cx) (s : State) : Host.Outcome State Fault Refusal :=
  s.whileOn (s.onWrite w (R.CX_CTL d c) (ctlAct d c 2 (drainAct d c)))

/-- RESET (R84): groups abandoned, waiters freed, the loss latch cleared; OFF once the issued commands have ended. -/
def resetAct (d : Die) (c : Cx) (s : State) : State :=
  let s1 := s.returnGate d c
  let groups := (s1.cx d c).flights.filterMap fun f => if f.inGroup && f.cmd.isOpen then some f.cmd.unit else none
  let s2 := groups.foldl (fun t m => t.abandonCx d c m) s1
  let s3 := (s2.cx d c).flights.foldl (fun t f => t.freeWaiterOf d c f.slot true) s2
  let s4 := (s3.setReg (R.CX_FAULT d c) 0).setReg (R.CX_FAULT_ADDR d c) 0
  let x := s4.cx d c
  let s5 := s4.setCx d c { ({} : Ctx) with flights := x.flights, resetting := some s4.now }
  ((s5.setCxState d c CxS.DRAINING).settleCtx d c).cxShow d c

/-- RESET (R84). -/
def execReset (w : RegW) (d : Die) (c : Cx) (s : State) : Host.Outcome State Fault Refusal :=
  s.whileOn (s.onWrite w (R.CX_CTL d c) (ctlAct d c 3 (resetAct d c)))

/-- Twenty microseconds after a RESET (R84): commands not ended are ended as faulted. -/
def cxResetTimeout (d : Die) (c : Cx) (s : State) : State :=
  match (s.cx d c).resetting with
  | some t =>
    if t + 320000 ≤ s.now then
      let us := (s.cx d c).flights.filterMap fun f => if f.cmd.kind = 3 then none else some f.cmd.engine
      us.foldl (fun u e => u.leaveIfIdle d e) (s.finishReset d c)
    else s
  | none => s

/-- CX_RESET_TIMEOUT (R84). -/
def execCxResetTimeout (t : Moment) (d : Die) (c : Cx) (s : State) : Host.Outcome State Fault Refusal :=
  s.whileOn (cxResetTimeout d c (s.atTime t))

/-! ## The context's registers (R62, R87, R88) -/

/-- A context starts (R87). -/
def State.start (s : State) (d : Die) (c : Cx) : State :=
  let n := s.fld (R.CX_CFG d c) F.CX_CFG.START_SLOT
  let s1 := ((s.setFld (R.CX_HEAD d c) F.CX_HEAD.HEAD n).setIssue d c n).setFld (R.CX_CFG d c) F.CX_CFG.ENABLE 1
  ((s1.setCx d c { ({} : Ctx) with loss := (s.cx d c).loss, waitSince := s.now }).setCxState d c CxS.READY).cxShow d c

/-- A doorbell quire outside the partition's range is refused (R372). -/
def State.dbCheck (s : State) (d : Die) (c : Cx) (old : Word) : State :=
  let o := R.CX_CFG d c
  if s.flag o F.CX_CFG.DB_EN ∧ !s.inRange (s.cxPart d c) (s.fld o F.CX_CFG.DB_Q) then
    (((s.setFld o F.CX_CFG.DB_Q (old.get 21 8)).setFld o F.CX_CFG.DB_EN 0)).raiseReg St.CX_CFG_BUSY o
  else s

/-- A write of CX_CFG (R87). -/
def cxCfgAct (d : Die) (c : Cx) (v : Word) (s : State) : State :=
  let o := R.CX_CFG d c
  let old := s.reg o
  let keep := [F.CX_CFG.ENABLE] ++ (if v.get 28 24 < 6 ∨ 16 < v.get 28 24 then [F.CX_CFG.QSIZE_LOG2] else [])
  if s.cxState d c = CxS.OFF then
    let s1 := (s.plainWriteBut o v keep).dbCheck d c old
    if v.bit 0 then
      (if s1.fld (R.CX_ATP d c) F.CX_ATP.MODE = 10 ∧ s1.fld o F.CX_CFG.START_SLOT < s1.qsize d c then s1.start d c
       else s1.raiseReg St.CX_START_REFUSED o)
    else s1
  else
    let want := (s.plainWriteBut o v keep).reg o
    let s1 := s.plainWriteBut o v [F.CX_CFG.ENABLE, F.CX_CFG.PART, F.CX_CFG.DB_Q, F.CX_CFG.DB_EN, F.CX_CFG.QSIZE_LOG2, F.CX_CFG.START_SLOT]
    if want = s1.reg o then s1 else s1.raiseReg St.CX_CFG_BUSY o

/-- CX_CFG_WRITE (R87). -/
def execCxCfgWrite (w : RegW) (d : Die) (c : Cx) (s : State) : Host.Outcome State Fault Refusal :=
  s.whileOn (s.onWrite w (R.CX_CFG d c) (cxCfgAct d c))

/-- A write of CX_ATP (R88). -/
def cxAtpAct (d : Die) (c : Cx) (v : Word) (s : State) : State := if v.get 63 60 = 10 then s.plainWrite (R.CX_ATP d c) v else s

/-- CX_ATP_WRITE (R88). -/
def execCxAtpWrite (w : RegW) (d : Die) (c : Cx) (s : State) : Host.Outcome State Fault Refusal :=
  s.whileOn (s.onWrite w (R.CX_ATP d c) (cxAtpAct d c))

/-- CX_DOORBELL (R62, R91). -/
def execCxDoorbell (w : RegW) (d : Die) (c : Cx) (s : State) : Host.Outcome State Fault Refusal :=
  s.whileOn (s.onWrite w (R.CX_DOORBELL d c) fun v t => if v.bit 0 then t.cxWake d c else t)

/-- An EMPTY context rereads its slot 1 µs after it found it empty (R62). -/
def emptyReread (d : Die) (c : Cx) (s : State) : State :=
  if (s.cx d c).waitSince + 16000 ≤ s.now then s.cxWake d c else s

/-- EMPTY_REREAD (R62). -/
def execEmptyReread (t : Moment) (d : Die) (c : Cx) (s : State) : Host.Outcome State Fault Refusal :=
  s.whileOn (emptyReread d c (s.atTime t))

/-! ## The plain control commands (R69) -/

/-- NOP: only gate, stamp and signal. -/
def execNop (d : Die) (c : Cx) (s : State) : Host.Outcome State Fault Refusal :=
  s.whileOn (match s.ctlFront d c Op.NOP with
    | some f => s.workDone d c f.slot
    | none => s)

/-- HALT ends when every earlier command of the context has completed (R69). -/
def halt (d : Die) (c : Cx) (s : State) : State :=
  match s.ctlFront d c Op.HALT with
  | some f => if ((s.cx d c).flights.takeWhile fun g => g.slot != f.slot).all (fun g => g.phase == .complete) then s.workDone d c f.slot else s
  | none => s

/-- HALT (R69). -/
def execHalt (d : Die) (c : Cx) (s : State) : Host.Outcome State Fault Refusal := s.whileOn (halt d c s)

/-! ## ACQ, FLUSH, DFENCE (R326, R349-R353) -/

/-- A range's translation by pages of 1 GiB: its physical pieces, or a fault at an address, or a held walk. -/
inductive RangeRes where
  | ok (l : List (Nat × Nat))
  | fault (status va : Nat)
  | wait
deriving DecidableEq, Repr

/-- The pieces of `len` bytes from `va`, `fuel` pages at most. -/
def State.mapRange (d : Die) (c : Cx) : Nat → Nat → Nat → State → RangeRes × State
  | 0, _, _, s => (.ok [], s)
  | fuel + 1, va, len, s =>
    if len = 0 then (.ok [], s)
    else
      match s.translate d c (queueStream c) (va % 2 ^ 57) false with
      | (.fault st, s1) => (.fault st va, s1)
      | (.wait, s1) => (.wait, s1)
      | (.ok pa, s1) =>
        let n := min len (0x40000000 - va % 0x40000000)
        match State.mapRange d c fuel (va + n) (len - n) s1 with
        | (.ok l, s2) => (.ok ((pa, n) :: l), s2)
        | r => r

/-- The interleaved-window address of a stack-linear address, if it has one (R255). -/
def windowAddr (lin : Nat) : Option Nat :=
  let j := lin / 0x1000000000
  let o := lin % 0x1000000000
  ((List.range 5).find? fun i => interleaveStack (o / 4096 * 5 + i) == j % 5).map fun i =>
    0x40000000000 + j / 5 * 0x8000000000 + (o / 4096 * 5 + i) * 4096 + o % 4096

/-- Does a sector, by its memory's key, lie in a physical piece? -/
def inPiece (key : Nat) (p : Nat × Nat) : Bool :=
  (decide (p.1 / 64 * 64 ≤ key) && decide (key < p.1 + p.2)) ||
    (decide (key < 0x14000000000) && (match windowAddr key with | some w => decide (p.1 / 64 * 64 ≤ w) && decide (w < p.1 + p.2) | none => false))

def inPieces (key : Nat) (l : List (Nat × Nat)) : Bool := l.any (inPiece key)

/-- The remote cache less its bulk sectors that satisfy `p`. -/
def RcSt.dropBulk (r : RcSt) (p : Nat → Bool) : RcSt :=
  { r with tags := r.tags.map fun t => { t with sectors := t.sectors.filter fun x => !(x.2.bulk && p (t.addr + 64 * x.1)) } }

/-- ACQ over the range's pieces: bulk sectors dropped, fills already sent kept out (R326, R349). -/
def State.acquire (s : State) (d : Die) (len : Nat) (l : List (Nat × Nat)) : State :=
  let p := fun a => decide (s.fld (R.RC_CFG d) F.RC_CFG.ACQ_ALL_MIB * 0x100000 < len) || inPieces a l
  let s1 := s.setRc d.val ((s.rc d.val).dropBulk p)
  let late := (s1.mem.msgs.filter fun m => m.kind == .data && m.agent == Requester.agent (.cd d) && p m.line).map (·.txn)
  { s1 with mem := { s1.mem with txns := s1.mem.txns.map fun t => if late.contains t.id && t.kind == .rdBulk then { t with kind := .rdOnce } else t } }

/-- A control command over a range: `act` with its pieces, or a fault, or nothing while a walk is held. -/
def State.onRange (s : State) (d : Die) (c : Cx) (op : Nat) (act : Flight → List (Nat × Nat) → State → State) : State :=
  match s.ctlFront d c op with
  | some f =>
    match State.mapRange d c 1026 (f.cmd.w2.get 56 0) (f.cmd.w3.get 39 0) s with
    | (.ok l, s1) => act f l s1
    | (.fault st va, s1) => s1.flightFault d c f.slot st va 0
    | (.wait, s1) => s1
  | none => s

/-- ACQ (R349). -/
def execAcq (d : Die) (c : Cx) (s : State) : Host.Outcome State Fault Refusal :=
  s.whileOn (s.onRange d c Op.ACQ fun f l t => (t.acquire d (f.cmd.w3.get 39 0) l).workDone d c f.slot)

/-- FLUSH (R351): ends when the writes into its range that its die sent before it have been accepted or lost. -/
def flushWith (d : Die) (c : Cx) (f : Flight) (l : List (Nat × Nat)) (s : State) : State :=
  if f.waitIds.all fun i => (match s.wr i with | some w => w.stage == .accepted || !inPieces w.addr l | none => true) then s.workDone d c f.slot else s

/-- FLUSH (R351). -/
def execFlush (d : Die) (c : Cx) (s : State) : Host.Outcome State Fault Refusal := s.whileOn (s.onRange d c Op.FLUSH (flushWith d c))

/-- DFENCE (R352): ends when every write and signal its context sent before it has been receipted or lost. -/
def dfence (d : Die) (c : Cx) (s : State) : State :=
  match s.ctlFront d c Op.DFENCE with
  | some f => if s.allReceipted f.waitIds && !(s.sync.qsigs.any fun g => f.waitIds.contains g.id) then s.workDone d c f.slot else s
  | none => s

/-- DFENCE (R352). -/
def execDfence (d : Die) (c : Cx) (s : State) : Host.Outcome State Fault Refusal := s.whileOn (dfence d c s)

end Sys2Proof.Machine
end

