-- ==== Sys2Proof/Machine/Access.lean ====
section
/-!
DEFINITION. How an engine reads and writes memory for a command, sector by sector (10_translation.md, 12_ordering.md), and how
tensor-block checksums are checked and written (R129, R184, R211, R259-R262).
-/

namespace Sys2Proof.Machine

/-! ## Reading -/

/-- A sector an engine has read: its virtual address, its memory's key, is it HBM or DDR5, is it poisoned, its bytes. -/
structure Sec where
  va : Nat
  key : Nat
  mem : Bool
  poison : Bool
  data : List Byte
deriving DecidableEq, Repr

/-- What an access of an engine gives: sectors; a fault with its status and address, its code if it is one of the engine's; or
nothing yet, with the address it waits at. -/
inductive IoRes where
  | ok (l : List Sec)
  | fault (status addr code : Nat)
  | wait (va : Nat)
deriving DecidableEq, Repr

/-- The fault an engine's code makes. -/
def IoRes.engine (code va : Nat) : IoRes := .fault St.ENGINE_FAULT va code

/-- Which regions an access may reach and the code of the fault elsewhere; the stream; does it mark weight fills, and does it
read at the home, past the remote cache (R202)? -/
structure Port where
  stream : Nat
  allow : Region → Bool
  code : Nat
  weights : Bool := false
  fresh : Bool := false

/-- The regions data may be moved between: memory, the scratchpad, the host window, the fabric window (R207). -/
def plainRegion (r : Region) : Bool :=
  match r with
  | .hbm _ _ | .ddr _ | .scr _ _ | .host _ | .fabric _ _ => true
  | _ => false

/-- A sector read at its home by a context's engine, past the remote cache. -/
def State.homeRead (s : State) (d : Die) (c : Cx) (inst : Option (Nat × Nat)) (line : Nat) : ReadRes × State :=
  let r := s.region line
  if !r.isMem then s.engineRead d c inst line false
  else if s.absent r then (.absent, s)
  else if s.held r then (.wait, s)
  else
    let s1 := s.homeShare line
    (.data (s1.ownOver (.cx d c) inst line (s1.sectorFor inst line)) (s1.poisoned line), s1)

/-- `fuel` sectors read from the aligned address `va`. -/
def State.readSecs (d : Die) (c : Cx) (f : Flight) (p : Port) : Nat → Nat → State → IoRes × State
  | 0, _, s => (.ok [], s)
  | fuel + 1, va, s =>
    match s.translate d c p.stream (va % 2 ^ 57) false with
    | (.wait, s1) => (.wait va, s1)
    | (.fault st, s1) => (.fault st va 0, s1)
    | (.ok pa, s1) =>
      let r := s1.region pa
      if !p.allow r then (.engine p.code va, s1)
      else
        match if p.fresh then s1.homeRead d c f.inst (r.key pa) else s1.engineRead d c f.inst (r.key pa) p.weights with
        | (.absent, s2) => (.fault St.ABSENT va 0, s2)
        | (.refused, s2) => (.engine p.code va, s2)
        | (.wait, s2) => (.wait va, s2)
        | (.data b q, s2) =>
          match State.readSecs d c f p fuel (va + 64) s2 with
          | (.ok l, s3) => (.ok ({ va := va, key := r.key pa, mem := r.isMem, poison := q, data := b } :: l), s3)
          | e => e

/-- Sectors that `n` bytes from `va` touch. -/
def sectorCount (va n : Nat) : Nat := if n = 0 then 0 else (va % 64 + n + 63) / 64

/-- The sectors of a run of bytes. -/
def State.readRun (d : Die) (c : Cx) (f : Flight) (p : Port) (va n : Nat) (s : State) : IoRes × State :=
  State.readSecs d c f p (sectorCount va n) (va / 64 * 64) s

/-- The bytes of a run from its sectors. -/
def runBytes (va n : Nat) (l : List Sec) : List Byte := ((l.flatMap Sec.data).drop (va % 64)).take n

/-- An access that gave no data: the flight faults, or waits at an address (R269). -/
def State.ioStop (s : State) (d : Die) (c : Cx) (f : Flight) (r : IoRes) : State :=
  match r with
  | .ok _ => s
  | .fault st va code => if code = 0 then s.flightFault d c f.slot st va 0 else s.engFault d c f code va
  | .wait va => s.setFlight d c f.slot fun g => { g with held := some va }

/-! ## Regions named before anything is read (R130, R207, R254) -/

/-- The addresses of a run that show whether it leaves its regions: its ends, and both sides of each gigabyte boundary in it. -/
def runEdges (va n : Nat) : List Nat :=
  if n = 0 then []
  else va :: (va + n - 1) :: ((List.range ((va % 0x40000000 + n - 1) / 0x40000000)).flatMap fun i =>
    [(va / 0x40000000 + i + 1) * 0x40000000 - 1, (va / 0x40000000 + i + 1) * 0x40000000])

/-- The first address of the runs that a mapping takes outside the regions allowed. -/
def State.badRegion (s : State) (d : Die) (c : Cx) (p : Port) (write : Bool) (runs : List (Nat × Nat)) : Option Nat :=
  (runs.flatMap fun r => runEdges r.1 r.2).find? fun va =>
    match (s.translate d c p.stream (va % 2 ^ 57) write).1 with
    | .ok pa => !p.allow (s.region pa)
    | _ => false

/-! ## Checksums of what is read (R129, R185, R213, R262) -/

/-- GEN, UNCHECKED and CRC of a block as a reader of an instance finds them (R238, R262). -/
def State.blockView (s : State) (inst : Option (Nat × Nat)) (key : Nat) : Nat × Bool × Nat :=
  let r := s.block key
  match inst with
  | none => (r.gen, r.unchecked, r.crc)
  | some (e, i) =>
    match s.firn.blocks.find? fun b => b.block == key / 4096 * 4096 && b.epoch == e && b.inst == i with
    | some b => (r.gen, (match b.resealGen with | some g => g != r.gen | none => b.unchecked), b.crc)
    | none => (r.gen, r.unchecked, r.crc)

/-- The last run of a list that holds address `a`, and its byte there. -/
def byteIn (runs : List (Nat × List Byte)) (a : Nat) : Option Byte :=
  (runs.reverse.find? fun r => decide (r.1 ≤ a) && decide (a < r.1 + r.2.length)).bind fun r => r.2[a - r.1]?

/-- The bytes of the block at `b`, if the runs hold them all. -/
def blockBytes (runs : List (Nat × List Byte)) (b : Nat) : Option (List Byte) :=
  (List.range 4096).mapM fun i => byteIn runs (b + i)

/-- The blocks, by virtual address, that a run touches. -/
def blocksOfRun (va n : Nat) : List Nat :=
  if n = 0 then [] else (List.range ((va % 4096 + n + 4095) / 4096)).map fun i => va / 4096 * 4096 + 4096 * i

/-- A block just read in full is compared: verified, left unverified, or a mismatch. -/
inductive Verdict where
  | verified | unverified | mismatch
deriving DecidableEq, Repr

/-- R262 for a block whose bytes are all read. -/
def verdictOf (first : Nat × Bool) (last : Nat × Bool × Nat) (bs : List Byte) : Verdict :=
  if first.2 || last.2.1 || first.1 != last.1 then .unverified else if crc32c bs = last.2.2 then .verified else .mismatch

/-- A flight with one block of a run it has read noted: its first GEN and UNCHECKED, and its verdict once complete. -/
def State.noteBlock (s : State) (l : List Sec) (f : Flight) (b : Nat) : Flight × Option Nat :=
  match l.find? fun x => x.mem && x.va / 4096 * 4096 == b with
  | none => (f, none)
  | some x =>
    let v := s.blockView f.inst x.key
    let f1 := if f.seen.any fun y => y.1 == b then f else { f with seen := f.seen ++ [(b, v.1, v.2.1)] }
    match blockBytes f1.got b, f1.seen.find? fun y => y.1 == b with
    | some bs, some y =>
      match verdictOf y.2 v bs with
      | .verified => ({ f1 with checked := if f1.checked.contains b then f1.checked else b :: f1.checked }, none)
      | .unverified => (f1, none)
      | .mismatch => (f1, some b)
    | _, _ => (f1, none)

/-- A flight with a run it has read noted, and the first block that does not match. -/
def State.noteRun (s : State) (l : List Sec) (va : Nat) (bs : List Byte) (f : Flight) : Flight × Option Nat :=
  (blocksOfRun va bs.length).foldl (fun p b =>
    match p.2 with
    | some _ => p
    | none => s.noteBlock l p.1 b) ({ f with got := f.got ++ [(va, bs)] }, none)

/-- Blocks a flight has used without verification. -/
def Flight.unverified (f : Flight) : Nat := f.seen.length - f.checked.length

/-! ## Writing -/

/-- The instance a flight's writes are provisional under: its own, until its settle begins (R235 step 1). -/
def State.writeInst (s : State) (f : Flight) : Option (Nat × Nat) :=
  match f.inst with
  | some (e, i) => if s.epInst e = i ∧ s.epState e = Ep.LIVE then some (e, i) else none
  | none => none

/-- Do the runs, (address, length), cover the bytes from `lo` to `hi`? `fuel` is their number. -/
def covers (runs : List (Nat × Nat)) (hi : Nat) : Nat → Nat → Bool
  | 0, lo => decide (hi ≤ lo)
  | fuel + 1, lo =>
    if hi ≤ lo then true
    else match runs.find? fun r => decide (r.1 ≤ lo) && decide (lo < r.1 + r.2) with
      | some r => covers runs hi fuel (r.1 + r.2)
      | none => false

/-- Do a command's runs cover the block at virtual address `b` wholly (R184, R211)? -/
def wholeBlock (runs : List (Nat × Nat)) (b : Nat) : Bool := covers runs (b + 4096) (runs.length + 1) b

/-- One sector written for a flight's element: its bytes from offset `o` of the sector. -/
def State.writeSec (s : State) (d : Die) (c : Cx) (f : Flight) (elem key va o : Nat) (bs : List Byte) (whole poison : Bool) : State :=
  let r := s.region key
  s.sendWrite { id := 0, src := .cx d c, dst := .hub, addr := key, mask := byteMask o bs.length, data := atOffset o bs, firn := if r.isMem then s.writeInst f else none, cmd := f.id, whole := whole, poison := poison, elem := elem, xl := some (s.asid d c, va) }

/-- `fuel` sectors written from `va` on: what is left of the bytes, the destination sectors to be poisoned. -/
def State.writeSecs (d : Die) (c : Cx) (f : Flight) (p : Port) (runs : List (Nat × Nat)) (elem : Nat) (bad : List Nat) :
    Nat → Nat → List Byte → State → IoRes × State
  | 0, _, _, s => (.ok [], s)
  | fuel + 1, va, bs, s =>
    if bs = [] then (.ok [], s)
    else
      match s.translate d c p.stream (va % 2 ^ 57) true with
      | (.wait, s1) => (.wait va, s1)
      | (.fault st, s1) => (.fault st va 0, s1)
      | (.ok pa, s1) =>
        let r := s1.region pa
        if !p.allow r then (.engine p.code va, s1)
        else
          let n := 64 - va % 64
          let k := r.key pa
          let b := va / 4096 * 4096
          let s2 := s1.writeSec d c f elem (k / 64 * 64) va (va % 64) (bs.take n) (wholeBlock runs b) (bad.contains (va / 64 * 64))
          State.writeSecs d c f p runs elem bad fuel (va + n) (bs.drop n) s2

/-- A run of bytes written for element `elem` of a flight, and kept for the CRC of blocks covered wholly. -/
def State.writeRun (d : Die) (c : Cx) (f : Flight) (p : Port) (runs : List (Nat × Nat)) (elem : Nat) (bad : List Nat) (va : Nat)
    (bs : List Byte) (s : State) : IoRes × State :=
  match State.writeSecs d c f p runs elem bad (sectorCount va bs.length) va bs s with
  | (.ok _, s1) =>
    let keep := (blocksOfRun va bs.length).any (wholeBlock runs)
    (.ok [], if keep then s1.setFlight d c f.slot fun g => { g with out := g.out ++ [(va, bs)] } else s1)
  | r => r

/-- The blocks a flight has written wholly, by virtual address. -/
def Flight.wholeBlocks (f : Flight) : List Nat :=
  (f.out.flatMap fun r => blocksOfRun r.1 r.2.length).eraseDups.filter fun b => (blockBytes f.out b).isSome

/-- A block's CRC write, where the block lies in memory or in another package's (R184, R211, R212). -/
def State.writeCrc (s : State) (d : Die) (c : Cx) (f : Flight) (p : Port) (elem b : Nat) : State :=
  match s.translate d c p.stream (b % 2 ^ 57) true, blockBytes f.out b with
  | (.ok pa, s1), some bs =>
    let r := s1.region pa
    let go := match r with
      | .fabric _ _ => true
      | r => r.isMem
    if go then
      s1.sendWrite { id := 0, src := .cx d c, dst := .hub, addr := r.key pa, firn := if r.isMem then s1.writeInst f else none, cmd := f.id, whole := true, crc := some (crc32c bs), elem := elem, xl := some (s1.asid d c, b) }
    else s1
  | _, _ => s

/-- The CRC writes of every block a flight has written wholly, under the instance of `f`. -/
def State.writeCrcs (s : State) (d : Die) (c : Cx) (f : Flight) (p : Port) (elem : Nat) : State :=
  match (s.cx d c).flight f.slot with
  | some g => g.wholeBlocks.foldl (fun t b => t.writeCrc d c { g with inst := f.inst } p elem b) s
  | none => s

end Sys2Proof.Machine
end

