-- ==== Sys2Proof/Machine/Arith.lean ====
section
/-!
DEFINITION. Arithmetic: the arrays' products and accumulation (R107, R108), the vector engine's FP32 and INT32 operations and
reductions (R158, R171, R175, R176), the correctly rounded functions of R177.
-/

namespace Sys2Proof.Machine

def canonNaN32 : Nat := 0x7FC00000

/-- The FP32 shape. -/
def fp32 : FloatFmt := ⟨23, 127, 0x7F7FFFFF, some 0x7F800000, some 0x7FC00000, 31⟩

/-- The value of FP32 bits. -/
def dec32 (c : Nat) : Num := fp32.decode c

/-- A value rounded to FP32 by round-to-nearest-even: bits and flags (R158). -/
def rnd32 (x : Num) : Nat × Nat :=
  match x with
  | .fin neg m e => fp32.ofFrac 0 false neg m 1 e
  | .inf neg => (fp32.signed neg 0x7F800000, 0)
  | .nan sig => (canonNaN32, if sig then Flag.INVALID else 0)

/-! ## Exact dyadic sums and products -/

/-- The exact sum of two dyadic numbers. -/
def dyAdd (a : Int × Int) (b : Int × Int) : Int × Int :=
  if a.2 ≤ b.2 then (a.1 + b.1 * 2 ^ (b.2 - a.2).toNat, a.2) else (a.1 * 2 ^ (a.2 - b.2).toNat + b.1, b.2)

def Num.dy : Num → Int × Int
  | .fin neg m e => (if neg then -(m : Int) else m, e)
  | _ => (0, 0)

/-- An invalid operation's result. -/
def invalidNaN : Num × Nat := (.nan false, Flag.INVALID)

/-- The flag of a NaN operand: INVALID once if signalling (R171). -/
def nanOf (xs : List Num) : Num × Nat :=
  (.nan false, if xs.any (fun x => x == .nan true) then Flag.INVALID else 0)

/-- a + b, exact, with the IEEE 754 sign of zero under round-to-nearest. -/
def numAdd (a b : Num) : Num × Nat :=
  if a.isNaN || b.isNaN then nanOf [a, b]
  else match a, b with
    | .inf x, .inf y => if x = y then (.inf x, 0) else invalidNaN
    | .inf x, _ => (.inf x, 0)
    | _, .inf y => (.inf y, 0)
    | _, _ =>
      let s := dyAdd a.dy b.dy
      if s.1 = 0 then (.fin (a.isZero && b.isZero && a.neg && b.neg) 0 0, 0) else (Num.ofDyadic s.1 s.2, 0)

/-- a × b, exact. -/
def numMul (a b : Num) : Num × Nat :=
  if a.isNaN || b.isNaN then nanOf [a, b]
  else match a, b with
    | .fin x m e, .fin y n f => (.fin (x != y) (m * n) (e + f), 0)
    | _, _ => if a.isZero || b.isZero then invalidNaN else (.inf (a.neg != b.neg), 0)

/-- a × b + c, exact. -/
def numFma (a b c : Num) : Num × Nat :=
  if a.isNaN || b.isNaN || c.isNaN then nanOf [a, b, c]
  else
    let p := numMul a b
    if p.1.isNaN then p else numAdd p.1 c

/-- Is a less than b, both not NaN; −0 below +0? -/
def numLt (a b : Num) : Bool :=
  match a, b with
  | .inf x, .inf y => x && !y
  | .inf x, _ => x
  | _, .inf y => !y
  | _, _ =>
    let s := dyAdd b.dy (-(a.dy).1, (a.dy).2)
    if s.1 = 0 then a.isZero && b.isZero && a.neg && !b.neg else decide (0 < s.1)

/-- MAX and MIN (R175). -/
def numMax (a b : Num) : Num × Nat := if a.isNaN || b.isNaN then nanOf [a, b] else (if numLt a b then b else a, 0)
def numMin (a b : Num) : Num × Nat := if a.isNaN || b.isNaN then nanOf [a, b] else (if numLt b a then b else a, 0)

/-- An exact result rounded to FP32 with its flags. -/
def rndOp (r : Num × Nat) : Nat × Nat := let q := rnd32 r.1; (q.1, q.2 ||| r.2)

/-! ## The correctly rounded functions (R177) -/

/-- Fraction bits of the fixed-point evaluation. -/
def fxBits : Nat := 640

/-- 1 in fixed point. -/
def fxOne : Nat := 2 ^ fxBits

/-- ln 2 in fixed point, truncated: the sum of 1/(k 2^k). -/
def fxLn2 : Nat := (List.range fxBits).foldl (fun s k => s + fxOne / ((k + 1) * 2 ^ (k + 1))) 0

/-- arctan(1/n) in fixed point. -/
def fxAtanInv (n : Nat) : Int :=
  (List.range fxBits).foldl (fun s k =>
    let t : Int := (fxOne / ((2 * k + 1) * n ^ (2 * k + 1)) : Nat)
    if k % 2 = 0 then s + t else s - t) 0

/-- π in fixed point (Machin's formula). -/
def fxPi : Nat := (16 * fxAtanInv 5 - 4 * fxAtanInv 239).toNat

/-- √(2/π) in fixed point. -/
def fxSqrt2Pi : Nat := Nat.sqrt (2 * fxOne * fxOne * fxOne / fxPi)

/-- e^(−t) for a fixed-point t ≥ 0, in fixed point: 2^(−k) e^(−r) with t = k ln 2 + r. -/
def fxExpNeg (t : Nat) : Nat :=
  let k := t / fxLn2
  let r := t % fxLn2
  let s := (List.range 160).foldl (fun (p : Int × Nat) i =>
    ((if i % 2 = 0 then p.1 + p.2 else p.1 - p.2), p.2 * r / fxOne / (i + 1))) (0, fxOne)
  s.1.toNat / 2 ^ k

/-- 1/(1 + e^(−t)) for a signed fixed-point t. -/
def fxSigmoid (t : Int) : Nat :=
  let x := fxExpNeg t.natAbs
  if 0 ≤ t then fxOne * fxOne / (fxOne + x) else fxOne * x / (fxOne + x)

/-- A dyadic m × 2^e in fixed point, truncated toward zero. -/
def fxOfDy (d : Int × Int) : Int :=
  let s := d.2 + fxBits
  if 0 ≤ s then d.1 * 2 ^ s.toNat else (d.1.natAbs / 2 ^ (-s).toNat : Nat) * d.1.sign

/-- A finite inexact result's FP32 bits, by a fixed-point magnitude that is never a tie; its flags always include INEXACT. -/
def fxRound (neg : Bool) (n : Nat) (e : Int) : Nat × Nat :=
  if n = 0 then (fp32.signed neg 0, Flag.UNDERFLOW + Flag.INEXACT)
  else
    let (c, fl) := fp32.round 0 neg n 1 e
    if c ≤ fp32.maxFinite then (fp32.signed neg c, fl ||| Flag.INEXACT) else (fp32.signed neg 0x7F800000, Flag.OVERFLOW)

/-- 2^p at an FP32 value (R177). -/
def fxExp2 (p : Num) : Nat × Nat :=
  match p with
  | .nan sig => (canonNaN32, if sig then Flag.INVALID else 0)
  | .inf neg => (if neg then 0 else 0x7F800000, 0)
  | .fin neg m e =>
    if m = 0 then (0x3F800000, 0)
    else
      let q : Int := if 0 ≤ e then (if 8 < Nat.log2 m + e.toNat then 1000 else m * 2 ^ e.toNat) else (m / 2 ^ (-e).toNat : Nat)
      let whole := decide (0 ≤ e) || m % 2 ^ (-e).toNat == 0
      let i : Int := if neg then (if whole then -q else -q - 1) else q
      if 128 ≤ i then (0x7F800000, Flag.OVERFLOW)
      else if i < -160 then (0, Flag.UNDERFLOW + Flag.INEXACT)
      else if whole then fp32.ofFrac 0 false false 1 1 i
      else
        let f := fxOfDy (p.dy.1 - i * 2 ^ (-e).toNat, e)
        let x := (fxOne * fxOne) / fxExpNeg (f.toNat * fxLn2 / fxOne)
        fxRound false x (i - fxBits)

/-- 1/a (R175, R177). -/
def fxRecip (a : Num) : Nat × Nat :=
  match a with
  | .nan sig => (canonNaN32, if sig then Flag.INVALID else 0)
  | .inf neg => (fp32.signed neg 0, 0)
  | .fin neg m e =>
    if m = 0 then (fp32.signed neg 0x7F800000, Flag.OVERFLOW)
    else
      let (c, fl) := fp32.round 0 neg 1 m (-e)
      if c ≤ fp32.maxFinite then (fp32.signed neg c, fl) else (fp32.signed neg 0x7F800000, Flag.OVERFLOW)

/-- 1/√a (R175, R177): the square root of a scaled quotient, with a sticky bit. -/
def fxRsqrt (a : Num) : Nat × Nat :=
  match a with
  | .nan sig => (canonNaN32, if sig then Flag.INVALID else 0)
  | .inf neg => if neg then (canonNaN32, Flag.INVALID) else (0, 0)
  | .fin neg m e =>
    if m = 0 then (fp32.signed neg 0x7F800000, Flag.OVERFLOW)
    else if neg then (canonNaN32, Flag.INVALID)
    else
      let m' := if e % 2 = 0 then m else 2 * m
      let e' := if e % 2 = 0 then e else e - 1
      let z := 2 ^ 256 / m'
      let r := Nat.sqrt z
      let exact := r * r * m' == 2 ^ 256
      let n := 2 * r + (if exact then 0 else 1)
      fp32.ofFrac 0 false false n 1 (-128 - 1 - e' / 2)

/-- a / (1 + e^(−z)), with the sign and magnitude of a ≠ 0 and a fixed-point z; past `big` the function is a itself or −0. -/
def fxGate (a : Num) (z : Int) : Nat × Nat :=
  let s := fxSigmoid z
  match a with
  | .fin neg m e => fxRound neg (m * s) (e - fxBits)
  | _ => (canonNaN32, 0)

/-- Does |a| reach 2^k? -/
def magAtLeast (a : Num) (k : Int) : Bool :=
  match a with
  | .fin _ m e => m != 0 && decide (k ≤ (Nat.log2 m : Int) + e)
  | _ => false

/-- SILU and GELU at special and far inputs, else `z` gives the gate's argument (R177). -/
def fxActivation (a : Num) (far : Int) (z : Int) : Nat × Nat :=
  match a with
  | .nan sig => (canonNaN32, if sig then Flag.INVALID else 0)
  | .inf neg => if neg then (0x80000000, 0) else (0x7F800000, 0)
  | .fin neg m e =>
    if m = 0 then (fp32.signed neg 0, 0)
    else if magAtLeast a far then
      (if neg then (0x80000000, Flag.UNDERFLOW + Flag.INEXACT) else ((fp32.ofFrac 0 false false m 1 e).1, Flag.INEXACT))
    else fxGate a z

/-- a / (1 + e^(−a)). -/
def fxSilu (a : Num) : Nat × Nat := fxActivation a 8 (fxOfDy a.dy)

/-- 0.5 a (1 + tanh(√(2/π)(a + 0.044715 a³))) = a / (1 + e^(−2√(2/π)(a + 0.044715 a³))). -/
def fxGelu (a : Num) : Nat × Nat :=
  let x := fxOfDy a.dy
  let one : Int := (fxOne : Nat)
  let cube := x * x / one * x / one
  let inner := x + cube * 44715 / 1000000
  fxActivation a 4 (2 * inner * (fxSqrt2Pi : Nat) / one)

/-! ## Vector operations on FP32 bits (R171, R175) -/

def opADD : Nat := 0x11
def opSUB : Nat := 0x12
def opMUL : Nat := 0x13
def opFMA : Nat := 0x14
def opMAX : Nat := 0x15
def opMIN : Nat := 0x16
def opSEXP : Nat := 0x20
def opRECIP : Nat := 0x21
def opRSQRT : Nat := 0x22
def opRELU : Nat := 0x23
def opGELU : Nat := 0x24
def opSILU : Nat := 0x25

/-- RELU on a value. -/
def numRelu (a : Num) : Num × Nat :=
  if a.isNaN then nanOf [a] else if a.neg || a.isZero then (.fin false 0 0, 0) else (a, 0)

/-- One FP32 result of an elementwise operation: a, b, the destination's old value, the scalar. -/
def veFloat (op : Nat) (a b c s : Num) : Nat × Nat :=
  if op = opADD then rndOp (numAdd a b)
  else if op = opSUB then (if b.isNaN then rndOp (nanOf [a, b]) else rndOp (numAdd a b.negate))
  else if op = opMUL then rndOp (numMul a b)
  else if op = opFMA then rndOp (numFma a b c)
  else if op = opMAX then rndOp (numMax a b)
  else if op = opMIN then rndOp (numMin a b)
  else if op = opSEXP then
    if a.isNaN || b.isNaN || s.isNaN then rndOp (nanOf [a, b, s])
    else
      let d := rndOp (numAdd a b.negate)
      let p := rndOp (numMul (dec32 d.1) s)
      let r := fxExp2 (dec32 p.1)
      (r.1, d.2 ||| p.2 ||| r.2)
  else if op = opRECIP then fxRecip a
  else if op = opRSQRT then fxRsqrt a
  else if op = opRELU then rndOp (numRelu a)
  else if op = opGELU then fxGelu a
  else fxSilu a

/-- An exact integer held to a two's complement code of `bits` bits (R158): the code and SATURATED. -/
def satW (bits : Nat) (i : Int) : Nat × Nat :=
  let top : Int := 2 ^ (bits - 1)
  if top - 1 < i then ((top - 1).toNat, Flag.SATURATED)
  else if i < -top then (2 ^ (bits - 1), Flag.SATURATED)
  else ((i % 2 ^ bits).toNat, 0)

/-- An exact integer held to INT32 (R158). -/
def sat32 (i : Int) : Nat × Nat := satW 32 i

/-- One exact integer result of an elementwise operation (R171). -/
def veInt (op : Nat) (a b c : Int) : Int :=
  if op = opADD then a + b
  else if op = opSUB then a - b
  else if op = opMUL then a * b
  else if op = opFMA then a * b + c
  else if op = opMAX then max a b
  else if op = opMIN then min a b
  else max a 0

/-! ## Reductions (R176) -/

/-- Adds a value into a lane, rounding. -/
def laneAdd (sq : Bool) (lane : Option Nat) (x : Num) : Nat × Nat :=
  match lane with
  | none => if sq then rndOp (numMul x x) else rnd32 x
  | some l => if sq then rndOp (numFma x x (dec32 l)) else rndOp (numAdd (dec32 l) x)

/-- The elements of one lane added in order (R176). -/
def laneSum (sq : Bool) (xs : List Num) : Option Nat × Nat :=
  xs.foldl (fun p x => let r := laneAdd sq p.1 x; (some r.1, p.2 ||| r.2)) (none, 0)

/-- Adds neighbours of a level of the tree; a lane with no element takes no part. -/
def treePairs : List (Option Nat) → List (Option Nat) × Nat
  | some a :: some b :: r =>
    let q := rndOp (numAdd (dec32 a) (dec32 b))
    let t := treePairs r
    (some q.1 :: t.1, q.2 ||| t.2)
  | some a :: none :: r => let t := treePairs r; (some a :: t.1, t.2)
  | none :: b :: r => let t := treePairs r; (b :: t.1, t.2)
  | l => (l, 0)

/-- The balanced tree, six levels over 64 lanes. -/
def treeSum : Nat → List (Option Nat) → Nat × Nat
  | 0, l => ((l.head?.getD none).getD 0, 0)
  | n + 1, l => let t := treePairs l; let r := treeSum n t.1; (r.1, r.2 ||| t.2)

/-- RSUM or RSUMSQ of a segment of values already in FP32 (R176). -/
def floatSum (sq : Bool) (xs : List Num) : Nat × Nat :=
  let lanes := (List.range 64).map fun l => laneSum sq ((List.range ((xs.length + 63 - l) / 64)).filterMap fun j => xs[64 * j + l]?)
  let t := treeSum 6 (lanes.map (·.1))
  (t.1, t.2 ||| lanes.foldl (fun a p => a ||| p.2) 0)

/-- RMAX of a segment (R175). -/
def floatMax (xs : List Num) : Nat × Nat :=
  if xs.any Num.isNaN then rndOp (nanOf xs)
  else match xs with
    | [] => (0, 0)
    | x :: r => rnd32 (r.foldl (fun a b => if numLt a b then b else a) x)

/-- The exact integer reductions (R171, R176): 0x30 RSUM, 0x31 RMAX, 0x32 RSUMSQ. -/
def intReduce (op : Nat) (xs : List Int) : Int :=
  if op = 0x30 then xs.foldl (· + ·) 0
  else if op = 0x32 then xs.foldl (fun a x => a + x * x) 0
  else match xs with
    | [] => 0
    | x :: r => r.foldl max x

/-! ## The arrays (R107, R108) -/

/-- The exponent of a dyadic term: floor of log₂ of its magnitude. -/
def dyExp (d : Int × Int) : Int := (Nat.log2 d.1.natAbs : Int) + d.2

/-- A dyadic term truncated toward −∞ at weight 2^w, as a multiple of it. -/
def truncAt (d : Int × Int) (w : Int) : Int :=
  let s := d.2 - w
  if 0 ≤ s then d.1 * 2 ^ s.toNat else d.1.fdiv (2 ^ (-s).toNat : Nat)

/-- The sum of dyadic terms, each truncated 40 bits below the largest term's exponent; an exact zero sum is 0. -/
def truncSum (ds : List (Int × Int)) : Int × Int :=
  let nz := ds.filter fun d => d.1 != 0
  match nz with
  | [] => (0, 0)
  | d :: r =>
    let w := r.foldl (fun a x => max a (dyExp x)) (dyExp d) - 40
    (nz.foldl (fun a x => a + truncAt x w) 0, w)

/-- Scale `j` of a list, 1 where there is none. -/
def scaleAt (ss : List Num) (j : Nat) : Num := ss.getD j (.fin false 1 0)

/-- The value t of one stationary row against a weight row (R107), as FP32 bits: `g` elements a group, streamed scales per
group, stationary scales per 32 elements. -/
def dotFloat (g : Nat) (as_ ws sw sa : List Num) : Nat :=
  let ps := List.zipWith (fun a w => (numMul a w).1) as_ ws
  let pos := ps.any fun p => p == .inf false
  let neg := ps.any fun p => p == .inf true
  if ps.any Num.isNaN || (pos && neg) || sw.any Num.isNaN || sa.any Num.isNaN then canonNaN32
  else if pos then 0x7F800000
  else if neg then 0xFF800000
  else
    let sums := (List.range (128 / g)).map fun j =>
      let s := truncSum (((ps.drop (j * g)).take g).map Num.dy)
      let w := (scaleAt sw j).dy
      let a := (scaleAt sa (j * g / 32)).dy
      (s.1 * w.1 * a.1, s.2 + w.2 + a.2)
    let t := truncSum sums
    (rnd32 (Num.ofDyadic t.1 t.2)).1

/-- The accumulator entry after t is added (R107). -/
def accFloat (acc t : Nat) : Nat := (rndOp (numAdd (dec32 acc) (dec32 t))).1

/-- The integer sum of products (R108). -/
def dotInt (as_ ws : List Int) : Int := (List.zipWith (· * ·) as_ ws).foldl (· + ·) 0

/-- The INT32 entry after the sum is added, and whether it saturated (R108). -/
def accInt (acc : Nat) (s : Int) : Nat × Bool := let r := sat32 (signedCode 32 acc + s); (r.1, r.2 != 0)

end Sys2Proof.Machine
end

