-- ==== Sys2Proof/Machine/Arrays.lean ====
section
/-!
DEFINITION. The matrix arrays at work (04_arrays.md): OPEN, LOAD, STREAM, SEAL, rows, faults, service.
-/

namespace Sys2Proof.Machine

/-! ## Codes (R131) -/

def Ma.PLANE_EMPTY : Nat := 1
def Ma.PLANE_FOREIGN : Nat := 2
def Ma.ACC_RANGE : Nat := 3
def Ma.FORMAT_PAIR : Nat := 4
def Ma.SRC_REGION : Nat := 5
def Ma.ACC_ECC : Nat := 6
def Ma.PLANE_ECC : Nat := 7
def Ma.ARRAY_HW : Nat := 8

/-- The sources of LOAD and STREAM (R130). -/
def arrayRegion (r : Region) : Bool :=
  match r with
  | .hbm _ _ | .ddr _ | .scr _ _ => true
  | _ => false

/-- The command an array runs, if it is the opcode `op`. -/
def State.arrayFront (s : State) (d : Die) (m : Fin 8) (op : Nat) : Option (Cx × Flight) :=
  match s.front d m.val with
  | some p => if p.2.cmd.isArray op then some p else none
  | none => none

/-- Cycles an array waits without issuing a row, one for each step that waits (R138). -/
def State.maStall (s : State) (d : Die) (m : Fin 8) : State := s.count (R.MA_CYC_STALL d m) 1

/-- With MA_CFG.CRC_CHECK = 1, tensor blocks read are verified (R129). -/
def State.maCheck (s : State) (d : Die) (m : Fin 8) : Bool := s.flag (R.MA_CFG d m) F.MA_CFG.CRC_CHECK

/-- A run read for an array command's element, with the checks of R129: the bytes and their sectors, or a stop. -/
def State.arrayRead (d : Die) (c : Cx) (m : Fin 8) (slot : Nat) (p : Port) (va n : Nat) (s : State) : Option (List Byte × Bool) × State :=
  match (s.cx d c).flight slot with
  | none => (none, s)
  | some f =>
    match State.readRun d c f p va n s with
    | (.ok l, s1) =>
      let bs := runBytes va n l
      let bad := l.any (·.poison)
      if s1.maCheck d m then
        match s1.noteRun l va bs f with
        | (_, some b) => (none, s1.flightFault d c slot St.CRC_MISMATCH b 0)
        | (g, none) => (some (bs, bad), s1.setFlight d c slot fun _ => g)
      else (some (bs, bad), s1)
    | (r, s1) => (none, s1.ioStop d c f r)

/-- An array command ends: what it used unverified is counted (R129). -/
def State.arrayEnd (s : State) (d : Die) (c : Cx) (m : Fin 8) (slot : Nat) : State :=
  let n := match (s.cx d c).flight slot with
    | some f => f.unverified
    | none => 0
  ((if n = 0 then s else s.count (R.MA_CRC_UNVERIFIED d m) n).workDone d c slot).maShow d m

/-! ## OPEN (R110, R112, R115) -/

/-- OPEN claims and clears its slots, or waits while one is locked. -/
def openGroup (d : Die) (m : Fin 8) (s : State) : State :=
  match s.arrayFront d m 1 with
  | some (c, f) =>
    let base := f.cmd.w2.get 4 0
    let n := f.cmd.w2.get 10 5
    if (List.range n).any (fun i => s.slotLocked d m (base + i)) then s.maStall d m
    else
      let a := (s.arr d m).clearSlots base n
      let g : Group := { cx := c.val, base := base, count := n, accInt := f.cmd.w2.bit 11, part := f.cmd.part, epoch := f.inst, activeAtOpen := s.maActive d m }
      let ints := if f.cmd.w2.bit 11 then a.ints ++ (List.range n).map (base + ·) else a.ints
      ((s.setArr d m { a with group := some g, ints := ints, p0 := { a.p0 with inGroup := false }, p1 := { a.p1 with inGroup := false } }).workDone d c f.slot).maShow d m
  | none => s

/-- OPEN (R110). -/
def execOpenGroup (d : Die) (m : Fin 8) (s : State) : Host.Outcome State Fault Refusal := s.whileOn (openGroup d m s)

/-! ## LOAD (R98, R100, R106, R116) -/

/-- Row size of a format: 128 elements. -/
def rowBytes (fmt : Nat) : Nat := fmtBytes fmt 128

/-- A LOAD's row count, format, row address, and scale address. -/
def Cmd.loadRows (k : Cmd) : Nat := k.w3.get 6 0 + 1
def Cmd.loadFmt (k : Cmd) : Nat := k.w3.get 10 7
def Cmd.loadScaled (k : Cmd) : Bool := k.w3.bit 11
def Cmd.loadRow (k : Cmd) (r : Nat) : Nat :=
  k.w2.get 56 0 + r * (if k.w3.get 31 12 = 0 then rowBytes k.loadFmt else k.w3.get 31 12)
def Cmd.loadScale (k : Cmd) (r : Nat) : Nat :=
  ((k.w2.get 56 0 : Int) + (BitVec.ofNat 32 (k.w3.get 63 32)).toInt + 4 * r).toNat % 2 ^ 57

/-- The runs a LOAD reads. -/
def Cmd.loadRuns (k : Cmd) : List (Nat × Nat) :=
  (List.range k.loadRows).map (fun r => (k.loadRow r, rowBytes k.loadFmt)) ++
    (if k.loadScaled then (List.range k.loadRows).map fun r => (k.loadScale r, 4) else [])

def loadPort (m : Fin 8) : Port := { stream := arrayStream m.val 0, allow := arrayRegion, code := Ma.SRC_REGION }
def streamPort (m : Fin 8) : Port := { stream := arrayStream m.val 1, allow := arrayRegion, code := Ma.SRC_REGION, weights := true }
def scalePort (m : Fin 8) : Port := { stream := arrayStream m.val 2, allow := arrayRegion, code := Ma.SRC_REGION }

/-- A row put in a plane. -/
def Plane.addRow (p : Plane) (codes scales : List Nat) (bad : Bool) : Plane :=
  { p with rows := p.rows ++ [codes], scales := if scales = [] then p.scales else p.scales ++ [scales], poison := p.poison || bad }

/-- Rows of a LOAD from row `i` on, `fuel` of them; it stops at a row that faults or waits (R80). -/
def State.loadFrom (d : Die) (c : Cx) (m : Fin 8) (slot : Nat) (k : Cmd) (sh : Nat) : Nat → Nat → State → State
  | 0, _, s =>
    let a := s.arr d m
    ((s.setArr d m (a.setPlane sh { a.plane sh with valid := true, taken := false })).maShow d m).arrayEnd d c m slot
  | fuel + 1, i, s =>
    match State.arrayRead d c m slot (loadPort m) (k.loadRow i) (rowBytes k.loadFmt) s with
    | (none, s1) => s1
    | (some (bs, bad), s1) =>
      let (sc, s2) := if k.loadScaled then State.arrayRead d c m slot (scalePort m) (k.loadScale i) 4 s1 else (some ([], false), s1)
      match sc with
      | none => s2
      | some (ss, bad') =>
        let a := s2.arr d m
        let q := (a.plane sh).addRow (unpackBits (fmtBits k.loadFmt) 128 bs) (ss.map BitVec.toNat) (bad || bad')
        State.loadFrom d c m slot k sh fuel (i + 1) ((s2.setArr d m (a.setPlane sh q)).setFlight d c slot fun g => { g with prog := i + 1 })

/-- LOAD writes the shadow plane. -/
def load (d : Die) (m : Fin 8) (s : State) : State :=
  match s.arrayFront d m 2 with
  | some (c, f) =>
    let k := f.cmd
    let sh := 1 - s.maActive d m
    if k.loadScaled && isIntFmt k.loadFmt then s.engFault d c f Ma.FORMAT_PAIR 0
    else
      match s.badRegion d c (loadPort m) false k.loadRuns with
      | some va => s.engFault d c f Ma.SRC_REGION va
      | none =>
        let a := s.arr d m
        let s1 := if f.prog = 0 then (s.setArr d m (a.setPlane sh { fmt := k.loadFmt, tag := c.val, inGroup := f.inGroup })).maShow d m else s
        State.loadFrom d c m f.slot k sh (k.loadRows - f.prog) f.prog s1
  | none => s

/-- LOAD (R98). -/
def execLoad (d : Die) (m : Fin 8) (s : State) : Host.Outcome State Fault Refusal := s.whileOn (load d m s)

/-! ## STREAM (R101-R106, R117) -/

def Cmd.strRows (k : Cmd) : Nat := k.w3.get 11 0 + 1
def Cmd.strCol (k : Cmd) : Nat := k.w3.get 23 12
def Cmd.strFmt (k : Cmd) : Nat := k.w3.get 27 24
def Cmd.strScales (k : Cmd) : Nat := k.w3.get 29 28
def Cmd.strSwap (k : Cmd) : Bool := k.w2.bit 57
def Cmd.strOff (k : Cmd) (r : Nat) : Bool := (k.w3.get 37 30).testBit (r / 16)
def Cmd.strRow (k : Cmd) (i : Nat) : Nat :=
  k.w2.get 56 0 + i * (if k.w3.get 57 38 = 0 then rowBytes k.strFmt else k.w3.get 57 38)
/-- Bytes of a row's scales: four E8M0 or eight UE4M3. -/
def Cmd.strScaleBytes (k : Cmd) : Nat := if k.strScales = 1 then 4 else 8
def Cmd.strScale (k : Cmd) (i : Nat) : Nat := (k.argB.get 56 0 + i * k.argA) % 2 ^ 57

/-- The runs a STREAM reads. -/
def Cmd.strRuns (k : Cmd) : List (Nat × Nat) :=
  (List.range k.strRows).map (fun i => (k.strRow i, rowBytes k.strFmt)) ++
    (if k.strScales = 0 then [] else (List.range k.strRows).map fun i => (k.strScale i, k.strScaleBytes))

/-- The accepted pairs (R104). -/
def pairOk (sf wf : Nat) : Bool :=
  if isIntFmt sf then isIntFmt wf || wf == Fmt.T5 else !isIntFmt wf

/-- Why a STREAM faults before any row, if it does (R100-R104, R106, R124). -/
def streamFault (a : ArraySt) (act : Nat) (c : Nat) (k : Cmd) : Option Nat :=
  let p := a.plane (if k.strSwap then 1 - act else act)
  match a.group with
  | none => some Ma.ACC_RANGE
  | some g =>
    if k.strCol < 128 * g.base ∨ 128 * (g.base + g.count) < k.strCol + k.strRows then some Ma.ACC_RANGE
    else if !p.valid then some Ma.PLANE_EMPTY
    else if p.tag ≠ c then some Ma.PLANE_FOREIGN
    else if !pairOk p.fmt k.strFmt ∨ isIntFmt p.fmt ≠ g.accInt ∨ (k.strScales ≠ 0 ∧ isIntFmt p.fmt = true) then some Ma.FORMAT_PAIR
    else none

/-- STREAM starts: its checks, then the exchange of planes; its rows follow by ROW_ISSUE. -/
def stream (d : Die) (m : Fin 8) (s : State) : State :=
  match s.arrayFront d m 3 with
  | some (c, f) =>
    if f.phase ≠ .issued then s
    else
      let k := f.cmd
      match streamFault (s.arr d m) (s.maActive d m) c.val k with
      | some code => s.engFault d c f code 0
      | none =>
        match s.badRegion d c (streamPort m) false k.strRuns with
        | some va => s.engFault d c f Ma.SRC_REGION va
        | none =>
          let s1 := if k.strSwap then s.setFld (R.MA_STATUS d m) F.MA_STATUS.ACTIVE (1 - s.maActive d m) else s
          (s1.setFlight d c f.slot fun g => { g with phase := .running }).maShow d m
  | none => s

/-- STREAM (R101). -/
def execStream (d : Die) (m : Fin 8) (s : State) : Host.Outcome State Fault Refusal := s.whileOn (stream d m s)

/-! ## ROW_ISSUE (R97, R107, R108, R113, R265) -/

/-- The codes of stationary row `r`: rows not loaded are zero (R98). -/
def Plane.row (p : Plane) (r : Nat) : List Nat := p.rows.getD r (List.replicate 128 0)

/-- The new 32-bit entry for one stationary row, and whether it saturated (R107, R108). -/
def rowEntry (p : Plane) (k : Cmd) (r old : Nat) (ws sw : List Num) : Nat × Bool :=
  let as_ := (p.row r).map (decodeNum p.fmt)
  if isIntFmt p.fmt then accInt old (dotInt (as_.map fun x => x.dy.1) (ws.map fun x => x.dy.1))
  else
    let sa := (p.scales.getD r []).map (decodeNum Fmt.E8M0)
    (accFloat old (dotFloat (if k.strScales = 2 then 16 else 32) as_ ws sw sa), false)

/-- A weight row entered in column `col` for every row not masked. -/
def ArraySt.addColumn (a : ArraySt) (p : Plane) (k : Cmd) (col : Nat) (ws sw : List Num) : ArraySt :=
  (List.range 128).foldl (fun b r =>
    if k.strOff r then b
    else
      let q := rowEntry p k r (Sparse.get 0 (4096 * r + col) b.acc) ws sw
      let slot := col / 128
      { b with acc := Sparse.set (4096 * r + col) q.1 b.acc, sat := if q.2 && !b.sat.contains slot then slot :: b.sat else b.sat }) a

/-- Rows an array issues in one AC cycle (R103). -/
def rowsPerCycle (sf wf : Nat) : Nat :=
  if wf = Fmt.T5 then 4 else if (wf = Fmt.E2M1 ∨ wf = Fmt.INT4) ∧ fmtBits sf = 8 then 2 else 1

/-- A correctable error of an accumulator pair (R113): recorded once per slot per span. -/
def State.accCe (s : State) (d : Die) (m : Fin 8) (slot : Nat) : State :=
  let a := s.arr d m
  if a.ceNoted.contains slot then s
  else (s.setArr d m { a with ceNoted := slot :: a.ceNoted }).raise
    { status := St.ACC_CE, sev := Sev.CORRECTED, kind := Uk.ARRAY, die := d.val, index := m.val, arg0 := BitVec.ofNat 64 slot }

/-- Has a stream updated an entry of the slot's column that the row would read? Only those are checked (R113). -/
def ArraySt.updated (a : ArraySt) (slot : Nat) : Bool := a.acc.any fun p => p.1 % 4096 / 128 == slot

/-- The row's bytes taken into the accumulator. -/
def State.rowTake (s : State) (d : Die) (c : Cx) (m : Fin 8) (f : Flight) (bs ss : List Byte) (bad : Bool) : State :=
  let k := f.cmd
  let a := s.arr d m
  let p := a.plane (s.maActive d m)
  let ws := (readNums k.strFmt 128 bs).1
  let sw := ss.map fun b => decodeNum (if k.strScales = 1 then Fmt.E8M0 else Fmt.UE4M3) b.toNat
  let col := k.strCol + f.prog
  let b := a.addColumn p k col ws sw
  let pz := (bad || p.poison) && !b.poison.contains (col / 128)
  let s1 := s.setArr d m { b with p0 := { b.p0 with taken := true }, p1 := { b.p1 with taken := true }, poison := if pz then col / 128 :: b.poison else b.poison, rimeRun := 0 }
  let s2 := (s1.count (R.MA_ROWS d m) 1).setFld (R.MA_STATUS d m) F.MA_STATUS.RIME 0
  let s3 := if f.prog % rowsPerCycle p.fmt k.strFmt = 0 then s2.count (R.MA_CYC_BUSY d m) 1 else s2
  let s4 := s3.setFlight d c f.slot fun g => { g with prog := f.prog + 1, held := none }
  if f.prog + 1 = k.strRows then s4.arrayEnd d c m f.slot else s4

/-- One row of the running STREAM. -/
def rowIssue (d : Die) (m : Fin 8) (ecc : ArrayEcc) (s : State) : State :=
  match s.arrayFront d m 3 with
  | some (c, f) =>
    if f.phase ≠ .running then s
    else
      let k := f.cmd
      let hit := fun (slot : Nat) => slot == (k.strCol + f.prog) / 128 && (s.arr d m).updated slot
      let fatal : Option Nat := match ecc with
        | .accUncorrectable slot => if hit slot then some Ma.ACC_ECC else none
        | .planeUncorrectable => some Ma.PLANE_ECC
        | _ => none
      match fatal with
      | some code =>
        let act := s.maActive d m
        let s1 := if code = Ma.PLANE_ECC then s.setArr d m ((s.arr d m).setPlane act {}) else s
        (s1.engFault d c f code 0).maShow d m
      | none =>
        let s0 := match ecc with
          | .accCorrectable slot => if hit slot then s.accCe d m slot else s
          | _ => s
        match State.arrayRead d c m f.slot (streamPort m) (k.strRow f.prog) (rowBytes k.strFmt) s0 with
        | (none, s1) => s1.maStall d m
        | (some (bs, bad), s1) =>
          let (sc, s2) := if k.strScales = 0 then (some ([], false), s1) else State.arrayRead d c m f.slot (scalePort m) (k.strScale f.prog) k.strScaleBytes s1
          match sc with
          | none => s2.maStall d m
          | some (ss, bad') => s2.rowTake d c m f bs ss (bad || bad')
  | none => s

/-- ROW_ISSUE (R97). -/
def execRowIssue (d : Die) (m : Fin 8) (ecc : ArrayEcc) (s : State) : Host.Outcome State Fault Refusal := s.whileOn (rowIssue d m ecc s)

/-! ## SEAL (R111, R118) -/

/-- SEAL with DISCARD releases the group's slots; else its entries follow by SPINE_PUSH. -/
def sealGroup (d : Die) (m : Fin 8) (s : State) : State :=
  match s.arrayFront d m 4 with
  | some (c, f) =>
    if f.phase ≠ .issued then s
    else if f.cmd.w2.bit 16 then
      match (s.arr d m).group with
      | some g => ((s.setArr d m { ((s.arr d m).clearSlots g.base g.count) with group := none }).workDone d c f.slot).maShow d m
      | none => s.workDone d c f.slot
    else s.setFlight d c f.slot fun h => { h with phase := .running }
  | none => s

/-- SEAL (R111). -/
def execSeal (d : Die) (m : Fin 8) (s : State) : Host.Outcome State Fault Refusal := s.whileOn (sealGroup d m s)

/-- The next entry of a running SEAL pushed, if the spine has room; the last ends it (R111). -/
def State.sealPush (s : State) (d : Die) (c : Cx) (m : Fin 8) (f : Flight) (g : Group) : State :=
  let a := s.arr d m
  if 16 ≤ a.spine.length then (s.count (R.SPN_CYC_FULL d m) 1).maStall d m
  else
    let slot := g.base + f.prog
    let live := match g.epoch with
      | some (e, i) => if s.epInst e = i then some (e, i) else none
      | none => none
    let ent : SpnEnt := { array := m.val, slot := slot, sat := a.sat.contains slot, poison := a.poison.contains slot, accInt := g.accInt, epochEn := live.isSome, epoch := (live.getD (0, 0)).1, inst := (live.getD (0, 0)).2, part := g.part, owner := g.cx, tag := f.cmd.w2.get 15 0 }
    let s1 := (s.spnPush d m ent).setFlight d c f.slot fun h => { h with prog := f.prog + 1 }
    if f.prog + 1 = g.count then ((s1.setArr d m { s1.arr d m with group := none }).workDone d c f.slot).maShow d m else s1

/-! ## Slots (R164) -/

/-- A slot whose tile has been read is released. -/
def slotRelease (d : Die) (m : Fin 8) (i : Fin 32) (s : State) : State :=
  let a := s.arr d m
  if a.readOut.contains i.val then (s.setArr d m { a with readOut := a.readOut.filter (· != i.val) }).lockSlot d m i false else s

/-- SLOT_RELEASE (R164). -/
def execSlotRelease (d : Die) (m : Fin 8) (i : Fin 32) (s : State) : Host.Outcome State Fault Refusal := s.whileOn (slotRelease d m i s)

/-! ## Service (R132, R137) -/

/-- A write of an engine's CTL with both bits set is refused with its record; else each acts. -/
def engCtl (o status : Nat) (bit : Nat) (act : State → State) (v : Word) (s : State) : State :=
  if v.get 1 0 = 3 then s.raiseReg status o
  else if v.bit bit then act s
  else s

/-- An engine asked to leave service. -/
def State.engOffline (s : State) (d : Die) (u : Nat) : State := (s.setEng d u { s.eng1 d u with offReq := true }).leaveIfIdle d u

/-- Does an engine's fault register hold a hardware failure, `code`? -/
def State.engBroken (s : State) (o code : Nat) : Bool := s.flag o F.MA_FAULT.VALID && s.fld o F.MA_FAULT.CODE == code

/-- MA_OFFLINE (R132). -/
def execMaOffline (w : RegW) (d : Die) (m : Fin 8) (s : State) : Host.Outcome State Fault Refusal :=
  s.whileOn (s.onWrite w (R.MA_CTL d m) (engCtl (R.MA_CTL d m) St.MA_CTL_REFUSED 0 fun t => t.engOffline d m.val))

/-- An array returned to service: planes empty, slots free. -/
def State.maReturn (s : State) (d : Die) (m : Fin 8) : State :=
  let a := s.arr d m
  let s1 := s.setArr d m { ({} : ArraySt) with spine := a.spine.filter (·.marker), nextPlace := a.nextPlace, ceNoted := a.ceNoted }
  (((s1.setFld (R.MA_STATUS d m) F.MA_STATUS.SLOT_LOCKED 0).setFld (R.MA_STATUS d m) F.MA_STATUS.ACTIVE 0).setEngIn d m.val true).maShow d m |>.spnShow d m

/-- MA_CTL.ONLINE: refused after ARRAY_HW. -/
def maOnline (d : Die) (m : Fin 8) (s : State) : State :=
  if s.engBroken (R.MA_FAULT d m) Ma.ARRAY_HW then s.raiseReg St.MA_CTL_REFUSED (R.MA_CTL d m)
  else
    let s1 := s.setEng d m.val { s.eng1 d m.val with offReq := false }
    if s1.engIn d m.val then s1 else s1.maReturn d m

/-- MA_ONLINE (R132). -/
def execMaOnline (w : RegW) (d : Die) (m : Fin 8) (s : State) : Host.Outcome State Fault Refusal :=
  s.whileOn (s.onWrite w (R.MA_CTL d m) (engCtl (R.MA_CTL d m) St.MA_CTL_REFUSED 1 (maOnline d m)))

/-- An engine fails: it leaves service with a FATAL_UNIT record naming it; the command it runs ends with the code (R131). -/
def State.engHw (s : State) (d : Die) (u code kind index : Nat) : State :=
  let s1 := match s.front d u with
    | some (c, f) => s.engFault d c f code 0
    | none => s.engNote d u code 0 0 0
  let s2 := ((s1.setEngIn d u false).setEng d u { s1.eng1 d u with offReq := false }).engShow d u
  s2.raise { status := St.ENGINE_FAULT, sev := Sev.FATAL_UNIT, detail := code, kind := kind, die := d.val, index := index }

/-- ARRAY_HW (R131). -/
def execArrayHw (d : Die) (m : Fin 8) (s : State) : Host.Outcome State Fault Refusal :=
  s.whileOn (if s.engIn d m.val then s.engHw d m.val Ma.ARRAY_HW Uk.ARRAY m.val else s)

end Sys2Proof.Machine
end

