-- ==== Sys2Proof/Machine/Vector.lean ====
section
/-!
DEFINITION. The vector engines at work (06_spine_vector.md): elementwise operations and reductions over the scratchpad window,
TRANSPOSE, SETLOOP, TILE and MARK, checksums, faults, service.
-/

namespace Sys2Proof.Machine

/-! ## Codes (R190) -/

def Vc.VE_RANGE : Nat := 1
def Vc.VE_OVERLAP : Nat := 2
def Vc.TILE_POISON : Nat := 3
def Vc.DST_REGION : Nat := 4
def Vc.SCR_ECC : Nat := 5
def Vc.VE_HW : Nat := 6

/-- The command a vector engine runs, if it is the opcode `op`. -/
def State.veFront (s : State) (d : Die) (v : Fin 8) (op : Nat) : Option (Cx × Flight) :=
  match s.front d (8 + v.val) with
  | some p => if p.2.cmd.kind = 1 ∧ p.2.cmd.op = op then some p else none
  | none => none

/-! ## The scratchpad window (R168, R172, R187, R189, R198) -/

/-- The physical address of an offset of a partition's window. -/
def State.winAddr (s : State) (d : Die) (part off : Nat) : Nat :=
  0x7D000000000000 + d.val * 0x100000000 + s.fld (R.SCR_WIN d part) F.SCR_WIN.BASE_MIB * 0x100000 + off

/-- Does a range of the window lie wholly in it? -/
def State.inWin (s : State) (d : Die) (part : Nat) (r : Nat × Nat) : Bool :=
  decide (r.1 + r.2 ≤ s.fld (R.SCR_WIN d part) F.SCR_WIN.SIZE_MIB * 0x100000)

/-- A sector of a die's scratchpad as its engines see it: with writes its contexts have sent and no bank has taken (R173). -/
def State.scrSector (s : State) (d : Die) (line : Nat) : List Byte :=
  (s.mem.wrs.filter fun w => w.src.die == some d && w.addr == line && w.stage == .sent && w.crc == none).foldl
    (fun x w => overlay w.mask 0 x w.data) (s.cells line 64)

/-- `n` bytes of a partition's window. -/
def State.winRead (s : State) (d : Die) (part off n : Nat) : List Byte :=
  let a := s.winAddr d part off
  let l := (List.range (sectorCount a n)).flatMap fun i => s.scrSector d (a / 64 * 64 + 64 * i)
  (l.drop (a % 64)).take n

/-- The first window offset of the ranges that lies in a line with an uncorrectable error (R189). -/
def State.winBad (s : State) (d : Die) (part : Nat) (rs : List (Nat × Nat)) : Option Nat :=
  rs.findSome? fun r =>
    let a := s.winAddr d part r.1
    ((List.range (sectorCount a r.2)).find? fun i => s.mem.scrPoison.contains (a / 64 * 64 + 64 * i)).map fun i => r.1 + 64 * i

/-- Bytes written to the window by a flight, line by line. -/
def State.winWrite (d : Die) (c : Cx) (f : Flight) (part elem : Nat) : Nat → Nat → List Byte → State → State
  | 0, _, _, s => s
  | fuel + 1, off, bs, s =>
    if bs = [] then s
    else
      let a := s.winAddr d part off
      let n := 64 - a % 64
      State.winWrite d c f part elem fuel (off + n) (bs.drop n) (s.writeSec d c f elem (a / 64 * 64) a (a % 64) (bs.take n) false false)

/-- Bytes put at a window offset. -/
def State.winPut (s : State) (d : Die) (c : Cx) (f : Flight) (elem off : Nat) (bs : List Byte) : State :=
  State.winWrite d c f f.cmd.part elem (bs.length / 64 + 2) off bs s

/-- What the scratchpad's code finds on a read (R189). -/
def State.scrFind (s : State) (d : Die) (x : ScrFinding) : State :=
  let line := 0x7D000000000000 + d.val * 0x100000000 + x.offset % 0x10000000 / 64 * 64
  match x.kind with
  | .correctable => s.count (R.SCR_ECC_CE d) 1
  | .uncorrectable =>
    if s.mem.scrPoison.contains line then s
    else (({ s with mem := { s.mem with scrPoison := line :: s.mem.scrPoison } }).count (R.SCR_ECC_UE d) 1).raise
      { status := St.SCR_UE, sev := Sev.DEFERRED, kind := Uk.DIE, die := d.val, index := d.val, addr := line, phys := true, hasAddr := true }

def State.scrAll (s : State) (d : Die) (xs : List ScrFinding) : State := xs.foldl (fun t x => t.scrFind d x) s

/-- Two ranges meet. -/
def rangesMeet (a b : Nat × Nat) : Bool := decide (a.1 < b.1 + b.2) && decide (b.1 < a.1 + a.2)

/-- Does the destination overlap a source other than exactly, in one format (R172)? A range comes with its format. -/
def badOverlap (dst src : (Nat × Nat) × Nat) : Bool := rangesMeet dst.1 src.1 && !(dst.1 == src.1 && dst.2 == src.2)

/-- The faults a command meets before it reads, in order: a range outside the window, an overlap, an uncorrectable line. -/
def State.veCheck (s : State) (d : Die) (part : Nat) (dst : (Nat × Nat) × Nat) (srcs : List ((Nat × Nat) × Nat)) (more : List (Nat × Nat)) :
    Option (Nat × Nat) :=
  match ((dst.1 :: srcs.map (·.1)) ++ more).find? fun r => !s.inWin d part r with
  | some r => some (Vc.VE_RANGE, r.1)
  | none =>
    match srcs.find? fun x => badOverlap dst x with
    | some x => some (Vc.VE_OVERLAP, x.1.1)
    | none => (s.winBad d part (srcs.map (·.1))).map fun o => (Vc.SCR_ECC, o)

/-! ## Flags and counts (R154, R194, R197) -/

def State.veFlags (s : State) (d : Die) (c : Cx) (fl : Nat) : State :=
  s.setFld (R.CX_VE_FLAGS d c) F.CX_VE_FLAGS.FLAGS (s.fld (R.CX_VE_FLAGS d c) F.CX_VE_FLAGS.FLAGS ||| fl)

/-- A vector command ends: flags, elements written, cycles occupied (R186). -/
def State.veEnd (s : State) (d : Die) (c : Cx) (v : Fin 8) (slot fl elems cycles : Nat) : State :=
  ((((s.veFlags d c fl).count (R.VE_ELEMS d v) elems).count (R.VE_CYC_BUSY d v) cycles).workDone d c slot).setFlight d c slot fun g => { g with tile := none }

/-- The latency of an opcode (R186). -/
def veLatency (op : Nat) : Nat :=
  if op = opFMA then 20 else if op = opRECIP ∨ op = opRSQRT then 26 else if op = opSEXP ∨ op = opGELU ∨ op = opSILU then 30
  else if 0x30 ≤ op ∧ op ≤ 0x32 then 24 else if op = 2 ∨ op = 3 then 4 else if op = 1 then 40 else 18

/-! ## The stream operations (R168-R171, R175-R177) -/

def Cmd.veDst (k : Cmd) : Nat := k.w2.get 27 0
def Cmd.veA (k : Cmd) : Nat := k.w2.get 55 28
def Cmd.veDfmt (k : Cmd) : Nat := k.w2.get 59 56
def Cmd.veAfmt (k : Cmd) : Nat := k.w2.get 63 60
def Cmd.veB (k : Cmd) : Nat := k.w3.get 27 0
def Cmd.veBfmt (k : Cmd) : Nat := k.w3.get 31 28
def Cmd.veRmode (k : Cmd) : Nat := k.w3.get 50 48
def Cmd.veSat (k : Cmd) : Bool := k.w3.bit 51
def Cmd.veBmode (k : Cmd) : Nat := k.w3.get 53 52
def Cmd.veQmode (k : Cmd) : Nat := k.w3.get 55 54
def Cmd.veUe (k : Cmd) : Bool := k.w3.bit 56
/-- Segment length: 0 is the whole stream. -/
def Cmd.veSeg (k : Cmd) (n : Nat) : Nat := if k.argB.get 15 0 = 0 then n else k.argB.get 15 0
def Cmd.veScale (k : Cmd) : Nat := k.argB.get 43 16

/-- The element count a command took as it issued (R170). -/
def Flight.count (f : Flight) : Nat := if f.cmd.w3.get 47 32 = 0 then f.loop else f.cmd.w3.get 47 32

/-- Is it a reduction? -/
def isReduce (op : Nat) : Bool := decide (0x30 ≤ op) && decide (op ≤ 0x32)

/-- Has the opcode an integer path (R171)? -/
def hasIntPath (op : Nat) : Bool := (decide (0x11 ≤ op) && decide (op ≤ 0x16)) || op == opRELU || isReduce op

/-- Does a command compute in integers (R171)? -/
def Cmd.intPath (k : Cmd) : Bool :=
  hasIntPath k.op && isIntFmt k.veAfmt && isIntFmt k.veDfmt && (!hasB k.op || isIntFmt k.veBfmt)

/-- How many results a stream of `n` elements gives. -/
def Cmd.results (k : Cmd) (n : Nat) : Nat := if isReduce k.op then (n + k.veSeg n - 1) / k.veSeg n else n

/-- How many elements of B a stream of `n` elements reads (R168). -/
def Cmd.bCount (k : Cmd) (n : Nat) : Nat :=
  if !hasB k.op then 0
  else if k.veBmode = 0 then n
  else if k.veBmode = 1 then 0
  else if k.veBmode = 2 then (n + k.veSeg n - 1) / k.veSeg n
  else min n (k.veSeg n)

/-- Elements of a quantisation block. -/
def Cmd.blockLen (k : Cmd) : Nat := if k.veUe then 16 else 32

/-- The window ranges of a stream command: destination, sources with their formats, scales. -/
def Cmd.dstRange (k : Cmd) (n : Nat) : (Nat × Nat) × Nat := ((k.veDst, fmtBytes k.veDfmt (k.results n)), k.veDfmt)
def Cmd.srcRanges (k : Cmd) (n : Nat) : List ((Nat × Nat) × Nat) :=
  ((k.veA, fmtBytes k.veAfmt n), k.veAfmt) ::
    ((if k.bCount n = 0 then [] else [((k.veB, fmtBytes k.veBfmt (k.bCount n)), k.veBfmt)]) ++
     (if k.op = opFMA then [((k.veDst, fmtBytes k.veDfmt n), k.veDfmt)] else []))
def Cmd.scaleRange (k : Cmd) (n : Nat) : List (Nat × Nat) :=
  if k.veQmode = 0 then [] else [(k.veScale, (k.results n + k.blockLen - 1) / k.blockLen)]

/-- An operand's value in FP32 (R171 step 1): only INT32 rounds. -/
def to32 (fmt : Nat) (x : Num) : Num × Nat := if fmt = Fmt.INT32 then ((dec32 (rnd32 x).1), (rnd32 x).2) else (x, 0)

/-- The value of b for element `i` (R168). -/
def Cmd.bAt (k : Cmd) (n i : Nat) (bs : List Num) : Num :=
  if k.veBmode = 0 then bs.getD i (.fin false 0 0)
  else if k.veBmode = 1 then (if isIntFmt k.veBfmt then .ofInt (signedCode 32 k.argA) else dec32 k.argA)
  else if k.veBmode = 2 then bs.getD (i / k.veSeg n) (.fin false 0 0)
  else bs.getD (i % k.veSeg n) (.fin false 0 0)

/-- The format the conversion of b rounds by: a scalar of an integer format is INT32. -/
def Cmd.bFmt32 (k : Cmd) : Nat := if k.veBmode = 1 then (if isIntFmt k.veBfmt then Fmt.INT32 else Fmt.FP32) else k.veBfmt

/-- The FP32 results of a stream, with flags (R171). -/
def Cmd.floatResults (k : Cmd) (n : Nat) (as_ bs cs : List Num) : List (Nat × Nat) :=
  if isReduce k.op then
    (blocksOf (k.veSeg n) as_).map fun seg =>
      let xs := seg.map (to32 k.veAfmt)
      let r := if k.op = 0x31 then floatMax (xs.map (·.1)) else floatSum (k.op == 0x32) (xs.map (·.1))
      (r.1, r.2 ||| orFlags (xs.map fun x => (0, x.2)))
  else
    (List.range n).map fun i =>
      let a := to32 k.veAfmt (as_.getD i (.fin false 0 0))
      let b := if hasB k.op then to32 k.bFmt32 (k.bAt n i bs) else (.fin false 0 0, 0)
      let c := if k.op = opFMA then to32 k.veDfmt (cs.getD i (.fin false 0 0)) else (.fin false 0 0, 0)
      let r := veFloat k.op a.1 b.1 c.1 (dec32 k.argA)
      (r.1, r.2 ||| a.2 ||| b.2 ||| c.2)

/-- The exact integer results of a stream (R171). -/
def Cmd.intResults (k : Cmd) (n : Nat) (as_ bs cs : List Num) : List Int :=
  if isReduce k.op then (blocksOf (k.veSeg n) as_).map fun seg => intReduce k.op (seg.map fun x => x.dy.1)
  else (List.range n).map fun i =>
    veInt k.op (as_.getD i (.fin false 0 0)).dy.1 (k.bAt n i bs).dy.1 (cs.getD i (.fin false 0 0)).dy.1

/-- Values converted to a destination format (R151-R156): element codes, scale codes under AUTO, flags. -/
def quantise (dfmt mode qmode : Nat) (sat ue fromInt : Bool) (given : List Nat) (xs : List Num) : List Nat × List Nat × Nat :=
  let b := if ue then 16 else 32
  if qmode = 1 then
    let ys := (blocksOf b xs).map (autoBlock dfmt mode ue)
    (ys.flatMap (·.2.1), ys.map (·.1), ys.foldl (fun a y => a ||| y.2.2) 0)
  else if qmode = 2 then
    let ys := List.zipWith (fun sc x => givenBlock dfmt mode ue sc x) given (blocksOf b xs)
    (ys.flatMap (·.1), [], ys.foldl (fun a y => a ||| y.2) 0)
  else
    let ys := xs.map (convertNum dfmt mode sat fromInt)
    (ys.map (·.1), [], orFlags ys)

/-- A stream command's results: element codes, scale codes, flags. -/
def Cmd.compute (k : Cmd) (n : Nat) (as_ bs cs : List Num) (given : List Nat) : List Nat × List Nat × Nat :=
  if k.op = 0x10 then quantise k.veDfmt k.veRmode k.veQmode k.veSat k.veUe (isIntFmt k.veAfmt) given as_
  else if k.intPath then
    let ys := (k.intResults n as_ bs cs).map (satW (fmtBits k.veDfmt))
    (ys.map (·.1), [], orFlags ys)
  else
    let rs := k.floatResults n as_ bs cs
    let q := quantise k.veDfmt k.veRmode k.veQmode k.veSat k.veUe false given (rs.map fun r => dec32 r.1)
    (q.1, q.2.1, q.2.2 ||| orFlags rs)

/-- A stream command carried out over the window. -/
def State.veStream (s : State) (d : Die) (c : Cx) (v : Fin 8) (f : Flight) (n : Nat) : State :=
  let k := f.cmd
  let rd := fun (fmt off m : Nat) => readNums fmt m (s.winRead d k.part off (fmtBytes fmt m))
  let a := rd k.veAfmt k.veA n
  let b := rd k.veBfmt k.veB (k.bCount n)
  let e := if k.op = opFMA then rd k.veDfmt k.veDst n else ([], false)
  let given := if k.veQmode = 2 then (s.winRead d k.part k.veScale ((k.results n + k.blockLen - 1) / k.blockLen)).map BitVec.toNat else []
  let (codes, scales, fl) := k.compute n a.1 b.1 e.1 given
  let s1 := s.winPut d c f 0 k.veDst (packElems k.veDfmt codes)
  let s2 := if k.veQmode = 1 then s1.winPut d c f 0 k.veScale (scales.map (BitVec.ofNat 8)) else s1
  s2.veEnd d c v f.slot (fl ||| (if a.2 || b.2 || e.2 then Flag.INVALID else 0)) codes.length ((n + 63) / 64 + veLatency k.op + (if k.veQmode = 1 then 8 else 0))

/-- A stream command of opcode `op`: its count, its checks, its work (R170, R172, R189). -/
def veRun (op : Nat) (d : Die) (v : Fin 8) (xs : List ScrFinding) (s : State) : State :=
  match s.veFront d v op with
  | some (c, f) =>
    let n := f.count
    if n = 0 then s.workDone d c f.slot
    else
      let s1 := s.scrAll d xs
      let k := f.cmd
      let given := if k.veQmode = 2 then (k.scaleRange n).map fun r => s1.winBad d k.part [r] else []
      match s1.veCheck d k.part (k.dstRange n) (k.srcRanges n) (k.scaleRange n), given with
      | some (code, off), _ => s1.engFault d c f code off
      | none, [some off] => s1.engFault d c f Vc.SCR_ECC off
      | none, _ => s1.veStream d c v f n
  | none => s

/-- CVT (R175). -/
def execCvt (d : Die) (v : Fin 8) (xs : List ScrFinding) (s : State) : Host.Outcome State Fault Refusal := s.whileOn (veRun 0x10 d v xs s)
/-- ADD (R175). -/
def execVeAdd (d : Die) (v : Fin 8) (xs : List ScrFinding) (s : State) : Host.Outcome State Fault Refusal := s.whileOn (veRun opADD d v xs s)
/-- SUB (R175). -/
def execVeSub (d : Die) (v : Fin 8) (xs : List ScrFinding) (s : State) : Host.Outcome State Fault Refusal := s.whileOn (veRun opSUB d v xs s)
/-- MUL (R175). -/
def execVeMul (d : Die) (v : Fin 8) (xs : List ScrFinding) (s : State) : Host.Outcome State Fault Refusal := s.whileOn (veRun opMUL d v xs s)
/-- FMA (R175). -/
def execVeFma (d : Die) (v : Fin 8) (xs : List ScrFinding) (s : State) : Host.Outcome State Fault Refusal := s.whileOn (veRun opFMA d v xs s)
/-- MAX (R175). -/
def execVeMax (d : Die) (v : Fin 8) (xs : List ScrFinding) (s : State) : Host.Outcome State Fault Refusal := s.whileOn (veRun opMAX d v xs s)
/-- MIN (R175). -/
def execVeMin (d : Die) (v : Fin 8) (xs : List ScrFinding) (s : State) : Host.Outcome State Fault Refusal := s.whileOn (veRun opMIN d v xs s)
/-- SEXP (R175, R177). -/
def execSexp (d : Die) (v : Fin 8) (xs : List ScrFinding) (s : State) : Host.Outcome State Fault Refusal := s.whileOn (veRun opSEXP d v xs s)
/-- RECIP (R175, R177). -/
def execRecip (d : Die) (v : Fin 8) (xs : List ScrFinding) (s : State) : Host.Outcome State Fault Refusal := s.whileOn (veRun opRECIP d v xs s)
/-- RSQRT (R175, R177). -/
def execRsqrt (d : Die) (v : Fin 8) (xs : List ScrFinding) (s : State) : Host.Outcome State Fault Refusal := s.whileOn (veRun opRSQRT d v xs s)
/-- RELU (R175). -/
def execRelu (d : Die) (v : Fin 8) (xs : List ScrFinding) (s : State) : Host.Outcome State Fault Refusal := s.whileOn (veRun opRELU d v xs s)
/-- GELU (R175, R177). -/
def execGelu (d : Die) (v : Fin 8) (xs : List ScrFinding) (s : State) : Host.Outcome State Fault Refusal := s.whileOn (veRun opGELU d v xs s)
/-- SILU (R175, R177). -/
def execSilu (d : Die) (v : Fin 8) (xs : List ScrFinding) (s : State) : Host.Outcome State Fault Refusal := s.whileOn (veRun opSILU d v xs s)
/-- RSUM (R175, R176). -/
def execRsum (d : Die) (v : Fin 8) (xs : List ScrFinding) (s : State) : Host.Outcome State Fault Refusal := s.whileOn (veRun 0x30 d v xs s)
/-- RMAX (R175). -/
def execRmax (d : Die) (v : Fin 8) (xs : List ScrFinding) (s : State) : Host.Outcome State Fault Refusal := s.whileOn (veRun 0x31 d v xs s)
/-- RSUMSQ (R175, R176). -/
def execRsumsq (d : Die) (v : Fin 8) (xs : List ScrFinding) (s : State) : Host.Outcome State Fault Refusal := s.whileOn (veRun 0x32 d v xs s)

/-! ## TRANSPOSE (R178) -/

/-- Row strides of source and destination in bytes: 0 is 128 elements of `w` bytes. -/
def Cmd.trSrc (k : Cmd) (w : Nat) : Nat := if k.argA % 2 ^ 20 = 0 then 128 * w else k.argA % 2 ^ 20
def Cmd.trDst (k : Cmd) (w : Nat) : Nat := if k.argB.get 19 0 = 0 then 128 * w else k.argB.get 19 0

/-- The bytes of destination row `128 t + c` of a band: the elements of source column c of block t. -/
def transRow (w : Nat) (src : List (List Byte)) (j : Nat) : List Byte := src.flatMap fun row => (row.drop (j * w)).take w

/-- TRANSPOSE over a count of `n` blocks. -/
def State.veTranspose (s : State) (d : Die) (c : Cx) (v : Fin 8) (f : Flight) (n w : Nat) : State :=
  let k := f.cmd
  let src := (List.range 128).map fun r => s.winRead d k.part (k.veA + r * k.trSrc w) (128 * n * w)
  let s1 := (List.range (128 * n)).foldl (fun t j => t.winPut d c f 0 (k.veDst + j * k.trDst w) (transRow w src j)) s
  s1.veEnd d c v f.slot 0 (128 * 128 * n) ((128 * 128 * n * w + 255) / 256 + 18)

/-- TRANSPOSE: its checks over the whole extent of both bands. -/
def transpose (d : Die) (v : Fin 8) (xs : List ScrFinding) (s : State) : State :=
  match s.veFront d v 0x40 with
  | some (c, f) =>
    let n := f.count
    let k := f.cmd
    let w := fmtBits k.veAfmt / 8
    if n = 0 then s.workDone d c f.slot
    else
      let s1 := s.scrAll d xs
      let src := ((k.veA, 127 * k.trSrc w + 128 * n * w), k.veAfmt)
      let dst := ((k.veDst, (128 * n - 1) * k.trDst w + 128 * w), k.veDfmt)
      match s1.veCheck d k.part dst [src] [] with
      | some (code, off) => s1.engFault d c f code off
      | none => s1.veTranspose d c v f n w
  | none => s

/-- TRANSPOSE (R178). -/
def execTranspose (d : Die) (v : Fin 8) (xs : List ScrFinding) (s : State) : Host.Outcome State Fault Refusal := s.whileOn (transpose d v xs s)

/-! ## SETLOOP and MARK (R163, R175) -/

/-- SETLOOP: an immediate, or a word of the window. -/
def setloop (d : Die) (v : Fin 8) (xs : List ScrFinding) (s : State) : State :=
  match s.veFront d v 3 with
  | some (c, f) =>
    let k := f.cmd
    if k.w2.bit 32 then
      let s1 := s.scrAll d xs
      let off := k.w3.get 27 0
      if !s1.inWin d k.part (off, 4) then s1.engFault d c f Vc.VE_RANGE off
      else match s1.winBad d k.part [(off, 4)] with
        | some o => s1.engFault d c f Vc.SCR_ECC o
        | none => (s1.setFld (R.CX_VE_LOOP d c) F.CX_VE_LOOP.LOOP (leNat (s1.winRead d k.part off 4))).veEnd d c v f.slot 0 0 4
    else (s.setFld (R.CX_VE_LOOP d c) F.CX_VE_LOOP.LOOP (k.w2.get 31 0)).veEnd d c v f.slot 0 0 4
  | none => s

/-- SETLOOP (R175). -/
def execSetloop (d : Die) (v : Fin 8) (xs : List ScrFinding) (s : State) : Host.Outcome State Fault Refusal := s.whileOn (setloop d v xs s)

/-- An entry for a TILE or MARK that holds none yet: taken from its spine if one fits (R163). -/
def State.takeEntry (s : State) (d : Die) (c : Cx) (f : Flight) : Option (SpnEnt × State) :=
  match f.tile with
  | some e => some (e, s)
  | none =>
    let sp := f.cmd.w2.get 63 61
    match s.spnMatch d.val sp (f.cmd.op == 2) (f.cmd.w3.get 15 0) (f.cmd.w3.get 31 16) f.cmd.part with
    | some e => some (e, (s.spnTake d.val sp e).setFlight d c f.slot fun g => { g with tile := some e })
    | none => none

/-- MARK: its entry has left the spine. -/
def mark (d : Die) (v : Fin 8) (s : State) : State :=
  match s.veFront d v 2 with
  | some (c, f) => match s.takeEntry d c f with
    | some (_, s1) => s1.veEnd d c v f.slot 0 0 4
    | none => s
  | none => s

/-- MARK (R163). -/
def execMark (d : Die) (v : Fin 8) (s : State) : Host.Outcome State Fault Refusal := s.whileOn (mark d v s)

/-! ## TILE (R180-R183) -/

def Cmd.tlDst (k : Cmd) : Nat := k.w2.get 56 0
def Cmd.tlFmt (k : Cmd) : Nat := k.w2.get 60 57
def Cmd.tlStride (k : Cmd) : Nat := if k.w3.get 51 32 = 0 then rowBytes k.tlFmt else k.w3.get 51 32
def Cmd.tlMode (k : Cmd) : Nat := k.w3.get 54 52
def Cmd.tlSat (k : Cmd) : Bool := k.w3.bit 55
def Cmd.tlQ (k : Cmd) : Nat := k.w3.get 57 56
def Cmd.tlUe (k : Cmd) : Bool := k.w3.bit 58
def Cmd.tlAct (k : Cmd) : Nat := k.w3.get 61 59
def Cmd.tlTrans (k : Cmd) : Bool := k.w3.bit 62
def Cmd.tlSp (k : Cmd) : Bool := k.w3.bit 63
def Cmd.tlBias (k : Cmd) : Nat := k.argA % 2 ^ 24 * 16
def Cmd.tlBiasEn (k : Cmd) : Bool := k.argA.testBit 24
def Cmd.tlScaleEn (k : Cmd) : Bool := k.argA.testBit 25
def Cmd.tlCscale (k : Cmd) : Nat := k.argB.get 23 0 * 16
def Cmd.tlOff (k : Cmd) (r : Nat) : Bool := (k.argB.get 31 24).testBit (r / 16)
def Cmd.tlScaleOff (k : Cmd) : Int := (BitVec.ofNat 32 (k.argB.get 63 32)).toInt

/-- The base a TILE's addresses start from: a virtual address, or a window offset. -/
def Cmd.tlBase (k : Cmd) : Nat := if k.tlSp then k.tlDst % 2 ^ 28 else k.tlDst

/-- Scales of a written row, and where they lie. -/
def Cmd.tlScaleN (k : Cmd) : Nat := if k.tlUe then 8 else 4
def Cmd.tlScaleAt (k : Cmd) (q : Nat) : Nat := ((k.tlBase : Int) + k.tlScaleOff + (k.tlScaleN * q : Nat)).toNat % 2 ^ 57

/-- The elements of written row `q` that come from tile rows not excluded: their places. -/
def Cmd.tlPlaces (k : Cmd) (q : Nat) : List Nat :=
  (List.range 128).filter fun p => !(k.tlOff (if k.tlTrans then p else q))

/-- Bytes of a written row that hold some written element: runs of (offset, length). -/
def Cmd.tlRuns (k : Cmd) (q : Nat) : List (Nat × Nat) :=
  if k.tlTrans then
    (List.range 8).filterMap fun j =>
      if k.tlOff (16 * j) then none
      else if k.tlFmt = Fmt.T5 then some (16 * j / 5, (16 * j + 15) / 5 + 1 - 16 * j / 5)
      else some (16 * j * fmtBits k.tlFmt / 8, 16 * fmtBits k.tlFmt / 8)
  else if k.tlOff q then [] else [(0, rowBytes k.tlFmt)]

/-- Is any element of the block of written row `q` written, so that it has a scale? -/
def Cmd.tlBlockOn (k : Cmd) (q j : Nat) : Bool :=
  let b := if k.tlUe then 16 else 32
  (k.tlPlaces q).any fun p => p / b == j

/-- The runs a TILE writes: rows, then scales under AUTO. -/
def Cmd.tlDest (k : Cmd) : List (Nat × Nat) :=
  (List.range 128).flatMap fun q =>
    (k.tlRuns q).map (fun r => (k.tlBase + q * k.tlStride + r.1, r.2)) ++
      (if k.tlQ = 1 then (List.range k.tlScaleN).filterMap fun j => if k.tlBlockOn q j then some (k.tlScaleAt q + j, 1) else none else [])

/-- Scales a TILE reads under GIVEN. -/
def Cmd.tlGiven (k : Cmd) : List (Nat × Nat) :=
  if k.tlQ = 2 then (List.range 128).flatMap fun q => (List.range k.tlScaleN).filterMap fun j => if k.tlBlockOn q j then some (k.tlScaleAt q + j, 1) else none
  else []

/-- One entry of the tile brought to FP32, scaled, biased and activated (R181). -/
def tileValue (k : Cmd) (isInt : Bool) (x : Nat) (cs bias : Num) : Num × Nat :=
  let v0 := if isInt then rnd32 (.ofInt (signedCode 32 x)) else (x, 0)
  let v1 := if k.tlScaleEn then (let r := rndOp (numMul (dec32 v0.1) cs); (r.1, v0.2 ||| r.2)) else v0
  let v2 := if k.tlBiasEn then (let r := rndOp (numAdd (dec32 v1.1) bias); (r.1, v1.2 ||| r.2)) else v1
  let v3 := if k.tlAct = 0 then v2
    else
      let r := if k.tlAct = 1 then rndOp (numRelu (dec32 v2.1)) else if k.tlAct = 2 then fxGelu (dec32 v2.1) else fxSilu (dec32 v2.1)
      (r.1, v2.2 ||| r.2)
  (dec32 v3.1, v3.2)

/-- A tile's entry for row r, column c. -/
def State.tileEntry (s : State) (d : Die) (e : SpnEnt) (r c : Nat) : Nat := Sparse.get 0 (4096 * r + 128 * e.slot + c) (s.arr d e.array).acc

/-- The written row `q` as values, with flags, at its places. -/
def State.tileRow (s : State) (d : Die) (e : SpnEnt) (k : Cmd) (q : Nat) (cs bs : List Num) : List (Num × Nat) :=
  (k.tlPlaces q).map fun p =>
    let r := if k.tlTrans then p else q
    let c := if k.tlTrans then q else p
    tileValue k e.accInt (s.tileEntry d e r c) (cs.getD c (.fin false 1 0)) (bs.getD c (.fin false 0 0))

/-- The codes of a written row with zero codes at places not written, its scale codes under AUTO by block, and flags. -/
def tileCodes (k : Cmd) (q : Nat) (vals : List (Num × Nat)) (given : List Nat) : List Nat × List (Nat × Nat) × Nat :=
  let at_ := (k.tlPlaces q).zip vals
  let b := if k.tlUe then 16 else 32
  let fl := vals.foldl (fun a v => a ||| v.2) 0
  let blocks := (List.range (128 / b)).filter (k.tlBlockOn q)
  let one := fun (j : Nat) =>
    let mine := at_.filter fun x => x.1 / b == j
    let y := quantise k.tlFmt k.tlMode k.tlQ k.tlSat k.tlUe false [given.getD j 0] (mine.map (·.2.1))
    ((mine.map (·.1)).zip y.1, y.2.1.map fun sc => (j, sc), y.2.2)
  let ys := blocks.map one
  let codes := ys.flatMap (·.1)
  ((List.range 128).map fun p => ((codes.find? fun x => x.1 == p).map (·.2)).getD (zeroCode k.tlFmt), ys.flatMap (·.2.1), ys.foldl (fun a y => a ||| y.2.2) fl)

/-- Is the tile copied exactly (R181)? -/
def tileExact (k : Cmd) (e : SpnEnt) : Bool := e.accInt && k.tlFmt == Fmt.INT32 && !k.tlBiasEn && !k.tlScaleEn && k.tlAct == 0

/-- The port of a TILE's destination (R182) and of the scales it reads. -/
def tilePort (v : Fin 8) : Port := { stream := veStream v.val 3, allow := arrayRegion, code := Vc.DST_REGION }
def tileScalePort (v : Fin 8) : Port := { stream := veStream v.val 2, allow := arrayRegion, code := Vc.DST_REGION }

/-- Bytes a TILE writes at an address of its destination. -/
def State.tilePut (s : State) (d : Die) (c : Cx) (v : Fin 8) (f : Flight) (runs : List (Nat × Nat)) (q at_ : Nat) (bs : List Byte) : IoRes × State :=
  if f.cmd.tlSp then (.ok [], s.winPut d c f q at_ bs) else State.writeRun d c f (tilePort v) runs q [] at_ bs s

/-- Runs of a row put one after another. -/
def State.tilePuts (d : Die) (c : Cx) (v : Fin 8) (f : Flight) (runs : List (Nat × Nat)) (q : Nat) : List (Nat × List Byte) → State → IoRes × State
  | [], s => (.ok [], s)
  | (a, bs) :: r, s =>
    match s.tilePut d c v f runs q a bs with
    | (.ok _, s1) => State.tilePuts d c v f runs q r s1
    | e => e

/-- The scales of a row under GIVEN, read from beside the destination. -/
def State.tileGiven (s : State) (d : Die) (c : Cx) (v : Fin 8) (f : Flight) (q : Nat) : IoRes × List Nat × State :=
  let k := f.cmd
  if k.tlQ ≠ 2 then (.ok [], [], s)
  else if k.tlSp then (.ok [], (s.winRead d k.part (k.tlScaleAt q) k.tlScaleN).map BitVec.toNat, s)
  else match State.readRun d c f (tileScalePort v) (k.tlScaleAt q) k.tlScaleN s with
    | (.ok l, s1) => (.ok [], (runBytes (k.tlScaleAt q) k.tlScaleN l).map BitVec.toNat, s1)
    | (r, s1) => (r, [], s1)

/-- One written row of a tile: what stops it, if anything, and its flags. -/
def State.tileRowPut (s : State) (d : Die) (c : Cx) (v : Fin 8) (f : Flight) (e : SpnEnt) (cs bs : List Num) (runs : List (Nat × Nat)) (q : Nat) : IoRes × Nat × State :=
  let k := f.cmd
  if k.tlPlaces q = [] then (.ok [], 0, s)
  else
    match s.tileGiven d c v f q with
    | (.ok _, given, s1) =>
      let (codes, scales, fl) :=
        if tileExact k e then ((List.range 128).map fun p => if k.tlTrans then s1.tileEntry d e p q else s1.tileEntry d e q p, [], 0)
        else tileCodes k q (s1.tileRow d e k q cs bs) given
      let row := packElems k.tlFmt codes
      let puts := (k.tlRuns q).map (fun r => (k.tlBase + q * k.tlStride + r.1, (row.drop r.1).take r.2)) ++ scales.map fun x => (k.tlScaleAt q + x.1, [BitVec.ofNat 8 x.2])
      let (r, s2) := State.tilePuts d c v f runs q puts s1
      (r, fl, s2)
    | (r, _, s1) => (r, 0, s1)

/-- The tile is wholly read: its slot is to be released (R164). -/
def State.tileRead (s : State) (d : Die) (c : Cx) (f : Flight) (e : SpnEnt) : State :=
  let a := s.arr d e.array
  (s.setArr d e.array { a with readOut := a.readOut ++ [e.slot] }).setFlight d c f.slot fun g => { g with tile := none }

/-- Rows of a tile from row `q` on, `fuel` of them; it stops at a row that faults or waits (R183). -/
def State.tileFrom (d : Die) (c : Cx) (v : Fin 8) (f : Flight) (e : SpnEnt) (cs bs : List Num) (runs : List (Nat × Nat)) : Nat → Nat → State → Option IoRes × State
  | 0, _, s => (none, s)
  | fuel + 1, q, s =>
    match s.tileRowPut d c v f e cs bs runs q with
    | (.ok _, fl, s1) =>
      let n := (f.cmd.tlPlaces q).length
      let s2 := ((s1.veFlags d c fl).count (R.VE_ELEMS d v) n).setFlight d c f.slot fun g => { g with prog := q + 1, held := none }
      State.tileFrom d c v f e cs bs runs fuel (q + 1) s2
    | (r, _, s1) => (some r, s1)

/-- A TILE that found an uncorrectable error in its tile (R113): a record for the array, TILE_POISON, the slot released. -/
def State.tileUe (s : State) (d : Die) (c : Cx) (f : Flight) (e : SpnEnt) : State :=
  let s1 := s.raise { status := St.ACC_UE, sev := Sev.DEFERRED, kind := Uk.ARRAY, die := d.val, index := e.array, arg0 := BitVec.ofNat 64 e.slot }
  ((s1.releaseTile d { f with tile := some e }).setFlight d c f.slot fun g => { g with tile := none }).engFault d c f Vc.TILE_POISON 0

/-- The rows of a taken tile written, its checksums, its end. -/
def State.tileWork (s : State) (d : Die) (c : Cx) (v : Fin 8) (f : Flight) (e : SpnEnt) (upTo : Nat) : State :=
  let k := f.cmd
  let g := { f with inst := if e.epochEn then some (e.epoch, e.inst) else f.inst }
  let vec := fun (en : Bool) (off : Nat) => if en then (readNums Fmt.FP32 128 (s.winRead d k.part off 512)).1 else []
  match State.tileFrom d c v g e (vec k.tlScaleEn k.tlCscale) (vec k.tlBiasEn k.tlBias) k.tlDest (upTo - f.prog) f.prog s with
  | (some r, s1) => s1.ioStop d c f r
  | (none, s1) =>
    if upTo < 128 then s1.tileUe d c f e
    else ((s1.writeCrcs d c g (tilePort v) 128).tileRead d c f e).veEnd d c v f.slot 0 0 (256 + 40)

/-- A TILE's entry taken: SAT shown, POISON refused (R166), its window operands checked, its rows written. -/
def State.tileTaken (s : State) (d : Die) (c : Cx) (v : Fin 8) (f : Flight) (e : SpnEnt) (xs : List ScrFinding) (ecc : ArrayEcc) (row : Nat) : State :=
  let k := f.cmd
  let s0 := if f.stage = 0 then
      (((if e.sat then s.veFlags d c Flag.SATURATED else s).count (R.VE_TILES d v) 1).setFlight d c f.slot fun g => { g with stage := 1 })
    else s
  if e.poison then ((s0.releaseTile d { f with tile := some e }).setFlight d c f.slot fun g => { g with tile := none }).engFault d c f Vc.TILE_POISON 0
  else
    let s1 := s0.scrAll d xs
    let dest := if k.tlSp then k.tlDest ++ k.tlGiven else []
    let srcs := (if k.tlBiasEn then [(k.tlBias, 512)] else []) ++ (if k.tlScaleEn then [(k.tlCscale, 512)] else [])
    match (dest ++ srcs).find? fun r => !s1.inWin d k.part r with
    | some r => s1.engFault d c f Vc.VE_RANGE r.1
    | none =>
      match srcs.find? fun x => dest.any fun r => rangesMeet r x with
      | some x => s1.engFault d c f Vc.VE_OVERLAP x.1
      | none =>
        match s1.winBad d k.part (srcs ++ (if k.tlSp then k.tlGiven else [])) with
        | some o => s1.engFault d c f Vc.SCR_ECC o
        | none =>
          let hit := fun (slot : Nat) => slot == e.slot && (s1.arr d e.array).updated slot
          match ecc with
          | .accCorrectable slot => (if hit slot then s1.accCe d ⟨e.array % 8, Nat.mod_lt _ (by decide)⟩ slot else s1).tileWork d c v f e 128
          | .accUncorrectable slot => s1.tileWork d c v f e (if hit slot then max f.prog (min row 127) else 128)
          | _ => s1.tileWork d c v f e 128

/-- TILE (R180): a destination outside its regions faults before the entry is taken (R182). `ecc` is what the array's code
finds in the tile, `row` the written row it is found at. -/
def tile (d : Die) (v : Fin 8) (xs : List ScrFinding) (ecc : ArrayEcc) (row : Nat) (s : State) : State :=
  match s.veFront d v 1 with
  | some (c, f) =>
    let bad := if f.cmd.tlSp then none else s.badRegion d c (tilePort v) true (f.cmd.tlDest ++ f.cmd.tlGiven)
    match bad with
    | some va =>
      let s1 := match f.tile with
        | some e => (s.spnReturn d.val e.array e).setFlight d c f.slot fun g => { g with tile := none }
        | none => s
      s1.engFault d c f Vc.DST_REGION va
    | none =>
      match s.takeEntry d c f with
      | some (e, s1) => s1.tileTaken d c v f e xs ecc row
      | none => s
  | none => s

/-- TILE (R180). -/
def execTile (d : Die) (v : Fin 8) (xs : List ScrFinding) (ecc : ArrayEcc) (row : Nat) (s : State) : Host.Outcome State Fault Refusal :=
  s.whileOn (tile d v xs ecc row s)

/-! ## Checksums (R184, R185) -/

def sumPort (v : Fin 8) : Port := { stream := veStream v.val 4, allow := Region.isMem, code := Vc.DST_REGION }

/-- The 64 sectors of a block at its home, with what a reader of an instance sees, and is one poisoned? -/
def State.homeBlock (s : State) (d : Die) (c : Cx) (inst : Option (Nat × Nat)) (key : Nat) : List Byte × Bool × State :=
  (List.range 64).foldl (fun p i =>
    let k := key + 64 * i
    let t := p.2.2.homeShare k
    (p.1 ++ t.ownOver (.cx d c) inst k (t.sectorFor inst k), p.2.1 || t.poisoned k, t)) ([], false, s)

/-- RESEAL of one block (R185, R238, R261, R265). -/
def State.resealBlock (s : State) (d : Die) (c : Cx) (f : Flight) (key : Nat) : State :=
  let (bs, bad, s1) := s.homeBlock d c f.inst key
  if bad then s1
  else match s1.writeInst f with
    | none => s1.setBlock key { s1.block key with crc := crc32c bs, unchecked := false, isOpen := false }
    | some (e, i) =>
      s1.setFirnBlock { s1.firnBlock key e i with crc := crc32c bs, unchecked := false, isOpen := false, sealed := true, resealGen := some (s1.block key).gen }

/-- CRCV of one block: the state, and is it a mismatch? -/
def State.crcvBlock (s : State) (d : Die) (c : Cx) (v : Fin 8) (f : Flight) (va : Nat) : IoRes × Bool × State :=
  match State.readRun d c f (sumPort v) va 4096 s with
  | (.ok l, s1) =>
    match l with
    | [] => (.ok [], false, s1)
    | x :: _ =>
      let w := s1.blockView f.inst x.key
      if w.2.1 then (.ok [], false, s1.count (R.VE_CRC_UNVERIFIED d v) 1)
      else (.ok [], l.any (·.poison) || crc32c (l.flatMap Sec.data) != w.2.2, s1)
  | (r, s1) => (r, false, s1)

/-- Blocks of a range from block `i` on, `fuel` of them. -/
def State.sumFrom (d : Die) (c : Cx) (v : Fin 8) (f : Flight) (verify : Bool) : Nat → Nat → State → State
  | 0, _, s => s.veEnd d c v f.slot 0 0 ((f.cmd.w3.get 39 0 + 255) / 256 + 12)
  | fuel + 1, i, s =>
    let va := f.cmd.w2.get 56 0 + 4096 * i
    let next := fun (t : State) => State.sumFrom d c v f verify fuel (i + 1) (t.setFlight d c f.slot fun g => { g with prog := i + 1, held := none })
    if verify then
      match s.crcvBlock d c v f va with
      | (.ok _, false, s1) => next s1
      | (.ok _, true, s1) => s1.flightFault d c f.slot St.CRC_MISMATCH va 0
      | (r, _, s1) => s1.ioStop d c f r
    else
      match s.translate d c (sumPort v).stream (va % 2 ^ 57) true with
      | (.wait, s1) => s1.ioStop d c f (.wait va)
      | (.fault st, s1) => s1.ioStop d c f (.fault st va 0)
      | (.ok pa, s1) =>
        let r := s1.region pa
        if s1.absent r then s1.ioStop d c f (.fault St.ABSENT va 0)
        else if s1.held r then s1.ioStop d c f (.wait va)
        else next (s1.resealBlock d c f (r.key pa / 4096 * 4096))

/-- RESEAL and CRCV: their alignment and region checks, then their blocks (R185). -/
def veSum (verify : Bool) (d : Die) (v : Fin 8) (s : State) : State :=
  match s.veFront d v (if verify then 0x51 else 0x50) with
  | some (c, f) =>
    let va := f.cmd.w2.get 56 0
    let n := f.cmd.w3.get 39 0
    if va % 4096 ≠ 0 ∨ n % 4096 ≠ 0 then s.engFault d c f Vc.VE_RANGE va
    else match s.badRegion d c (sumPort v) (!verify) [(va, n)] with
      | some a => s.engFault d c f Vc.DST_REGION a
      | none => State.sumFrom d c v f verify (n / 4096 - f.prog) f.prog s
  | none => s

/-- RESEAL (R185). -/
def execReseal (d : Die) (v : Fin 8) (s : State) : Host.Outcome State Fault Refusal := s.whileOn (veSum false d v s)
/-- CRCV (R185). -/
def execCrcv (d : Die) (v : Fin 8) (s : State) : Host.Outcome State Fault Refusal := s.whileOn (veSum true d v s)

/-! ## Service (R191, R193) -/

/-- VE_OFFLINE (R191). -/
def execVeOffline (w : RegW) (d : Die) (v : Fin 8) (s : State) : Host.Outcome State Fault Refusal :=
  s.whileOn (s.onWrite w (R.VE_CTL d v) (engCtl (R.VE_CTL d v) St.VE_CTL_REFUSED 0 fun t => t.engOffline d (8 + v.val)))

/-- An engine without contents returned to service unless it failed, `code`. -/
def State.engReturn (s : State) (d : Die) (u o code status ctl : Nat) : State :=
  if s.engBroken o code then s.raiseReg status ctl
  else (s.setEng d u { s.eng1 d u with offReq := false }).setEngIn d u true

/-- VE_ONLINE (R191). -/
def execVeOnline (w : RegW) (d : Die) (v : Fin 8) (s : State) : Host.Outcome State Fault Refusal :=
  s.whileOn (s.onWrite w (R.VE_CTL d v) (engCtl (R.VE_CTL d v) St.VE_CTL_REFUSED 1 fun t =>
    t.engReturn d (8 + v.val) (R.VE_FAULT d v) Vc.VE_HW St.VE_CTL_REFUSED (R.VE_CTL d v)))

/-- VE_HW (R190). -/
def execVeHw (d : Die) (v : Fin 8) (s : State) : Host.Outcome State Fault Refusal :=
  s.whileOn (if s.engIn d (8 + v.val) then s.engHw d (8 + v.val) Vc.VE_HW Uk.VECTOR v.val else s)

end Sys2Proof.Machine
end

