-- ==== Sys2Proof/Machine/Dma.lean ====
section
/-!
DEFINITION. The DMA engines at work (07_dma.md): COPY, FILL, DESC, completion with signal, marker and wake, faults, service.
-/

namespace Sys2Proof.Machine

/-! ## Codes (R218) -/

def Dc.DM_RANGE : Nat := 1
def Dc.DM_OVERLAP : Nat := 2
def Dc.SRC_REGION : Nat := 3
def Dc.DST_REGION : Nat := 4
def Dc.EPOCH_REGION : Nat := 5
def Dc.DESC_BAD : Nat := 6
def Dc.SCR_ECC : Nat := 7
def Dc.DM_HW : Nat := 8

/-- The command a DMA engine runs, if it is the opcode `op`. -/
def State.dmFront (s : State) (d : Die) (e : Fin 16) (op : Nat) : Option (Cx × Flight) :=
  match s.front d (16 + e.val) with
  | some p => if p.2.cmd.kind = 2 ∧ p.2.cmd.op = op then some p else none
  | none => none

def descPort (e : Fin 16) : Port := { stream := dmStream e.val 0, allow := arrayRegion, code := Dc.DESC_BAD, fresh := true }
def dsrcPort (e : Fin 16) : Port := { stream := dmStream e.val 1, allow := plainRegion, code := Dc.SRC_REGION }
def ddstPort (e : Fin 16) : Port := { stream := dmStream e.val 2, allow := plainRegion, code := Dc.DST_REGION }
def didxPort (e : Fin 16) : Port := { stream := dmStream e.val 3, allow := arrayRegion, code := Dc.SRC_REGION, fresh := true }

/-! ## Plans (R199-R204) -/

/-- The pieces of a run: cut at the 4 KiB boundaries of its destination. `fuel` pieces at most. -/
def DRun.pieces : Nat → DRun → List DItem
  | 0, _ => []
  | fuel + 1, r =>
    if r.len = 0 then []
    else
      let n := min r.len (4096 - r.dst % 4096)
      .move { r with len := n } :: DRun.pieces fuel { r with src := r.src + n, dst := r.dst + n, len := r.len - n }

/-- A run checked and moved. -/
def DRun.items (r : DRun) (overlap : Bool) : List DItem := .check r overlap :: DRun.pieces (r.len / 4096 + 2) r

/-- The run of a COPY or a FILL. -/
def Cmd.dmaRun (k : Cmd) : DRun :=
  let at_ := fun (w : Word) => if w.bit 57 then w.get 27 0 else w.get 56 0
  if k.op = 1 then { src := at_ k.w2, srcSp := k.w2.bit 57, dst := at_ k.w3, dstSp := k.w3.bit 57, len := k.argB.get 39 0, ckv := k.w2.bit 58 }
  else { src := 0, fill := some k.w3, dst := at_ k.w2, dstSp := k.w2.bit 57, len := k.argB.get 39 0 }

/-- An address formed modulo 2⁵⁷, or its window offset (R199, R204). -/
def dmaAddr (sp : Bool) (a : Int) : Nat := if sp then (a % 2 ^ 28).toNat else (a % 2 ^ 57).toNat

/-- A descriptor's eight words. -/
structure Desc where
  w : List Word
deriving DecidableEq, Repr

def Desc.word (x : Desc) (i : Nat) : Word := x.w.getD i 0
def Desc.mode (x : Desc) : Nat := (x.word 0).get 5 4
def Desc.runLen (x : Desc) : Nat := (x.word 3).get 31 0

/-- Does a descriptor break its layout (R203)? -/
def Desc.bad (x : Desc) : Bool :=
  (x.word 0).get 3 0 != 1 || x.mode == 3 || (x.word 0).get 63 10 != 0 || (x.word 1).get 63 57 != 0 || (x.word 2).get 63 57 != 0 || x.runLen == 0 || (x.word 6).get 63 57 != 0 || (x.word 7).get 63 32 != 0

/-- A signed 32-bit field. -/
def signed32 (n : Nat) : Int := (BitVec.ofNat 32 n).toInt

/-- A stride between runs: 0 is RUN (R203). -/
def Desc.stride1 (x : Desc) (i : Nat) : Int := if (x.word i).get 31 0 = 0 then x.runLen else signed32 ((x.word i).get 31 0)

/-- The run of a descriptor at signed offsets from its bases. -/
def Desc.run (x : Desc) (so do_ : Int) : DRun :=
  let ss := (x.word 0).bit 7
  let ds := (x.word 0).bit 8
  { src := dmaAddr ss (((x.word 1).get 56 0 : Int) + so), srcSp := ss, dst := dmaAddr ds (((x.word 2).get 56 0 : Int) + do_), dstSp := ds, len := x.runLen, ckv := (x.word 0).bit 9 }

/-- The runs of a strided descriptor, in the order of R204. -/
def Desc.strided (x : Desc) : List DItem :=
  (List.range ((x.word 3).get 63 48 + 1)).flatMap fun j => (List.range ((x.word 3).get 47 32 + 1)).flatMap fun i =>
    (x.run (j * signed32 ((x.word 4).get 63 32) + i * x.stride1 4) (j * signed32 ((x.word 5).get 63 32) + i * x.stride1 5)).items false

/-- The run of index `n`, whose value is `v` of `bits` bits; all ones is skipped. -/
def Desc.indexed (x : Desc) (n v bits : Nat) : List DItem :=
  if v = 2 ^ bits - 1 then [.skip]
  else if x.mode = 1 then (x.run (v * x.stride1 4) (n * x.stride1 5)).items false
  else (x.run (n * x.stride1 4) (v * x.stride1 5)).items false

/-- Indices from `n` on, `fuel` of them: their items, and where the reading stopped. -/
def State.planIdx (d : Die) (c : Cx) (f : Flight) (e : Fin 16) (i : Nat) (x : Desc) : Nat → Nat → State → List DItem × IoRes × State
  | 0, _, s => ([], .ok [], s)
  | fuel + 1, n, s =>
    let w := if (x.word 0).bit 6 then 8 else 4
    let va := ((x.word 6).get 56 0 + n * w) % 2 ^ 57
    match State.readRun d c f (didxPort e) va w s with
    | (.ok l, s1) =>
      let r := State.planIdx d c f e i x fuel (n + 1) s1
      (x.indexed n (leNat (runBytes va w l)) (8 * w) ++ r.1, r.2)
    | (r, s1) => ([.idx i n], r, s1)

/-- Descriptor `i` read: its words, or what stops it. -/
def State.readDesc (d : Die) (c : Cx) (f : Flight) (e : Fin 16) (i : Nat) (s : State) : Except IoRes Desc × State :=
  let va := (f.cmd.w2.get 56 0 + 64 * i) % 2 ^ 57
  match State.readRun d c f (descPort e) va 64 s with
  | (.ok l, s1) =>
    if l.any (·.poison) then (.error (.fault St.PAGE_MISSING va 0), s1)
    else
      let bs := runBytes va 64 l
      let x : Desc := ⟨(List.range 8).map fun j => wordAt bs (8 * j)⟩
      if x.bad then (.error (.engine Dc.DESC_BAD va), s1) else (.ok x, s1)
  | (r, s1) => (.error r, s1)

/-- The items of descriptor `i` from index `n` on, as far as they can be read. -/
def State.planDesc (d : Die) (c : Cx) (f : Flight) (e : Fin 16) (i n : Nat) (s : State) : Except IoRes (List DItem × IoRes) × State :=
  match State.readDesc d c f e i s with
  | (.error r, s1) => (.error r, s1)
  | (.ok x, s1) =>
    if x.mode = 0 then (.ok (x.strided, .ok []), s1)
    else
      let (l, r, s2) := State.planIdx d c f e i x ((x.word 7).get 31 0 - n) n s1
      (.ok (l, r), s2)

/-- A plan of descriptors from `i` on, `fuel` of them: a descriptor that cannot be read now is left to be reached. -/
def State.planFrom (d : Die) (c : Cx) (f : Flight) (e : Fin 16) : Nat → Nat → State → List DItem × State
  | 0, _, s => ([], s)
  | fuel + 1, i, s =>
    match State.planDesc d c f e i 0 s with
    | (.error _, s1) => ((List.range (fuel + 1)).map fun j => .desc (i + j), s1)
    | (.ok (l, .ok _), s1) => let r := State.planFrom d c f e fuel (i + 1) s1; (l ++ r.1, r.2)
    | (.ok (l, _), s1) => (l ++ (List.range fuel).map fun j => .desc (i + 1 + j), s1)

/-- The runs of a plan that it writes, and that it verifies, at virtual addresses. -/
def planDsts (l : List DItem) : List (Nat × Nat) :=
  l.filterMap fun x => match x with | .check r _ => if r.dstSp then none else some (r.dst, r.len) | _ => none
def planSrcs (l : List DItem) : List (Nat × Nat) :=
  l.filterMap fun x => match x with | .check r _ => if r.srcSp || r.fill.isSome || !r.ckv then none else some (r.src, r.len) | _ => none

/-- A flight with a plan. -/
def Flight.withPlan (f : Flight) (l : List DItem) : Flight := { f with plan := l, dsts := planDsts l, srcs := planSrcs l, phase := .running }

/-- The plan of a command that has none. -/
def State.dmaPlan (d : Die) (c : Cx) (f : Flight) (e : Fin 16) (s : State) : State :=
  if f.phase = .issued ∧ f.plan = [] then
    if f.cmd.op = 3 then
      let r := State.planFrom d c f e (f.cmd.w3.get 15 0 + 1) 0 s
      r.2.setFlight d c f.slot fun g => g.withPlan r.1
    else
      let run := f.cmd.dmaRun
      s.setFlight d c f.slot fun g => g.withPlan (if run.len = 0 then [] else run.items (f.cmd.op == 1))
  else s.setFlight d c f.slot fun g => { g with phase := .running }

/-! ## Checks (R199, R206-R208) -/

/-- Is an address of the host window or the fabric window? -/
def State.awayVa (s : State) (d : Die) (c : Cx) (p : Port) (runs : List (Nat × Nat)) : Option Nat :=
  (runs.flatMap fun r => runEdges r.1 r.2).find? fun va =>
    match (s.translate d c p.stream (va % 2 ^ 57) true).1 with
    | .ok pa => (match s.region pa with | .host _ | .fabric _ _ => true | _ => false)
    | _ => false

/-- Why a run faults before it is read, if it does: the engine's code and the address. -/
def State.runFault (s : State) (d : Die) (c : Cx) (e : Fin 16) (f : Flight) (r : DRun) (overlap : Bool) : Option (Nat × Nat) :=
  let k := f.cmd
  if r.fill.isNone && r.srcSp && !s.inWin d k.part (r.src, r.len) then some (Dc.DM_RANGE, r.src)
  else if r.dstSp && !s.inWin d k.part (r.dst, r.len) then some (Dc.DM_RANGE, r.dst)
  else if overlap && r.srcSp == r.dstSp && rangesMeet (r.src, r.len) (r.dst, r.len) then some (Dc.DM_OVERLAP, r.dst)
  else
    let bs := if r.fill.isSome || r.srcSp then none else s.badRegion d c (dsrcPort e) false [(r.src, r.len)]
    let bd := if r.dstSp then none else s.badRegion d c (ddstPort e) true [(r.dst, r.len)]
    match bs, bd with
    | some va, _ => some (Dc.SRC_REGION, va)
    | none, some va => some (Dc.DST_REGION, va)
    | none, none =>
      if k.epochEn && !r.dstSp then (s.awayVa d c (ddstPort e) [(r.dst, r.len)]).map fun va => (Dc.EPOCH_REGION, va) else none

/-! ## Moves (R205, R209, R213) -/

/-- The key of a scratchpad sector. -/
def isScrKey (k : Nat) : Bool := decide (0x7D000000000000 ≤ k) && decide (k < 0x7E000000000000)

/-- A source block verified before a byte of it is used (R213): the flight that holds it, or what stops the command. -/
def State.ckvBlock (s : State) (d : Die) (c : Cx) (e : Fin 16) (f : Flight) (b : Nat) : Except IoRes Flight × State :=
  if f.seen.any fun y => y.1 == b then (.ok f, s)
  else
    let skip := fun (t : State) => (Except.ok { f with seen := f.seen ++ [(b, 0, true)] }, t.count (R.DM_CRC_UNVERIFIED d e) 1)
    match (s.translate d c (dsrcPort e).stream (b % 2 ^ 57) false).1 with
    | .ok pa =>
      if !(s.region pa).isMem then (.ok f, s)
      else if !wholeBlock f.srcs b then skip s
      else match State.readRun d c f (dsrcPort e) b 4096 s with
        | (.ok l, s1) =>
          let bs := l.flatMap Sec.data
          let w := s1.blockView f.inst ((l.head?.map Sec.key).getD 0)
          if w.2.1 then skip s1
          else if crc32c bs = w.2.2 then (.ok { f with seen := f.seen ++ [(b, w.1, false)], got := f.got ++ [(b, bs)], checked := b :: f.checked }, s1)
          else (.error (.fault St.CRC_MISMATCH b 0), s1)
        | (r, s1) => (.error r, s1)
    | _ => (.ok f, s)

/-- The source blocks of a piece verified in turn. -/
def State.ckvAll (d : Die) (c : Cx) (e : Fin 16) : List Nat → Flight → State → Except IoRes Flight × State
  | [], f, s => (.ok f, s)
  | b :: r, f, s =>
    match s.ckvBlock d c e f b with
    | (.ok g, s1) => State.ckvAll d c e r g s1
    | x => x

/-- A piece's source: its bytes, and the parts of it, (offset, length), that came poisoned; or what stops it. -/
def State.pieceRead (s : State) (d : Die) (c : Cx) (e : Fin 16) (f : Flight) (r : DRun) : Except IoRes (List Byte × List (Nat × Nat)) × State :=
  match r.fill with
  | some p =>
    let base := f.cmd.dmaRun.dst
    (.ok ((List.range r.len).map fun i => (leBytes 8 p.toNat).getD ((r.dst + i - base) % 8) 0, []), s)
  | none =>
    if r.srcSp then
      match s.winBad d f.cmd.part [(r.src, r.len)] with
      | some o => (.error (.engine Dc.SCR_ECC o), s)
      | none => (.ok (s.winRead d f.cmd.part r.src r.len, []), s)
    else match State.readRun d c f (dsrcPort e) r.src r.len s with
      | (.ok l, s1) =>
        match l.find? fun x => x.poison && isScrKey x.key with
        | some x => (.error (.engine Dc.SCR_ECC x.va), s1)
        | none =>
          let bs := runBytes r.src r.len l
          let held := if r.ckv then (List.range r.len).map fun i => (byteIn f.got (r.src + i)).getD (bs.getD i 0) else bs
          (.ok (held, (l.filter (·.poison)).map fun x => (x.va - r.src, min 64 (x.va + 64 - r.src))), s1)
      | (x, s1) => (.error x, s1)

/-- The sectors of a destination that poisoned parts of a piece fall on (R265). -/
def badSectors (dst : Nat) (parts : List (Nat × Nat)) : List Nat :=
  parts.flatMap fun p => (List.range (sectorCount (dst + p.1) p.2)).map fun i => (dst + p.1) / 64 * 64 + 64 * i

/-- Narrow writes of a piece (R209): sectors it covers in part. -/
def narrowWrites (dst n : Nat) : Nat :=
  if dst / 64 = (dst + n - 1) / 64 then (if n = 64 then 0 else 1)
  else (if dst % 64 = 0 then 0 else 1) + (if (dst + n) % 64 = 0 then 0 else 1)

/-- A piece written. -/
def State.pieceWrite (s : State) (d : Die) (c : Cx) (e : Fin 16) (f : Flight) (r : DRun) (bs : List Byte) (bad : List (Nat × Nat)) : IoRes × State :=
  if r.dstSp then
    let s1 := s.winPut d c f f.prog r.dst bs
    let lines := (badSectors (s.winAddr d f.cmd.part r.dst) bad)
    (.ok [], { s1 with mem := { s1.mem with scrPoison := lines.filter (fun x => !s1.mem.scrPoison.contains x) ++ s1.mem.scrPoison } })
  else State.writeRun d c f (ddstPort e) f.dsts f.prog (badSectors r.dst bad) r.dst bs s

/-- One piece moved: nothing, or what stopped it. -/
def State.pieceMove (s : State) (d : Die) (c : Cx) (e : Fin 16) (f : Flight) (r : DRun) : Option IoRes × State :=
  let v := if r.ckv && !r.srcSp then State.ckvAll d c e (blocksOfRun r.src r.len) f s else (.ok f, s)
  match v with
  | (.error x, s1) => (some x, s1)
  | (.ok g, s1) =>
    let s1 := s1.setFlight d c f.slot fun _ => { g with held := none }
    match s1.pieceRead d c e g r with
    | (.error x, s2) => (some x, s2)
    | (.ok (bs, bad), s2) =>
      match s2.pieceWrite d c e g r bs bad with
      | (.ok _, s3) =>
        let s4 := if r.fill.isSome then s3 else s3.count (R.DM_BYTES_RD d e) r.len
        (none, (s4.count (R.DM_BYTES_WR d e) r.len).count (R.DM_NARROW d e) (narrowWrites r.dst r.len))
      | (x, s3) => (some x, s3)

/-! ## The command's steps -/

/-- The last write has left: CRC writes, then the completion point is reached or waited for (R214). -/
def State.dmaEnd (s : State) (d : Die) (c : Cx) (e : Fin 16) (f : Flight) : State :=
  (s.writeCrcs d c f (ddstPort e) f.plan.length).workDone d c f.slot

/-- The items of a plan from where the flight stands, up to and with one piece moved; `fuel` items. -/
def State.dmaGo (d : Die) (c : Cx) (e : Fin 16) (slot : Nat) : Nat → State → State
  | 0, s => s
  | fuel + 1, s =>
    match (s.cx d c).flight slot with
    | none => s
    | some f =>
      let on := fun (t : State) => t.setFlight d c slot fun g => { g with prog := f.prog + 1 }
      let replan := fun (l : List DItem) (t : State) => t.setFlight d c slot fun g => g.withPlan (g.plan.take g.prog ++ l ++ g.plan.drop (g.prog + 1))
      match f.plan[f.prog]? with
      | none => s.dmaEnd d c e f
      | some (.check r o) =>
        match s.runFault d c e f r o with
        | some (code, va) => s.engFault d c f code va
        | none => State.dmaGo d c e slot fuel (on s)
      | some .skip => State.dmaGo d c e slot fuel ((on s).count (R.DM_IDX_SKIP d e) 1)
      | some (.desc i) =>
        match State.planDesc d c f e i 0 s with
        | (.error x, s1) => s1.ioStop d c f x
        | (.ok (l, _), s1) => State.dmaGo d c e slot fuel (replan l s1)
      | some (.idx i n) =>
        match State.planDesc d c f e i n s with
        | (.error x, s1) => s1.ioStop d c f x
        | (.ok (l, x), s1) =>
          if l.head? = some (.idx i n) then s1.ioStop d c f x else State.dmaGo d c e slot fuel (replan l s1)
      | some (.move r) =>
        match s.pieceMove d c e f r with
        | (some x, s1) => s1.ioStop d c f x
        | (none, s1) =>
          let s2 := on s1
          if f.prog + 1 = f.plan.length then (match (s2.cx d c).flight slot with | some g => s2.dmaEnd d c e g | none => s2) else s2

/-- A DMA command of opcode `op` goes on by one piece. -/
def dmaRun (op : Nat) (d : Die) (e : Fin 16) (xs : List ScrFinding) (s : State) : State :=
  match s.dmFront d e op with
  | some (c, f) => State.dmaGo d c e f.slot 64 (State.dmaPlan d c f e (s.scrAll d xs))
  | none => s

/-- COPY (R200). -/
def execCopy (d : Die) (e : Fin 16) (xs : List ScrFinding) (s : State) : Host.Outcome State Fault Refusal := s.whileOn (dmaRun 1 d e xs s)
/-- FILL (R200). -/
def execFill (d : Die) (e : Fin 16) (s : State) : Host.Outcome State Fault Refusal := s.whileOn (dmaRun 2 d e [] s)
/-- DESC (R202-R204). -/
def execDesc (d : Die) (e : Fin 16) (xs : List ScrFinding) (s : State) : Host.Outcome State Fault Refusal := s.whileOn (dmaRun 3 d e xs s)

/-! ## DMA_COMPLETION (R201, R214-R216) -/

/-- The completion actions of a DMA command. -/
def Cmd.actions (k : Cmd) : Nat := if k.op = 3 then k.w3.get 47 16 else k.argA
def Cmd.markEn (k : Cmd) : Bool := k.actions.testBit 3
def Cmd.markArray (k : Cmd) : Nat := k.actions % 8
def Cmd.wakeEn (k : Cmd) : Bool := k.actions.testBit 27
def Cmd.wakeCx (k : Cmd) : Cx := ⟨k.actions / 2 ^ 20 % 128, Nat.mod_lt _ (by decide)⟩

/-- The marker of a command pushed, if its spine has room (R161, R201): stage 2 follows. -/
def State.dmaMark (s : State) (d : Die) (c : Cx) (f : Flight) : State :=
  let k := f.cmd
  if 16 ≤ (s.arr d k.markArray).spine.length then s.count (R.SPN_CYC_FULL d k.markArray) 1
  else
    let live := match f.inst with
      | some (e, i) => if s.epInst e = i then some (e, i) else none
      | none => none
    let ent : SpnEnt := { array := k.markArray, marker := true, epochEn := live.isSome, epoch := (live.getD (0, 0)).1, inst := (live.getD (0, 0)).2, part := k.part, owner := c.val, tag := k.actions / 16 % 65536 }
    (s.spnPush d k.markArray ent).setFlight d c f.slot fun g => { g with stage := 2 }

/-- The completion actions in their order: SIGNAL, MARK, WAKE; then the command is complete. -/
def State.dmaFinish (s : State) (d : Die) (c : Cx) (slot : Nat) : State :=
  match (s.cx d c).flight slot with
  | none => s
  | some f =>
    if f.stage = 2 then
      let s1 := if f.cmd.wakeEn then s.cxWake d f.cmd.wakeCx else s
      match (s1.cx d c).flight slot with
      | some g => s1.completeFlight d c g
      | none => s1
    else s

/-- A DMA command at its completion point, or waiting for it (R214, R216, R241). -/
def dmaCompletion (d : Die) (c : Cx) (slot : Nat) (s : State) : State :=
  let x := s.cx d c
  match x.flight slot with
  | none => s
  | some f =>
    if f.phase ≠ .worked ∨ f.cmd.kind ≠ 2 ∨ !x.gateDone f ∨ s.cmdFirnHeld f then s
    else
      let o := R.DM_STATUS d f.cmd.unit
      if f.stage = 0 && f.cmd.fenced && s.cmdWrites f then s.setFld o F.DM_STATUS.WAIT_RCPT 1
      else
        let s0 := s.setFld o F.DM_STATUS.WAIT_RCPT 0
        if f.stage = 0 && f.cmd.fenced && f.lostWrite then s0.flightFault d c slot St.DELIVERY_LOST 0 0
        else
          let s1 := if f.stage = 0 then
              (s0.sendSignal d c f).setFlight d c slot fun g => { g with sigSent := true, stage := if f.cmd.markEn then 1 else 2 }
            else s0
          let s2 := match (s1.cx d c).flight slot with
            | some g => if g.stage = 1 then s1.dmaMark d c g else s1
            | none => s1
          s2.dmaFinish d c slot

/-- DMA_COMPLETION (R214). -/
def execDmaCompletion (d : Die) (c : Cx) (slot : Nat) (s : State) : Host.Outcome State Fault Refusal := s.whileOn (dmaCompletion d c slot s)

/-! ## SPINE_PUSH (R111, R161) -/

/-- The next entry waiting for an array's spine: of its running SEAL, else the marker of a DMA command of its die. -/
def spinePush (d : Die) (m : Fin 8) (s : State) : State :=
  match s.arrayFront d m 4, (s.arr d m).group with
  | some (c, f), some g =>
    if f.phase = .running then s.sealPush d c m f g else s
  | _, _ =>
    match (s.dieFlights d).find? fun p => p.2.cmd.kind == 2 && p.2.phase == .worked && p.2.stage == 1 && p.2.cmd.markArray == m.val with
    | some (c, f) => (s.dmaMark d c f).dmaFinish d c f.slot
    | none => s

/-- SPINE_PUSH (R161). -/
def execSpinePush (d : Die) (m : Fin 8) (s : State) : Host.Outcome State Fault Refusal := s.whileOn (spinePush d m s)

/-! ## Service (R220) -/

/-- DM_OFFLINE (R220). -/
def execDmOffline (w : RegW) (d : Die) (e : Fin 16) (s : State) : Host.Outcome State Fault Refusal :=
  s.whileOn (s.onWrite w (R.DM_CTL d e) (engCtl (R.DM_CTL d e) St.DM_CTL_REFUSED 0 fun t => t.engOffline d (16 + e.val)))

/-- DM_ONLINE (R220). -/
def execDmOnline (w : RegW) (d : Die) (e : Fin 16) (s : State) : Host.Outcome State Fault Refusal :=
  s.whileOn (s.onWrite w (R.DM_CTL d e) (engCtl (R.DM_CTL d e) St.DM_CTL_REFUSED 1 fun t =>
    t.engReturn d (16 + e.val) (R.DM_FAULT d e) Dc.DM_HW St.DM_CTL_REFUSED (R.DM_CTL d e)))

/-- DM_HW (R218). -/
def execDmHw (d : Die) (e : Fin 16) (s : State) : Host.Outcome State Fault Refusal :=
  s.whileOn (if s.engIn d (16 + e.val) then s.engHw d (16 + e.val) Dc.DM_HW Uk.DMA e.val else s)

end Sys2Proof.Machine
end

