-- ==== Sys2Proof/Machine/FullEmpty.lean ====
section
/-!
DEFINITION. Full/empty words (13_quires.md, R387-R391): the four operations at a word's home, waiting operations, and the
control commands of contexts.
-/

namespace Sys2Proof.Machine

/-! ## At the home (R387) -/

/-- Does the operation succeed on a word found full or empty? -/
def feWorks (op : FeOp) (full : Bool) : Bool :=
  match op with
  | .wef => !full
  | .rfe => full
  | .rff => full
  | .purge => true

/-- The eight bytes of the word at key `k` as ice holds them. -/
def State.feWord (s : State) (k : Nat) : List Byte := ((s.ice (k / 64 * 64)).drop (k % 64)).take 8

/-- A succeeding operation: the word's bytes found, and the state it leaves (R387). -/
def State.feDo (s : State) (op : FeOp) (k : Nat) (v : Word) : List Byte × State :=
  match op with
  | .wef => ([], (s.acceptAt (k / 64 * 64) (byteMask (k % 64) 8) (atOffset (k % 64) (leBytes 8 v.toNat)) false 0 false).setWordFull k true)
  | .rfe => let s1 := s.homeShare (k / 64 * 64); (s1.feWord k, s1.setWordFull k false)
  | .rff => let s1 := s.homeShare (k / 64 * 64); (s1.feWord k, s1)
  | .purge => ([], s.setWordFull k false)

/-- Why a word cannot be acted on (R388): it is no full/empty word, its home is out of service, it is poisoned; or its accesses
are held. -/
inductive FeRes where
  | ok
  | fault (status : Nat)
  | wait
deriving DecidableEq, Repr

def State.feCheck (s : State) (pa : Nat) : FeRes :=
  let r := s.region pa
  if !(r.isMem && s.hasFE r) then .fault St.PAGE_DENIED
  else if s.absent r then .fault St.ABSENT
  else if s.held r then .wait
  else if s.poisoned (r.key pa / 64 * 64) then .fault St.PAGE_MISSING
  else .ok

/-! ## A context's operation -/

/-- The operation of a full/empty command. -/
def Cmd.feOp (k : Cmd) : FeOp := if k.op = 0x20 then .wef else if k.op = 0x21 then .rfe else if k.op = 0x22 then .rff else .purge

def feReads (op : FeOp) : Bool := op == .rfe || op == .rff

/-- The port of a control command's accesses: its context's own stream. -/
def ctlPort (c : Cx) : Port := { stream := queueStream c, allow := plainRegion, code := 0 }

/-- Can the destination of an RFE or RFF be written: its translations, before the word is touched? -/
def State.feDest (s : State) (d : Die) (c : Cx) (f : Flight) : FeRes × Nat × State :=
  let va := f.cmd.w3.get 56 0
  let one := fun (a : Nat) (t : State) => match t.translate d c (queueStream c) (a % 2 ^ 57) true with
    | (.ok pa, t1) => (if plainRegion (t1.region pa) then FeRes.ok else .fault St.PAGE_DENIED, t1)
    | (.fault st, t1) => (.fault st, t1)
    | (.wait, t1) => (.wait, t1)
  match one va s with
  | (.ok, s1) => match one (va + 7) s1 with
    | (r, s2) => (r, va + 7, s2)
  | (r, s1) => (r, va, s1)

/-- A successful operation completes its command (R389): the value is written, the waiter freed, the context goes on. -/
def State.feSuccess (s : State) (d : Die) (c : Cx) (f : Flight) (bs : List Byte) : State :=
  let s1 := if bs = [] then s else (State.writeRun d c f (ctlPort c) [] 0 [] (f.cmd.w3.get 56 0) bs s).2
  let s2 := (s1.freeWaiterOf d c f.slot false).workDone d c f.slot
  let x := s2.cx d c
  let s3 := s2.setCx d c { x with polled := false, waitSince := s2.now }
  if s3.cxState d c = CxS.WAIT_FE then s3.setCxState d c CxS.READY else s3

/-- One try of a context's operation at key `k`: the state, and whether the word's bit changed. -/
def State.feTry (s : State) (d : Die) (c : Cx) (f : Flight) (k : Nat) : Option (Bool × State) :=
  let op := f.cmd.feOp
  let full := s.wordFull k
  if feWorks op full then
    let (bs, s1) := s.feDo op k f.cmd.w3
    some (s1.wordFull k != full, s1.feSuccess d c f bs)
  else none

/-- The oldest waiting operation on the word at key `k` that can be carried out now. A waiting operation whose destination can
no longer be written is left to its own command. -/
def State.feNext (s : State) (k : Nat) : Option (Waiter × Flight) :=
  s.sync.waiters.findSome? fun w =>
    match w.kind with
    | .fe a op =>
      if a = k ∧ feWorks op (s.wordFull k) = true then
        match (s.cx w.die w.cx).flight w.slot with
        | some f => if !feReads op || (s.feDest w.die w.cx f).1 == .ok then some (w, f) else none
        | none => none
      else none
    | .gate _ _ _ => none

/-- The waiting operations of a word tried in the order they were placed until a pass changes nothing (R389). -/
def State.feServe (k : Nat) : Nat → State → State
  | 0, s => s
  | fuel + 1, s =>
    match s.feNext k with
    | none => s
    | some (w, f) =>
      match s.feTry w.die w.cx f k with
      | some (_, s1) => State.feServe k fuel s1
      | none => s

/-- The waiters of a word served after its bit may have changed. -/
def State.feChanged (s : State) (k : Nat) : State := State.feServe k (s.sync.waiters.length + 1) s

/-- A failed operation waits (R389): a waiter record names the word, or the context polls (R379). -/
def State.feWait (s : State) (d : Die) (c : Cx) (f : Flight) (k : Nat) : State :=
  let s1 := s.placeWaiter d c f.slot (.fe k f.cmd.feOp)
  if s1.cxState d c = CxS.READY then s1.setCxState d c CxS.WAIT_FE else s1

/-- The operation of a flight at the physical address of its word. -/
def State.feAt (s : State) (d : Die) (c : Cx) (f : Flight) (va pa : Nat) : State :=
  match s.feCheck pa with
  | .wait => s.setFlight d c f.slot fun g => { g with held := some va }
  | .fault st => s.flightFault d c f.slot st va 0
  | .ok =>
    let k := (s.region pa).key pa
    let (r, at_, s1) := if feReads f.cmd.feOp then s.feDest d c f else (.ok, va, s)
    match r with
    | .wait => s1.setFlight d c f.slot fun g => { g with held := some at_ }
    | .fault st => s1.flightFault d c f.slot st at_ 0
    | .ok =>
      match s1.feTry d c f k with
      | some (changed, s2) => if changed then s2.feChanged k else s2
      | none => s1.feWait d c f k

/-- A full/empty command of a context takes effect once its earlier writes to its package have been accepted (R388); while its
waiter record stands, the home tries it (R389); while it polls, after each poll (R379). -/
def feCommand (op : Nat) (d : Die) (c : Cx) (s : State) : State :=
  match s.ctlFront d c op with
  | some f =>
    if !s.allAccepted f.waitIds || (s.sync.waiters.any fun w => w.of d c f.slot) || (s.cx d c).polled then s
    else
      let va := f.cmd.w2.get 56 0
      match s.translate d c (queueStream c) va (op != 0x22) with
      | (.wait, s1) => s1.setFlight d c f.slot fun g => { g with held := some va }
      | (.fault st, s1) => s1.flightFault d c f.slot st va 0
      | (.ok pa, s1) => s1.feAt d c f va pa
  | none => s

/-- WEF (R388). -/
def execWef (d : Die) (c : Cx) (s : State) : Host.Outcome State Fault Refusal := s.whileOn (feCommand Op.WEF d c s)
/-- RFE (R388). -/
def execRfe (d : Die) (c : Cx) (s : State) : Host.Outcome State Fault Refusal := s.whileOn (feCommand Op.RFE d c s)
/-- RFF (R388). -/
def execRff (d : Die) (c : Cx) (s : State) : Host.Outcome State Fault Refusal := s.whileOn (feCommand Op.RFF d c s)
/-- PURGE (R388). -/
def execPurge (d : Die) (c : Cx) (s : State) : Host.Outcome State Fault Refusal := s.whileOn (feCommand Op.PURGE d c s)

/-! ## FE_OP (R387) -/

/-- An operation that has reached its word's home (R387): it acts on the word and its bit together, or fails and changes nothing;
a value read is what the requester receives. -/
def State.feHome (s : State) (op : FeOp) (k : Nat) (v : Word) : State :=
  if feWorks op (s.wordFull k) then
    let (bs, s1) := s.feDo op k v
    let s2 := if feReads op then { s1 with readData := wordAt bs 0 } else s1
    if s2.wordFull k = s.wordFull k then s2 else s2.feChanged k
  else s

/-- FE_OP (R387). -/
def execFeOp (op : FeOp) (pa : Nat) (v : Word) (s : State) : Host.Outcome State Fault Refusal :=
  s.whileOn (if pa % 8 = 0 ∧ s.feCheck pa = .ok then s.feHome op ((s.region pa).key pa) v else s)

end Sys2Proof.Machine
end

