-- ==== Sys2Proof/Machine/Cores.lean ====
section
/-!
DEFINITION. The server cores (14_cores.md) and their ordering (12_ordering.md): store and combining buffers, fences, k.dfence,
atomics, reservations, cache-block operations, removal and failure. A core's own translation (R398) is that of the RISC-V
privileged specification: its accesses come here with physical addresses.
-/

namespace Sys2Proof.Machine

/-! ## Registers and exceptions of a core -/

/-- An integer register of a core; x0 reads zero. -/
def State.coreX (s : State) (n : Fin 96) (r : Nat) : Word := if r = 0 then 0 else Sparse.get 0 r (s.core n).x

/-- The state with an integer register written; x0 is not. -/
def State.setCoreX (s : State) (n : Fin 96) (r : Nat) (v : Word) : State :=
  if r = 0 then s else s.setCore n { s.core n with x := Sparse.set r v (s.core n).x }

/-- A core changed in place. -/
def State.onCore (s : State) (n : Fin 96) (g : CoreSt → CoreSt) : State := s.setCore n (g (s.core n))

def Cause.LOAD_MISALIGNED : Nat := 4
def Cause.LOAD_ACCESS : Nat := 5
def Cause.STORE_MISALIGNED : Nat := 6
def Cause.STORE_ACCESS : Nat := 7

/-- A precise exception of a core's access (R400, R401): its cause and address; a trap ends the reservation (R402). -/
def State.coreTrap (s : State) (n : Fin 96) (cause pa : Nat) : State :=
  s.onCore n fun k => { k with lastFault := cause, faultAddr := pa, resv := none, waitWrs := none }

/-- Does the core execute instructions: in RUN, not waiting in a fence, a k.dfence or a wrs? -/
def State.coreRuns (s : State) (n : Fin 96) : Bool :=
  s.fld (R.C_STATUS n) F.C_STATUS.STATE == 0 && !(s.core n).waitFence && (s.core n).waitDfence.isNone && (s.core n).waitWrs.isNone

/-- An instruction of a core, taken only while it executes. -/
def State.onRun (s : State) (n : Fin 96) (act : State → State) : State := if s.coreRuns n then act s else s

/-! ## Performing stores (R341, R356, R357) -/

/-- Has the granule of a region EARLY_ACK (R289)? -/
def State.earlyAck (s : State) (r : Region) : Bool :=
  match r.pma with
  | some i => s.flag (R.XL_PMA i) F.XL_PMA.EARLY_ACK
  | none => false

/-- A store's bytes, within one sector at key `a`, performed: in the cores' caches once they own the line, or sent uncached.
Nothing where the home holds its accesses. -/
def State.coreWrite (s : State) (n : Fin 96) (a : Nat) (bs : List Byte) : Option State :=
  let r := s.region a
  let line := a / 64 * 64
  if r.isMem then
    if s.absent r then some (s.loseWrite (.core n) 0 s.ownPkg)
    else if s.held r then none
    else
      let s1 := s.homeOwn .cores line
      match s1.heldLine .cores line with
      | some x => some ((s1.setHeld .cores line { data := overlay (byteMask (a % 64) bs.length) 0 x.data (atOffset (a % 64) bs), dirty := true, owner := some n.val }).breakResv line (some n.val))
      | none => some s1
  else some (s.sendWrite { id := 0, src := .core n, dst := .hub, addr := line, mask := byteMask (a % 64) bs.length, data := atOffset (a % 64) bs })

/-- The oldest store a core has not performed, performed: one the L3 holds gets its ownership; one in the store buffer to a
granule with EARLY_ACK goes to the L3 (R356). -/
def State.drainOne (s : State) (n : Fin 96) : Option State :=
  let k := s.core n
  match k.sb, k.early with
  | e :: r, _ =>
    if s.earlyAck (s.region e.addr) && !s.absent (s.region e.addr) then some (s.setCore n { k with sb := r, early := k.early ++ [e] })
    else (s.coreWrite n e.addr e.data).map fun t => t.onCore n fun k => { k with sb := k.sb.tail }
  | [], e :: _ => (s.coreWrite n e.addr e.data).map fun t => t.onCore n fun k => { k with early := k.early.tail }
  | [], [] => none

/-- Up to `i` of a core's oldest stores performed. -/
def State.drainStores (n : Fin 96) : Nat → State → State
  | 0, s => s
  | i + 1, s => match s.drainOne n with
    | some t => State.drainStores n i t
    | none => s

/-- A sector leaves the combining buffer (R357). -/
def State.combOut (s : State) (n : Fin 96) (c : Comb) : State :=
  (s.sendWrite { id := 0, src := .core n, dst := .hub, addr := c.sector, mask := c.mask, data := c.data }).onCore n fun k => { k with comb := k.comb.filter fun x => x.sector != c.sector }

/-- Every sector of the combining buffer leaves. -/
def State.combAll (s : State) (n : Fin 96) : State := (s.core n).comb.foldl (fun t c => t.combOut n c) s

/-- A sector of the combining buffer leaves because a later access that is not combined touches it (R357). -/
def State.combTouch (s : State) (n : Fin 96) (sec : Nat) : State :=
  match (s.core n).comb.find? fun c => c.sector == sec with
  | some c => s.combOut n c
  | none => s

/-- A core's store buffer performed; with `all`, what the L3 holds for it as well; the combining buffer drained. -/
def State.coreDrain (s : State) (n : Fin 96) (all : Bool) : State :=
  let k := s.core n
  (State.drainStores n (k.sb.length + (if all then k.early.length + k.sb.length else 0)) s).combAll n

/-- Has the core a store that is not accepted: buffered, or sent to a destination of the package? -/
def State.coreWaits (s : State) (n : Fin 96) (all : Bool) : Bool :=
  let k := s.core n
  k.sb != [] || k.comb != [] || (all && k.early != []) || s.unaccepted (.core n) != []

/-- A store enters the store buffer, which holds 64 (R407). -/
def State.sbPut (s : State) (n : Fin 96) (a : Nat) (bs : List Byte) : State :=
  let s1 := (if 64 ≤ (s.core n).sb.length then State.drainStores n 1 s else s).combTouch n (a / 64 * 64)
  s1.onCore n fun k => { k with sb := k.sb ++ [{ addr := a, data := bs }] }

/-- A store enters the combining buffer, which holds 8 sectors; a full sector leaves (R357, R407). -/
def State.combPut (s : State) (n : Fin 96) (a : Nat) (bs : List Byte) : State :=
  let sec := a / 64 * 64
  let s0 := if (s.core n).sb.any fun e => e.addr / 64 * 64 == sec then State.drainStores n (s.core n).sb.length s else s
  let m := byteMask (a % 64) bs.length
  let d := atOffset (a % 64) bs
  let s1 : State := match (s0.core n).comb.find? fun (c : Comb) => c.sector == sec with
    | some _ => s0.onCore n fun k => { k with comb := k.comb.map fun (c : Comb) => if c.sector = sec then { c with mask := c.mask ||| m, data := overlay m 0 c.data d, lastAt := s.now } else c }
    | none =>
      let t : State := match (s0.core n).comb with
        | c :: r => if 7 ≤ r.length then s0.combOut n c else s0
        | [] => s0
      t.onCore n fun k => { k with comb := k.comb ++ [{ sector := sec, mask := m, data := overlay m 0 (List.replicate 64 0) d, lastAt := s.now }] }
  match (s1.core n).comb.find? fun (c : Comb) => c.sector == sec with
  | some c => if c.mask = fullMask then s1.combOut n c else s1
  | none => s1

/-! ## Reading (R356, R357, R400) -/

/-- The byte at key `a` as a core's own stores, and the L3's, leave it over `b`. -/
def State.coreOver (s : State) (n : Fin 96) (a : Nat) (b : Byte) : Byte :=
  let put := fun (es : List SbEntry) (v : Byte) => es.foldl (fun w e => if e.addr ≤ a ∧ a < e.addr + e.data.length then e.data.getD (a - e.addr) w else w) v
  let k := s.core n
  let v := put k.sb (put (s.cores.flatMap fun p => p.2.early) b)
  match k.comb.find? fun c => c.sector == a / 64 * 64 with
  | some c => if c.mask.testBit (a % 64) then c.data.getD (a % 64) v else v
  | none => v

/-- A sector as a core reads it: its caches, its home, the host window, the fabric window. -/
def State.coreSector (s : State) (n : Fin 96) (line : Nat) : ReadRes × State :=
  let r := s.region line
  if s.absent r then (.absent, s)
  else if s.held r then (.wait, s)
  else
    let fin := fun (b : List Byte) (p : Bool) (t : State) =>
      (ReadRes.data ((List.range 64).map fun i => t.coreOver n (line + i) ((t.ownOver (.core n) none line b).getD i 0)) p, t)
    match r with
    | .hbm _ _ | .ddr _ =>
      let s1 := s.homeShared .cores line
      fin (match s1.heldLine .cores line with | some x => x.data | none => s1.ice line) (s1.poisoned line) s1
    | .scr _ _ => fin (s.cells line 64) (s.mem.scrPoison.contains line) s
    | .host _ =>
      match Sparse.find line s.hostWin with
      | some h =>
        let s1 : State := { s with hostWin := Sparse.del line s.hostWin }
        if h.error then (.refused, s1) else fin h.data h.poison s1
      | none => (.wait, { s with hostAsked := if s.hostAsked.contains line then s.hostAsked else s.hostAsked ++ [line] })
    | .fabric p off =>
      match if p = s.pkg then s.loopRead off else s.fabRead (.core n) p line with
      | (.data b q, s1) => fin b q s1
      | x => x
    | _ => (.refused, s)

/-- May a core keep lines of the region, and perform atomics there (R400)? -/
def coreCached (r : Region) : Bool :=
  match r with
  | .hbm _ _ | .ddr _ | .host _ => true
  | _ => false

/-! ## Fences (R355, R358, R360) -/

/-- A fence by its sets: with W in the predecessor set the core's stores are performed, with O in the successor set as well
accepted at their homes; until then the core waits. -/
def fence (n : Fin 96) (f : FenceSets) (s : State) : State :=
  if f.predW then
    let s1 := s.coreDrain n f.succO
    s1.onCore n fun k => { k with waitFence := s1.coreWaits n f.succO }
  else s.onCore n fun k => { k with waitFence := false }

/-- FENCE (R355). -/
def execFence (n : Fin 96) (f : FenceSets) (s : State) : Host.Outcome State Fault Refusal :=
  s.whileOn (if s.fld (R.C_STATUS n) F.C_STATUS.STATE = 0 ∧ (s.core n).waitDfence = none ∧ (s.core n).waitWrs = none then fence n f s else s)

/-- k.dfence ends: 0, or 1 with the loss latch cleared and C_FENCE brought up. -/
def State.dfenceEnd (s : State) (n : Fin 96) (rd : Nat) : State :=
  let k := s.core n
  let s1 := s.setCore n { k with waitDfence := none, loss := none }
  match k.loss with
  | none => s1.setCoreX n rd 0
  | some p =>
    let o := R.C_FENCE n
    let s2 := if s1.flag o F.C_FENCE.LOST then s1 else ((s1.setFld o F.C_FENCE.LOST 1).setFld o F.C_FENCE.FIRST_PKG p.val).setFld o F.C_FENCE.LOST_FENCES 0
    (s2.bumpFld o F.C_FENCE.LOST_FENCES 1).setCoreX n rd 1

/-- k.dfence waits until every earlier store of the core has been receipted or lost. -/
def kDfence (n : Fin 96) (rd : Nat) (s : State) : State :=
  let s1 := s.coreDrain n true
  let k := s1.core n
  if k.sb != [] || k.early != [] || s1.unreceipted (.core n) != [] then s1.setCore n { k with waitDfence := some rd } else s1.dfenceEnd n rd

/-- K_DFENCE (R358). -/
def execKDfence (n : Fin 96) (rd : Fin 32) (s : State) : Host.Outcome State Fault Refusal :=
  s.whileOn (match (s.core n).waitDfence with
    | some r => if s.fld (R.C_STATUS n) F.C_STATUS.STATE = 0 then kDfence n r s else s
    | none => s.onRun n (kDfence n rd.val))

/-- A combined sector without a new store for 512 core cycles leaves (R357). -/
def combineTimeout (n : Fin 96) (sec : Nat) (s : State) : State :=
  let f := s.fld (R.C_CLK n) F.C_CLK.CUR
  match (s.core n).comb.find? fun c => c.sector == sec with
  | some c => if f ≠ 0 ∧ 512 * 640 ≤ (s.now - c.lastAt) * f then s.combOut n c else s
  | none => s

/-- COMBINE_TIMEOUT (R357). -/
def execCombineTimeout (t : Moment) (n : Fin 96) (sec : Nat) (s : State) : Host.Outcome State Fault Refusal :=
  s.whileOn (combineTimeout n sec (s.atTime t))

/-- INTERRUPT_TAKEN (R358, R402): a waiting fence, k.dfence or wrs is abandoned, the reservation lost. -/
def execInterruptTaken (n : Fin 96) (s : State) : Host.Outcome State Fault Refusal :=
  s.whileOn (if s.fld (R.C_STATUS n) F.C_STATUS.STATE = 0 then
      s.onCore n fun k => { k with waitFence := false, waitDfence := none, waitWrs := none, resv := none, irq23 := false }
    else s)

/-! ## Atomics and reservations (R397, R400-R402) -/

/-- The result an AMO stores, over `bits` bits. -/
def amoResult (op : AmoOp) (bits old v : Nat) : Nat :=
  let s := fun x => signedCode bits x
  match op with
  | .swap => v
  | .add => (old + v) % 2 ^ bits
  | .and => old &&& v
  | .or => old ||| v
  | .xor => old ^^^ v
  | .min => if s old ≤ s v then old else v
  | .max => if s v ≤ s old then old else v
  | .minu => min old v
  | .maxu => max old v
  | .cas => v

/-- A value of `sz` bytes put in a register, sign-extended; 16 bytes fill a register pair (Zacas). -/
def State.putLoaded (s : State) (n : Fin 96) (rd sz v : Nat) (unsigned_ : Bool) : State :=
  if sz = 16 then
    (if rd = 0 then s else (s.setCoreX n rd (BitVec.ofNat 64 v)).setCoreX n (rd + 1) (BitVec.ofNat 64 (v / 2 ^ 64)))
  else s.setCoreX n rd (if unsigned_ then BitVec.ofNat 64 v else BitVec.ofInt 64 (signedCode (8 * sz) v))

/-- The value of `sz` bytes in a register, or a pair. -/
def State.regValue (s : State) (n : Fin 96) (r sz : Nat) : Nat :=
  if sz = 16 then (if r = 0 then 0 else (s.coreX n r).toNat + (s.coreX n (r + 1)).toNat * 2 ^ 64) else (s.coreX n r).toNat % 2 ^ (8 * sz)

/-- The first checks of an AMO, LR, SC or compare-and-swap: misaligned, or outside the cached regions. -/
def State.amoTrap (s : State) (pa sz misaligned access : Nat) : Option Nat :=
  if pa % sz ≠ 0 then some misaligned else if coreCached (s.region pa) then none else some access

/-- An AMO or compare-and-swap on `sz` bytes at a physical address, after the core's earlier stores. -/
def coreAmo (n : Fin 96) (op : AmoOp) (rd rs2 pa sz : Nat) (s : State) : State :=
  match s.amoTrap pa sz Cause.STORE_MISALIGNED Cause.STORE_ACCESS with
  | some c => s.coreTrap n c pa
  | none =>
    let a := (s.region pa).key pa
    let s0 := s.coreDrain n true
    if (s0.core n).sb != [] || (s0.core n).early != [] then s0
    else match s0.coreSector n (a / 64 * 64) with
      | (.data b false, s1) =>
        let old := leNat ((b.drop (a % 64)).take sz)
        let v := s1.regValue n rs2 sz
        let new := if op = .cas then (if old = s1.regValue n rd sz then v else old) else amoResult op (8 * sz) old v
        match if op = .cas ∧ new = old ∧ old ≠ s1.regValue n rd sz then some s1 else s1.coreWrite n a (leBytes sz new) with
        | some s2 => s2.putLoaded n rd sz old false
        | none => s1
      | (.wait, s1) => s1
      | (_, s1) => s1.coreTrap n Cause.STORE_ACCESS pa

/-- CORE_AMO (R400). -/
def execCoreAmo (n : Fin 96) (op : AmoOp) (rd rs2 : Fin 32) (pa : Nat) (sz : Nat) (s : State) : Host.Outcome State Fault Refusal :=
  s.whileOn (s.onRun n (coreAmo n op rd.val rs2.val pa sz))

/-- LR reserves its granule (R402). -/
def lr (n : Fin 96) (rd pa sz : Nat) (s : State) : State :=
  match s.amoTrap pa sz Cause.LOAD_MISALIGNED Cause.LOAD_ACCESS with
  | some c => s.coreTrap n c pa
  | none =>
    let a := (s.region pa).key pa
    match s.coreSector n (a / 64 * 64) with
    | (.data b false, s1) =>
      (s1.putLoaded n rd sz (leNat ((b.drop (a % 64)).take sz)) false).onCore n fun k => { k with resv := some (a / 128) }
    | (.wait, s1) => s1
    | (_, s1) => s1.coreTrap n Cause.LOAD_ACCESS pa

/-- LR (R402). -/
def execLr (n : Fin 96) (rd : Fin 32) (pa : Nat) (sz : Nat) (s : State) : Host.Outcome State Fault Refusal := s.whileOn (s.onRun n (lr n rd.val pa sz))

/-- SC stores only while the reservation on its granule stands (R402). -/
def sc (n : Fin 96) (rd rs2 pa sz : Nat) (s : State) : State :=
  match s.amoTrap pa sz Cause.STORE_MISALIGNED Cause.STORE_ACCESS with
  | some c => s.coreTrap n c pa
  | none =>
    let a := (s.region pa).key pa
    let done := fun (t : State) (v : Word) => (t.onCore n fun k => { k with resv := none }).setCoreX n rd v
    if (s.core n).resv = some (a / 128) then
      let s0 := s.coreDrain n true
      if (s0.core n).sb != [] || (s0.core n).early != [] then s0
      else match s0.coreWrite n a (leBytes sz (s0.regValue n rs2 sz)) with
        | some s1 => done s1 0
        | none => s0
    else done s 1

/-- SC (R402). -/
def execSc (n : Fin 96) (rd rs2 : Fin 32) (pa : Nat) (sz : Nat) (s : State) : Host.Outcome State Fault Refusal :=
  s.whileOn (s.onRun n (sc n rd.val rs2.val pa sz))

/-- WRS waits while the reservation stands (R397). -/
def execWrs (n : Fin 96) (sto : Bool) (s : State) : Host.Outcome State Fault Refusal :=
  s.whileOn (s.onRun n fun t => if (t.core n).resv = none then t else t.onCore n fun k => { k with waitWrs := some (sto, t.now) })

/-- A wrs.sto that has waited 1 µs ends (R397). -/
def wrsTimeout (n : Fin 96) (s : State) : State :=
  match (s.core n).waitWrs with
  | some (true, t) => if t + 16000 ≤ s.now then s.onCore n fun k => { k with waitWrs := none } else s
  | _ => s

/-- WRS_TIMEOUT (R397). -/
def execWrsTimeout (t : Moment) (n : Fin 96) (s : State) : Host.Outcome State Fault Refusal := s.whileOn (wrsTimeout n (s.atTime t))

/-! ## Cache-block operations (R400, R406) -/

/-- A dirty line of the cores written back to its home. -/
def State.coreClean (s : State) (line : Nat) : State :=
  match s.heldLine .cores line with
  | some x => if x.dirty then (s.returnData line x.data).setHeld .cores line { x with dirty := false, owner := none } else s
  | none => s

/-- A line dropped by the cores, its dirty data written back first. -/
def State.coreFlush (s : State) (line : Nat) : State :=
  let s1 := (s.coreClean line).dropCopy .cores line
  s1.setDir line (some (.sharers ((s1.copies line).filter (· ≠ .cores))))

/-- A cache-block operation on the block of a physical address. -/
def cbo (n : Fin 96) (op : CboOp) (pa : Nat) (s : State) : State :=
  let r := s.region pa
  let line := r.key pa / 64 * 64
  if !plainRegion r then s.coreTrap n Cause.STORE_ACCESS pa
  else
    let s0 := (s.coreDrain n true)
    if (s0.core n).sb != [] || (s0.core n).early != [] then s0
    else match op with
      | .zero => if s.absent r then s0.coreTrap n Cause.STORE_ACCESS pa else
        match s0.coreWrite n line (List.replicate 64 0) with
        | some s1 => if r.isMem then s1.setPoison line false else s1
        | none => s0
      | .clean => if r.isMem && !s.absent r then s0.coreClean line else s0
      | .flush => if r.isMem && !s.absent r then s0.coreFlush line else s0
      | .inval => if r.isMem && !s.absent r then s0.coreFlush line else s0

/-- CBO (R406). -/
def execCbo (n : Fin 96) (op : CboOp) (pa : Nat) (s : State) : Host.Outcome State Fault Refusal := s.whileOn (s.onRun n (cbo n op pa))

/-! ## Removal and failure (R410-R412, R416) -/

/-- A refused write of C_CTL. -/
def State.coreRefuse (s : State) (n : Fin 96) : State := s.raiseReg St.CORE_CTL_REFUSED (R.C_CTL n)

/-- C_CTL.OFFLINE: the core stops and its buffers drain. -/
def coreOfflineAct (n : Fin 96) (v : Word) (s : State) : State :=
  if v.get 1 0 = 3 then s.coreRefuse n
  else if v.bit 0 then
    if s.fld (R.C_STATUS n) F.C_STATUS.STATE ≠ 0 then s.coreRefuse n
    else ((s.setFld (R.C_STATUS n) F.C_STATUS.STATE 1).onCore n fun k => { k with waitFence := false, waitDfence := none, waitWrs := none }).coreDrain n true
  else s

/-- CORE_OFFLINE (R410). -/
def execCoreOffline (w : RegW) (n : Fin 96) (s : State) : Host.Outcome State Fault Refusal := s.whileOn (s.onWrite w (R.C_CTL n) (coreOfflineAct n))

/-- Lines a core dirtied last. -/
def State.dirtyOf (s : State) (n : Fin 96) : List Nat := (s.mem.coreLines.filter fun p => p.2.dirty && p.2.owner == some n.val).map (·.1)

/-- A draining core whose stores have been accepted or lost: its dirty lines go home, its clocks are gated. -/
def coreDrained (n : Fin 96) (s : State) : State :=
  if s.fld (R.C_STATUS n) F.C_STATUS.STATE = 1 then
    let s1 := s.coreDrain n true
    if s1.coreWaits n true || s1.unreceipted (.core n) != [] then s1
    else
      let s2 := (s1.dirtyOf n).foldl (fun t a => t.coreClean a) s1
      ((s2.setCore n {}).setFld (R.C_STATUS n) F.C_STATUS.STATE 2).setFld (R.C_CLK n) F.C_CLK.CUR 0
  else s

/-- CORE_DRAINED (R410). -/
def execCoreDrained (n : Fin 96) (s : State) : Host.Outcome State Fault Refusal := s.whileOn (coreDrained n s)

/-- A core's running frequency: the least of its fused maximum, its software cap and its grant (R408, R474). -/
def State.coreClock (s : State) (n : Fin 96) : Nat :=
  let m := s.fld (R.C_CLK n) F.C_CLK.FMAX
  let c := s.fld (R.C_CLK n) F.C_CLK.CAP
  min (Sparse.get m n.val s.power.coreGrant) (if c = 0 then m else min m c)

/-- A core starts from reset with empty buffers (R410). -/
def State.coreStart (s : State) (n : Fin 96) : State :=
  ((s.setCore n {}).setFld (R.C_STATUS n) F.C_STATUS.STATE 0).setFld (R.C_CLK n) F.C_CLK.CUR (s.coreClock n)

/-- C_CTL.ONLINE. -/
def coreOnlineAct (n : Fin 96) (v : Word) (s : State) : State :=
  if v.get 1 0 = 3 then s.coreRefuse n
  else if v.bit 1 then
    if s.fld (R.C_STATUS n) F.C_STATUS.STATE = 3 then s.coreRefuse n
    else if s.fld (R.C_STATUS n) F.C_STATUS.STATE = 2 then s.coreStart n
    else s
  else s

/-- CORE_ONLINE (R410). -/
def execCoreOnline (w : RegW) (n : Fin 96) (s : State) : Host.Outcome State Fault Refusal := s.whileOn (s.onWrite w (R.C_CTL n) (coreOnlineAct n))

/-- A line a failed core held dirty: poisoned at its home, its contents there as they were. -/
def State.poisonLine (s : State) (line : Nat) : State :=
  let s1 := (s.dropCopy .cores line).setPoison line true
  s1.setDir line (some (.sharers ((s1.copies line).filter (· ≠ .cores))))

/-- A core failure that cannot be contained (R411). -/
def coreFailed (n : Fin 96) (s : State) : State :=
  let o := R.C_STATUS n
  if s.fld o F.C_STATUS.STATE = 3 ∨ s.fld o F.C_STATUS.STATE = 2 then s
  else
    let l := s.dirtyOf n
    let s1 := l.foldl (fun t a => t.poisonLine a) s
    let s2 := ((s1.setCore n {}).setFld o F.C_STATUS.STATE 3).setFld o F.C_STATUS.POISONED (min 0xFFFF l.length)
    (s2.setFld (R.C_CLK n) F.C_CLK.CUR 0).raise { status := St.CORE_FAILED, sev := Sev.FATAL_UNIT, kind := Uk.CORE, index := n.val, arg0 := BitVec.ofNat 64 l.length }

/-- CORE_FAILED (R411). -/
def execCoreFailed (n : Fin 96) (s : State) : Host.Outcome State Fault Refusal := s.whileOn (coreFailed n s)

end Sys2Proof.Machine
end

