-- ==== Sys2Proof/Machine/Fabric.lean ====
section
/-!
DEFINITION. Messages between packages (R424-R430): requests taken in pair order and handed to their homes, receipts, refusals,
resends, resynchronisation, and the death of a destination (R367).
-/

namespace Sys2Proof.Machine

/-! ## The package's part in the fabric -/

/-- States of FAB_STATUS (R446). -/
def FabS.OFF : Nat := 0
def FabS.JOINING : Nat := 1
def FabS.MEMBER : Nat := 2
def FabS.MINORITY : Nat := 3
def FabS.LEAVING : Nat := 4

def State.fabState (s : State) : Nat := s.fld R.FAB_STATUS F.FAB_STATUS.STATE
def State.setFabState (s : State) (v : Nat) : State := s.setFld R.FAB_STATUS F.FAB_STATUS.STATE v

/-- Is package `p` in the view (R451)? -/
def State.isMember (s : State) (p : Nat) : Bool := (s.reg (R.FAB_MEMBER (p / 64))).bit (p % 64)
/-- Has this package declared `p` dead (R451)? -/
def State.isDead (s : State) (p : Nat) : Bool := (s.reg (R.FAB_DEAD (p / 64))).bit (p % 64)
def State.setDead (s : State) (p : Nat) (v : Bool) : State :=
  s.setReg (R.FAB_DEAD (p / 64)) ((s.reg (R.FAB_DEAD (p / 64))).put (p % 64) (p % 64) (if v then 1 else 0))
def State.setMember (s : State) (p : Nat) (v : Bool) : State :=
  s.setReg (R.FAB_MEMBER (p / 64)) ((s.reg (R.FAB_MEMBER (p / 64))).put (p % 64) (p % 64) (if v then 1 else 0))

/-- A message leaves the package. -/
def State.fabSend (s : State) (m : FabOut) : State := { s with fab := { s.fab with sent := s.fab.sent ++ [m] } }

def State.pair (s : State) (p : Nat) : FabPair := Sparse.get {} p s.fab.pairs
def State.setPair (s : State) (p : Nat) (x : FabPair) : State := { s with fab := { s.fab with pairs := Sparse.set p x s.fab.pairs } }

/-- The link-loss timer in spans (R445). -/
def State.lossSpans (s : State) : Nat :=
  if s.fld R.FAB_CFG F.FAB_CFG.LOSS_SPANS = 0 then 2 else s.fld R.FAB_CFG F.FAB_CFG.LOSS_SPANS

/-- Have LOSS_SPANS spans of span time gone by since `w`? -/
def State.lossSince (s : State) (w : Word) : Bool := decide (s.lossSpans * 16777216 ≤ (s.spanNow - w).toNat)

/-- A message from package `p` arrives: it has been heard; if it was declared dead, RESYNC goes to it (R430). -/
def State.fabHear (s : State) (p : Nat) : State :=
  let s1 : State := { s with fab := { s.fab with heard := Sparse.set p s.spanNow s.fab.heard } }
  if s.isDead p && !(s.pair p).resynced then (s1.setPair p { resynced := true }).fabSend (.resync p 0) else s1

/-- The distance from `a` forward to `b` among 24-bit pair numbers (R426). -/
def pseqAhead (a b : Nat) : Nat := (b + 16777216 - a % 16777216) % 16777216

/-- Does pair number `a` come before `b`? -/
def pseqBefore (a b : Nat) : Bool := decide (0 < pseqAhead a b ∧ pseqAhead a b < 8388608)

/-! ## Requests from another package (R424, R426) -/

/-- The number by which block records know a unit of another package as a writer (R261). -/
def remoteWriter (p unit : Nat) : Nat := 2 ^ 32 + p * 2048 + unit

/-- A REQ refused (R285, R444): counted, and its source told. -/
def State.fabRefuse (s : State) (p n : Nat) : State := (s.count R.FAB_REFUSED_RX 1).fabSend (.refuse p n)

/-- Writes of package `p` earlier than pair number `n` that no home has accepted. -/
def State.earlierWrites (s : State) (p n : Nat) : List Wr :=
  s.mem.wrs.filter fun w => (match w.src with | .remote q => q.val == p | _ => false) && w.stage == .sent && pseqBefore (w.pseq.getD 0) n

/-- One sector of a WR handed to its home as the fabric's write (R285, R426). -/
def State.handSector (s : State) (p : Pkg) (m : FabIn) (pa mask : Nat) (data : List Byte) (crc : Option Nat) : State :=
  let g := s.region pa
  if s.absent g then s.fabRefuse p m.pseq
  else
    let w : Wr := { id := s.mem.nextId, src := .remote p, dst := g.dst, addr := g.key pa / 64 * 64, mask := mask, data := data, cmd := remoteWriter p m.unit, whole := mask == fullMask && m.unit % 4 == 0, crc := crc, pseq := some m.pseq }
    { s with mem := { s.mem with wrs := s.mem.wrs ++ [w], nextId := s.mem.nextId + 1 } }

/-- The mask of sector `i` of a WR: bits of its byte mask by place in the 256-byte piece, or the whole sector. -/
def wrMask (off i : Nat) : Option Nat → Nat
  | none => fullMask
  | some k => k >>> ((off + 64 * i) % 256 / 64 * 64) % 2 ^ 64

/-- A WR reaches the package's exports (R285): each sector is handed to its home, or stored to quires (R371). -/
def State.handWr (s : State) (p : Pkg) (m : FabIn) (off : Nat) (mask : Option Nat) (data : List Byte) : State :=
  match s.exportAddr off true with
  | none => (s.exportRefuse p off).fabRefuse p m.pseq
  | some pa =>
    (List.range (data.length / 64)).foldl (fun t i =>
      let bs := (data.drop (64 * i)).take 64
      if (t.region pa).isMem then t.handSector p m (pa + 64 * i) (wrMask off i mask) bs none
      else quireSector (.remote p) ((pa + 64 * i) % 0x100000 / 64 * 64) (wrMask off i mask) bs t) s

/-- A WCRC reaches the package's exports (R212). -/
def State.handWcrc (s : State) (p : Pkg) (m : FabIn) (off crc : Nat) : State :=
  match s.exportAddr off true with
  | none => (s.exportRefuse p off).fabRefuse p m.pseq
  | some pa => if (s.region pa).isMem then s.handSector p m pa 0 [] (some crc) else s.fabRefuse p m.pseq

/-- The sectors of an RD read for another package (R285, R429): RD_DATA, poison marked, or REFUSE. -/
def State.answerRd (s : State) (p : Pkg) (m : FabIn) (off nsec : Nat) : State :=
  match s.exportAddr off false with
  | none => (s.exportRefuse p off).fabRefuse p m.pseq
  | some pa =>
    let g := s.region pa
    if !g.isMem then s.fabSend (.rdData p m.pseq (s.quireBytes (off % 0x100000 / 64 * 64) (64 * nsec)) false)
    else if s.absent g then s.fabRefuse p m.pseq
    else
      let lines := (List.range nsec).map fun i => (s.region (pa + 64 * i)).key (pa + 64 * i) / 64 * 64
      let s1 := lines.foldl State.homeShare s
      s1.fabSend (.rdData p m.pseq (lines.flatMap s1.ice) (lines.any s1.poisoned))

/-- A signal of another package is admitted only to a range with REMOTE = 1 (R372): refused, its source is told. -/
def State.remoteSignal (s : State) (p : Pkg) (n q : Nat) (op : QOp) (arg : Nat) : State :=
  if s.remoteOk q then s.quireSignal (.src (.remote p)) op q arg 0
  else ((s.setQuire q ((s.quire q).setFlag Qf.REFUSED)).quireRecord (.src (.remote p)) St.QUIRE_DENIED Sev.INFO q
      (match op with | .add => Qo.ADD | .sub => Qo.SUB | .arrive => Qo.ARRIVE) arg).fabRefuse p n

/-- Does a REQ act on a quire: a QSIG, a MIRROR, or a WR to export entry 4,095? -/
def FabBody.onQuire : FabBody → Bool
  | .wr off _ _ => off / 0x40000000 == 4095
  | .qsig _ _ _ => true
  | .mirror _ _ => true
  | _ => false

/-- May a taken REQ be handed on (R426)? One on a quire waits for every earlier write of the pair; a write waits for the pair's
earlier REQs on quires; a read waits for the earlier writes to its own home. -/
def State.fabReady (s : State) (p : Pkg) (before : List FabIn) (m : FabIn) : Bool :=
  match m.body with
  | .rd off _ =>
    (match s.exportAddr off false with
     | some pa => !(s.held (s.region pa)) && !((s.earlierWrites p m.pseq).any fun w => (s.region w.addr).home == (s.region pa).home)
     | none => true)
  | b =>
    if b.onQuire then s.earlierWrites p m.pseq == [] && !(before.any fun x => match x.body with | .rd _ _ => false | _ => true)
    else !(before.any fun x => x.body.onQuire)

/-- A taken REQ handed on. -/
def State.fabHand (s : State) (p : Pkg) (m : FabIn) : State :=
  match m.body with
  | .wr off mask data => s.handWr p m off mask data
  | .wcrc off crc => s.handWcrc p m off crc
  | .rd off nsec => s.answerRd p m off nsec
  | .qsig q op arg => s.remoteSignal p m.pseq q op arg
  | .mirror q done => s.quireMirror p q done

/-- The taken REQs of package `p`, in order, handed on where they may be. -/
def State.fabServe (p : Pkg) : Nat → List FabIn → State → State
  | 0, _, s => s
  | n + 1, kept, s =>
    match (s.fab.taken.filter fun x => x.1 == p.val).map (·.2) |>.drop kept.length with
    | [] => s
    | m :: _ =>
      if s.fabReady p kept m then
        State.fabServe p n kept (({ s with fab := { s.fab with taken := s.fab.taken.filter fun x => !(x.1 == p.val && x.2.pseq == m.pseq) } } : State).fabHand p m)
      else State.fabServe p n (kept ++ [m]) s

/-- Every taken REQ of `p` that can be is handed on. -/
def State.fabServeAll (s : State) (p : Pkg) : State := State.fabServe p s.fab.taken.length [] s

/-- The pair number below which every REQ of `p` has been accepted or refused (R428). -/
def State.fabDone (s : State) (p : Nat) : Nat :=
  let open_ := ((s.fab.taken.filter fun x => x.1 == p).map (·.2.pseq)) ++
    ((s.mem.wrs.filter fun w => (match w.src with | .remote q => q.val == p | _ => false) && w.stage == .sent).map fun w => w.pseq.getD 0)
  open_.foldl (fun m n => if pseqBefore n m then n else m) (s.pair p).expectIn

/-- RCPT to package `p` when something new has been accepted; accepted writes have their receipt (R428). -/
def State.sendRcpt (s : State) (p : Nat) : State :=
  let n := s.fabDone p
  if n = (s.pair p).rcptSent then s
  else
    let s1 := (s.setPair p { s.pair p with rcptSent := n }).fabSend (.rcpt p n)
    { s1 with mem := { s1.mem with wrs := s1.mem.wrs.filter fun w => !((match w.src with | .remote q => q.val == p | _ => false) && w.stage == .accepted) } }

/-- RCPT at once for every 256 REQ accepted. -/
def State.rcptDue (s : State) (p : Nat) : State :=
  if 256 ≤ pseqAhead (s.pair p).rcptSent (s.fabDone p) then s.sendRcpt p else s

/-- The bytes of a REQ in the reorder buffer: its header slot and payload (R424, R425). -/
def FabBody.bytes : FabBody → Nat
  | .wr _ mask data => 16 + (if mask.isSome then 32 else 0) + data.length
  | .rd _ _ => 16
  | _ => 32

/-- Bytes of early arrivals held, of all sources (R427). -/
def State.earlyBytes (s : State) : Nat := s.fab.pairs.foldl (fun n x => x.2.early.foldl (fun k m => k + m.body.bytes) n) 0

/-- A REQ with the next number of its pair is taken: a leaving package refuses it (R439). -/
def State.fabTake (s : State) (p : Pkg) (m : FabIn) : State :=
  let s1 := s.setPair p { s.pair p with expectIn := (m.pseq + 1) % 16777216, early := (s.pair p).early.filter fun x => x.pseq != m.pseq }
  if s1.fabState = FabS.LEAVING then s1.fabRefuse p m.pseq
  else { s1 with fab := { s1.fab with taken := s1.fab.taken ++ [(p.val, m)] } }

/-- Early arrivals whose turn has come are taken. -/
def State.fabEarly (p : Pkg) : Nat → State → State
  | 0, s => s
  | n + 1, s =>
    match (s.pair p).early.find? fun x => x.pseq == (s.pair p).expectIn with
    | some m => State.fabEarly p n (s.fabTake p m)
    | none => s

/-- A REQ arrives from package `h.src` (R426, R427, R430, R444): refused from a non-member, discarded from a package being
resynchronised or when a copy was taken already, taken in its turn, held early, or discarded with NAK_E2E for want of room. -/
def fabArrive (h : FabHdr) (body : FabBody) (s : State) : State :=
  if s.fabState = FabS.OFF then s
  else
    let p := h.src
    let s1 := s.fabHear p
    let m : FabIn := { pseq := h.pseq.toNat, unit := h.unit.toNat, body := body }
    let x := s1.pair p
    if !s1.isMember p then s1.fabRefuse p m.pseq
    else if s1.isDead p then s1
    else if m.pseq = x.expectIn then
      let s2 := s1.fabTake p m
      ((State.fabEarly p (s2.pair p).early.length s2).fabServeAll p).rcptDue p
    else if pseqBefore m.pseq x.expectIn ∨ (x.early.any fun e => e.pseq == m.pseq) then s1
    else if s1.earlyBytes + body.bytes ≤ 0x1000000 then s1.setPair p { x with early := x.early ++ [m] }
    else s1.fabSend (.nak p x.expectIn)

/-- WR (R426). -/
def execWr (h : FabHdr) (off : BitVec 42) (mask : Option (BitVec 256)) (data : List Byte) (s : State) : Host.Outcome State Fault Refusal :=
  s.whileOn (fabArrive h (.wr off.toNat (mask.map (·.toNat)) data) s)

/-- WCRC (R212). -/
def execWcrc (h : FabHdr) (off : BitVec 42) (crc : BitVec 32) (s : State) : Host.Outcome State Fault Refusal :=
  s.whileOn (fabArrive h (.wcrc off.toNat crc.toNat) s)

/-- RD (R429). -/
def execRd (h : FabHdr) (off : BitVec 42) (nsec : Fin 4) (s : State) : Host.Outcome State Fault Refusal :=
  s.whileOn (fabArrive h (.rd off.toNat (nsec.val + 1)) s)

/-- QSIG (R426). -/
def execQsig (h : FabHdr) (q : Quire) (op : QOp) (v : BitVec 32) (s : State) : Host.Outcome State Fault Refusal :=
  s.whileOn (fabArrive h (.qsig q.val op v.toNat) s)

/-- MIRROR (R386). -/
def execMirror (h : FabHdr) (q : Quire) (d : BitVec 32) (s : State) : Host.Outcome State Fault Refusal :=
  s.whileOn (fabArrive h (.mirror q.val d.toNat) s)

/-- The receipt timer of a pair (R428). -/
def rcptTimer (p : Pkg) (s : State) : State := (s.fabServeAll p).sendRcpt p

/-- RCPT_TIMER (R428). -/
def execRcptTimer (t : Moment) (p : Pkg) (s : State) : Host.Outcome State Fault Refusal := s.whileOn (rcptTimer p (s.atTime t))

/-! ## Answers from another package -/

/-- An answer of package `p` to this package's requests, while it takes part in the fabric. -/
def State.onRsp (s : State) (p : Pkg) (act : State → State) : State := if s.fabState = FabS.OFF then s else act (s.fabHear p)

/-- RD_DATA (R429): the read it answers has its sectors. -/
def execRdData (p : Pkg) (pseq : BitVec 24) (data : List Byte) (poison : Bool) (s : State) : Host.Outcome State Fault Refusal :=
  s.whileOn (s.onRsp p fun t => { t with fab := { t.fab with rds := t.fab.rds.map fun r => if (t.region r.addr).dst = Dst.pkg p ∧ r.pseq = pseq.toNat ∧ r.data = none then { r with data := some data, poison := poison } else r } })

/-- RCPT (R428): every REQ of the pair below the number it carries is receipted. -/
def rcpt (p : Pkg) (n : Nat) (s : State) : State :=
  { s with mem := { s.mem with wrs := s.mem.wrs.filter fun w => !(w.dst == Dst.pkg p && pseqBefore (w.pseq.getD 0) n) }, sync := { s.sync with qsigs := s.sync.qsigs.filter fun g => !(g.pkg == some p && p.val != s.pkg && pseqBefore (g.pseq.getD 0) n) } }

/-- RCPT (R428). -/
def execRcpt (p : Pkg) (pseq : BitVec 24) (s : State) : Host.Outcome State Fault Refusal := s.whileOn (s.onRsp p (rcpt p pseq.toNat))

/-- A REQ of this package refused (R286): a lost write, signal or failed read. -/
def fabRefused (p : Pkg) (n : Nat) (s : State) : State :=
  let ws := s.mem.wrs.filter fun w => w.dst == Dst.pkg p && w.pseq == some n
  let gs := s.sync.qsigs.filter fun g => g.pkg == some p && g.pseq == some n
  let s1 := ws.foldl (fun t w => (t.loseWrite w.src w.cmd p).dropWr w.id) s
  let s2 := gs.foldl (fun t g => t.loseWrite g.src 0 p) s1
  { s2 with sync := { s2.sync with qsigs := s2.sync.qsigs.filter fun g => !(g.pkg == some p && g.pseq == some n) }, fab := { s2.fab with rds := s2.fab.rds.map fun r => if (s2.region r.addr).dst = Dst.pkg p ∧ r.pseq = n then { r with refused := true } else r } }

/-- A joining package whose JOIN the leader answers with REFUSE records it (R438). -/
def State.joinRefused (s : State) (p : Nat) : State :=
  if s.fabState = FabS.JOINING ∧ !s.fab.refused.contains p then
    { s with fab := { s.fab with refused := p :: s.fab.refused } }.raise { status := St.FAB_JOIN_REFUSED, sev := Sev.DEFERRED, kind := Uk.FABRIC, pkg := p, hasPkg := true }
  else s

/-- REFUSE (R286). -/
def execRefuse (p : Pkg) (pseq : BitVec 24) (s : State) : Host.Outcome State Fault Refusal :=
  s.whileOn (s.onRsp p fun t => (fabRefused p pseq.toNat t).joinRefused p)

/-- The REQs to package `p` this package still holds from number `n` on (R427). -/
def State.heldFrom (s : State) (p : Pkg) (n : Nat) : Nat :=
  (s.mem.wrs.filter fun w => w.dst == Dst.pkg p && !(pseqBefore (w.pseq.getD 0) n)).length +
  (s.sync.qsigs.filter fun g => g.pkg == some p && !(pseqBefore (g.pseq.getD 0) n)).length +
  (s.fab.rds.filter fun r => (s.region r.addr).dst == Dst.pkg p && r.data == none && !r.refused && !(pseqBefore r.pseq n)).length

/-- NAK_E2E (R427): the REQs from the number named are sent again. -/
def execNakE2e (p : Pkg) (pseq : BitVec 24) (s : State) : Host.Outcome State Fault Refusal :=
  s.whileOn (s.onRsp p fun t => if t.heldFrom p pseq.toNat = 0 then t else t.count R.FAB_E2E_RESEND (t.heldFrom p pseq.toNat))

/-! ## Death and return of a destination (R367, R430) -/

/-- Every REQ held toward package `p` is discarded as lost. -/
def State.discardTo (s : State) (p : Pkg) : State :=
  let ws := s.mem.wrs.filter fun w => w.dst == Dst.pkg p && p.val != s.pkg
  let gs := s.sync.qsigs.filter fun g => g.pkg == some p && p.val != s.pkg
  let s1 := ws.foldl (fun t w => (t.loseWrite w.src w.cmd p).dropWr w.id) s
  let s2 := gs.foldl (fun t g => t.loseWrite g.src 0 p) s1
  { s2 with sync := { s2.sync with qsigs := s2.sync.qsigs.filter fun g => !(g.pkg == some p && p.val != s2.pkg) }, fab := { s2.fab with rds := s2.fab.rds.filter fun r => (s2.region r.addr).dst != Dst.pkg p } }

/-- Destination `p` is declared dead (R367, R430). -/
def State.declareDead (s : State) (p : Pkg) : State :=
  if s.isDead p ∨ p.val = s.pkg then s
  else
    let s1 := s.discardTo p
    let s2 : State := { s1 with fab := { s1.fab with pairs := Sparse.del p.val s1.fab.pairs } }
    ((s2.setDead p true).count R.FAB_DEAD_DECL 1).raise { status := St.DELIVERY_LOST, sev := Sev.DEFERRED, kind := Uk.FABRIC, pkg := p.val, hasPkg := true }

/-- Does this package hold an unreceipted REQ to package `p`? -/
def State.holdsReq (s : State) (p : Pkg) : Bool :=
  (s.mem.wrs.any fun w => w.dst == Dst.pkg p) || (s.sync.qsigs.any fun g => g.pkg == some p) || (s.fab.rds.any fun r => (s.region r.addr).dst == Dst.pkg p && r.data == none)

/-- DESTINATION_DEAD (R367): an unreceipted REQ, and nothing heard for LOSS_SPANS spans (R430). -/
def destinationDead (p : Pkg) (s : State) : State :=
  if s.holdsReq p && p.val != s.pkg && s.lossSince (Sparse.get 0 p.val s.fab.heard) then s.declareDead p else s

/-- DESTINATION_DEAD (R367). -/
def execDestinationDead (t : Moment) (p : Pkg) (s : State) : Host.Outcome State Fault Refusal := s.whileOn (destinationDead p (s.atTime t))

/-- RESYNC (R430): both packages have named the first numbers of the new pair states; REQs of an old state are lost. -/
def resync (p : Pkg) (first : Nat) (s : State) : State :=
  let s1 := if (s.pair p).resynced then s else ((s.discardTo p).setPair p {}).fabSend (.resync p 0)
  let x := s1.pair p
  (({ s1 with fab := { s1.fab with taken := s1.fab.taken.filter fun y => y.1 != p.val } } : State).setPair p { x with expectIn := first, rcptSent := first, early := [], resynced := false }).setDead p false

/-- RESYNC (R430). -/
def execResync (p : Pkg) (first : BitVec 24) (s : State) : Host.Outcome State Fault Refusal := s.whileOn (s.onRsp p (resync p first.toNat))

end Sys2Proof.Machine
end

