-- ==== Sys2Proof/Machine/Ports.lean ====
section
/-!
DEFINITION. The fabric ports (R417-R423, R442): light, training, flits, lanes removed, drift mode, and entering and leaving the
fabric.
-/

namespace Sys2Proof.Machine

/-- States of FAB_PORT_n (R449). -/
def PortS.DOWN : Nat := 0
def PortS.TRAINING : Nat := 1
def PortS.UP : Nat := 2
def PortS.DRIFT : Nat := 3

def State.port (s : State) (n : Nat) : PortSt := Sparse.get {} n s.fab.ports
def State.setPort (s : State) (n : Nat) (x : PortSt) : State := { s with fab := { s.fab with ports := Sparse.set n x s.fab.ports } }
def State.portState (s : State) (n : Nat) : Nat := s.fld (R.FAB_PORT n) F.FAB_PORT.STATE
def State.setPortState (s : State) (n v : Nat) : State := s.setFld (R.FAB_PORT n) F.FAB_PORT.STATE v
def State.portLanes (s : State) (n : Nat) : Nat := s.fld (R.FAB_PORT n) F.FAB_PORT.LANES

/-- Is the binding image applied (R550)? -/
def State.bound (s : State) : Bool := s.fld R.BIND_STATUS F.BIND_STATUS.STATE == 2

/-- Is LASER_EN driven high (R418)? -/
def State.laserOn (s : State) : Bool := s.bound && s.flag R.FAB_CFG F.FAB_CFG.LASER_ON

/-- Does a port carry traffic? -/
def State.portUp (s : State) (n : Nat) : Bool := s.portState n == PortS.UP || s.portState n == PortS.DRIFT

/-- A port out of service: no lane, its link logic afresh. -/
def State.portDown (s : State) (n : Nat) : State :=
  ((s.setPortState n PortS.DOWN).setFld (R.FAB_PORT n) F.FAB_PORT.LANES 0).setPort n { s.port n with training := false, expect := 0, awaiting := false, fails := 0 }

/-- May the port train: the package takes part, its laser is on, its engine in service and lit? -/
def State.portMay (s : State) (n : Nat) : Bool :=
  s.fabState != FabS.OFF && s.laserOn && !s.fab.oeOut.contains (n / 2) && !(s.port n).dark

/-- A port begins to train (R419, R423); a retrain shows in LINK_ERR. -/
def State.portTrain (s : State) (n : Nat) (again : Bool) : State :=
  if s.portMay n then
    let s1 := (s.setPortState n PortS.TRAINING).setPort n { s.port n with training := true, expect := 0, awaiting := false, fails := 0 }
    if again then s1.setFld (R.FAB_PORT n) F.FAB_PORT.LINK_ERR 1 else s1
  else s

/-- Every port trains that is down and may. -/
def State.portsStart (s : State) : State :=
  (List.range 16).foldl (fun t n => if t.portState n = PortS.DOWN then t.portTrain n false else t) s

/-- The lowest lane in service, alone: what a port in drift mode runs (R442). -/
def oneLane (lanes : Nat) : Nat := if lanes.testBit 0 then 1 else if lanes.testBit 1 then 2 else if lanes.testBit 2 then 4 else if lanes.testBit 3 then 8 else 0

/-- A port enters drift mode. -/
def State.portDrift (s : State) (n : Nat) : State :=
  let s1 := s.setPort n { s.port n with drift := true }
  if s1.portUp n then (s1.setPortState n PortS.DRIFT).setFld (R.FAB_PORT n) F.FAB_PORT.LANES (oneLane (s1.portLanes n)) else s1

/-- A port leaves drift mode: its lanes retrain while it carries traffic on its one lane. -/
def State.portFull (s : State) (n : Nat) : State :=
  let x := s.port n
  if s.portState n = PortS.DRIFT then (s.setPort n { x with drift := false, training := true }).setFld (R.FAB_PORT n) F.FAB_PORT.LINK_ERR 1
  else s.setPort n { x with drift := false }

def State.allDrift (s : State) : State := (List.range 16).foldl State.portDrift s
def State.allFull (s : State) : State := (List.range 16).foldl State.portFull s

/-- An optical engine loses its light for 1 ms: both its ports leave service (R418, R27). -/
def lightLoss (oe : Fin 8) (s : State) : State :=
  if (s.port (2 * oe.val)).dark ∨ s.fabState = FabS.OFF ∨ s.fab.oeOut.contains oe.val then s
  else
    let s1 := [2 * oe.val, 2 * oe.val + 1].foldl (fun t n => t.portDown n) s
    let s2 := [2 * oe.val, 2 * oe.val + 1].foldl (fun t n => t.setPort n { t.port n with dark := true }) s1
    s2.raise { status := St.FAB_NO_LIGHT, sev := Sev.DEFERRED, kind := Uk.OE, index := oe.val }

/-- LIGHT_LOSS (R418). -/
def execLightLoss (oe : Fin 8) (s : State) : Host.Outcome State Fault Refusal := s.whileOn (lightLoss oe s)

/-- Light returns and the engine's ports retrain (R418). -/
def lightReturn (oe : Fin 8) (s : State) : State :=
  if (s.port (2 * oe.val)).dark then
    [2 * oe.val, 2 * oe.val + 1].foldl (fun t n => (t.setPort n { t.port n with dark := false }).portTrain n true) s
  else s

/-- LIGHT_RETURN (R418). -/
def execLightReturn (oe : Fin 8) (s : State) : Host.Outcome State Fault Refusal := s.whileOn (lightReturn oe s)

/-- A lane removed from a port (R419): the port narrows, or with no lane left leaves service. -/
def State.laneOut (s : State) (n : Nat) (i : Nat) : State :=
  let l := s.portLanes n
  if l.testBit i then
    let s1 := (s.setFld (R.FAB_PORT n) F.FAB_PORT.LANES (l - 2 ^ i)).setFld (R.FAB_PORT n) F.FAB_PORT.LINK_ERR 1
    if l - 2 ^ i = 0 then s1.portDown n else s1
  else s

/-- A flit at a port (R420, R421): codewords corrected; taken when intact and in order; else discarded with a NAK and replayed,
the eighth failure in a row retraining the port; `lane` is one that has needed more than eight replays in 1 ms (R419). -/
def fabricFlit (n : Fin 16) (seq corrected : Nat) (intact : Bool) (lane : Option (Fin 4)) (s : State) : State :=
  if s.portUp n then
    let x := s.port n
    let s0 := if corrected = 0 then s else s.count R.FAB_FEC_CORR corrected
    let s1 :=
      if intact && seq == x.expect then s0.setPort n { x with expect := (x.expect + 1) % 4096, awaiting := false, fails := 0 }
      else if x.awaiting && seq != x.expect then s0
      else
        let s2 := (s0.setPort n { x with awaiting := true, fails := x.fails + 1 }).count R.FAB_REPLAYS 1
        if 8 ≤ x.fails + 1 then s2.portTrain n true else s2
    match lane with
    | some i => s1.laneOut n i
    | none => s1
  else s

/-- FABRIC_FLIT (R421). -/
def execFabricFlit (n : Fin 16) (seq : BitVec 12) (corrected : Nat) (intact : Bool) (lane : Option (Fin 4)) (s : State) : Host.Outcome State Fault Refusal :=
  s.whileOn (fabricFlit n seq.toNat corrected intact lane s)

/-- HELLO fixes the highest common Zoino version; with none the port stays down (R423). -/
def hello (n : Fin 16) (versions : Word) (s : State) : State :=
  if (s.port n).training then
    if versions.bit 0 then s.setFld (R.FAB_PORT n) F.FAB_PORT.VERSION 1
    else ((s.portDown n).setFld (R.FAB_PORT n) F.FAB_PORT.VERSION 0).raise { status := St.FAB_VERSION, sev := Sev.DEFERRED, kind := Uk.PORT, index := n.val }
  else s

/-- HELLO (R423). -/
def execHello (n : Fin 16) (versions : BitVec 16) (s : State) : Host.Outcome State Fault Refusal := s.whileOn (hello n (BitVec.ofNat 64 versions.toNat) s)

/-- A port's training ends on the lanes that trained (R419, R421, R442): none, or no version in common, and it stays down. -/
def portTrainingDone (n : Fin 16) (lanes : Nat) (s : State) : State :=
  let x := s.port n
  if x.training then
    if lanes = 0 ∨ !s.flag (R.FAB_PORT n) F.FAB_PORT.VERSION then s.portDown n
    else
      let s1 := s.setPort n { x with training := false }
      let s2 := (s1.setPortState n (if x.drift then PortS.DRIFT else PortS.UP)).setFld (R.FAB_PORT n) F.FAB_PORT.LANES (if x.drift then oneLane lanes else lanes)
      if lanes = 15 then s2 else s2.setFld (R.FAB_PORT n) F.FAB_PORT.LINK_ERR 1
  else s

/-- PORT_TRAINING_DONE (R419). -/
def execPortTrainingDone (n : Fin 16) (lanes : BitVec 4) (s : State) : Host.Outcome State Fault Refusal := s.whileOn (portTrainingDone n lanes.toNat s)

/-! ## Taking part (R438, R439, R445) -/

/-- The package begins to join, with its image applied and ENABLE = 1 (R438). -/
def State.fabJoin (s : State) : State :=
  if s.bound && s.flag R.FAB_CFG F.FAB_CFG.ENABLE then (if s.fabState = FabS.OFF then s.setFabState FabS.JOINING else s).portsStart else s

/-- Every package is out of the view this package shows. -/
def State.noMembers (s : State) : State := (List.range 128).foldl (fun t i => t.setReg (R.FAB_MEMBER i) 0) s

/-- The package has left the fabric (R439): REQs still unreceipted are lost, its ports are in drift mode. -/
def State.fabLeft (s : State) : State :=
  let ps := (s.mem.wrs.filterMap fun w => match w.dst with | .pkg p => if p.val = s.pkg then none else some p | _ => none) ++ s.sync.qsigs.filterMap (·.pkg) ++
    (s.fab.rds.filterMap fun r => match (s.region r.addr).dst with | .pkg p => some p | _ => none)
  let s1 := (ps.foldl State.discardTo s).noMembers
  let s2 : State := { s1 with fab := { s1.fab with pairs := [], taken := [], views := [], joins := [], votes := [] } }
  (((((s2.setFabState FabS.OFF).setFld R.FAB_STATUS F.FAB_STATUS.LEADER 0).setFld R.FAB_STATUS F.FAB_STATUS.ANCHOR 0).setFld R.FAB_STATUS F.FAB_STATUS.FROZEN 0).setReg R.FAB_PENDING 0).allDrift

/-- A write of FAB_CFG (R445): identity fields change only while STATE is OFF. -/
def fabCfgAct (v : Word) (s : State) : State :=
  let old := s.reg R.FAB_CFG
  let off := s.fabState == FabS.OFF
  let s1 := if off then s.plainWrite R.FAB_CFG v else s.plainWriteBut R.FAB_CFG v [F.FAB_CFG.PKG, F.FAB_CFG.VOTES, F.FAB_CFG.ANCHOR_ELIG]
  let s2 := if !off && v.get 19 2 != old.get 19 2 then s1.raiseReg St.FAB_CFG_BUSY R.FAB_CFG else s1
  let s3 := if off || s2.flag R.FAB_CFG F.FAB_CFG.ENABLE then s2 else s2.fabLeft
  if s3.laserOn then s3.fabJoin else (List.range 16).foldl State.portDown s3.fabJoin

/-- FAB_CFG_WRITE (R445). -/
def execFabCfgWrite (w : RegW) (s : State) : Host.Outcome State Fault Refusal := s.whileOn (s.onWrite w R.FAB_CFG fabCfgAct)

/-- A write of FAB_CTL carries out one action: with more than one of bits [5:0], or where the action refuses, it does nothing
and places a record (R444, R447). -/
def fabCtl (bit_ : Nat) (act : Word → State → Option State) (v : Word) (s : State) : State :=
  if v.get 5 0 = 2 ^ bit_ then (match act v s with | some t => t | none => s.raiseReg St.FAB_CTL_REFUSED R.FAB_CTL)
  else if v.get 5 0 ≠ 0 ∧ v.bit bit_ then s.raiseReg St.FAB_CTL_REFUSED R.FAB_CTL
  else s

/-- DRIFT (R442). -/
def execDrift (w : RegW) (s : State) : Host.Outcome State Fault Refusal :=
  s.whileOn (s.onWrite w R.FAB_CTL (fabCtl 3 fun _ t => some t.allDrift))

/-- FULL (R442). -/
def execFull (w : RegW) (s : State) : Host.Outcome State Fault Refusal :=
  s.whileOn (s.onWrite w R.FAB_CTL (fabCtl 4 fun _ t => some t.allFull))

/-- THAW (R437): only as a member. -/
def execThaw (w : RegW) (s : State) : Host.Outcome State Fault Refusal :=
  s.whileOn (s.onWrite w R.FAB_CTL (fabCtl 2 fun _ t => if t.fabState = FabS.MEMBER then some (t.setFld R.FAB_STATUS F.FAB_STATUS.FROZEN 0) else none))

end Sys2Proof.Machine
end

