-- ==== Sys2Proof/Machine/Member.lean ====
section
/-!
DEFINITION. Span time over the fabric (R431), membership (R433-R439) and pace (R440, R441).
-/

namespace Sys2Proof.Machine

/-! ## Span over the fabric -/

/-- A plane's estimate of the boundary's moment: arrival less CORRECTION and the plane's delay, in 1/16 ns. -/
def State.planeEst (s : State) (a : SpanArr) : Int := (a.at_ : Int) - a.corr / 4096 - (s.fld (R.FAB_PORT a.port) F.FAB_PORT.DELAY : Int)

/-- A list of numbers in rising order. -/
def sortInt : List Int → List Int
  | [] => []
  | x :: r => let l := sortInt r; (l.filter fun y => decide (y < x)) ++ x :: (l.filter fun y => decide (x ≤ y))

/-- The median: the middle one, or the mean of the middle two. -/
def median (l : List Int) : Int :=
  let v := sortInt l
  let n := v.length
  if n % 2 = 1 then v.getD (n / 2) 0 else (v.getD (n / 2 - 1) 0 + v.getD (n / 2) 0) / 2

/-- The anchor's SPAN for a boundary has come over the planes listed (R431, R444): the median of those within 20 ns of the
median of all is the reference event (R33, R37); another view's is ignored and counted. -/
def spanMessage (view count : Nat) (arr : List SpanArr) (s : State) : State :=
  let here := arr.filter fun a => s.portUp a.port
  if s.fabState = FabS.OFF ∨ here = [] then s
  else if s.fabState ≠ FabS.JOINING ∧ view ≠ s.fld R.FAB_STATUS F.FAB_STATUS.VIEW then s.count R.FAB_SPAN_REJ 1
  else if s.onFabric && !s.flag R.FAB_STATUS F.FAB_STATUS.ANCHOR then
    let est := here.map s.planeEst
    let m := median est
    let keep := est.filter fun e => decide ((e - m).natAbs ≤ 320)
    let s1 := if keep.length < est.length then s.count R.FAB_SPAN_REJ (est.length - keep.length) else s
    let at_ := min s1.now (median keep).toNat
    let s2 := s1.refEvent (s1.countOffset count at_)
    ({ s2 with span := { s2.span with refCount := some count } } : State).spanMeasure at_ (some count)
  else s

/-- SPAN (R431). -/
def execSpan (t : Moment) (view : BitVec 32) (count : BitVec 40) (arr : List SpanArr) (s : State) : Host.Outcome State Fault Refusal :=
  s.whileOn (spanMessage view.toNat count.toNat arr (s.atTime t))

/-- The anchor answers DELAY_REQ (R431). -/
def execDelayReq (t : Moment) (p : Pkg) (port : Fin 16) (at_ : Word) (corr : Int) (s : State) : Host.Outcome State Fault Refusal :=
  s.whileOn (let s0 := s.atTime t
    if s0.fabState ≠ FabS.OFF ∧ s0.flag R.FAB_STATUS F.FAB_STATUS.ANCHOR then
      (s0.fabHear p).fabSend (.delayRsp p port at_ corr s0.spanNow s0.spanNow)
    else s0)

/-- DELAY_RSP gives a plane's delay: half the round trip, less the anchor's turn-round and both directions' corrections
(R431); in 1/16 ns, at most what the field holds. -/
def delayRsp (port : Fin 16) (at_ : Word) (corr : Int) (recv send : Word) (back : Int) (s : State) : State :=
  if s.fabState ≠ FabS.OFF ∧ (s.port port).reqAt = some at_ then
    let trip : Int := ((s.spanNow - at_).toNat * s.span.len / 16777216 : Nat) - ((send - recv).toNat * s.span.len / 16777216 : Nat) - (corr + back) / 4096
    (s.setPort port { s.port port with reqAt := none }).setFld (R.FAB_PORT port) F.FAB_PORT.DELAY (min 65535 (trip.toNat / 2))
  else s

/-- DELAY_RSP (R431). -/
def execDelayRsp (t : Moment) (port : Fin 16) (at_ : Word) (corr : Int) (recv send : Word) (back : Int) (s : State) : Host.Outcome State Fault Refusal :=
  s.whileOn (delayRsp port at_ corr recv send back (s.atTime t))

/-! ## Views -/

/-- The packages of the view. -/
def State.members (s : State) : List Nat := (List.range 128).flatMap fun i =>
  if s.reg (R.FAB_MEMBER i) = 0 then [] else (List.range 64).filterMap fun j => if (s.reg (R.FAB_MEMBER i)).bit j then some (64 * i + j) else none

def State.leaderPkg (s : State) : Nat := s.fld R.FAB_STATUS F.FAB_STATUS.LEADER_PKG
def State.isLeader (s : State) : Bool := s.flag R.FAB_STATUS F.FAB_STATUS.LEADER
def State.ownVotes (s : State) : Nat := s.fld R.FAB_CFG F.FAB_CFG.VOTES

/-- The votes of a package, as its last MEMBER gave them. -/
def State.votesOf (s : State) (p : Nat) : Nat := if p = s.pkg then s.ownVotes else Sparse.get 0 p s.fab.votes

/-- Has a MEMBER come from `p` within LOSS_SPANS spans (R434)? -/
def State.reached (s : State) (p : Nat) : Bool :=
  p == s.pkg || (match Sparse.find p s.fab.memberAt with | some w => !s.lossSince w | none => false)

/-- FAB_PENDING brought to the joiners waiting (R448). -/
def State.pendingShow (s : State) : State :=
  let l := s.fab.joins
  s.setReg R.FAB_PENDING (((0 : Word).put 13 0 l.length).put 26 14 (match l with | [] => 0 | a :: r => r.foldl min a))

/-- The leader announces the next view: the members kept, those added, those removed, at boundary `at_` (R433). -/
def State.sendView (s : State) (anchor : Nat) (add remove : List Nat) (at_ : Word) : State :=
  let keep := s.members.filter fun p => !remove.contains p
  let all := keep ++ add.filter fun p => !keep.contains p
  let pk := fun (p : Nat) => (⟨p % 8192, Nat.mod_lt _ (by decide)⟩ : Pkg)
  let voters := all.filter fun p => s.votesOf p != 0
  let v : ViewMsg := { number := BitVec.ofNat 32 (s.fld R.FAB_STATUS F.FAB_STATUS.VIEW + s.fab.views.length + 1), leader := pk (voters.foldl min (voters.headD s.pkg)), anchor := pk anchor, votes := (all.map s.votesOf).sum, boundary := at_, entries := (all.map fun p => (pk p, true)) ++ remove.map fun p => (pk p, false) }
  let s1 := ((s.members ++ add).filter fun p => p != s.pkg).foldl (fun t p => t.fabSend (.view p v)) s
  { s1 with fab := { s1.fab with views := s1.fab.views ++ [v] } }

/-- The anchor of the view: this package, or the one last named. -/
def State.anchorPkg (s : State) : Nat := s.fab.anchor

/-- A span boundary `k` boundaries after now. -/
def State.boundaryAfter (s : State) (k : Nat) : Word := BitVec.ofNat 64 ((s.spanNow.toNat / 16777216 + k) * 16777216)

/-- The package enters the minority (R436). -/
def State.minority (s : State) : State :=
  if s.fabState = FabS.MINORITY then s
  else
    let s1 := (((s.setFabState FabS.MINORITY).setFld R.FAB_STATUS F.FAB_STATUS.FROZEN 1).setFld R.FAB_STATUS F.FAB_STATUS.LEADER 0).allDrift
    let out := s1.members.filter fun p => p != s1.pkg && s1.lossSince (Sparse.get 0 p s1.fab.heard)
    let s2 := out.foldl (fun t p => if h : p < 8192 then t.declareDead ⟨p, h⟩ else t) s1
    s2.raiseHub Sev.DEFERRED St.FAB_MINORITY Uk.FABRIC

/-- A VIEW is received (R433): held until its boundary; it answers a minority package's JOIN (R437). -/
def viewMessage (v : ViewMsg) (s : State) : State :=
  if s.fabState = FabS.OFF ∨ v.number.toNat ≤ s.fld R.FAB_STATUS F.FAB_STATUS.VIEW then s
  else
    let s0 := s.fabHear v.leader
    let s1 : State := { s0 with fab := { s0.fab with leaderAt := s0.spanNow, views := if s0.fab.views.any (fun x => x.number == v.number) then s0.fab.views else s0.fab.views ++ [v] } }
    if s.fabState = FabS.MINORITY ∧ v.entries.contains (s.ownPkg, true) then s1.allFull else s1

/-- VIEW (R433). -/
def execView (t : Moment) (v : ViewMsg) (s : State) : Host.Outcome State Fault Refusal := s.whileOn (viewMessage v (s.atTime t))

/-- A package added by a view: its pair state starts afresh (R438, R430). -/
def State.addMember (s : State) (p : Pkg) : State :=
  if s.isMember p then s
  else
    let s1 := (s.setMember p true).setDead p false
    if p.val = s.pkg then s1
    else
      let s2 : State := { s1 with fab := { s1.fab with heard := Sparse.set p.val s1.spanNow s1.fab.heard, memberAt := Sparse.set p.val s1.spanNow s1.fab.memberAt } }
      (s2.setPair p { resynced := true }).fabSend (.resync p 0)

/-- A package removed by a view: it is declared dead (R430). -/
def State.removeMember (s : State) (p : Pkg) : State :=
  if s.isMember p then (if p.val = s.pkg then s else s.declareDead p).setMember p false else s

/-- A view adopted (R433, R435-R439). -/
def State.adopt (s : State) (v : ViewMsg) : State :=
  let s1 := v.entries.foldl (fun t e => if e.2 then t.addMember e.1 else t.removeMember e.1) s
  let me := s1.isMember s1.pkg
  let s2 := (((((s1.setFld R.FAB_STATUS F.FAB_STATUS.VIEW v.number.toNat).setFld R.FAB_STATUS F.FAB_STATUS.VOTE_TOTAL v.votes).setFld R.FAB_STATUS F.FAB_STATUS.LEADER_PKG v.leader).setFld
    R.FAB_STATUS F.FAB_STATUS.LEADER (if me ∧ v.leader.val = s1.pkg then 1 else 0)).setFld R.FAB_STATUS F.FAB_STATUS.ANCHOR (if me ∧ v.anchor.val = s1.pkg then 1 else 0))
  let s3 : State := { s2 with fab := { s2.fab with anchor := v.anchor, leaderAt := s2.spanNow, views := s2.fab.views.filter (fun x => decide (v.number.toNat < x.number.toNat)), joins := s2.fab.joins.filter fun p => !s2.isMember p } }
  let s4 := s3.pendingShow
  if me then (if s4.fabState = FabS.JOINING ∨ s4.fabState = FabS.MINORITY then (s4.setFabState FabS.MEMBER).allFull else s4)
  else if s4.fabState = FabS.LEAVING then s4.fabLeft
  else if s4.fabState = FabS.MEMBER then s4.minority
  else s4

/-- Span time has reached a view's boundary: the lowest-numbered such view is adopted (R433). -/
def viewAdopt (s : State) : State :=
  match s.fab.views.filter fun v => stampReached v.boundary s.spanNow with
  | [] => s
  | v :: r => s.adopt (r.foldl (fun b x => if x.number.toNat < b.number.toNat then x else b) v)

/-- VIEW_ADOPT (R433). -/
def execViewAdopt (t : Moment) (s : State) : Host.Outcome State Fault Refusal := s.whileOn (viewAdopt (s.atTime t))

/-! ## Joining, leaving, silence -/

/-- May the leader let the package join (R438)? -/
def State.mayJoin (s : State) (p : Nat) (votes : Nat) (versions : Word) : Bool :=
  !s.isMember p && versions.bit 0 && (votes == 0 || decide ((s.members.filter fun q => s.votesOf q != 0).length < 64))

/-- A JOIN at the leader (R438): pending, or refused with a record on both packages. -/
def State.joinAsked (s : State) (p : Nat) (votes : Nat) (versions : Word) : State :=
  if s.mayJoin p votes versions then
    (if s.fab.joins.contains p then s else { s with fab := { s.fab with joins := s.fab.joins ++ [p] } }.pendingShow)
  else if s.fab.refused.contains p then s.fabSend (.refuse p 0)
  else ({ s with fab := { s.fab with refused := p :: s.fab.refused } }.raise { status := St.FAB_JOIN_REFUSED, sev := Sev.DEFERRED, kind := Uk.FABRIC, pkg := p, hasPkg := true }).fabSend (.refuse p 0)

/-- A MEMBER message (R434, R438, R439): its sender is reached; a JOIN or LEAVE goes to the leader. -/
def memberMessage (p : Pkg) (votes : Nat) (join leave : Bool) (versions : Word) (at_ : Word) (s : State) : State :=
  if s.fabState = FabS.OFF then s
  else
    let s0 := s.fabHear p
    let s1 : State := { s0 with fab := { s0.fab with memberAt := Sparse.set p.val s0.spanNow s0.fab.memberAt, votes := Sparse.set p.val votes s0.fab.votes, leaderAt := if p.val = s0.leaderPkg then s0.spanNow else s0.fab.leaderAt } }
    if join && s1.isLeader then s1.joinAsked p votes versions
    else if leave && s1.isLeader && s1.isMember p then s1.sendView s1.anchorPkg [] [p.val] at_
    else s1

/-- MEMBER (R434). -/
def execMember (t : Moment) (p : Pkg) (votes : Fin 16) (join leave : Bool) (versions : BitVec 16) (at_ : Word) (s : State) : Host.Outcome State Fault Refusal :=
  s.whileOn (memberMessage p votes.val join leave (BitVec.ofNat 64 versions.toNat) at_ (s.atTime t))

/-- The votes of the part this package reaches (R435). -/
def State.partVotes (s : State) : Nat := ((s.members.filter s.reached).map s.votesOf).sum

/-- Does the part continue (R435)? -/
def State.partContinues (s : State) : Bool :=
  let t := s.fld R.FAB_STATUS F.FAB_STATUS.VOTE_TOTAL
  decide (t < 2 * s.partVotes) || (2 * s.partVotes == t && s.reached s.anchorPkg && s.isMember s.anchorPkg)

/-- Is this package the lowest-numbered voter of its part? -/
def State.partLeader (s : State) : Bool :=
  s.ownVotes != 0 && (s.members.filter fun p => s.reached p && s.votesOf p != 0).all fun p => decide (s.pkg ≤ p)

/-- The anchor of a view that removes those not reached: the old one if it is reached, else this package if it is eligible, else
the lowest-numbered voter reached (R435). -/
def State.nextAnchor (s : State) : Nat :=
  if s.reached s.anchorPkg then s.anchorPkg
  else if s.flag R.FAB_CFG F.FAB_CFG.ANCHOR_ELIG then s.pkg
  else (s.members.filter fun p => s.reached p && s.votesOf p != 0).foldl min s.pkg

/-- No MEMBER from package `p` within LOSS_SPANS spans (R434, R435): the part that continues is led by its lowest-numbered
voter, which removes every package it cannot reach; a part that does not, freezes. -/
def memberTimeout (p : Pkg) (s : State) : State :=
  if s.fabState = FabS.MEMBER ∧ s.isMember p ∧ !s.reached p ∧ !s.hcpLoading 1 then
    if s.isLeader || (s.partLeader && s.votesOf p != 0) then
      (if s.partContinues then
        (if s.fab.views.any (fun v => v.entries.contains (p, false)) then s
         else s.sendView s.nextAnchor [] (s.members.filter fun q => !s.reached q && (s.isLeader || s.votesOf q != 0)) (s.boundaryAfter 4))
       else s.minority)
    else if s.ownVotes ≠ 0 ∧ s.votesOf p ≠ 0 ∧ !s.partContinues then s.minority
    else s
  else s

/-- MEMBER_TIMEOUT (R434); membership timers pause while HCP1 reloads (R544). -/
def execMemberTimeout (t : Moment) (p : Pkg) (s : State) : Host.Outcome State Fault Refusal := s.whileOn (memberTimeout p (s.atTime t))

/-- Nothing from a leader for LOSS_SPANS spans (R436). -/
def leaderSilence (s : State) : State :=
  if s.fabState = FabS.MEMBER ∧ !s.isLeader ∧ s.lossSince s.fab.leaderAt ∧ !s.hcpLoading 1 then s.minority else s

/-- LEADER_SILENCE (R436); paused while HCP1 reloads (R544). -/
def execLeaderSilence (t : Moment) (s : State) : Host.Outcome State Fault Refusal := s.whileOn (leaderSilence (s.atTime t))

/-- FAB_CTL.LEAVE (R439). -/
def leaveAct (_ : Word) (s : State) : Option State :=
  if s.fabState = FabS.MEMBER then
    let s1 := s.setFabState FabS.LEAVING
    some (if s1.isLeader then s1.sendView s1.anchorPkg [] [s1.pkg] (s1.reg R.FAB_AT) else s1.fabSend (.member s1.leaderPkg false true (s1.reg R.FAB_AT)))
  else none

/-- LEAVE (R439). -/
def execLeave (w : RegW) (s : State) : Host.Outcome State Fault Refusal := s.whileOn (s.onWrite w R.FAB_CTL (fabCtl 0 leaveAct))

/-- FAB_CTL.ADMIT (R438): only the leader, a boundary at least four spans ahead, a pending package. -/
def admitAct (v : Word) (s : State) : Option State :=
  let l := if v.bit 19 then s.fab.joins else s.fab.joins.filter fun p => p == v.get 18 6
  let at_ := s.reg R.FAB_AT
  if s.isLeader && decide (4 * 16777216 ≤ (at_ - s.spanNow).toInt) && l != [] then some (s.sendView s.anchorPkg l [] at_) else none

/-- ADMIT (R438). -/
def execAdmitMembers (w : RegW) (s : State) : Host.Outcome State Fault Refusal := s.whileOn (s.onWrite w R.FAB_CTL (fabCtl 1 admitAct))

/-! ## Pace -/

def State.paceOf (s : State) (n : Nat) : PaceSt := Sparse.get {} n s.pace
def State.setPace (s : State) (n : Nat) (x : PaceSt) : State := { s with pace := Sparse.set n x s.pace }

/-- A PACE_SET goes out from the leader to the packages that report, and is held here (R441). -/
def State.sendPace (s : State) (part stretch : Nat) (base : Word) : State :=
  let x := Sparse.get ({} : PaceLead) part s.fab.leads
  let dest := (x.reports.map (·.1)).filter fun p => p != s.pkg
  (dest.foldl (fun t p => t.fabSend (.paceSet p part stretch base)) s).setPace part { s.paceOf part with pend := some (base, stretch) }

/-- The span-time difference `b` − `a` in nanoseconds, at the estimated span length. -/
def State.nsBetween (s : State) (a b : Word) : Nat := (b - a).toInt.toNat * s.span.len / 16777216 / 16

/-- The reports of a round. -/
def PaceLead.of (x : PaceLead) (round : Nat) : List (Nat × Word) :=
  x.reports.filterMap fun r => if r.2.1 = round then some (r.1, r.2.2) else none

/-- The earliest of some arrivals. -/
def earliest : List (Nat × Word) → Option Word
  | [] => none
  | a :: r => some (r.foldl (fun b x => if (x.2 - b).toInt < 0 then x.2 else b) a.2)

/-- The largest lag of a round in ns, and the package with it (R440). -/
def State.largestLag (s : State) (l : List (Nat × Word)) (e : Word) : Nat × Nat :=
  l.foldl (fun b x => if b.1 < s.nsBetween e x.2 then (s.nsBetween e x.2, x.1) else b) (0, (l.head?.map (·.1)).getD 0)

/-- A round ends at the leader when a later one is reported: whether its lags stayed below half the threshold (R441). -/
def PaceLead.nextRound (x : PaceLead) (thresh round : Nat) : PaceLead :=
  { x with round := round, maxLag := 0, prevStart := x.startAt, startAt := none, below := if 2 * x.maxLag < thresh then x.below + 1 else 0 }

/-- A pace report at the partition's leader (R440, R441). -/
def paceReport (p : Pkg) (part : Fin 16) (q : Nat) (round : Nat) (at_ : Word) (s : State) : State :=
  let o := R.FAB_PACE part
  if s.fabState = FabS.OFF then s
  else if !s.flag o F.FAB_PACE.EN || s.fld o F.FAB_PACE.LEADER_PKG != s.pkg || s.fld o F.FAB_PACE.HEAD_Q != q then s.fabHear p
  else
    let s0 := s.fabHear p
    let thresh := s.fld o F.FAB_PACE.LAG_THRESH * 1000
    let x0 := Sparse.get ({} : PaceLead) part.val s0.fab.leads
    let later := decide (0 < (BitVec.ofNat 32 round - BitVec.ofNat 32 x0.round).toInt) || x0.reports == []
    let x1 := if later then (if x0.reports = [] then { x0 with round := round } else x0.nextRound thresh round) else x0
    let x2 := { x1 with reports := (x1.reports.filter fun (r : Nat × Nat × Word) => r.1 != p.val) ++ [(p.val, round, at_)] }
    let l := x2.of x2.round
    let (lag, who) := match earliest l with | some e => s0.largestLag l e | none => (0, 0)
    let x3 := { x2 with maxLag := lag, startAt := earliest l }
    let put := fun (t : State) (y : PaceLead) => { t with fab := { t.fab with leads := Sparse.set part.val y t.fab.leads } }
    let s1 := ((put s0 x3).setFld (R.FAB_PACE_LAG part) F.FAB_PACE_LAG.LAG_NS (min 0xFFFFFFFF lag)).setFld (R.FAB_PACE_LAG part) F.FAB_PACE_LAG.LAG_PKG who
    if s.flag o F.FAB_PACE.AUTO then
      let step := match x3.prevStart, x3.startAt with | some a, some b => s1.nsBetween a b | _, _ => 0
      let cur := (s1.paceOf part.val).stretch
      if thresh < lag ∧ 0 < step ∧ x3.sentFor ≠ some x3.round then
        (put s1 { x3 with sentFor := some x3.round, below := 0 }).sendPace part (min 65535 (cur + (65536 * lag + step - 1) / step)) (s1.boundaryAfter 2)
      else if s.fld o F.FAB_PACE.WINDOW ≠ 0 ∧ s.fld o F.FAB_PACE.WINDOW ≤ x3.below ∧ cur ≠ 0 then
        (put s1 { x3 with below := 0 }).sendPace part 0 (s1.boundaryAfter 2)
      else s1
    else s1

/-- PACE_RPT (R440). -/
def execPaceRpt (t : Moment) (p : Pkg) (part : Fin 16) (q : Quire) (round : BitVec 32) (reason : BitVec 8) (at_ : Word) (s : State) : Host.Outcome State Fault Refusal :=
  s.whileOn (let _ := reason; paceReport p part q.val round.toNat at_ (s.atTime t))

/-- A PACE_SET received (R441, R444): pending, or discarded if it is not from the partition's leader. -/
def paceSet (p : Pkg) (part : Fin 16) (stretch : Nat) (base : Word) (s : State) : State :=
  if s.fabState = FabS.OFF then s
  else
    let s0 := s.fabHear p
    if s.fld (R.FAB_PACE part) F.FAB_PACE.LEADER_PKG = p.val then s0.setPace part { s0.paceOf part with pend := some (base, stretch) } else s0.count R.FAB_BAD_MSG 1

/-- PACE_SET (R441). -/
def execPaceSet (t : Moment) (p : Pkg) (part : Fin 16) (stretch : BitVec 16) (base : Word) (s : State) : Host.Outcome State Fault Refusal :=
  s.whileOn (paceSet p part stretch.toNat base (s.atTime t))

/-- The effective stamp of span time `x` in a partition under its present setting (R441). -/
def State.effOf (s : State) (part : Nat) (x : Word) : Word :=
  x + s.reg (R.FAB_PACE_OFFSET part) + BitVec.ofNat 64 ((x - s.reg (R.FAB_PACE_BASE part)).toInt.toNat * (s.paceOf part).stretch / 65536)

/-- Span time reaching a pending setting's effective BASE applies it (R441). -/
def paceApply (part : Fin 16) (s : State) : State :=
  let x := s.paceOf part
  match x.pend with
  | none => s
  | some (base, stretch) =>
    if stampReached (s.effOf part base) s.spanNow then
      let off := s.reg (R.FAB_PACE_OFFSET part) + BitVec.ofInt 64 ((base - s.reg (R.FAB_PACE_BASE part)).toInt * x.stretch / 65536)
      (((s.setReg (R.FAB_PACE_OFFSET part) off).setReg (R.FAB_PACE_BASE part) base).setFld (R.FAB_PACE part) F.FAB_PACE.STRETCH stretch).setPace part { x with stretch := stretch, pend := none }
    else s

/-- PACE_APPLY (R441). -/
def execPaceApply (t : Moment) (part : Fin 16) (s : State) : Host.Outcome State Fault Refusal := s.whileOn (paceApply part (s.atTime t))

/-- FAB_CTL.PACE_SEND (R441, R447): only the partition's leader. -/
def paceSendAct (v : Word) (s : State) : Option State :=
  let n := v.get 23 20
  if s.fld (R.FAB_PACE n) F.FAB_PACE.LEADER_PKG = s.pkg ∧ s.fabState ≠ FabS.OFF then some (s.sendPace n (s.fld (R.FAB_PACE n) F.FAB_PACE.STRETCH) (s.reg R.FAB_AT)) else none

/-- PACE_SEND (R447). -/
def execPaceSend (w : RegW) (s : State) : Host.Outcome State Fault Refusal := s.whileOn (s.onWrite w R.FAB_CTL (fabCtl 5 paceSendAct))

/-! ## Once per span (R431, R434, R436, R438, R440) -/

/-- What the package sends at a span boundary: as anchor SPAN; MEMBER to every other voter and to the leader; JOIN while it
joins or is in the minority; its pace reports with the reason that accrued most; every sixteenth, DELAY_REQ on each port. -/
def State.fabBoundary (s : State) (reason : Nat → Nat) : State :=
  if s.fabState = FabS.OFF then s
  else
    let n := s.fab.spans + 1
    let s0 : State := { s with fab := { s.fab with spans := n } }
    let count := s0.spanNow.toNat / 16777216
    let s1 := if s0.flag R.FAB_STATUS F.FAB_STATUS.ANCHOR then s0.fabSend (.span count) else s0
    let voters := s1.members.filter fun p => p != s1.pkg && s1.votesOf p != 0
    let dest := (if s1.ownVotes ≠ 0 then voters else []) ++ (if s1.leaderPkg = s1.pkg ∨ voters.contains s1.leaderPkg ∧ s1.ownVotes ≠ 0 then [] else [s1.leaderPkg])
    let s2 := if s1.fabState = FabS.MEMBER ∨ s1.fabState = FabS.LEAVING then dest.foldl (fun t p => t.fabSend (.member p false false 0)) s1
      else if s1.fabState = FabS.MINORITY then (s1.leaderPkg :: voters).foldl (fun t p => t.fabSend (.member p true false 0)) s1
      else if s1.spanState = SpanS.LOCKED then s1.fabSend (.member s1.leaderPkg true false 0) else s1
    let s3 := (List.range 16).foldl (fun t i =>
      if t.flag (R.FAB_PACE i) F.FAB_PACE.EN then
        match (t.paceOf i).lastRound with
        | some (r, w) => t.fabSend (.paceRpt (t.fld (R.FAB_PACE i) F.FAB_PACE.LEADER_PKG) i r w (reason i))
        | none => t
      else t) s2
    if n % 16 = 0 ∧ !s3.flag R.FAB_STATUS F.FAB_STATUS.ANCHOR then
      (List.range 16).foldl (fun t i => if t.portUp i then (t.setPort i { t.port i with reqAt := some t.spanNow }).fabSend (.delayReq i t.spanNow) else t) s3
    else s3

end Sys2Proof.Machine
end

