-- ==== Sys2Proof/Machine/Power.lean ====
section
/-!
DEFINITION. The power controller (18_power.md): the envelope, sharing by phase, clock grants and changes, droop, rail current,
temperature, the load band's limits, throttle reasons and energy.
-/

namespace Sys2Proof.Machine

def Tr.POWER_CAP : Nat := 1
def Tr.THERMAL : Nat := 2
def Tr.DROOP : Nat := 3
def Tr.RAIL_CURRENT : Nat := 4
def Tr.LOAD_BAND : Nat := 5
def Tr.HOST : Nat := 6
def Tr.PACE : Nat := 7

/-- The domain codes of TR_LAST_r.DOMAIN (R503). -/
def Dom.hub : Nat := 0x10
def Dom.core (n : Nat) : Nat := 0x20 + n
def Dom.group (d : Nat) : Nat := 0x80 + d
def Dom.all : List Nat := List.range 4 ++ [Dom.hub] ++ (List.range 96).map Dom.core ++ (List.range 4).map Dom.group

/-! ## The envelope (R475) -/

/-- What limits the envelope, in W, with the reason each gives; a limit of 0 sets none. -/
def State.limits (s : State) : List (Nat × Nat) :=
  ([(s.fld R.PWR_LIMIT F.PWR_LIMIT.HOST_W, Tr.HOST), (if s.pins.throttle then s.fld R.PWR_LIMIT F.PWR_LIMIT.PIN_W else 0, Tr.HOST),
    (s.fld R.PKG_FUSED F.PKG_FUSED.ENVELOPE_W, Tr.POWER_CAP), (s.fld R.PWR_LIMIT F.PWR_LIMIT.MGMT_W, Tr.POWER_CAP)]).filter fun p => p.1 != 0

/-- The effective envelope E in W and the reason a grant below a domain's limit has under it (R475, R488). -/
def State.envelope (s : State) : Nat × Nat :=
  s.limits.foldl (fun b p => if p.1 < b.1 then p else b) (1200, Tr.POWER_CAP)

/-- PWR_STATUS.EFF_W and PIN brought up to date. -/
def State.envShow (s : State) : State :=
  (s.setFld R.PWR_STATUS F.PWR_STATUS.EFF_W s.envelope.1).setFld R.PWR_STATUS F.PWR_STATUS.PIN (if s.pins.throttle then 1 else 0)

/-! ## Throttle reasons (R488, R489) -/

/-- The stretch of a domain's clock now (R478): 0 none, 1 three quarters, 2 half. -/
def State.stretchOf (s : State) (dom : Nat) : Nat :=
  if dom < 4 then s.fld (R.PWR_D_CLK dom) F.PWR_D_CLK.STRETCH else if dom < 0x80 then s.power.hubStretch else 0

/-- Does reason `r` bind the domain now? -/
def State.binds (s : State) (dom r : Nat) : Bool :=
  if r = Tr.DROOP then s.stretchOf dom != 0 else s.power.lowered.contains (dom, r)

/-- The reason a domain accrues: the first that binds it in R488's order. -/
def State.reasonOf (s : State) (dom : Nat) : Option Nat :=
  [Tr.RAIL_CURRENT, Tr.DROOP, Tr.THERMAL, Tr.HOST, Tr.POWER_CAP, Tr.LOAD_BAND].find? (s.binds dom)

/-- The dies on which a context of a paced partition waits on its partition's HEAD_Q or mirror (R488, PACE). -/
def State.paceWaits (s : State) : List Nat :=
  (s.cxKeys.filter fun p => match (s.cx p.1 p.2).cur with
    | some k => s.cxState p.1 p.2 == CxS.WAIT_GATE && s.flag (R.FAB_PACE (s.cxPart p.1 p.2)) F.FAB_PACE.EN &&
        s.fld (R.FAB_PACE (s.cxPart p.1 p.2)) F.FAB_PACE.HEAD_Q == k.gateQ
    | none => false).map fun p => p.1.val

/-- The domains on which reason `r` accrues now. -/
def State.accruing (s : State) (r : Nat) : List Nat :=
  if r = Tr.PACE then s.paceWaits else Dom.all.filter fun dom => s.reasonOf dom == some r

/-- The reason that accrues on the most domains (R497). -/
def State.topReason (s : State) : Nat :=
  ((List.range 7).foldl (fun b i => let n := (s.accruing (i + 1)).length
                                    if b.2 < n then (i + 1, n) else b) (0, 0)).1

/-- Events begin and end as reasons start and stop to accrue (R489); PWR_STATUS.REASON follows. -/
def State.trShow (s : State) : State :=
  let s1 := (List.range 7).foldl (fun t i =>
    let on := t.flag (R.TR_LAST i) F.TR_LAST.ONGOING
    match t.accruing (i + 1) with
    | [] => if on then t.setFld (R.TR_LAST i) F.TR_LAST.ONGOING 0 else t
    | dom :: _ => if on then t
        else ((t.setReg (R.TR_LAST_AT i) t.spanNow).setReg (R.TR_LAST i) 0).setFld (R.TR_LAST i) F.TR_LAST.DOMAIN dom |>.setFld (R.TR_LAST i) F.TR_LAST.ONGOING 1) s
  s1.setFld R.PWR_STATUS F.PWR_STATUS.REASON s1.topReason

/-- A power step at moment `t`: the time is accrued, `act` done, the reasons shown. -/
def State.powerStep (s : State) (t : Moment) (act : State → State) : State := (act (s.atTime t).trAccrue).trShow

/-! ## Frequency changes (R474, R479, R480) -/

/-- The register and fields of a clock domain. -/
def domCode : ClockDomain → Nat
  | .die d => d.val
  | .core n => Dom.core n.val

/-- The least of fused maximum and software cap (R474). -/
def State.clockLimit (s : State) (dom : Nat) : Nat :=
  let m := if dom < 4 then s.fld (R.PWR_D_CLK dom) F.PWR_D_CLK.FMAX else s.fld (R.C_CLK (dom - 0x20)) F.C_CLK.FMAX
  let c := if dom < 4 then s.fld (R.PWR_D_CLK dom) F.PWR_D_CLK.CAP else s.fld (R.C_CLK (dom - 0x20)) F.C_CLK.CAP
  if c = 0 then m else min m c

/-- A domain's grant; a core not granted yet has its fused maximum. -/
def State.grantOf (s : State) (dom : Nat) : Nat :=
  if dom < 4 then s.fld (R.PWR_D_CLK dom) F.PWR_D_CLK.GRANT
  else Sparse.get (s.fld (R.C_CLK (dom - 0x20)) F.C_CLK.FMAX) (dom - 0x20) s.power.coreGrant

/-- The frequency a domain should run at (R474). -/
def State.clockWant (s : State) (dom : Nat) : Nat := min (s.clockLimit dom) (s.grantOf dom)

def State.clockCur (s : State) (dom : Nat) : Nat :=
  if dom < 4 then s.fld (R.PWR_D_CLK dom) F.PWR_D_CLK.CUR else s.fld (R.C_CLK (dom - 0x20)) F.C_CLK.CUR

def State.setClockCur (s : State) (dom f : Nat) : State :=
  if h : dom < 4 then (s.acRebase dom).setFld (R.PWR_D_CLK dom) F.PWR_D_CLK.CUR f
  else s.setFld (R.C_CLK (dom - 0x20)) F.C_CLK.CUR f

def State.showPending (s : State) (dom : Nat) : State :=
  if dom < 4 then s.setFld (R.PWR_D_CLK dom) F.PWR_D_CLK.PENDING (if (Sparse.find dom s.power.latched).isSome then 1 else 0) else s

/-- A frequency change is requested where the domain does not run at its frequency: latched under a droop, else begun; a core that
runs nothing changes nothing (R479, R480). -/
def State.askClock (s : State) (dom : Nat) : State :=
  let f := s.clockWant dom
  if 0x20 ≤ dom ∧ s.clockCur dom = 0 then s
  else if s.stretchOf dom ≠ 0 ∧ (Sparse.find dom s.power.reqs).isNone then
    let l := if f = s.clockCur dom then Sparse.del dom s.power.latched else Sparse.set dom f s.power.latched
    State.showPending { s with power := { s.power with latched := l } } dom
  else
    let l := if f = s.clockCur dom then Sparse.del dom s.power.reqs else Sparse.set dom f s.power.reqs
    { s with power := { s.power with reqs := l } }

/-- FREQ_SWITCH: the domain's PLLs switch, at most once per 20 µs (R479). -/
def freqSwitch (dom : Nat) (s : State) : State :=
  match Sparse.find dom s.power.reqs with
  | none => s
  | some f =>
    let early := match Sparse.find dom s.power.changedAt with
      | some a => decide (s.now < a + 320000)
      | none => false
    if early then s
    else { (s.setClockCur dom f) with power := { s.power with reqs := Sparse.del dom s.power.reqs, changedAt := Sparse.set dom s.now s.power.changedAt } }

/-- FREQ_SWITCH (R479). -/
def execFreqSwitch (t : Moment) (dom : ClockDomain) (s : State) : Host.Outcome State Fault Refusal :=
  s.whileOn (s.powerStep t (freqSwitch (domCode dom)))

/-- The unit whose droop stretches a domain's clock (R478). -/
def droopUnitOf (dom : Nat) : Nat := if dom < 4 then dom else 4

/-- A latched change begins 2 µs after the droop cleared (R480). -/
def freqApply (dom : Nat) (s : State) : State :=
  match Sparse.find dom s.power.latched, Sparse.find (droopUnitOf dom) s.power.clearedAt with
  | some f, some a =>
    if s.stretchOf dom = 0 ∧ a + 32000 ≤ s.now then
      State.showPending { s with power := { s.power with latched := Sparse.del dom s.power.latched, reqs := Sparse.set dom f s.power.reqs } } dom
    else s
  | _, _ => s

/-- FREQ_CHANGE_APPLY (R480). -/
def execFreqChangeApply (t : Moment) (dom : ClockDomain) (s : State) : Host.Outcome State Fault Refusal :=
  s.whileOn (s.powerStep t (freqApply (domCode dom)))

/-- May a die's grant rise only at the mains phase (R486)? -/
def State.aligned (s : State) : Bool := s.flag R.LS_CFG F.LS_CFG.ALIGN && s.flag R.LS_MAINS F.LS_MAINS.VALID

/-- A die's grant becomes `f` steps of 25 MHz; a rise waits for the mains phase under R486. -/
def State.setGrant (s : State) (d f : Nat) : State :=
  if s.aligned && decide (s.grantOf d < f) && decide (s.grantOf d ≠ 0) then { s with power := { s.power with upWait := Sparse.set d f s.power.upWait } }
  else (State.setFld { s with power := { s.power with upWait := Sparse.del d s.power.upWait } } (R.PWR_D_CLK d) F.PWR_D_CLK.GRANT f).askClock d

def State.setCoreGrant (s : State) (n f : Nat) : State :=
  State.askClock { s with power := { s.power with coreGrant := Sparse.set n f s.power.coreGrant } } (Dom.core n)

/-- The local supply's phase now, in 1/256 of a mains cycle (R486). -/
def State.mainsPhase (s : State) : Nat :=
  let p := s.fld R.LS_MAINS F.LS_MAINS.PERIOD
  (s.spanNow - s.reg R.SPAN_CAP_MAINS).toNat % (max 1 p) * 256 / (max 1 p)

/-- STEP_PHASE_REACHED: the rises that waited take effect (R486). -/
def stepPhase (s : State) : State :=
  if s.aligned && s.mainsPhase == s.fld R.LS_CFG F.LS_CFG.STEP_PHASE then
    s.power.upWait.foldl (fun t p => (t.setFld (R.PWR_D_CLK p.1) F.PWR_D_CLK.GRANT p.2).askClock p.1) { s with power := { s.power with upWait := [] } }
  else s

/-- STEP_PHASE_REACHED (R486). -/
def execStepPhaseReached (t : Moment) (s : State) : Host.Outcome State Fault Refusal := s.whileOn (s.powerStep t stepPhase)

/-! ## Droop (R478, R480) -/

def unitCode : DroopUnit → Nat
  | .die d => d.val
  | .hub => 4

/-- The stretch a unit's tripped detectors give: half beyond T2, three quarters beyond T1. -/
def State.wantStretch (s : State) (u : Nat) : Nat :=
  let l := s.power.tripped.filter fun p => p.1 == u
  if l.any fun p => p.2.2 then 2 else if l.isEmpty then 0 else 1

/-- The stretched AC cycles since the stretch began are counted (R504), and the stretch set to what the detectors give. -/
def State.setStretch (s : State) (u : Nat) : State :=
  let v := s.wantStretch u
  if h : u < 4 then
    let s1 := match Sparse.find u s.power.stretchedAt with
      | some a => s.count (R.PWR_D_STRETCH_CYC u) (s.acSince u a)
      | none => s
    let s2 := (s1.acRebase u).setFld (R.PWR_D_CLK u) F.PWR_D_CLK.STRETCH v
    { s2 with power := { s2.power with stretchedAt := if v = 0 then Sparse.del u s2.power.stretchedAt else Sparse.set u s.now s2.power.stretchedAt } }
  else { s with power := { s.power with hubStretch := v } }

/-- DROOP_TRIP: a detector falls below T1, or below T2 (R478). A die has four detectors and HUB eight. -/
def droopTrip (u det : Nat) (deep : Bool) (s : State) : State :=
  if u < 4 ∧ 4 ≤ det then s
  else
    let had := s.power.tripped.any fun p => p.1 == u && p.2.1 == det
    let l := s.power.tripped.filter fun p => !(p.1 == u && p.2.1 == det)
    let was := s.power.tripped.any fun p => p.1 == u && p.2.1 == det && p.2.2
    let s1 : State := { s with power := { s.power with tripped := l ++ [(u, det, deep || was)] } }
    let s2 := if had then s1 else (if u < 4 then s1.count (R.PWR_D_DROOPS u) 1 else s1).life 21 1
    s2.setStretch u

/-- DROOP_TRIP (R478). -/
def execDroopTrip (t : Moment) (u : DroopUnit) (det : Fin 8) (deep : Bool) (s : State) : Host.Outcome State Fault Refusal :=
  s.whileOn (s.powerStep t (droopTrip (unitCode u) det.val deep))

/-- DROOP_CLEAR: a detector's supply has stayed above T1 for 256 AC cycles of the stretched clock (R478). -/
def droopClear (u det : Nat) (s : State) : State :=
  if s.power.tripped.any fun p => p.1 == u && p.2.1 == det then
    let s1 : State := { s with power := { s.power with tripped := s.power.tripped.filter fun p => !(p.1 == u && p.2.1 == det) } }
    let s2 := s1.setStretch u
    if s2.wantStretch u = 0 then { s2 with power := { s2.power with clearedAt := Sparse.set u s.now s2.power.clearedAt } } else s2
  else s

/-- DROOP_CLEAR (R478). -/
def execDroopClear (t : Moment) (u : DroopUnit) (det : Fin 8) (s : State) : Host.Outcome State Fault Refusal :=
  s.whileOn (s.powerStep t (droopClear (unitCode u) det.val))

/-! ## Rail current (R481, R558) -/

/-- The domains a rail supplies, among those the controller sets (R473, R557). -/
def railDomains (r : Nat) : List Nat :=
  if r < 4 then [r]
  else if r = 4 then (List.range 96).map Dom.core
  else if r = 6 ∨ r = 9 ∨ r = 10 ∨ r = 13 then (List.range 4).map Dom.group
  else []

/-- The steps rail limits lower a domain by. -/
def State.railSteps (s : State) (dom : Nat) : Nat :=
  (s.power.rails.filter fun p => (railDomains p.1).contains dom).foldl (fun b p => b + p.2) 0

def State.lower (s : State) (dom r : Nat) (on : Bool) : State :=
  let l := s.power.lowered.filter fun p => p != (dom, r)
  { s with power := { s.power with lowered := if on then l ++ [(dom, r)] else l } }

/-- A domain's grant lowered by `n` steps, not below 1.000 GHz (R481, R474). -/
def State.lowerGrant (s : State) (dom n : Nat) : State :=
  if dom < 4 then s.setGrant dom (max 40 (s.grantOf dom - n))
  else if dom < 0x80 then s.setCoreGrant (dom - 0x20) (max 40 (s.grantOf dom - n))
  else { s with power := { s.power with groupShare := Sparse.set (dom - 0x80) (Sparse.get 0 (dom - 0x80) s.power.groupShare - n * Config.paceStep (dom - 0x80)) s.power.groupShare } }

/-- A rail's domains lowered by `n` more steps. -/
def State.railLower (s : State) (r n : Nat) : State :=
  let s1 : State := { s with power := { s.power with rails := Sparse.set r (Sparse.get 0 r s.power.rails + n) s.power.rails } }
  (railDomains r).foldl (fun t dom => (t.lowerGrant dom n).lower dom Tr.RAIL_CURRENT true) s1

/-- RAIL_LIMIT: one microsecond's reading of a rail's current against its limit (R481). -/
def railLimit (r : Nat) (x : RailSense) (s : State) : State :=
  let low := (Sparse.find r s.power.rails).isSome
  if s.power.dead.contains r then s.railLower r 1
  else match x with
    | .atLimit => s.railLower r 1
    | .between => if low then s.railLower r 1 else s
    | .below95 =>
      let s1 : State := { s with power := { s.power with rails := Sparse.del r s.power.rails } }
      (railDomains r).foldl (fun t dom => if t.railSteps dom = 0 then t.lower dom Tr.RAIL_CURRENT false else t) s1

/-- RAIL_LIMIT (R481). -/
def execRailLimit (t : Moment) (r : Rail) (x : RailSense) (s : State) : Host.Outcome State Fault Refusal :=
  s.whileOn (s.powerStep t (railLimit r.val x))

/-- REGULATOR_TIMEOUT: a regulator that stops answering is taken as a rail at its limit (R558). -/
def execRegulatorTimeout (t : Moment) (r : Rail) (s : State) : Host.Outcome State Fault Refusal :=
  s.whileOn (s.powerStep t fun u =>
    State.railLower { u with power := { u.power with dead := if u.power.dead.contains r.val then u.power.dead else u.power.dead ++ [r.val] } } r.val 1)

/-! ## Energy (R490, R491, R502) -/

/-- An energy counter raised, sticking at 2⁶⁴ − 1 with its SAT bit and one INFO record ENERGY_SAT (R491). -/
def State.addEnergy (s : State) (o satO bit n : Nat) : State :=
  let c := (s.reg o).toNat + n
  if c < 0xFFFFFFFFFFFFFFFF then s.setReg o (BitVec.ofNat 64 c)
  else
    let s1 := s.setReg o 0xFFFFFFFFFFFFFFFF#64
    if (s.reg o).toNat = 0xFFFFFFFFFFFFFFFF then s1
    else
      let s2 := s1.setReg satO (s1.reg satO ||| BitVec.ofNat 64 (1 <<< bit))
      let u := unitOf o
      s2.raise { status := St.ENERGY_SAT, sev := Sev.INFO, kind := u.1, die := u.2.1, index := u.2.2, arg0 := BitVec.ofNat 64 o }

def State.addPart (s : State) (p n : Nat) : State := s.addEnergy (R.PWR_ENERGY_PT p) R.PWR_ENERGY_SAT (3 + p) n

/-- An interval's energy divided among the accounts, each part held to what is left, the remainder to UNATTR (R490). -/
def State.divideEnergy (s : State) (r : PowerReading) : State :=
  let s0 := (s.addEnergy R.PWR_ENERGY_PKG R.PWR_ENERGY_SAT 0 r.energy).life 19 r.energy
  let (l1, s1) := r.engineE.foldl (fun (b : Nat × State) p =>
    let e := min b.1 p.2.2
    (b.1 - e, (b.2.addEnergy (R.CX_ENERGY p.1 p.2.1) (R.CX_ENERGY_SAT p.1 p.2.1) 0 e).addPart (b.2.cxPart p.1 p.2.1) e)) (r.energy, s0)
  let (l2, s2) := r.coreE.foldl (fun (b : Nat × State) p =>
    let e := min b.1 p.2
    (b.1 - e, b.2.addPart (b.2.corePart p.1) e)) (l1, s1)
  let e := min l2 r.ballastE
  (s2.addEnergy R.PWR_ENERGY_SHAPING R.PWR_ENERGY_SAT 2 e).addEnergy R.PWR_ENERGY_UNATTR R.PWR_ENERGY_SAT 1 (l2 - e)

/-! ## Phases (R476) -/

/-- Occurrences in progress for 2 µs or more are counted, once each. -/
def State.countOccurrences (s : State) : State :=
  let ripe := fun (x : Nat × Nat × Bool) => !x.2.2 && decide (x.2.1 + 32000 ≤ s.now)
  let s1 := (s.occ.filter ripe).foldl (fun t x => t.countPhase x.1 x.2.1) s
  { s1 with occ := s.occ.map fun x => if ripe x then (x.1, x.2.1, true) else x }

/-- One eighth of the way from `a` toward `b`. -/
def eighth (a b : Nat) : Nat := if a ≤ b then a + (b - a) / 8 else a - (a - b) / 8

/-- A measured die draw, in mW, taken to the die's fused maximum by its curve. -/
def State.atMax (s : State) (d mw : Nat) : Nat :=
  mw * 65536 / max 1 (Config.curve s.power.tables d (s.fld (R.PWR_D_CLK d) F.PWR_D_CLK.CUR))

/-- A counted occurrence's measurements move the entry one eighth of the way toward each. -/
def State.learn (s : State) (p : Nat) (d : Die) (cd mem : Nat) : State :=
  if s.power.toLearn.contains p && s.flag R.PWR_CFG F.PWR_CFG.LEARN_EN then
    let old := Sparse.get (0, 0) p s.power.learnt
    let new := (eighth old.1 (s.atMax d cd * 1024 / 1000), eighth old.2 (mem * 1024 / 1000))
    let s1 : State := { s with power := { s.power with learnt := Sparse.set p new s.power.learnt } }
    (s1.setFld (R.PWR_PHASE p) F.PWR_PHASE.CD_W (min 1023 (new.1 / 1024))).setFld (R.PWR_PHASE p) F.PWR_PHASE.MEM_W (min 1023 (new.2 / 1024))
  else s

def State.learnAll (s : State) (l : List (BitVec 8 × Die × Nat × Nat)) : State :=
  let s1 := l.foldl (fun t x => t.learn x.1.toNat x.2.1 x.2.2.1 x.2.2.2) s
  { s1 with power := { s1.power with toLearn := [] } }

/-- What a phase needs: the learned entry once COUNT has reached 16, else the static table's, else R19's nominal shares, in mW. -/
def State.phaseNeed (s : State) (p : Nat) : Nat × Nat :=
  if 16 ≤ s.fld (R.PWR_PHASE p) F.PWR_PHASE.COUNT then (s.fld (R.PWR_PHASE p) F.PWR_PHASE.CD_W * 1000, s.fld (R.PWR_PHASE p) F.PWR_PHASE.MEM_W * 1000)
  else (Config.phaseTable s.power.tables p).getD (135000, 100000)

/-! ## Sharing (R477) -/

/-- Does an engine of the die run a command? -/
def State.dieBusy (s : State) (d : Die) : Bool := (s.dieFlights d).any fun p => p.2.cmd.kind != 3 && p.2.busy

/-- A die's draw at its fused maximum, and its and its stack group's need, in mW (R477 step 3). -/
def State.dieNeed (s : State) (r : PowerReading) (d : Die) : Nat × Nat × Nat :=
  let mw := r.dieMW.getD d 0
  if !s.dieIn d then (0, 0, 0)
  else
    let n := s.phaseNeed (Sparse.get 0 d.val s.phase)
    if s.dieBusy d then (n.1, n.1, n.2) else (s.atMax d mw, mw, n.2)

/-- Shares of `r` in proportion to needs where they do not fit, each held at its unit's maximum and the excess shared among the
others (R477 step 4). A unit is its number, its need and its maximum. -/
def shareOut : Nat → Nat → List (Nat × Nat × Nat) → List (Nat × Nat)
  | 0, _, l => l.map fun u => (u.1, 0)
  | fuel + 1, r, l =>
    let tot := l.foldl (fun b u => b + u.2.1) 0
    let give := fun (u : Nat × Nat × Nat) => if tot ≤ r then u.2.1 else r * u.2.1 / max 1 tot
    let held := l.filter fun u => decide (u.2.2 < give u)
    if held.isEmpty then l.map fun u => (u.1, give u)
    else held.map (fun u => (u.1, u.2.2)) ++
      shareOut fuel (r - held.foldl (fun b u => b + u.2.2) 0) (l.filter fun u => !decide (u.2.2 < give u))

/-- The highest step from 40 up to 40 + n that passes, if any does. -/
def bestStep (ok : Nat → Bool) : Nat → Option Nat
  | 0 => if ok 40 then some 40 else none
  | n + 1 => if ok (41 + n) then some (41 + n) else bestStep ok n

/-- A domain's grant from the ceilings that bind it in turn: the reasons of those that lower it. -/
def ceilings (f : Nat) : List (Nat × Option Nat) → Nat × List Nat
  | [] => (f, [])
  | (c, r) :: l =>
    if c < f then
      let x := ceilings c l
      (x.1, (match r with | some k => [k] | none => []) ++ x.2)
    else ceilings f l

/-- The highest step at which every sensor's prediction is at most the throttle limit of 100 °C, or 1.000 GHz (R482). -/
def coolStep (base : Nat) (temps : List Nat) (top : Nat) : Nat :=
  (bestStep (fun f => (List.range temps.length).all fun i => decide (Config.predict (base + i) (temps.getD i 0) f ≤ 100)) (top - 40)).getD 40

/-- The reasons that lower a domain's grant replaced, but for RAIL_CURRENT, which follows the rail. -/
def State.setLowered (s : State) (dom : Nat) (rs : List Nat) : State :=
  let l := s.power.lowered.filter fun p => p.1 != dom
  { s with power := { s.power with lowered := l ++ (rs.map fun r => (dom, r)) } }

/-- A die's grant for the next interval from its share (R477 step 5, R474, R482, R483, R487), with the duty of R474 counted where
1.000 GHz does not fit. -/
def State.grantDie (s : State) (r : PowerReading) (cause full : Nat) (d : Die) (share : Nat) : State :=
  let top := s.clockLimit d
  let tb := s.power.tables
  let fits := fun (f : Nat) => decide (full * Config.curve tb d f / 65536 ≤ share)
  let fit := bestStep fits (top - 40)
  let temps := r.dieC.getD d []
  let (f, rs) := ceilings top [(fit.getD 40, some cause), (if s.flag R.PWR_CFG F.PWR_CFG.REPRO then Config.reference tb d share else top, none),
    (coolStep (100 * d) temps top, some Tr.THERMAL), (s.fld (R.PWR_D_CLK d) F.PWR_D_CLK.FMAX - s.power.bandLow, some Tr.LOAD_BAND),
    (s.fld (R.PWR_D_CLK d) F.PWR_D_CLK.FMAX - s.railSteps d, some Tr.RAIL_CURRENT)]
  let g := max 40 f
  let s1 := (s.setGrant d g).setLowered d (rs ++ if fit.isNone ∧ !rs.contains cause then [cause] else [])
  let p40 := full * Config.curve tb d 40 / 65536
  let s2 := if fit.isNone then
      let cyc := acCycles 160000 40 0
      s1.count (R.PWR_D_DUTY d) ((cyc - cyc * share / max 1 p40 + 255) / 256 * 256)
    else s1
  let pred := (List.range temps.length).foldl (fun b i => max b (Config.predict (100 * d + i) (temps.getD i 0) g)) 0
  let s3 := (s2.setFld (R.PWR_D_TEMP d) F.PWR_D_TEMP.MAX_C (min 255 (temps.foldl max 0))).setFld (R.PWR_D_TEMP d) F.PWR_D_TEMP.PRED_C (min 255 pred)
  { s3 with power := { s3.power with dieShare := Sparse.set d.val share s3.power.dieShare } }

/-- A stack group's pacing from its share (R477 step 5, R481, R482). -/
def State.grantGroup (s : State) (cause need : Nat) (d : Nat) (share : Nat) : State :=
  let hot := (dieStacks d).foldl (fun b j => max b (s.fld (R.HS_STATUS j) F.HS_STATUS.TEMP_C)) 0
  let (g, rs) := ceilings (max need share) [(share, some cause), (Config.coolShare d hot, some Tr.THERMAL),
    (share - s.railSteps (Dom.group d) * Config.paceStep d, if s.railSteps (Dom.group d) = 0 then none else some Tr.RAIL_CURRENT)]
  let s1 := s.setLowered (Dom.group d) rs
  { s1 with power := { s1.power with groupShare := Sparse.set d g s1.power.groupShare } }

/-- The cores' grants: lowered together where HUB would pass its 180 W (R477 step 1), by temperature, load band and rail. -/
def State.grantCore (s : State) (r : PowerReading) (steps cool : Nat) (n : Fin 96) : State :=
  let dom := Dom.core n
  let top := s.clockLimit dom
  let m := s.fld (R.C_CLK n) F.C_CLK.FMAX
  let (f, rs) := ceilings top [(m - steps, some Tr.POWER_CAP), (if s.flag R.PWR_CFG F.PWR_CFG.REPRO then Config.reference s.power.tables dom (min 180000 r.hubMW) else top, none),
    (cool, some Tr.THERMAL), (m - s.power.bandLow, some Tr.LOAD_BAND), (m - s.railSteps dom, some Tr.RAIL_CURRENT)]
  (s.setCoreGrant n (max 40 f)).setLowered dom rs

/-- An optical engine whose prediction passes 90 °C: its ports enter drift mode (R482, R442). -/
def State.coolEngines (s : State) (l : List (List Nat)) : State :=
  (List.range 8).foldl (fun t i =>
    let hot := (l.getD i []).any fun c => decide (90 < Config.predict (600 + i) c 0)
    if hot then (t.portDrift (2 * i)).portDrift (2 * i + 1) else t) s

/-- The load band lowers every grant by one more step while the span's projection passes H_k, and one fewer while it does not
(R483); whether it falls below L_k is kept for ballast. -/
def State.bandJudge (s : State) (proj : Nat) : State :=
  let en := s.flag R.LS_CFG F.LS_CFG.EN && s.power.bandOn
  let above := en && decide (s.fld R.LS_STATUS F.LS_STATUS.CEIL_W * 1000 < proj)
  let below := en && decide (proj < s.fld R.LS_STATUS F.LS_STATUS.FLOOR_W * 1000)
  let s1 := if below then s else s.setFld R.LS_STATUS F.LS_STATUS.BALLAST_NOW 0
  { s1 with power := { s1.power with above := above, below := below, bandLow := if above then s1.power.bandLow + 1 else s1.power.bandLow - 1 } }

/-- The next interval's grants (R477). -/
def State.grants (s : State) (r : PowerReading) : State :=
  let env := s.envelope
  let hub := min 180000 r.hubMW
  let excess := r.pkg1ms - s.power.totals.foldl (· + ·) 0 / max 1 s.power.totals.length
  let rest := env.1 * 1000 - (r.oeMW + r.linkMW + hub) - (if s.power.totals.isEmpty then 0 else excess)
  let dies : List Die := [0, 1, 2, 3]
  let needs := dies.map fun d => (d, s.dieNeed r d)
  let units := (needs.map fun p => (p.1.val, p.2.2.1, 160000)) ++ (needs.map fun p => (4 + p.1.val, p.2.2.2, 105000))
  let shares := shareOut 9 rest units
  let share := fun (i : Nat) => Sparse.get 0 0 ((shares.filter fun p => p.1 == i).map fun p => (0, p.2))
  let s1 := needs.foldl (fun t p => if t.dieIn p.1 then t.grantDie r env.2 p.2.1 p.1 (share p.1.val) else t.setLowered p.1.val []) s
  let s2 := needs.foldl (fun t p => if t.dieIn p.1 then t.grantGroup env.2 p.2.2.2 p.1.val (share (4 + p.1.val)) else t.setLowered (Dom.group p.1.val) []) s1
  let steps := if 180000 < r.hubMW then Config.coreSteps s.power.tables (r.hubMW - 180000) else 0
  let cool := coolStep 500 r.hubC 255
  let s3 := (List.finRange 96).foldl (fun t n => t.grantCore r steps cool n) s2
  let total := r.oeMW + r.linkMW + hub + shares.foldl (fun b p => b + p.2) 0
  { s3 with power := { s3.power with totals := (total :: s3.power.totals).take 100 } }

/-- The end of a 10 µs interval (R476, R477, R481-R483, R490); while HCP0 reloads, grants hold (R544). -/
def powerInterval (r : PowerReading) (s : State) : State :=
  let s1 := ((s.divideEnergy r).countOccurrences).learnAll r.draws
  let s2 := if s.hcpLoading 0 then s1
    else ((s1.power.dead.foldl (fun t k => t.railLower k 10) (s1.bandJudge r.spanProj)).coolEngines r.oeC).grants r
  s2.envShow.setFld R.PWR_STATUS F.PWR_STATUS.AVG_W (min 65535 (r.avg10ms / 1000))

/-- POWER_INTERVAL (R477). -/
def execPowerInterval (t : Moment) (r : PowerReading) (s : State) : Host.Outcome State Fault Refusal :=
  s.whileOn (s.powerStep t (powerInterval r))

/-! ## Registers written -/

/-- An envelope field written: a non-zero value below 400 W leaves it and is told; is the value good? -/
def State.setLimit (s : State) (f : Fld) (v : Nat) : Bool × State :=
  if v ≠ 0 ∧ v < 400 then (false, s) else (true, s.setFld R.PWR_LIMIT f v)

/-- A write of PWR_LIMIT (R475, R497): HOST_W from the host alone. -/
def pwrLimitAct (host : Bool) (v : Word) (s : State) : State :=
  let (a, s1) := s.setLimit F.PWR_LIMIT.MGMT_W (v.get 15 0)
  let (b, s2) := if host then s1.setLimit F.PWR_LIMIT.HOST_W (v.get 31 16) else (true, s1)
  let (c, s3) := s2.setLimit F.PWR_LIMIT.PIN_W (v.get 47 32)
  (if a && b && c then s3 else s3.raiseReg St.PWR_LIMIT_BAD R.PWR_LIMIT).envShow

/-- PWR_LIMIT_WRITE (R475). -/
def execPwrLimitWrite (w : RegW) (s : State) : Host.Outcome State Fault Refusal :=
  s.whileOn (s.onWrite w R.PWR_LIMIT (pwrLimitAct (w.agent == .host)))

/-- A write of LS_BAND with MIN_W above MAX_W leaves it (R500); a valid one takes effect at the next span boundary. -/
def lsBandAct (v : Word) (s : State) : State :=
  if v.get 31 16 < v.get 15 0 then s.raiseReg St.LS_CFG_BAD R.LS_BAND else s.plainWrite R.LS_BAND v

/-- LS_BAND_WRITE (R500). -/
def execLsBandWrite (w : RegW) (s : State) : Host.Outcome State Fault Refusal := s.whileOn (s.onWrite w R.LS_BAND lsBandAct)

/-- A phase's entry cleared (R495, R498). -/
def State.forget (s : State) (p : Nat) : State :=
  let s1 := s.setReg (R.PWR_PHASE p) 0
  { s1 with power := { s1.power with learnt := Sparse.del p s1.power.learnt, toLearn := s1.power.toLearn.filter (· != p) } }

/-- A PWR_CTL write of one action; with both bits set it does nothing and is told (R498). -/
def pwrCtl (bit_ : Nat) (act : Word → State → State) (v : Word) (s : State) : State :=
  if v.get 1 0 = 3 then s.raiseReg St.PWR_CTL_REFUSED R.PWR_CTL
  else if v.get 1 0 = 2 ^ bit_ then act v s else s

/-- FORGET (R498). -/
def execForget (w : RegW) (s : State) : Host.Outcome State Fault Refusal :=
  s.whileOn (s.onWrite w R.PWR_CTL (pwrCtl 0 fun v t => t.forget (v.get 15 8)))

/-- FORGET_ALL (R498). -/
def execForgetAll (w : RegW) (s : State) : Host.Outcome State Fault Refusal :=
  s.whileOn (s.onWrite w R.PWR_CTL (pwrCtl 1 fun _ t => (List.range 256).foldl State.forget t))

/-- A write of a software cap asks for its domain's clock (R474). -/
def State.capWrite (s : State) (o dom : Nat) (v : Word) : State := (s.plainWrite o v).askClock dom

/-! ## The mains supply (R486) -/

/-- An accepted mains edge is taken into PERIOD: the mean interval between the last 16, and VALID once 16 have come. -/
def State.mainsNote (s : State) : State :=
  let l := (s.reg R.SPAN_CAP_MAINS :: s.power.edges).take 16
  let s1 : State := { s with power := { s.power with edges := l, edgeAt := some s.now } }
  match l.getLast? with
  | some first =>
    if 16 ≤ l.length then
      (s1.setFld R.LS_MAINS F.LS_MAINS.PERIOD (min 0xFFFFFFFF ((s.reg R.SPAN_CAP_MAINS - first).toNat / 15))).setFld R.LS_MAINS F.LS_MAINS.VALID 1
    else s1
  | none => s1

/-- An edge that has held 50 µs; an accepted one is taken into LS_MAINS (R36, R486). -/
def mainsEdgeAccepted (s : State) : State :=
  let s1 := mainsAccept s
  if s1.span.mainsLastAt != s.span.mainsLastAt then s1.mainsNote else s1

/-- MAINS_EDGE_ACCEPT (R36). -/
def execMainsEdgeAccept (t : Moment) (s : State) : Host.Outcome State Fault Refusal := s.whileOn (mainsEdgeAccepted (s.atTime t))

/-- No accepted mains edge for 50 ms (R486). -/
def lsMainsTimeout (s : State) : State :=
  match s.power.edgeAt with
  | some a => if a + 800000000 ≤ s.now then s.setFld R.LS_MAINS F.LS_MAINS.VALID 0 else s
  | none => s

/-- LS_MAINS_TIMEOUT (R486). -/
def execLsMainsTimeout (t : Moment) (s : State) : Host.Outcome State Fault Refusal := s.whileOn (lsMainsTimeout (s.atTime t))

/-! ## Rime and ballast (R126, R127, R484, R485) -/

/-- Is rime fill requested on the die's arrays: its phase's CD_W, learned or static, at or above RIME_MIN_W (R485)? -/
def State.rimeAsked (s : State) (d : Die) : Bool :=
  match Sparse.find d.val s.phase with
  | none => false
  | some p =>
    let cd := if 16 ≤ s.fld (R.PWR_PHASE p) F.PWR_PHASE.COUNT then some (s.fld (R.PWR_PHASE p) F.PWR_PHASE.CD_W * 1000)
      else (Config.phaseTable s.power.tables p).map (·.1)
    match cd with
    | some w => decide (s.fld (R.PWR_D_CFG d) F.PWR_D_CFG.RIME_MIN_W * 1000 ≤ w)
    | none => false

/-- May a rime row run (R126, R132)? -/
def State.rimeMay (s : State) (d : Die) (m : Fin 8) : Bool :=
  let a := s.arr d m
  s.engIn d m.val && s.rimeAsked d && s.flag (R.MA_CFG d m) F.MA_CFG.RIME_ALLOW && (a.plane (s.maActive d m)).valid && (a.plane (s.maActive d m)).taken && decide (a.rimeRun < 256)

/-- A rime row: counted, and nothing else changes (R127). -/
def rimeRow (d : Die) (m : Fin 8) (s : State) : State :=
  if s.rimeMay d m then
    let a := s.arr d m
    ((s.setArr d m { a with rimeRun := a.rimeRun + 1 }).count (R.MA_CYC_RIME d m) 1).setFld (R.MA_STATUS d m) F.MA_STATUS.RIME 1
  else s

/-- RIME_ROW (R126). -/
def execRimeRow (d : Die) (m : Fin 8) (s : State) : Host.Outcome State Fault Refusal := s.whileOn (rimeRow d m s)

/-- Is an array, or a vector engine, free for ballast: no open group, no command (R484)? -/
def State.ballastFree (s : State) (d : Die) (u : Nat) : Bool :=
  !((s.dieFlights d).any fun p => p.2.cmd.kind != 3 && p.2.cmd.engine == u && p.2.busy) &&
  !(decide (u < 8) && ((s.arr d u).group.isSome ||
    s.cxKeys.any fun p => p.1 == d && s.cxState p.1 p.2 == CxS.READY && (match (s.cx p.1 p.2).cur with
      | some k => k.kind == 0 && k.unit == u
      | none => false)))

/-- A ballast operation on an idle array (0-7) or vector engine (8-15): counted, and nothing else changes (R484). -/
def ballastRow (d : Die) (u : Fin 16) (s : State) : State :=
  if s.flag R.LS_CFG F.LS_CFG.EN && s.flag R.LS_CFG F.LS_CFG.BALLAST_EN && s.power.below && s.dieIn d && s.ballastFree d u &&
      !s.power.doze.contains d.val && s.fld R.PWR_REST_STATUS F.PWR_REST_STATUS.STATE == 0 then
    (s.count (R.PWR_D_BALLAST d) 1).setFld R.LS_STATUS F.LS_STATUS.BALLAST_NOW 1
  else s

/-- BALLAST_ROW (R484). -/
def execBallastRow (d : Die) (u : Fin 16) (s : State) : Host.Outcome State Fault Refusal := s.whileOn (ballastRow d u s)

/-! ## Rest states (R492-R494, R501) -/

/-- Exit latency in µs of the rest states run, doze, hold, drift. -/
def restLatency (st : Nat) : Nat := if st = 0 then 0 else if st = 1 then 2 else if st = 2 then 300 else 20000

/-- The target: the deepest rest state within the host's budget and MAX_STATE (R492). -/
def State.restTarget (s : State) : Nat :=
  let b := s.fld R.HL_WAKE_BUDGET F.HL_WAKE_BUDGET.BUDGET_US
  let m := s.fld R.PWR_REST_CFG F.PWR_REST_CFG.MAX_STATE
  if b = 0 then 0 else ([3, 2, 1].find? fun st => decide (st ≤ m) && decide (restLatency st ≤ b)).getD 0

def State.restState (s : State) : Nat := s.fld R.PWR_REST_STATUS F.PWR_REST_STATUS.STATE

/-- Does a waiting stamp of the die's contexts, or of any with `none`, come within `us` µs plus PREARM (R493, R494)? -/
def State.stampNear (s : State) (d : Option Die) (us : Nat) : Bool :=
  s.cxKeys.any fun p => (d == none || d == some p.1) && (match (s.cx p.1 p.2).cur with
    | some k => k.stampEn && s.cxState p.1 p.2 != CxS.OFF &&
        decide ((s.effStamp k - s.spanNow).toInt.toNat * s.span.len / 16777216 ≤ us * 16000 + s.fld R.SPAN_LIMITS F.SPAN_LIMITS.PREARM * 160)
    | none => false)

/-- A die dozes once idle for DOZE_IDLE_US with a target of doze or deeper (R492). -/
def dozeEntry (d : Die) (s : State) : State :=
  let busy := (s.dieFlights d).any fun p => p.2.cmd.kind < 2 && p.2.busy
  let idle := match Sparse.find d.val s.power.ranAt with
    | some a => decide (a + s.fld R.PWR_REST_CFG F.PWR_REST_CFG.DOZE_IDLE_US * 16000 ≤ s.now)
    | none => true
  if s.dieIn d && decide (1 ≤ s.restTarget) && !busy && idle && !s.power.doze.contains d.val && !s.stampNear (some d) 2 then
    { s with power := { s.power with doze := s.power.doze ++ [d.val] } }
  else s

/-- DOZE_ENTRY (R492). -/
def execDozeEntry (t : Moment) (d : Die) (s : State) : Host.Outcome State Fault Refusal := s.whileOn (dozeEntry d (s.atTime t))

/-- Is a command of the die READY for an array or vector engine (R494)? -/
def State.readyForGated (s : State) (d : Die) : Bool :=
  s.cxKeys.any fun p => p.1 == d && s.cxState p.1 p.2 == CxS.READY && (match (s.cx p.1 p.2).cur with
    | some k => decide (k.kind < 2)
    | none => false)

/-- A die leaves doze for a READY command or an approaching stamp (R494). -/
def dozeExit (d : Die) (s : State) : State :=
  if s.readyForGated d || s.stampNear (some d) 2 then { s with power := { s.power with doze := s.power.doze.filter (· != d.val) } } else s

/-- DOZE_EXIT (R494). -/
def execDozeExit (t : Moment) (d : Die) (s : State) : Host.Outcome State Fault Refusal := s.whileOn (dozeExit d (s.atTime t))

/-- A PWR_REST_CTL write of one action; with both bits set it does nothing and is told (R501). -/
def restCtl (bit_ : Nat) (act : State → State) (v : Word) (s : State) : State :=
  if v.get 1 0 = 3 then s.raiseReg St.PWR_REST_REFUSED R.PWR_REST_CTL
  else if v.get 1 0 = 2 ^ bit_ then act s else s

/-- ARM (R493): refused while the target is run or doze (R495). -/
def execArm (w : RegW) (s : State) : Host.Outcome State Fault Refusal :=
  s.whileOn (s.onWrite w R.PWR_REST_CTL (restCtl 0 fun t =>
    if t.restTarget < 2 then t.raiseReg St.PWR_REST_REFUSED R.PWR_REST_CTL else t.setFld R.PWR_REST_STATUS F.PWR_REST_STATUS.ARMED 1))

/-- REST_CANCEL (R501). -/
def execRestCancel (w : RegW) (s : State) : Host.Outcome State Fault Refusal :=
  s.whileOn (s.onWrite w R.PWR_REST_CTL (restCtl 1 fun t => t.setFld R.PWR_REST_STATUS F.PWR_REST_STATUS.ARMED 0))

/-- Is a core offline, or among those waiting in `wfi` with its buffers drained (R493)? -/
def State.coreIdle (s : State) (wfi : List (Fin 96)) (n : Fin 96) : Bool :=
  s.fld (R.C_STATUS n) F.C_STATUS.STATE != 0 ||
    (wfi.contains n && (s.core n).sb.isEmpty && (s.core n).comb.isEmpty && (s.core n).early.isEmpty)

/-- Is the package idle (R493)? `draw` is the state's draw in W. -/
def State.pkgIdle (s : State) (wfi : List (Fin 96)) (draw : Nat) : Bool :=
  (s.cxKeys.all fun p => [CxS.OFF, CxS.EMPTY, CxS.WAIT_GATE, CxS.WAIT_FE, CxS.WAIT_STAMP].contains (s.cxState p.1 p.2)) &&
  !(s.dieBusy 0 || s.dieBusy 1 || s.dieBusy 2 || s.dieBusy 3) &&
  ((List.finRange 96).all (s.coreIdle wfi)) &&
  !(s.mem.wrs.any fun w => match w.dst with | .pkg _ => true | _ => false) &&
  (!(s.firn.entries.any fun e => e.settled) && s.firn.acting.isEmpty) &&
  !s.stampNear none (restLatency s.restTarget) &&
  (!s.flag R.LS_CFG F.LS_CFG.EN || decide (s.fld R.LS_STATUS F.LS_STATUS.FLOOR_W ≤ draw))

/-- Entry: the L3 flushed, stacks in self-refresh; in drift DDR5 too, and every port in drift mode (R492, R493). -/
def State.restEnter (s : State) (target : Nat) : State :=
  let s1 := (s.mem.coreLines.map (·.1)).foldl State.coreFlush s
  let s2 := (List.range 20).foldl (fun t j => if t.hsState j = HsS.RUN then t.setHsState j HsS.SELF_REFRESH else t) s1
  let s3 := if target = 3 then
      ((List.range 12).foldl (fun t n => if t.flag (R.DC_STATUS n) F.DC_STATUS.IN_SERVICE then t.setFld (R.DC_STATUS n) F.DC_STATUS.SELF_REFRESH 1 else t) s2).allDrift
    else s2
  (s3.setFld R.PWR_REST_STATUS F.PWR_REST_STATUS.STATE target).setFld R.PWR_REST_STATUS F.PWR_REST_STATUS.ARMED 0

/-- REST_ENTRY: at the later of PWR_REST_AT and idleness, while armed (R493). -/
def restEntry (wfi : List (Fin 96)) (draw : Nat) (s : State) : State :=
  if s.flag R.PWR_REST_STATUS F.PWR_REST_STATUS.ARMED && s.restState == 0 && decide (2 ≤ s.restTarget) &&
      stampReached (s.reg R.PWR_REST_AT) s.spanNow && s.pkgIdle wfi draw then s.restEnter s.restTarget
  else s

/-- REST_ENTRY (R493). -/
def execRestEntry (t : Moment) (wfi : List (Fin 96)) (draw : Nat) (s : State) : Host.Outcome State Fault Refusal :=
  s.whileOn (restEntry wfi draw (s.atTime t))

/-- Does the trigger hold (R494)? Those the block can judge by itself are judged. -/
def State.restDue (s : State) : RestCause → Bool
  | .until => s.reg R.PWR_REST_UNTIL != 0 && stampReached (s.reg R.PWR_REST_UNTIL) s.spanNow
  | .stamp => s.stampNear none (restLatency s.restState)
  | _ => true

/-- REST_EXIT: the part returns to run (R494). -/
def restExit (x : RestCause) (s : State) : State :=
  if decide (2 ≤ s.restState) && s.restDue x then
    let s1 := (List.range 20).foldl State.hsWake s
    let s2 := if s.restState = 3 then ((List.range 12).foldl (fun t n => t.setFld (R.DC_STATUS n) F.DC_STATUS.SELF_REFRESH 0) s1).allFull else s1
    s2.setFld R.PWR_REST_STATUS F.PWR_REST_STATUS.STATE 0
  else s

/-- REST_EXIT (R494). -/
def execRestExit (t : Moment) (x : RestCause) (s : State) : Host.Outcome State Fault Refusal := s.whileOn (restExit x (s.atTime t))

end Sys2Proof.Machine
end

