-- ==== Sys2Proof/Machine/HostLink.lean ====
section
/-!
DEFINITION. The host link (17_host_link.md): the host's accesses to the part's memory, HDM decoders, back-invalidation, the
host window, the mailbox, and the link's resets.
-/

namespace Sys2Proof.Machine

/-! ## The service map (20_binding.md) -/

/-- A word with the bits of `l` whose unit passes. -/
def mapBits (l : List (Nat × Bool)) : Word := l.foldl (fun w p => if p.2 then w ||| BitVec.ofNat 64 (1 <<< p.1) else w) 0

def State.coreOn (s : State) (n : Nat) : Bool := decide (s.fld (R.C_STATUS n) F.C_STATUS.STATE < 2)

/-- The eight words of the service map (R548). -/
def State.serviceMap (s : State) : List Word :=
  let dieEng := fun (base per : Nat) => (List.range (4 * per)).map fun i => (i, s.dieIn (i / per) && s.engIn (i / per) (base + i % per))
  [mapBits ((List.range 4).map (fun d => (d, s.dieIn d)) ++ (List.range 20).map (fun j => (4 + j, s.stackIn j && s.dieIn (j / 5))) ++
     (List.range 8).map (fun i => (24 + i, s.bound && !s.fab.oeOut.contains i)) ++ (List.range 16).map (fun n => (32 + n, s.portUp n)) ++
     (List.range 12).map (fun n => (48 + n, s.flag (R.DC_STATUS n) F.DC_STATUS.IN_SERVICE))),
   mapBits (dieEng 0 8 ++ (dieEng 8 8).map fun p => (32 + p.1, p.2)),
   mapBits (dieEng 16 16),
   mapBits ((List.range 64).map fun n => (n, s.coreOn n)),
   mapBits ((List.range 32).map (fun n => (n, s.coreOn (64 + n))) ++ (List.range 8).map (fun i => (32 + i, s.dieIn (i / 2) && !s.bind.dctlOut.contains i)) ++
     (List.range 4).map (fun k => (40 + k, s.bound))), 0, 0, 0]

/-! ## The part's memory in the host's map (R457-R459) -/

def State.hostUp (s : State) : Bool := s.flag R.HL_STATUS F.HL_STATUS.LINK_UP

/-- The part address a host address names through a committed decoder (R457). -/
def State.hostAddr (s : State) (hpa : Nat) : Option Nat :=
  (s.host.decoders.find? fun p => decide (p.2.hpa ≤ hpa) && decide (hpa < p.2.hpa + p.2.size)).map fun p => p.2.dpa + (hpa - p.2.hpa)

/-- A host access: its line in memory in service, or nothing where the request is unsupported (R254, R458). -/
def State.hostLine (s : State) (hpa : Nat) : Option (Region × Nat) :=
  match s.hostAddr hpa with
  | some pa =>
    let r := s.region (pa / 64 * 64)
    if r.isMem && !s.absent r then some (r, r.key (pa / 64 * 64)) else none
  | none => none

def State.hostUr (s : State) : State := { s.count R.HL_UR 1 with host := { s.host with reply := .unsupported } }

/-- A host read at the line's home (R458): ice, whatever the granule's attribute; poison is returned and counted. -/
def hostRead (hpa : Nat) (want : HostWant) (s : State) : State :=
  if !s.hostUp || !s.flag R.HL_STATUS F.HL_STATUS.MEM_EN then s
  else match s.hostLine hpa with
    | none => s.hostUr
    | some (r, line) =>
      if s.held r || s.lineBusy line then s
      else
        let s1 := match want with
          | .once => s.homeShare line
          | .shared => s.homeShared .host line
          | .own => s.homeOwn .host line
        let p := s1.poisoned line
        let s2 := if p then s1.count R.HL_POISON_TX 1 else s1
        { s2 with host := { s2.host with reply := .data (s1.ice line) p } }

/-- HOST_MEM_READ (R458). -/
def execHostMemRead (hpa : BitVec 52) (want : HostWant) (s : State) : Host.Outcome State Fault Refusal := s.whileOn (hostRead hpa.toNat want s)

/-- A host write goes to the line's home; its completion is the receipt of its acceptance (R459). -/
def hostWrite (hpa : Nat) (mask : BitVec 64) (data : List Byte) (poison : Bool) (s : State) : State :=
  if !s.hostUp || !s.flag R.HL_STATUS F.HL_STATUS.MEM_EN then s
  else match s.hostLine hpa with
    | none => s.hostUr
    | some (r, line) => s.sendWrite { id := 0, src := .host, dst := r.dst, addr := line, mask := mask.toNat, data := data, poison := poison }

/-- HOST_MEM_WRITE (R459). -/
def execHostMemWrite (hpa : BitVec 52) (mask : BitVec 64) (data : List Byte) (poison : Bool) (s : State) : Host.Outcome State Fault Refusal :=
  s.whileOn (hostWrite hpa.toNat mask data poison s)

/-- A home receives an agent's answer to a snoop, by the kind of the message. -/
def State.snoopDone (s : State) (m : Msg) : State :=
  match m.kind with
  | .invAck => invAck m s
  | .snpData => snpData m s
  | _ => s

/-- The host's BIRsp (R460): the answer on its way, or the snoop itself with its answer. -/
def biRsp (m : Msg) (s : State) : State :=
  if m.agent ≠ .agent .host then s
  else
    let s1 := match m.kind with
      | .snpInv => snpInv m s
      | .snpShare => snpShare m s
      | .snpGet => snpGet m s
      | _ => s
    if m.kind = .invAck ∨ m.kind = .snpData then s.snoopDone m
    else if m.kind = .snpInv ∨ m.kind = .snpShare ∨ m.kind = .snpGet then
      (match s1.mem.msgs.getLast? with
       | some a => s1.snoopDone a
       | none => s1)
    else s

/-- BIRSP (R460). -/
def execBirsp (id : Nat) (s : State) : Host.Outcome State Fault Refusal :=
  s.whileOn (match s.msg id with
    | some m => biRsp m s
    | none => s)

/-! ## The host window (R462) -/

/-- The host window lines asked of the host and writes to the window not accepted end with an error; a write is lost. -/
def State.windowErrors (s : State) (line : Option Nat) : State :=
  let mine := fun (a : Nat) => line == none || line == some a
  let s1 := s.loseWritesTo fun w => w.stage == .sent && mine w.addr && (match s.region w.addr with | .host _ => true | _ => false)
  { s1 with hostWin := (s1.hostAsked.filter mine).foldl (fun t a => Sparse.set a { error := true } t) s1.hostWin, hostAsked := s1.hostAsked.filter fun a => !mine a }

/-- An access to the window is put to the host; with no CXL.cache link it completes as a host error. -/
def hostWindowAccess (pa : Nat) (s : State) : State :=
  match s.region pa with
  | .host _ =>
    let line := pa / 64 * 64
    let s1 : State := { s with hostAsked := if s.hostAsked.contains line then s.hostAsked else s.hostAsked ++ [line] }
    if s.hostUp && s.flag R.HL_STATUS F.HL_STATUS.CACHE_EN then s1 else s1.windowErrors (some line)
  | _ => s

/-- HOST_WINDOW_ACCESS (R462). -/
def execHostWindowAccess (pa : BitVec 56) (s : State) : Host.Outcome State Fault Refusal := s.whileOn (hostWindowAccess pa.toNat s)

/-- The write to a window line whose turn it is. -/
def State.windowWrite (s : State) (line : Nat) : Option Wr :=
  s.mem.wrs.find? fun w => w.addr == line && w.stage == .sent && s.wrFirst w

/-- The host's answer (R462): a write is accepted as ownership is granted and its data pulled, else the read has its line. -/
def hostWindowResponse (line : Nat) (data : List Byte) (error poison : Bool) (s : State) : State :=
  match s.region line with
  | .host _ =>
    match s.windowWrite line with
    | some w => if error then (s.lostWr w s.ownPkg).dropWr w.id else s.setWr w.id fun v => { v with stage := .accepted }
    | none =>
      if s.hostAsked.contains line then
        { s with hostWin := Sparse.set line { data := data, error := error, poison := poison } s.hostWin, hostAsked := s.hostAsked.filter (· != line) }
      else s
  | _ => s

/-- HOST_WINDOW_RESPONSE (R462). -/
def execHostWindowResponse (pa : BitVec 56) (data : List Byte) (error poison : Bool) (s : State) : Host.Outcome State Fault Refusal :=
  s.whileOn (hostWindowResponse (pa.toNat / 64 * 64) data error poison s)

/-- A write of HL_WIN (R471). -/
def hlWinAct (v : Word) (s : State) : State :=
  if s.flag R.HL_STATUS F.HL_STATUS.CACHE_EN then s.raiseReg St.HL_CFG_BUSY R.HL_WIN
  else if 0x10000 < v.get 40 24 then s
  else s.plainWrite R.HL_WIN v

/-- HL_WIN_WRITE (R471). -/
def execHlWinWrite (w : RegW) (s : State) : Host.Outcome State Fault Refusal := s.whileOn (s.onWrite w R.HL_WIN hlWinAct)

/-! ## HDM decoders (R457) -/

/-- Does the range lie whole in the visible part of one region: a stack's linear slot, one die's interleaved window, DDR5? -/
def State.dpaOk (s : State) (dpa size : Nat) : Bool :=
  if dpa < 0x14000000000 then decide (dpa % 0x1000000000 + size ≤ 0xF00000000)
  else if 0x40000000000 ≤ dpa ∧ dpa < 0x60000000000 then decide (dpa % 0x8000000000 + size ≤ 0x4B00000000)
  else if 0x100000000000 ≤ dpa then decide (dpa - 0x100000000000 + size ≤ s.fld R.DC_MAP F.DC_MAP.VISIBLE_GIB * 0x40000000)
  else false

/-- May decoder `n` commit? -/
def State.decoderOk (s : State) (n : Nat) (x : Decoder) (ways : Nat) : Bool :=
  x.hpa % 0x10000000 == 0 && x.size % 0x10000000 == 0 && decide (0 < x.size) && ways == 1 && s.dpaOk x.dpa x.size &&
    s.host.decoders.all fun p => p.1 == n || decide (p.2.dpa + p.2.size ≤ x.dpa ∨ x.dpa + x.size ≤ p.2.dpa)

/-- The host commits decoder `n`; it also sets what its configuration enables (R469), which it cannot while the part is
unbound (R464). -/
def hdmCommit (n : Fin 4) (hpa size ways : Nat) (memEn cacheEn : Bool) (s : State) : State :=
  if !s.hostUp then s
  else
    let on := s.bound
    let s1 := (s.setFld R.HL_STATUS F.HL_STATUS.MEM_EN (if memEn && on then 1 else 0)).setFld R.HL_STATUS F.HL_STATUS.CACHE_EN (if cacheEn && on then 1 else 0)
    let x : Decoder := { hpa := hpa, size := size, dpa := s.fld (R.HL_HDM_DPA n) F.HL_HDM_DPA.DPA_BASE * 0x10000000 }
    let h := s1.host
    if s1.decoderOk n x ways then
      { s1 with host := { h with decoders := Sparse.set n.val x h.decoders, commitErr := h.commitErr.filter (· != n.val) } }
    else
      { s1 with host := { h with decoders := Sparse.del n.val h.decoders, commitErr := if h.commitErr.contains n.val then h.commitErr else h.commitErr ++ [n.val] } }.raiseReg
        St.HL_HDM_BAD (R.HL_HDM_DPA n)

/-- HDM_COMMIT (R457). -/
def execHdmCommit (n : Fin 4) (hpa size : BitVec 52) (ways : BitVec 8) (memEn cacheEn : Bool) (s : State) : Host.Outcome State Fault Refusal :=
  s.whileOn (hdmCommit n hpa.toNat size.toNat ways.toNat memEn cacheEn s)

/-! ## The mailbox (R463-R465) -/

def State.mboxDone (s : State) (c : MboxCode) (o : MboxOut) : State := { s with host := { s.host with code := c, out := o } }

/-- A mailbox command: Busy while HCP2 reloads (R544); Unsupported where it needs a bound part and the part is not; it is answered
over CXL.io, so only while the link is up. -/
def State.mailbox (s : State) (needsBound : Bool) (act : State → State) : State :=
  if !s.hostUp then s
  else if s.hcpLoading 2 then s.mboxDone .busy .none
  else if needsBound && !s.bound then s.mboxDone .unsupported .none
  else act s

/-- IDENTIFY (R456, R463). -/
def execIdentify (s : State) : Host.Outcome State Fault Refusal :=
  s.whileOn (s.mailbox false fun t => t.mboxDone .success (.words
    [Config.pciVendor.zeroExtend 64, 0x7420, BitVec.ofNat 64 ((t.reg R.PKG_ID).get 27 20), 0x120000, t.reg R.PKG_SERIAL, t.reg R.PKG_ID, t.reg R.PKG_UNITS]))

def State.eventsOf (s : State) (l : Nat) : List FaultRec := (s.faults.hostLogs.filter fun p => p.1 == l).map (·.2)

/-- GET_EVENT_RECORDS (R465). -/
def execGetEventRecords (l : Fin 4) (s : State) : Host.Outcome State Fault Refusal :=
  s.whileOn (s.mailbox false fun t => t.mboxDone .success (.events (t.eventsOf l) (t.faults.hostOvf.contains l.val)))

/-- Event records cleared by the SEQ of each, or a whole log (R465); a cleared log's overflow clears with it. -/
def clearEvents (l : Fin 4) (all : Bool) (seqs : List (BitVec 48)) (s : State) : State :=
  { s with faults := { s.faults with
      hostLogs := s.faults.hostLogs.filter fun p => !(p.1 == l.val && (all || seqs.any fun q => q.toNat == p.2.seq)),
      hostOvf := if all then s.faults.hostOvf.filter (· != l.val) else s.faults.hostOvf } }.mboxDone .success .none

/-- CLEAR_EVENT_RECORDS (R465). -/
def execClearEventRecords (l : Fin 4) (all : Bool) (seqs : List (BitVec 48)) (s : State) : Host.Outcome State Fault Refusal :=
  s.whileOn (s.mailbox false (clearEvents l all seqs))

/-- GET_EVENT_INTERRUPT_POLICY (R465). -/
def execGetEventInterruptPolicy (s : State) : Host.Outcome State Fault Refusal :=
  s.whileOn (s.mailbox false fun t => t.mboxDone .success (.policy t.host.policy))

/-- SET_EVENT_INTERRUPT_POLICY (R465). -/
def execSetEventInterruptPolicy (a b c d : BitVec 8) (s : State) : Host.Outcome State Fault Refusal :=
  s.whileOn (s.mailbox false fun t => { t with host := { t.host with policy := [a.toNat, b.toNat, c.toNat, d.toNat] } }.mboxDone .success .none)

/-- GET_FW_INFO (R463): one slot, the running image's version. -/
def execGetFwInfo (s : State) : Host.Outcome State Fault Refusal :=
  s.whileOn (s.mailbox false fun t => t.mboxDone .success (.words [1, t.reg R.BIND_VERSION]))

/-- A Transfer FW command's bytes are gathered; the last begins the flash write in the background (R463, R539). -/
def transferFw (a : FwAction) (off : Nat) (data : List Byte) (s : State) : State :=
  let put := fun (m : List Host.Cell) => { s with bind := { s.bind with transfer := Memory.writeBytes off data m } }
  let go := fun (t : State) => { t with bind := { t.bind with op := .transfer t.bind.transfer (t.bind.transfer.foldl (fun (b : Nat) (c : Host.Cell) => max b (c.1 + 1)) 0), transfer := [] } }.mboxDone .background .none
  if s.bind.op ≠ .none then s.mboxDone .busy .none
  else match a with
    | .full => go (put [])
    | .init => (put []).mboxDone .success .none
    | .cont => (put s.bind.transfer).mboxDone .success .none
    | .last => go (put s.bind.transfer)
    | .abort => { s with bind := { s.bind with transfer := [] } }.mboxDone .success .none

/-- TRANSFER_FW (R463). -/
def execTransferFw (a : FwAction) (off : BitVec 32) (data : List Byte) (s : State) : Host.Outcome State Fault Refusal :=
  s.whileOn (s.mailbox false (transferFw a off.toNat data))

/-- ACTIVATE_FW (R463): only at the next cold reset. -/
def execActivateFw (online : Bool) (s : State) : Host.Outcome State Fault Refusal :=
  s.whileOn (s.mailbox false fun t => t.mboxDone (if online then .invalidInput else .success) .none)

/-- GET_TIMESTAMP (R463): the value set, with the nanoseconds since. -/
def execGetTimestamp (s : State) : Host.Outcome State Fault Refusal :=
  s.whileOn (s.mailbox false fun t => t.mboxDone .success (.words [if t.host.timestamp = 0 then 0 else t.host.timestamp + BitVec.ofNat 64 ((t.now - t.host.timestampAt) / 16)]))

/-- SET_TIMESTAMP (R463). -/
def execSetTimestamp (v : Word) (s : State) : Host.Outcome State Fault Refusal :=
  s.whileOn (s.mailbox false fun t => { t with host := { t.host with timestamp := v, timestampAt := t.now } }.mboxDone .success .none)

/-- The opcodes the mailbox answers (R463), and those that need a bound part. -/
def mboxOpcodes : List Nat := [0x0001, 0x0100, 0x0101, 0x0102, 0x0103, 0x0200, 0x0201, 0x0202, 0x0300, 0x0301, 0x0400, 0x0401,
  0xC000, 0xC001, 0xC002, 0xC010, 0xC011, 0xC020, 0xC030]
def mboxBound : List Nat := [0xC010, 0xC011, 0xC020, 0xC030]

/-- GET_SUPPORTED_LOGS (R463): the command effects log and the vendor log. -/
def execGetSupportedLogs (s : State) : Host.Outcome State Fault Refusal :=
  s.whileOn (s.mailbox false fun t => t.mboxDone .success (.effects [0, 1]))

/-- GET_LOG (R463): the opcodes, or the result of the last start's checks. -/
def execGetLog (which : Fin 2) (s : State) : Host.Outcome State Fault Refusal :=
  s.whileOn (s.mailbox false fun t => t.mboxDone .success (if which = 0 then .effects mboxOpcodes else .effects [t.fld R.BIND_STATUS F.BIND_STATUS.FAIL]))

/-- GET_BINDING_STATE (R463). -/
def execGetBindingState (s : State) : Host.Outcome State Fault Refusal :=
  s.whileOn (s.mailbox false fun t => t.mboxDone .success (.words
    [BitVec.ofNat 64 (t.fld R.BIND_STATUS F.BIND_STATUS.STATE), BitVec.ofNat 64 (t.fld R.BIND_STATUS F.BIND_STATUS.FAIL)]))

/-- A part of a recovery image stored in staging (R464): Invalid Input while bound, or beyond 160 MiB. -/
def recoveryTransfer (off : Nat) (data : List Byte) (s : State) : State :=
  if s.bound ∨ 0xA000000 < off + data.length then s.mboxDone .invalidInput .none
  else if s.bind.op ≠ .none then s.mboxDone .busy .none
  else ({ s with bind := { s.bind with staging := Memory.writeBytes off data s.bind.staging } }.setFld R.BIND_STATUS F.BIND_STATUS.STATE 1).mboxDone .success .none

/-- RECOVERY_TRANSFER (R464). -/
def execRecoveryTransfer (off : BitVec 32) (data : List Byte) (s : State) : Host.Outcome State Fault Refusal :=
  s.whileOn (s.mailbox false (recoveryTransfer off.toNat data))

/-- The staged image's check starts (R464). -/
def recoveryApply (s : State) : State :=
  if s.bound then s.mboxDone .invalidInput .none
  else if s.bind.op ≠ .none then s.mboxDone .busy .none
  else { s with bind := { s.bind with op := .recovery } }.mboxDone .background .none

/-- RECOVERY_APPLY (R464). -/
def execRecoveryApply (s : State) : Host.Outcome State Fault Refusal := s.whileOn (s.mailbox false recoveryApply)

/-- SET_WAKE_BUDGET (R463, R466). -/
def execSetWakeBudget (us : BitVec 32) (s : State) : Host.Outcome State Fault Refusal :=
  s.whileOn (s.mailbox true fun t => (t.setFld R.HL_WAKE_BUDGET F.HL_WAKE_BUDGET.BUDGET_US us.toNat).mboxDone .success .none)

/-- GET_WAKE_BUDGET (R463): the budget, and the rest state now chosen. -/
def execGetWakeBudget (s : State) : Host.Outcome State Fault Refusal :=
  s.whileOn (s.mailbox true fun t => t.mboxDone .success (.words [BitVec.ofNat 64 (t.fld R.HL_WAKE_BUDGET F.HL_WAKE_BUDGET.BUDGET_US), BitVec.ofNat 64 t.restTarget]))

/-- GET_SERVICE_MAP (R548). -/
def execGetServiceMap (s : State) : Host.Outcome State Fault Refusal :=
  s.whileOn (s.mailbox true fun t => t.mboxDone .success (.words t.serviceMap))

/-- The host's envelope set (R463, R475). -/
def setPowerLimit (w : Nat) (s : State) : State :=
  let (ok, s1) := s.setLimit F.PWR_LIMIT.HOST_W w
  if ok then s1.envShow.mboxDone .success .none else (s1.raiseReg St.PWR_LIMIT_BAD R.PWR_LIMIT).mboxDone .invalidInput .none

/-- SET_POWER_LIMIT (R463). -/
def execSetPowerLimit (w : BitVec 16) (s : State) : Host.Outcome State Fault Refusal := s.whileOn (s.mailbox true (setPowerLimit w.toNat))

/-- MAILBOX_UNSUPPORTED (R463): an opcode the part does not answer, or one that needs a bound part while it is not. -/
def execMailboxUnsupported (op : BitVec 16) (s : State) : Host.Outcome State Fault Refusal :=
  s.whileOn (if s.hostUp ∧ (¬ mboxOpcodes.contains op.toNat ∨ (mboxBound.contains op.toNat ∧ ¬ s.bound)) then s.mailbox false fun t => t.mboxDone .unsupported .none else s)

/-! ## Resets and absence (R467, R468) -/

/-- Does a message go to or come from the host? -/
def Msg.ofHost (m : Msg) : Bool := m.agent == .agent .host

/-- HOST dropped from every directory and its copies discarded; homes that wait for its answers go on. -/
def State.dropHost (s : State) : State :=
  let s1 : State := { s with mem := { s.mem with hostLines := [] } }
  let waits := s1.mem.msgs.filter Msg.ofHost
  let s2 := waits.foldl (fun t m => biRsp m t) s1
  { s2 with mem := { s2.mem with
      dir := s2.mem.dir.filterMap (fun p => match p.2 with
        | .owner a => if a = .host then none else some p
        | .sharers l => some (p.1, .sharers (l.filter (· != .host)))),
      msgs := s2.mem.msgs.filter (fun m => !m.ofHost),
      txns := s2.mem.txns.filter (fun t => t.req != .agent .host || t.kind == .wr),
      retried := s2.mem.retried.filter (fun r => r.req != .agent .host || r.kind == .wr) } }

/-- The registers of the host-link block at their Reset column, image fields as the image gave them (R9). -/
def State.resetHostRegs (s : State) : State :=
  { s with regs := s.regs.filter (fun p => decide (p.1 < 0xD0000 ∨ 0xE0000 ≤ p.1)) }.setReg R.HL_CFG (Sparse.get 0 R.HL_CFG s.imageRegs)

/-- The host link goes down (R468): only its block resets. `dirty` are the lines the host had dirtied. -/
def State.hostDown (s : State) (dirty : List Nat) : State :=
  let n := (dirty.filter fun l => s.dirOf l == some (.owner .host)).length + (s.mem.hostLines.filter fun p => p.2.dirty && !dirty.contains p.1).length
  let s1 := (s.dropHost).windowErrors none
  let s2 := s1.resetHostRegs
  let op := if s2.bind.op = .recovery then BindOp.none else s2.bind.op
  let s3 : State := { s2 with host := { lostHold := s2.host.lostHold }, bind := { s2.bind with staging := if s2.bound then s2.bind.staging else [], op := op, transfer := [] } }
  let s4 := if s3.fld R.BIND_STATUS F.BIND_STATUS.STATE = 1 then s3.setFld R.BIND_STATUS F.BIND_STATUS.STATE 0 else s3
  s4.raise { status := St.COH_LOST, sev := Sev.DEFERRED, kind := Uk.HOMERC, die := 4, index := 0, arg0 := BitVec.ofNat 64 n }

/-- PERST_N asserted, a link down or a secondary bus reset while the part runs (R468). A hot reset or PERST_N ends the hold of a
lost host. -/
def perstN (k : LinkDown) (dirty : List Nat) (s : State) : State :=
  let s1 : State := match k with
    | .perst => { s with pins := { s.pins with perstLow := true }, host := { s.host with lostHold := false } }
    | .busReset => { s with host := { s.host with lostHold := false } }
    | .linkDown => s
  if s1.hostUp then s1.hostDown dirty else s1

/-- PERST_N (R468). -/
def execPerstN (t : Moment) (k : LinkDown) (dirty : List Nat) (s : State) : Host.Outcome State Fault Refusal :=
  .next (perstN k dirty (s.atTime t))

/-- The link trained as `u`; Mem_Enable and Cache_Enable stay clear while the part is unbound (R464, R469). -/
def State.linkTrained (s : State) (u : HostUp) : State :=
  if s.host.lostHold then s
  else
    let on := s.bound
    let w : Word := ((((((0 : Word).put 0 0 1).put 5 1 u.width.toNat).put 8 6 u.rate.toNat).put 9 9 (if u.memEn && on then 1 else 0)).put 10 10 (if u.cacheEn && on then 1 else 0)).put 11 11 (if u.ide then 1 else 0)
    s.setReg R.HL_STATUS (w ||| (s.reg R.HL_STATUS &&& Word.mask 14 14))

/-- PERST_N deasserted, RESET_N being so: the link trains (R468). The same step trains a link again after a link down. -/
def perstDeassert (u : HostUp) (s : State) : State :=
  let s1 : State := { s with pins := { s.pins with perstLow := false } }
  if s.off || s.pins.resetLow then s1 else s1.linkTrained u

/-- PERST_N_DEASSERT (R468). -/
def execPerstNDeassert (t : Moment) (u : HostUp) (s : State) : Host.Outcome State Fault Refusal := .next (perstDeassert u (s.atTime t))

/-- The time a BISnp may stay unanswered, in 1/16 ns (R460, R470). -/
def State.biTimeout (s : State) : Nat :=
  (if s.fld R.HL_CFG F.HL_CFG.BI_TIMEOUT_US = 0 then 2000 else s.fld R.HL_CFG F.HL_CFG.BI_TIMEOUT_US) * 16000

/-- A BISnp unanswered for BI_TIMEOUT_US: the host is lost, and the link held down (R460, R468). -/
def bisnpTimeout (m : Msg) (s : State) : State :=
  if (m.kind = .snpInv ∨ m.kind = .snpShare ∨ m.kind = .snpGet) ∧ m.agent = .agent .host ∧ m.at_ + s.biTimeout ≤ s.now then
    let s1 := s.hostDown []
    (State.setFld { s1 with host := { s1.host with lostHold := true } } R.HL_STATUS F.HL_STATUS.HOST_LOST 1).raiseHub Sev.DEFERRED St.HL_HOST_LOST Uk.HOSTLINK
  else s

/-- BISNP_TIMEOUT (R460). -/
def execBisnpTimeout (t : Moment) (id : Nat) (s : State) : Host.Outcome State Fault Refusal :=
  s.whileOn (match (s.atTime t).msg id with
    | some m => bisnpTimeout m (s.atTime t)
    | none => s.atTime t)

/-- A function-level reset aborts the running mailbox command (R468). -/
def functionReset (s : State) : State :=
  let op := match s.bind.op with
    | .transfer _ _ => BindOp.none
    | .recovery => BindOp.none
    | x => x
  { s with bind := { s.bind with op := op, transfer := [] }, host := { s.host with code := .idle, out := .none } }

/-- FUNCTION_LEVEL_RESET (R468). -/
def execFunctionLevelReset (s : State) : Host.Outcome State Fault Refusal := s.whileOn (functionReset s)

/-- An integrity failure on a received flit: it is discarded and the link goes down (R467). -/
def ideFail (s : State) : State :=
  if s.hostUp && s.flag R.HL_STATUS F.HL_STATUS.IDE_ON then (s.raiseHub Sev.DEFERRED St.HL_IDE_FAIL Uk.HOSTLINK).hostDown [] else s

/-- IDE_FAIL (R467). -/
def execIdeFail (t : Moment) (s : State) : Host.Outcome State Fault Refusal := s.whileOn (ideFail (s.atTime t))

end Sys2Proof.Machine
end

