-- ==== Sys2Proof/Machine/Image.lean ====
section
/-!
DEFINITION. Binding images and packs (20_binding.md): their header, segment table and configuration segment as bytes, and the
checks of R535 and R543.
-/

namespace Sys2Proof.Machine

/-! ## Fields of an image (R529-R534) -/

/-- `n` bytes at `o` of an image, little-endian (R529). -/
def imgNat (m : List Host.Cell) (o n : Nat) : Nat := leNat ((List.range n).map fun i => Memory.read (o + i) m)

/-- Are bytes `lo` to `hi` all zero? -/
def imgZero (m : List Host.Cell) (lo hi : Nat) : Bool := m.all fun c => decide (c.1 < lo ∨ hi < c.1) || c.2 == 0

/-- The bytes of a part of an image, from 0. -/
def imgPart (m : List Host.Cell) (o n : Nat) : List Host.Cell :=
  (m.filter fun c => decide (o ≤ c.1 ∧ c.1 < o + n)).map fun c => (c.1 - o, c.2)

def imgLen (m : List Host.Cell) : Nat := imgNat m 24 8
def imgSvn (m : List Host.Cell) : Nat := imgNat m 13 1
def imgVersion (m : List Host.Cell) : Nat := imgNat m 16 8
def imgCount (m : List Host.Cell) : Nat := imgNat m 32 4

/-- Where entry `i` of the segment table starts (R531). -/
def segEntry (i : Nat) : Nat := 4096 + 128 * i

def imgSegOff (m : List Host.Cell) (i : Nat) : Nat := imgNat m (segEntry i + 8) 8
def imgSegLen (m : List Host.Cell) (i : Nat) : Nat := imgNat m (segEntry i + 16) 8

/-- Segment `i` of an image. -/
def imgSeg (m : List Host.Cell) (i : Nat) : Seg :=
  { kind := imgNat m (segEntry i) 1, target := imgNat m (segEntry i + 1) 1, version := BitVec.ofNat 64 (imgNat m (segEntry i + 24) 8),
    len := imgSegLen m i, digest := imgNat m (segEntry i + 64) 64, body := imgPart m (imgSegOff m i) (imgSegLen m i) }

def imgSegs (m : List Host.Cell) : List Seg := (List.range (min 64 (imgCount m))).map (imgSeg m)

/-! ## Checks (R535) -/

/-- Do segments `i` and `j` keep clear of one another? -/
def segsApart (m : List Host.Cell) (i j : Nat) : Bool :=
  i == j || decide (imgSegOff m i + imgSegLen m i ≤ imgSegOff m j ∨ imgSegOff m j + imgSegLen m j ≤ imgSegOff m i)

/-- Check 2: format, kind, length, table and segments, zero fields. `limit` is how many bytes there are. -/
def formatOk (m : List Host.Cell) (kind limit : Nat) : Bool :=
  let len := imgLen m
  let n := imgCount m
  let first := (segEntry n + 8191) / 8192 * 8192
  imgNat m 4 2 == 1 && imgNat m 6 1 == kind && len % 4096 == 0 && decide (65536 ≤ len ∧ len ≤ 0xA000000 ∧ len ≤ limit) &&
    decide (1 ≤ n ∧ n ≤ 64) && decide (imgSvn m ≤ 64) && decide (imgNat m 14 1 ≤ 1) && imgZero m 15 15 && imgZero m 36 63 && imgZero m 2656 4095 &&
    (List.range n).all fun i =>
      imgZero m (segEntry i + 2) (segEntry i + 7) && imgZero m (segEntry i + 32) (segEntry i + 63) && imgSegOff m i % 4096 == 0 &&
        decide (first ≤ imgSegOff m i) && decide (imgSegOff m i + imgSegLen m i + 8192 ≤ len) && (List.range n).all (segsApart m i)

/-- Check 3: part, architecture generation and stepping. -/
def State.partOk (s : State) (m : List Host.Cell) : Bool :=
  let step := s.fld R.PKG_ID F.PKG_ID.STEP_MAJOR * 16 + s.fld R.PKG_ID F.PKG_ID.STEP_MINOR
  imgNat m 8 2 == 0x7420 && imgNat m 7 1 == s.fld R.PKG_ID F.PKG_ID.ARCH_GEN && decide (imgNat m 10 1 ≤ step ∧ step ≤ imgNat m 11 1)

/-- The targets a segment type is loaded into, as `SEG_RUN_n` numbers them (R532, R554). -/
def segTargets (kind : Nat) : List Nat :=
  if kind = 1 then List.range 4
  else if kind = 2 then (List.range 8).map (4 + ·)
  else if kind = 3 then (List.range 20).map (12 + ·)
  else if kind = 4 then (List.range 8).map (32 + ·)
  else if kind = 5 then [40]
  else []

/-- The targets of a segment. -/
def Seg.targets (g : Seg) : List Nat :=
  if g.target = 0xFF then segTargets g.kind else (segTargets g.kind).filter (· == g.target)

/-- Does a segment name every unit of its type, or one unit of it? -/
def Seg.targetOk (g : Seg) : Bool := g.target == 0xFF || (segTargets g.kind).contains g.target

/-- No pair of type and target twice. -/
def segsOnce (l : List Seg) : Bool := l.all fun g => (l.filter fun h => h.kind == g.kind && h.target == g.target).length == 1

/-- Check 7 of an image: exactly one segment of each required type with TARGET 0xFF, no other type, no pair twice (R532). -/
def imageCounts (l : List Seg) : Bool :=
  ([0x01, 0x02, 0x03, 0x04, 0x10, 0x11, 0x12, 0x13].all fun k => (l.filter fun g => g.kind == k).length == 1 && (l.filter fun g => g.kind == k).all fun g => g.target == 0xFF) &&
    segsOnce l && l.all fun g => [0x01, 0x02, 0x03, 0x04, 0x05, 0x10, 0x11, 0x12, 0x13].contains g.kind && g.targetOk

/-- Check 7 of a pack: types R532 allows in a pack, no pair twice (R543). -/
def State.packCounts (s : State) (l : List Seg) : Bool :=
  segsOnce l && l.all fun g => g.targetOk && ([0x01, 0x02, 0x03, 0x04, 0x11, 0x12].contains g.kind || (g.kind == 0x13 && s.fabState == FabS.OFF))

/-- The configuration segment's pairs (R534). -/
def cfgPairs (g : Seg) : List (Nat × Word) :=
  (List.range (g.len / 16)).map fun i => (imgNat g.body (16 * i) 8, BitVec.ofNat 64 (imgNat g.body (16 * i + 8) 8))

/-- The fields of a register that the image gives (R9). -/
def imageFields (o : Nat) : List Fld := ((regFields o).getD []).filter fun f => f.rst == .image

/-- Every register offset with a field whose Reset column reads "image". -/
def RegEntry.offsets (e : RegEntry) (base : Nat) : List Nat :=
  (List.range e.count).flatMap fun i => (List.range e.count2).map fun j => base + e.base + i * e.stride + j * e.stride2

def imageOffsets : List Nat :=
  ((hubRegs.filter fun e => e.fields.any fun f => f.rst == .image).flatMap fun e => e.offsets 0).filter (fun o => imageFields o != []) ++
    (List.range 4).flatMap fun d => (dieRegs.filter fun e => e.fields.any fun f => f.rst == .image).flatMap fun e => e.offsets (R.dieBase d)

/-- Would the register's own rules refuse the value (R49, R48, R198, R247, R394, R475, R500, R523)? -/
def cfgRefused (o : Nat) (v : Word) : Bool :=
  let fs := regFields o
  if o = R.SPAN_LEN then decide (v.get 31 0 < 100000 ∨ 100000000 < v.get 31 0)
  else if o = R.SPAN_CFG then v.get 1 0 == 3
  else if o = R.FIRN_DDR then decide (64 < v.get 22 16)
  else if o = R.LS_BAND then decide (v.get 31 16 < v.get 15 0)
  else if o = R.PWR_LIMIT then decide ((v.get 15 0 ≠ 0 ∧ v.get 15 0 < 400) ∨ (v.get 47 32 ≠ 0 ∧ v.get 47 32 < 400))
  else if o = R.FQ_CFG then decide (95 < v.get 7 1)
  else if fs = some F.SCR_WIN.all then decide (256 < v.get 8 0 + v.get 24 16)
  else if fs = some F.SYNC_RANGE.all then decide (16384 < v.get 13 0 + v.get 29 15)
  else false

/-- Check 8: every pair names a register with an image field and a value it takes, and every image field is named. -/
def cfgOk (l : List (Nat × Word)) : Bool :=
  (l.all fun p => imageFields p.1 != [] && !cfgRefused p.1 p.2) && imageOffsets.all fun o => l.any fun p => p.1 == o

def cfgSeg (m : List Host.Cell) : Seg := ((imgSegs m).find? fun g => g.kind == 0x10).getD { kind := 0x10, target := 0xFF, version := 0, len := 0, digest := 0 }

/-- Checks 1 to 7 of an image in order (R535): the first failure's status. -/
def State.checkSeven (s : State) (m : List Host.Cell) (limit : Nat) (v : TrustVerdict) : Option Nat :=
  if !v.flashAnswers ∨ imgNat m 0 4 ≠ 0x4253474B then some St.BIND_NO_IMAGE
  else if !formatOk m 1 limit then some St.BIND_FORMAT
  else if !s.partOk m then some St.BIND_PART
  else if imgNat m 12 1 ≠ s.fld R.PKG_ID F.PKG_ID.KEY_SET ∨ !v.keyHashOk then some St.BIND_KEY
  else if imgSvn m < s.fld R.BIND_STATUS F.BIND_STATUS.FUSED_SVN then some St.BIND_ROLLBACK
  else if !v.signatureOk then some St.BIND_SIGNATURE
  else if !v.digestsOk ∨ !imageCounts (imgSegs m) then some St.BIND_SEGMENT
  else none

/-- All the checks of an image (R535). -/
def State.checkImage (s : State) (m : List Host.Cell) (limit : Nat) (v : TrustVerdict) : Option Nat :=
  match s.checkSeven m limit v with
  | some st => some st
  | none => if cfgOk (cfgPairs (cfgSeg m)) then none else some St.BIND_CFG_BAD

/-- Bytes the segment store holds (R543, R545). -/
def State.storeUsed (s : State) : Nat := s.bind.store.foldl (fun b g => b + g.len) 0

/-- Does a pack pass its check, and fit the free space of the 32 MiB store (R543)? -/
def State.packOk (s : State) (m : List Host.Cell) (len : Nat) (v : TrustVerdict) : Bool :=
  let l := imgSegs m
  imgNat m 0 4 == 0x4253474B && formatOk m 2 len && s.partOk m && imgNat m 12 1 == s.fld R.PKG_ID F.PKG_ID.KEY_SET && v.keyHashOk &&
    decide (s.fld R.BIND_STATUS F.BIND_STATUS.FUSED_SVN ≤ imgSvn m) && decide (s.fld R.BIND_STATUS F.BIND_STATUS.IMG_SVN ≤ imgSvn m) &&
    v.signatureOk && v.digestsOk && s.packCounts l && decide (s.storeUsed + l.foldl (fun b g => b + g.len) 0 ≤ 0x2000000)

/-! ## Copying from memory (R539, R543) -/

/-- Does a physical range lie whole in visible HBM or DDR5, in service and clear of poison? -/
def State.srcOk (s : State) (pa len : Nat) : Bool :=
  len != 0 && ((List.range ((len + 4095) / 4096)).all fun i =>
    let a := pa + 4096 * i
    let r := s.region a
    r.isMem && !s.absent r && (s.block (r.key a)).poison.isEmpty)

/-- The bytes of a physical range as its homes hold them, dirty lines taken back first. -/
def State.copyRange (s : State) (pa len : Nat) : List Host.Cell × State :=
  let at_ := fun (k : Nat) => if decide (pa ≤ k) && decide (k < pa + len) then some (k - pa)
    else match windowAddr k with
      | some w => if decide (pa ≤ w) && decide (w < pa + len) && decide (k < 0x14000000000) then some (w - pa) else none
      | none => none
  let s1 := ((s.mem.coreLines ++ s.mem.hostLines).filter fun p => (at_ p.1).isSome).foldl (fun t p => t.homeShare p.1) s
  ((s1.mem.cells.foldl (fun m c => match at_ c.1 with
    | some i => Memory.write i c.2 m
    | none => m) []), s1)

end Sys2Proof.Machine
end

