-- ==== Sys2Proof/Machine/Binding.lean ====
section
/-!
DEFINITION. Start-up, binding, live update and service (20_binding.md), with the opening of the colophon's epoch
(19_faults.md, R521) and the SPDM responder.
-/

namespace Sys2Proof.Machine

/-! ## The colophon opens (R521) -/

/-- The newest checkpoint of the store: of the bank written last (R522). -/
def ColoSt.newest (c : ColoSt) : Option Checkpoint :=
  if c.nextBank = 0 then (match c.bank1 with | some k => some k | none => c.bank0) else (match c.bank0 with | some k => some k | none => c.bank1)

/-- The epoch before this start, as the newest checkpoint of it says it ended. -/
def ColoSt.lastEpoch (c : ColoSt) : Option EpochRec :=
  match c.epochs with
  | [] => none
  | e :: _ => match c.newest with
    | some k => if k.epoch.number = e.number then some { e with clean := k.closing || k.epoch.clean, wall := k.epoch.wall } else some e
    | none => some e

/-- The store is read: life counters and histograms from the newest checkpoint, or from zero where records failed their checks. -/
def State.coloRead (s : State) (bad : Bool) : State :=
  match (if bad then none else s.colo.newest) with
  | some k =>
    let s1 := k.life.foldl (fun t p => t.setReg (R.COLO_LIFE p.1) p.2) s
    { s1.setReg R.COLO_LIFE_SAT k.sat with colo := { s1.colo with loaded := true, histLife := k.histLife, histEpoch := [] } }
  | none =>
    { s with colo := { s.colo with loaded := true, histLife := [], histEpoch := [], epochs := if bad then [] else s.colo.epochs,
                                   bank0 := if bad then none else s.colo.bank0, bank1 := if bad then none else s.colo.bank1 } }

/-- The epoch opens: STARTS, UNCLEAN_STOPS, its record (R519, R521). -/
def State.coloOpen (s : State) (bad : Bool) : State :=
  let prev := if bad then none else s.colo.lastEpoch
  let s1 := (s.coloRead bad).life 1 1
  let clean := match prev with | some e => e.clean | none => false
  let s2 := match prev with
    | some e => if e.clean then s1 else s1.life 2 1
    | none => s1
  let n := (s2.reg (R.COLO_LIFE 1)).toNat
  let first := s2.colo.epochs.isEmpty
  let e : EpochRec := { number := n, powerOnS := (s2.reg (R.COLO_LIFE 0)).toNat, first := first, lostHistory := bad }
  let old := match s2.colo.epochs, prev with
    | _ :: r, some p => p :: r
    | l, _ => l
  let s3 : State := { s2 with colo := { s2.colo with epoch := e, epochs := (e :: old).take 1024, powerAt := s2.now, lastAt := s2.now, closed := false } }
  let s4 := (((s3.setFld R.COLO_STATUS F.COLO_STATUS.EPOCH (n % 2 ^ 32)).setFld R.COLO_STATUS F.COLO_STATUS.FIRST (if first then 1 else 0)).setFld
    R.COLO_STATUS F.COLO_STATUS.LOST_HISTORY (if bad then 1 else 0)).setFld R.COLO_STATUS F.COLO_STATUS.PREV_CLEAN (if clean then 1 else 0)
  if bad then s4.raiseHub Sev.DEFERRED St.COLO_LOST Uk.COLOPHON else s4

/-! ## Applying an image (R534, R537, R538) -/

/-- One configuration pair: only its image fields are written. -/
def State.applyPair (s : State) (p : Nat × Word) : State :=
  let m := (imageFields p.1).foldl (fun w f => w ||| Word.mask f.hi f.lo) 0
  let keep := fun (t : State) => { t with imageRegs := Sparse.set p.1 (p.2 &&& m) t.imageRegs }
  let v := (s.reg p.1 &&& ~~~m) ||| (p.2 &&& m)
  keep (if p.1 = R.SPAN_CFG then spanCfgAct v s else if p.1 = R.SPAN_LEN then spanLenAct v s else s.setReg p.1 v)

/-- A target's firmware: its version shown and its digest measured (R542, R554). -/
def State.runSeg (s : State) (n : Nat) (g : Seg) (pack : Bool) : State :=
  let w := (((g.version &&& Word.mask 47 0).put 48 48 (if pack then 1 else 0)).put 49 49 0)
  let s1 := s.setReg (R.SEG_RUN n) w
  { s1 with bind := { s1.bind with fw := Sparse.set n g.digest s1.bind.fw } }

/-- Is a target in service, so that it can take a segment (R544)? -/
def State.targetIn (s : State) (n : Nat) : Bool :=
  if n < 4 then s.bound
  else if n < 12 then s.dieIn ((n - 4) / 2) && !s.bind.dctlOut.contains (n - 4)
  else if n < 32 then s.stackIn (n - 12) && s.dieIn ((n - 12) / 5)
  else if n < 40 then !s.fab.oeOut.contains (n - 32)
  else true

/-- A fabric identity segment (R532, R544). -/
def State.applyIdentity (s : State) (g : Seg) : State :=
  let x := Config.fabIdentity g.body
  ((s.setFld R.FAB_CFG F.FAB_CFG.PKG x.1).setFld R.FAB_CFG F.FAB_CFG.VOTES x.2.1).setFld R.FAB_CFG F.FAB_CFG.ANCHOR_ELIG x.2.2

/-- Is the DIMM population one that R266 accepts? -/
def dimmsOk (l : List Dimm) : Bool :=
  let chans := l.map fun x => x.channel.val
  let alike := match l with
    | [] => true
    | x :: r => r.all fun y => y.sizeGib == x.sizeGib
  (l.all fun x => x.supported && (x.sizeGib == 64 || x.sizeGib == 128 || x.sizeGib == 256) && (x.rate == 128 || x.rate == 88)) && alike &&
    ((List.range 12).all (fun n => chans.count n == 1) || ((List.range 12).all fun n => chans.count n == (if n % 2 = 0 then 1 else 0)))

/-- DDR5 trained, or left empty (R266, R267, R278). -/
def State.ddrUp (s : State) (b : BringUp) : State :=
  if b.dimms.isEmpty then s
  else if !dimmsOk b.dimms then s.raiseHub Sev.DEFERRED St.DDR_POPULATION Uk.DDR
  else
    let size := (b.dimms.map (·.sizeGib)).foldl max 0
    let rate := if b.dimms.all fun x => x.rate == 128 then 128 else 88
    let pop := b.dimms.foldl (fun w x => w ||| (1 <<< x.channel.val)) 0
    let s1 := ((s.setFld R.DC_MAP F.DC_MAP.POPULATED pop).setFld R.DC_MAP F.DC_MAP.RATE rate).setFld R.DC_MAP F.DC_MAP.VISIBLE_GIB (size * b.dimms.length * 31 / 32)
    b.dimms.foldl (fun t x =>
      let o := R.DC_STATUS x.channel
      let t1 := (t.setFld o F.DC_STATUS.PRESENT 1).setFld o F.DC_STATUS.SIZE_GIB x.sizeGib
      if b.failedDdr.contains x.channel then
        t1.raise { status := St.DDR_CHANNEL_FAIL, sev := Sev.FATAL_UNIT, kind := Uk.DDR, index := x.channel.val }
      else t1.setFld o F.DC_STATUS.IN_SERVICE 1) s1

/-- A compute die up with its links, or out of service with the record of its loss. -/
def State.dieUp (s : State) (b : BringUp) (d : Die) : State :=
  if b.failedDies.contains d then
    (s.setFld (R.HUB_CD_STATUS d) F.HUB_CD_STATUS.STATE 4).raise { status := St.DIE_LOST, sev := Sev.FATAL_UNIT, kind := Uk.DIE, die := d.val, index := d.val }
  else
    ((((s.setFld (R.HUB_CD_STATUS d) F.HUB_CD_STATUS.STATE 0).setFld (R.HUB_CD_STATUS d) F.HUB_CD_STATUS.IN_SERVICE 1).linkUp (.pkgDown d) 16).linkUp (.pkgUp d) 16)

/-- A stack up, its visible memory zero and its records reset (R271), or out of service. -/
def State.stackUp (s : State) (b : BringUp) (j : Fin 20) : State :=
  if b.failedDies.any fun d => d.val == j.val / 5 then s
  else if b.failedStacks.contains j then s.raise { status := St.STACK_LOST, sev := Sev.FATAL_UNIT, kind := Uk.STACK, die := j.val / 5, index := j.val }
  else ((s.linkUp (.mem j) 8).stackZero j).stackOn j

/-- A start or a recovery ends unbound, with its failure code (R464, R535). -/
def State.unbound (s : State) (st : Nat) : State :=
  let s1 := (s.setFld R.BIND_STATUS F.BIND_STATUS.STATE 0).setFld R.BIND_STATUS F.BIND_STATUS.FAIL (st % 256)
  { s1 with bind := { s1.bind with ended := true } }.raiseHub Sev.DEFERRED st Uk.SECPROC

/-- The cores the image starts (R537 step 9). -/
def State.startCores (s : State) : State :=
  (List.finRange 96).foldl (fun t n =>
    let w := if n.val < 64 then t.reg R.BIND_CORES_LO else t.reg R.BIND_CORES_HI
    if w.bit (n.val % 64) then t.coreStart n else t) s

/-- The image's identity shown (R550, R551) and kept for attestation (R542). -/
def State.showImage (s : State) (m : List Host.Cell) (digest : BitVec 512) (recovery : Bool) : State :=
  let s1 := ((s.setFld R.BIND_STATUS F.BIND_STATUS.SOURCE (if recovery then 1 else 0)).setFld R.BIND_STATUS F.BIND_STATUS.FAIL 0).setFld
    R.BIND_STATUS F.BIND_STATUS.IMG_SVN (imgSvn m)
  let s2 := (List.range 8).foldl (fun t i => t.setReg (R.BIND_DIGEST i) (BitVec.ofNat 64 (digest.toNat >>> (64 * i)))) (s1.setReg R.BIND_VERSION (BitVec.ofNat 64 (imgVersion m)))
  let e := { s2.colo.epoch with version := BitVec.ofNat 64 (imgVersion m) }
  let l := e :: s2.colo.epochs.drop 1
  { s2 with bind := { s2.bind with imageDigest := digest.toNat, cfgDigest := (cfgSeg m).digest }, colo := { s2.colo with epoch := e, epochs := l } }

/-- A checked image applied (R537 steps 5-9, R538). -/
def State.bindImage (s : State) (m : List Host.Cell) (digest : BitVec 512) (b : BringUp) (recovery : Bool) : State :=
  if b.failedHcp || b.applyFails then s.unbound St.BIND_APPLY_FAIL
  else
    let segs := imgSegs m
    let s1 := s.showImage m digest recovery
    let s2 := (cfgPairs (cfgSeg m)).foldl State.applyPair s1
    let s3 := s2.ddrUp b
    let s4 := ([0, 1, 2, 3] : List Die).foldl (fun t d => t.dieUp b d) s3
    let s5 := (List.finRange 20).foldl (fun t j => t.stackUp b j) s4
    let commit := if imgNat m 14 1 = 1 ∧ s.fld R.BIND_STATUS F.BIND_STATUS.FUSED_SVN < imgSvn m then some (imgSvn m) else none
    let out := b.failedDctls.map fun p => 2 * p.1.val + p.2.val
    let oes := b.failedOEs.map (·.val)
    let s6 : State := { s5 with power := { s5.power with tables := s5.power.tables + 1 }, bind := { s5.bind with dctlOut := out, ended := true, commit := commit }, fab := { s5.fab with oeOut := oes } }
    let s7 := b.failedDctls.foldl (fun t p => t.raise { status := St.DIE_LOST, sev := Sev.FATAL_UNIT, kind := Uk.DCTL, die := p.1.val, index := p.2.val }) s6
    let s8 := b.failedOEs.foldl (fun t i => t.raise { status := St.FAB_NO_LIGHT, sev := Sev.DEFERRED, kind := Uk.OE, index := i.val }) s7
    let s9 := (segs.filter fun g => g.kind == 0x13).foldl State.applyIdentity s8
    let s10 := s9.setFld R.BIND_STATUS F.BIND_STATUS.STATE 2
    let s11 := segs.foldl (fun t g => g.targets.foldl (fun u n => if u.targetIn n then u.runSeg n g false else u) t) s10
    s11.fabJoin.startCores.envShow

/-! ## START_UP and what follows (R535-R538) -/

/-- A start (R537): the package leaves reset, opens its colophon, trains its host link, checks the flash image and applies it. -/
def startUp (v : TrustVerdict) (b : BringUp) (link : Option HostUp) (s : State) : State :=
  if !s.pins.powered || s.bind.started || s.pins.thermtrip then s
  else
    let s1 : State := { s with pins := { s.pins with inReset := false, resetLow := false, drive := .none, ir := if s.pins.drive = .none then s.pins.ir else 0xFF },
                               bind := { s.bind with started := true, startAt := s.now } }
    let s2 := s1.coloOpen b.coloBad
    let s3 := match link with
      | some u => if s2.pins.perstLow then s2 else s2.linkTrained u
      | none => s2
    if !b.stepsDone then s3
    else match s3.checkImage s3.bind.flash 0xA000000 v with
      | some st => (s3.unbound st).life 3 1
      | none => s3.bindImage s3.bind.flash v.digest b false

/-- START_UP (R537). -/
def execStartUp (t : Moment) (v : TrustVerdict) (b : BringUp) (link : Option HostUp) (s : State) : Host.Outcome State Fault Refusal :=
  .next (startUp v b link (s.atTime t))

/-- The check of a recovery image ends (R464). -/
def recoveryCheckDone (v : TrustVerdict) (b : BringUp) (s : State) : State :=
  if s.bind.op = .recovery then
    let s1 : State := { s with bind := { s.bind with op := .none }, host := { s.host with code := .success } }
    match s1.checkImage s1.bind.staging 0xA000000 { v with flashAnswers := true } with
    | some st => s1.unbound st
    | none =>
      let s2 := s1.bindImage s1.bind.staging v.digest b true
      if s2.bound then { s2 with bind := { s2.bind with staging := [] } }.life 4 1 else s2
  else s

/-- RECOVERY_CHECK_DONE (R464). -/
def execRecoveryCheckDone (t : Moment) (v : TrustVerdict) (b : BringUp) (s : State) : Host.Outcome State Fault Refusal :=
  s.whileOn (recoveryCheckDone v b (s.atTime t))

/-- Neither BOUND nor UNBOUND within 5 s (R537). -/
def bindTimeout (s : State) : State :=
  if s.bind.started ∧ !s.bind.ended ∧ !s.bind.spFailed ∧ s.bind.startAt + 80000000000 ≤ s.now then
    { s with bind := { s.bind with spFailed := true } }.raiseHub Sev.CRITICAL St.SP_FAIL Uk.SECPROC
  else s

/-- BIND_TIMEOUT (R537). -/
def execBindTimeout (t : Moment) (s : State) : Host.Outcome State Fault Refusal := s.whileOn (bindTimeout (s.atTime t))

/-- The fuses blown up to the image's SVN (R536). -/
def svnCommit (s : State) : State :=
  match s.bind.commit with
  | some n => if s.bound then { s.setFld R.BIND_STATUS F.BIND_STATUS.FUSED_SVN n with bind := { s.bind with commit := none } } else s
  | none => s

/-- SVN_COMMIT (R536). -/
def execSvnCommit (t : Moment) (s : State) : Host.Outcome State Fault Refusal := s.whileOn (svnCommit (s.atTime t))

/-! ## Packs (R543-R545, R549) -/

def State.opStart (s : State) (op : BindOp) : State :=
  { s.setReg R.BIND_OP 1 with bind := { s.bind with op := op } }

/-- The last operation ends: its outcome in BIND_OP (R552). -/
def State.opEnd (s : State) (fail : Option Nat) (kib : Nat) : State :=
  let w : Word := match fail with
    | none => ((0 : Word).put 1 1 1).put 47 16 kib
    | some st => (((0 : Word).put 2 2 1).put 15 8 (st % 256)).put 47 16 kib
  { s.setReg R.BIND_OP w with bind := { s.bind with op := .none } }

/-- LOAD_PACK or WRITE_FLASH: refused while an operation runs; the bytes at BIND_SRC are copied now (R543, R549). -/
def State.opFromMemory (s : State) (mk : List Host.Cell → Nat → BindOp) : State :=
  if s.bind.op ≠ .none then s.raiseReg St.BIND_BUSY R.BIND_CTL
  else if s.bind.spFailed then s
  else
    let pa := s.fld R.BIND_SRC F.BIND_SRC.ADDR * 4096
    let len := s.fld R.BIND_LEN F.BIND_LEN.LEN
    if s.srcOk pa len then
      let (m, s1) := s.copyRange pa len
      s1.opStart (mk m len)
    else s.opStart (mk [] 0)

/-- LOAD_PACK (R543). -/
def execLoadPack (w : RegW) (s : State) : Host.Outcome State Fault Refusal :=
  s.whileOn (s.onWrite w R.BIND_CTL fun v t => if v.bit 0 then t.opFromMemory .pack else t)

/-- A segment of a pack that has passed goes to its targets, or takes effect as its type gives (R544). -/
def State.releaseSeg (s : State) (g : Seg) : State :=
  let s1 := g.targets.foldl (fun t n =>
    if t.targetIn n then { t with bind := { t.bind with loading := t.bind.loading ++ [(n, g)] } } else t.setFld (R.SEG_RUN n) F.SEG_RUN.PENDING 1) s
  if g.kind = 0x12 then { s1 with power := { s1.power with tablesDue := true } }
  else if g.kind = 0x13 then s1.applyIdentity g
  else s1

/-- The pack's check ends (R543). -/
def packCheckDone (v : TrustVerdict) (s : State) : State :=
  match s.bind.op with
  | .pack m len =>
    if s.packOk m len v then
      let s1 := s.opEnd none ((len + 1023) / 1024)
      (imgSegs m).foldl State.releaseSeg { s1 with bind := { s1.bind with store := s1.bind.store ++ imgSegs m } }
    else (s.opEnd (some St.PACK_BAD) ((len + 1023) / 1024)).raiseHub Sev.INFO St.PACK_BAD Uk.SECPROC
  | _ => s

/-- PACK_CHECK_DONE (R543). -/
def execPackCheckDone (t : Moment) (v : TrustVerdict) (s : State) : Host.Outcome State Fault Refusal := s.whileOn (packCheckDone v (s.atTime t))

/-- The group of targets of which one loads at a time: a die's, or the control processors (R544). -/
def loadGroup (n : Nat) : Nat :=
  if n < 4 then 100 else if n < 12 then (n - 4) / 2 else if n < 32 then (n - 12) / 5 else 200 + n

/-- The unit a target names in a fault record. -/
def targetUnit (n : Nat) : Nat × Nat × Nat :=
  if n < 4 then (Uk.PACKAGE, 4, n) else if n < 12 then (Uk.DCTL, (n - 4) / 2, (n - 4) % 2) else if n < 32 then (Uk.STACK, (n - 12) / 5, n - 12)
  else if n < 40 then (Uk.OE, 4, n - 32) else (Uk.SECPROC, 4, 0)

/-- A target switches to its new segment, or keeps its firmware (R544). -/
def segmentSwitch (n : Nat) (fails : Bool) (s : State) : State :=
  match s.bind.loading.find? fun p => loadGroup p.1 == loadGroup n with
  | some (k, g) =>
    if k ≠ n then s
    else
      let s1 : State := { s with bind := { s.bind with loading := s.bind.loading.erase (k, g) }, power := { s.power with bandOn := s.power.bandOn && n != 0 } }
      if fails then
        let u := targetUnit n
        s1.raise { status := St.SEG_LOAD_FAIL, sev := Sev.DEFERRED, kind := u.1, die := u.2.1, index := u.2.2 }
      else
        let s2 := (s1.runSeg n g true).setFld R.BIND_STATUS F.BIND_STATUS.PACK_LOADED 1
        if 32 ≤ n ∧ n < 40 then [2 * (n - 32), 2 * (n - 32) + 1].foldl (fun t p => if t.portUp p then t.portTrain p true else t) s2 else s2
  | none => s

/-- SEGMENT_SWITCH (R544). -/
def execSegmentSwitch (t : Moment) (n : Fin 41) (fails : Bool) (s : State) : Host.Outcome State Fault Refusal :=
  s.whileOn (segmentSwitch n.val fails (s.atTime t))

/-- WRITE_FLASH (R539). -/
def execWriteFlash (w : RegW) (s : State) : Host.Outcome State Fault Refusal :=
  s.whileOn (s.onWrite w R.BIND_CTL fun v t => if v.bit 1 then t.opFromMemory .flash else t)

/-- The flash after a write whose read-back does not match: one byte, which is left open, is not what was written. -/
def State.flashBad (s : State) (m : List Host.Cell) (len : Nat) : State :=
  let (o, s1) := s.draw 4 28
  let (v, s2) := s1.draw 5 8
  { s2 with bind := { s2.bind with flash := Memory.write (o % max 1 len) (BitVec.ofNat 8 v) m } }

/-- A new image written to the flash if it passes checks 1 to 7 (R539): the failing status, if any, and the state. -/
def State.writeFlash (s : State) (m : List Host.Cell) (len : Nat) (v : TrustVerdict) (fails : Bool) : Option Nat × State :=
  let rec_ := fun (t : State) (sev : Nat) (st : Nat) => t.raise { status := St.FLASH_WRITE_FAIL, sev := sev, kind := Uk.SECPROC, arg0 := BitVec.ofNat 64 st }
  match s.checkSeven m len { v with flashAnswers := true } with
  | some st => (some st, rec_ s Sev.INFO st)
  | none => if fails then (some St.FLASH_WRITE_FAIL, rec_ (s.flashBad m len) Sev.DEFERRED 0) else (none, { s with bind := { s.bind with flash := m } })

/-- A flash write ends (R539), for BIND_CTL or for the mailbox. -/
def flashWriteDone (v : TrustVerdict) (fails : Bool) (s : State) : State :=
  match s.bind.op with
  | .flash m len =>
    let (r, s1) := s.writeFlash m len v fails
    s1.opEnd (r.map fun _ => St.FLASH_WRITE_FAIL) ((len + 1023) / 1024)
  | .transfer m len =>
    let (r, s1) := s.writeFlash m len v fails
    { s1 with bind := { s1.bind with op := .none }, host := { s1.host with code := if r.isNone then .success else .invalidInput } }
  | _ => s

/-- FLASH_WRITE_DONE (R539). -/
def execFlashWriteDone (t : Moment) (v : TrustVerdict) (fails : Bool) (s : State) : Host.Outcome State Fault Refusal :=
  s.whileOn (flashWriteDone v fails (s.atTime t))

/-- CANCEL (R549): a pack being checked is dropped; segments not yet switched are dropped, those switched stand. -/
def bindCancel (s : State) : State :=
  match s.bind.op with
  | .pack _ len => s.opEnd (some St.PACK_BAD) (len / 1024)
  | _ =>
    let s1 := (List.range 41).foldl (fun t n => if t.flag (R.SEG_RUN n) F.SEG_RUN.PENDING then t.setFld (R.SEG_RUN n) F.SEG_RUN.PENDING 0 else t) s
    { s1 with bind := { s1.bind with loading := [], store := s1.bind.store.filter fun g => (segTargets g.kind).isEmpty || s1.bind.fw.any fun p => p.2 == g.digest } }

/-- BIND_CANCEL (R549). -/
def execBindCancel (w : RegW) (s : State) : Host.Outcome State Fault Refusal :=
  s.whileOn (s.onWrite w R.BIND_CTL fun v t => if v.bit 2 then bindCancel t else t)

/-- A target that returns to service takes its newest segment of the store (R544, R545). -/
def State.takePending (s : State) (n : Nat) : State :=
  match (s.bind.store.filter fun g => g.targets.contains n).getLast? with
  | some g => (s.runSeg n g true).setFld R.BIND_STATUS F.BIND_STATUS.PACK_LOADED 1
  | none => s

/-! ## Re-trims and service (R546) -/

/-- Units an action takes: how many, from 0. -/
def svcUnits : SvcAct → Nat
  | .retrimSpan => 32
  | .retrimDroop => 5
  | .retrimSensors => 5
  | .oeOffline => 8
  | .oeOnline => 8
  | .portRecal => 16

/-- An SVC_CTL write of one action (R546, R553). -/
def svcCtl (bit_ : Nat) (act : SvcAct) (v : Word) (s : State) : State :=
  let bits := v.get 5 0
  let u := v.get 12 8
  if bits % (2 * 2 ^ bit_) / 2 ^ bit_ = 0 then s
  else if bits ≠ 2 ^ bit_ ∨ s.flag R.SVC_STATUS F.SVC_STATUS.BUSY ∨ svcUnits act ≤ u then s.raiseReg St.SVC_CTL_REFUSED R.SVC_CTL
  else
    let s1 := s.setFld R.SVC_STATUS F.SVC_STATUS.BUSY 1
    let s2 : State := { s1 with bind := { s1.bind with svc := some (act, u) } }
    match act with
    | .oeOffline => ({ s2 with fab := { s2.fab with oeOut := if s2.fab.oeOut.contains u then s2.fab.oeOut else s2.fab.oeOut ++ [u] } }.portDown (2 * u)).portDown (2 * u + 1)
    | .portRecal => s2.portDown u
    | _ => s2

/-- RETRIM_SPAN (R546). -/
def execRetrimSpan (w : RegW) (s : State) : Host.Outcome State Fault Refusal := s.whileOn (s.onWrite w R.SVC_CTL (svcCtl 0 .retrimSpan))
/-- RETRIM_DROOP (R546). -/
def execRetrimDroop (w : RegW) (s : State) : Host.Outcome State Fault Refusal := s.whileOn (s.onWrite w R.SVC_CTL (svcCtl 1 .retrimDroop))
/-- RETRIM_SENSORS (R546). -/
def execRetrimSensors (w : RegW) (s : State) : Host.Outcome State Fault Refusal := s.whileOn (s.onWrite w R.SVC_CTL (svcCtl 2 .retrimSensors))
/-- OE_OFFLINE (R546). -/
def execOeOffline (w : RegW) (s : State) : Host.Outcome State Fault Refusal := s.whileOn (s.onWrite w R.SVC_CTL (svcCtl 3 .oeOffline))
/-- OE_ONLINE (R546). -/
def execOeOnline (w : RegW) (s : State) : Host.Outcome State Fault Refusal := s.whileOn (s.onWrite w R.SVC_CTL (svcCtl 4 .oeOnline))
/-- PORT_RECAL (R546). -/
def execPortRecal (w : RegW) (s : State) : Host.Outcome State Fault Refusal := s.whileOn (s.onWrite w R.SVC_CTL (svcCtl 5 .portRecal))

/-- The unit of an action, as a record names it. -/
def svcUnit (a : SvcAct) (u : Nat) : Nat × Nat × Nat :=
  match a with
  | .retrimSpan => (Uk.SPAN, 4, 0)
  | .oeOffline => (Uk.OE, 4, u)
  | .oeOnline => (Uk.OE, 4, u)
  | .portRecal => (Uk.PORT, 4, u)
  | _ => if u < 4 then (Uk.DIE, u, u) else (Uk.POWER, 4, 0)

/-- What a service action does as it ends well. -/
def State.svcEnd (s : State) (a : SvcAct) (u : Nat) : State :=
  match a with
  | .oeOnline =>
    let s1 : State := { s with fab := { s.fab with oeOut := s.fab.oeOut.filter (· != u) } }
    let s2 := if s1.flag (R.SEG_RUN (32 + u)) F.SEG_RUN.PENDING then s1.takePending (32 + u) else s1
    (s2.portTrain (2 * u) false).portTrain (2 * u + 1) false
  | .portRecal => s.portTrain u false
  | _ => s

/-- The running action ends (R546, R553). The status of a failure's record is left open. -/
def svcActionDone (failed : Bool) (s : State) : State :=
  match s.bind.svc with
  | some (a, u) =>
    let s1 : State := { s.setFld R.SVC_STATUS F.SVC_STATUS.BUSY 0 with bind := { s.bind with svc := none } }
    if failed then
      let (st, s2) := s1.draw 6 16
      let x := svcUnit a u
      (s2.setFld R.SVC_STATUS F.SVC_STATUS.FAILED 1).raise { status := st, sev := Sev.DEFERRED, kind := x.1, die := x.2.1, index := x.2.2 }
    else s1.svcEnd a u
  | none => s

/-- SVC_ACTION_DONE (R546). -/
def execSvcActionDone (t : Moment) (failed : Bool) (s : State) : Host.Outcome State Fault Refusal := s.whileOn (svcActionDone failed (s.atTime t))

/-- The security processor fails while the part is bound (R549). -/
def spFail (s : State) : State :=
  if s.bound ∧ !s.bind.spFailed then { s with bind := { s.bind with spFailed := true } }.raiseHub Sev.CRITICAL St.SP_FAIL Uk.SECPROC else s

/-- SP_FAIL (R549). -/
def execSpFail (t : Moment) (s : State) : Host.Outcome State Fault Refusal := s.whileOn (spFail (s.atTime t))

/-! ## The SPDM responder (R540-R542) -/

/-- The measurement blocks, each with its value (R542): block 4 is the fused SVN and the image SVN, one byte each. -/
def State.measurements (s : State) : List (Nat × Nat) :=
  let on := fun (v : Nat) => if s.bound then v else 0
  [(1, Config.fusedDigest 0), (2, on s.bind.imageDigest), (3, Config.fusedDigest 1),
   (4, s.fld R.BIND_STATUS F.BIND_STATUS.FUSED_SVN + 256 * on (s.fld R.BIND_STATUS F.BIND_STATUS.IMG_SVN)), (5, on s.bind.cfgDigest)] ++
  (List.range 41).map fun n => (0x10 + n, on (Sparse.get 0 n s.bind.fw))

def State.spdmSay (s : State) (r : SpdmReply) : State := { s with bind := { s.bind with spdmReply := r } }

/-- An SPDM request answered while the responder runs (R541): `need` is how far the connection must be. -/
def State.spdmAsk (s : State) (need : Nat) (act : State → State) : State :=
  if !s.bind.started || s.bind.spFailed then s
  else if s.bind.spdm < need then s.spdmSay .error
  else act s

/-- GET_VERSION (R541): the connection begins anew. -/
def execGetVersion (s : State) : Host.Outcome State Fault Refusal :=
  s.whileOn (s.spdmAsk 0 fun t => { t with bind := { t.bind with spdm := 1, session := 0 } }.spdmSay .version)

/-- GET_CAPABILITIES (R541). -/
def execGetCapabilities (s : State) : Host.Outcome State Fault Refusal :=
  s.whileOn (s.spdmAsk 1 fun t => { t with bind := { t.bind with spdm := max 2 t.bind.spdm } }.spdmSay .capabilities)

/-- NEGOTIATE_ALGORITHMS (R541): P-384, SHA-384, secp384r1, AES-256-GCM and SHA3-512, if the requester offers them. -/
def execNegotiateAlgorithms (offered : Bool) (s : State) : Host.Outcome State Fault Refusal :=
  s.whileOn (s.spdmAsk 2 fun t => if offered then { t with bind := { t.bind with spdm := 3 } }.spdmSay .algorithms else t.spdmSay .error)

/-- GET_DIGESTS (R541): slot 0 alone is provisioned. -/
def execGetDigests (s : State) : Host.Outcome State Fault Refusal := s.whileOn (s.spdmAsk 3 fun t => t.spdmSay (.digests [0]))

/-- GET_CERTIFICATE (R541). -/
def execGetCertificate (slot : Fin 8) (s : State) : Host.Outcome State Fault Refusal :=
  s.whileOn (s.spdmAsk 3 fun t => t.spdmSay (if slot = 0 then .certificate 0 else .error))

/-- CHALLENGE (R541). -/
def execChallenge (slot : Fin 8) (s : State) : Host.Outcome State Fault Refusal :=
  s.whileOn (s.spdmAsk 3 fun t => t.spdmSay (if slot = 0 then .challengeAuth 0 else .error))

/-- GET_MEASUREMENTS (R542): one block, or all for index 0xFF. -/
def execGetMeasurements (index : BitVec 8) (s : State) : Host.Outcome State Fault Refusal :=
  s.whileOn (s.spdmAsk 3 fun t =>
    let l := if index = 0xFF then t.measurements else t.measurements.filter fun p => p.1 == index.toNat
    t.spdmSay (if l.isEmpty ∧ index ≠ 0 then .error else .measurements l))

/-- KEY_EXCHANGE (R541): a session's handshake begins. -/
def execKeyExchange (slot : Fin 8) (s : State) : Host.Outcome State Fault Refusal :=
  s.whileOn (s.spdmAsk 3 fun t => if slot = 0 ∧ t.bind.session = 0 then { t with bind := { t.bind with session := 1 } }.spdmSay .keyExchange else t.spdmSay .error)

/-- FINISH (R541). -/
def execFinish (verified : Bool) (s : State) : Host.Outcome State Fault Refusal :=
  s.whileOn (s.spdmAsk 3 fun t =>
    if t.bind.session ≠ 1 then t.spdmSay .error
    else if verified then { t with bind := { t.bind with session := 2 } }.spdmSay .finish
    else { t with bind := { t.bind with session := 0 } }.spdmSay .error)

/-- END_SESSION (R541). -/
def execEndSession (s : State) : Host.Outcome State Fault Refusal :=
  s.whileOn (s.spdmAsk 3 fun t => if t.bind.session = 2 then { t with bind := { t.bind with session := 0 } }.spdmSay .endSession else t.spdmSay .error)

end Sys2Proof.Machine
end

