-- ==== Sys2Proof/Machine/Faults.lean ====
section
/-!
DEFINITION. The fault queue, the counter snapshot and the colophon's checkpoints (19_faults.md).
-/

namespace Sys2Proof.Machine

/-- Words 0-6 of a fault record and the low half of word 7 (R506). -/
def FaultRec.words0to6 (r : FaultRec) : List Word :=
  [BitVec.ofNat 64 (r.status % 0x10000 + (r.sev % 8) <<< 16 + (r.detail % 256) <<< 24 + (r.kind % 256) <<< 32
      + (r.die % 8) <<< 40 + (r.index % 256) <<< 43),
   r.stamp,
   BitVec.ofNat 64 (r.addr % 2 ^ 57 + (if r.phys then 2 ^ 57 else 0) + (if r.hasAddr then 2 ^ 58 else 0)),
   BitVec.ofNat 64 (r.part % 16 + (r.cx % 128) <<< 4 + (r.cxDie % 4) <<< 11 + (r.slot % 0x10000) <<< 13
      + (r.pkg % 8192) <<< 29 + (if r.hasPkg then 2 ^ 42 else 0)),
   r.arg0, r.arg1, BitVec.ofNat 64 (r.seq % 2 ^ 48)]

/-- The eight words of a fault record; word 7 [63:32] is the CRC-32C over bytes 0-59 (R506). -/
def FaultRec.words (r : FaultRec) : List Word :=
  let ws := r.words0to6
  ws ++ [BitVec.ofNat 64 ((crc32c (ws.flatMap (fun w => leBytes 8 w.toNat) ++ leBytes 4 0)) <<< 32)]

/-- Which of two records raised at one moment is accepted first: by UNIT_KIND, then UNIT_DIE, then UNIT_INDEX (R515). -/
def FaultRec.before (a b : FaultRec) : Bool :=
  decide (a.kind < b.kind ∨ (a.kind = b.kind ∧ (a.die < b.die ∨ (a.die = b.die ∧ a.index < b.index))))

/-- The raised record that reaches the queue next, and the rest (R515). -/
def pickRaised : List FaultRec → Option (FaultRec × List FaultRec)
  | [] => none
  | r :: rest =>
    let best := rest.foldl (fun b x => if x.raisedAt = r.raisedAt ∧ x.before b then x else b) r
    if best = r then some (r, rest) else some (best, (r :: rest).erase best)

/-- The lowest severity of a list of records (0 when empty). -/
def minSev : List FaultRec → Nat
  | [] => 0
  | r :: rest => rest.foldl (fun m x => min m x.sev) r.sev

/-- The list without its oldest record of a severity (R511). -/
def dropOldest (sev : Nat) : List FaultRec → List FaultRec
  | [] => []
  | r :: rest => if r.sev = sev then rest else r :: dropOldest sev rest

/-- FQ_STATUS.COUNT and MIN_SEV brought to the queue (R524). -/
def State.fqShow (s : State) : State :=
  (s.setFld R.FQ_STATUS F.FQ_STATUS.COUNT s.faults.queue.length).setFld R.FQ_STATUS F.FQ_STATUS.MIN_SEV (minSev s.faults.queue)

/-- A drop under R511: counted, and OVF set. -/
def State.fqDrop (s : State) : State :=
  ((s.count R.FQ_DROPPED 1).setFld R.FQ_STATUS F.FQ_STATUS.OVF 1).life 11 1

/-- A record with its SEQ at a queue that holds 4,096 records or fewer (R509, R511). -/
def State.fqPut (s : State) (r : FaultRec) : State :=
  let q := s.faults.queue
  if q.length < 4096 then { s with faults := { s.faults with queue := q ++ [r] } }
  else if r.sev < Sev.CRITICAL ∧ r.sev ≤ minSev q then s.fqDrop
  else { s with faults := { s.faults with queue := dropOldest (minSev q) q ++ [r] } }.fqDrop

/-- The event log a severity goes to (R465): 0 Informational, 1 Warning, 2 Failure, 3 Fatal. -/
def eventLog (sev : Nat) : Nat := if sev = 0 then 0 else if sev = 1 then 1 else if sev < 4 then 2 else 3

/-- The record offered to its event log; a log that has filled shows overflow (R465). -/
def State.hostEvent (s : State) (r : FaultRec) : State :=
  let l := eventLog r.sev
  if (s.faults.hostLogs.filter fun p => p.1 == l).length < Config.eventLogSize l then
    { s with faults := { s.faults with hostLogs := s.faults.hostLogs ++ [(l, r)] } }
  else { s with faults := { s.faults with hostOvf := if s.faults.hostOvf.contains l then s.faults.hostOvf else s.faults.hostOvf ++ [l] } }

/-- What the colophon keeps of a record (R518, R519, R522). -/
def State.coloRecord (s : State) (r : FaultRec) : State :=
  let s1 := s.life (6 + r.sev) 1
  let c := s1.colo
  let arch := if Sev.FATAL_UNIT ≤ r.sev then (r :: c.archive).take 4096 else c.archive
  let mine := c.deferred.filter (fun p => p.1 = c.epoch.number)
  let dfr := if r.sev = Sev.DEFERRED ∧ mine.length < 64 then c.deferred ++ [(c.epoch.number, r)] else c.deferred
  let urg := if Sev.FATAL_UNIT ≤ r.sev ∧ c.urgentAt = none then some s1.now else c.urgentAt
  { s1 with colo := { c with archive := arch, deferred := dfr, urgentAt := urg } }

/-- The next raised record reaches the queue: SEQ (R510), the colophon's counts, the host's event log (R465), the queue
(R511). -/
def faultAccept (s : State) : State :=
  match pickRaised s.faults.raised with
  | none => s
  | some (r0, rest) =>
    let r := { r0 with seq := s.faults.nextSeq }
    let s1 : State := { s with faults := { s.faults with raised := rest, nextSeq := (s.faults.nextSeq + 1) % 2 ^ 48 } }
    let s2 := s1.setReg R.FQ_NEXT_SEQ (BitVec.ofNat 64 s1.faults.nextSeq)
    (((s2.hostEvent r).coloRecord r).fqPut r).fqShow

/-- FAULT_RECORD_ACCEPT (R511). -/
def execFaultRecordAccept (s : State) : Host.Outcome State Fault Refusal := s.whileOn (faultAccept s)

/-- A write of FQ_POP (R514). -/
def fqPopAct (v : Word) (s : State) : State :=
  match s.faults.queue with
  | r :: rest =>
    if r.seq = v.get 47 0 then { s with faults := { s.faults with queue := rest } }.fqShow
    else s.setFld R.FQ_STATUS F.FQ_STATUS.POP_MISS 1
  | [] => s.setFld R.FQ_STATUS F.FQ_STATUS.POP_MISS 1

/-- FQ_POP (R514). -/
def execFqPop (w : RegW) (s : State) : Host.Outcome State Fault Refusal := s.whileOn (s.onWrite w R.FQ_POP fqPopAct)

/-- The core local interrupt 22 is raised on, if it is (R513). -/
def State.irq22 (s : State) : Option Nat :=
  match s.faults.queue with
  | [] => none
  | r :: _ =>
    if s.flag R.FQ_CFG F.FQ_CFG.IRQ_EN && decide (s.fld R.FQ_CFG F.FQ_CFG.IRQ_MIN_SEV ≤ r.sev) then
      some (s.fld R.FQ_CFG F.FQ_CFG.IRQ_CORE)
    else none

/-- Does an MMIO offset hold an event or performance counter in the layout of R138 (R517, R55)? -/
def isCounter (o : Nat) : Bool := o == R.SPAN_LATE || regFields o == some F.CTR.all

/-- A write of CNT_SNAP_CTL with TAKE (R517): every counter and its OVF bit is latched; unlisted counters are zero. -/
def takeAct (v : Word) (s : State) : State :=
  if v.bit 0 then
    let s := s.trAccrue
    { s with faults := { s.faults with snap := s.regs.filter (fun p => isCounter p.1), snapTaken := true } }.setReg
      R.CNT_SNAP_AT s.spanNow
  else s

/-- TAKE (R517). -/
def execTake (w : RegW) (s : State) : Host.Outcome State Fault Refusal := s.whileOn (s.onWrite w R.CNT_SNAP_CTL takeAct)

/-- POWER_ON_S brought up to now: whole seconds with HUB out of reset (R519). -/
def State.powerOnUp (s : State) : State :=
  let n := (s.now - s.colo.powerAt) / 16000000000
  if n = 0 then s else { s.life 0 n with colo := { (s.life 0 n).colo with powerAt := s.colo.powerAt + n * 16000000000 } }

/-- The checkpoint the colophon would write now (R522). -/
def State.checkpointNow (s : State) (closing : Bool) : Checkpoint :=
  { life := (List.range 24).map fun i => (i, s.reg (R.COLO_LIFE i)), sat := s.reg R.COLO_LIFE_SAT,
    histLife := s.colo.histLife, histEpoch := s.colo.histEpoch,
    epoch := { s.colo.epoch with clean := closing || s.colo.closed, wall := s.reg R.COLO_WALL }, closing := closing }

/-- A checkpoint written to the next slot of the bank whose turn it is, or a write that fails (R522); none after a
security-processor failure (R549). -/
def State.writeCheckpoint (s : State) (closing fails : Bool) : State :=
  if s.bind.spFailed then s
  else if fails then
    (s.setFld R.COLO_STATUS F.COLO_STATUS.WRITE_FAIL 1).raiseHub Sev.DEFERRED St.COLO_WRITE_FAIL Uk.COLOPHON
  else
    let s1 := s.powerOnUp.life 23 1
    let k := s1.checkpointNow closing
    let c := s1.colo
    let c1 := if c.nextBank = 0 then { c with bank0 := some k, slot0 := (c.slot0 + 1) % 512, nextBank := 1 }
              else { c with bank1 := some k, slot1 := (c.slot1 + 1) % 512, nextBank := 0 }
    { s1 with colo := { c1 with epoch := k.epoch, closed := c1.closed || closing } }

/-- The checkpoint period in 1/16 ns (R528). -/
def State.coloPeriod (s : State) : Nat :=
  (if s.fld R.COLO_CFG F.COLO_CFG.PERIOD_MIN = 0 then 60 else s.fld R.COLO_CFG F.COLO_CFG.PERIOD_MIN) * 960000000000

/-- Is a checkpoint due by the period, or by a FATAL_UNIT or CRITICAL record, at most once a minute (R522)? -/
def State.coloPeriodDue (s : State) : Bool := decide (s.colo.lastAt + s.coloPeriod ≤ s.now)
def State.coloUrgentDue (s : State) : Bool :=
  s.colo.urgentAt.isSome && (match s.colo.lastUrgentAt with
    | none => true
    | some u => decide (u + 960000000000 ≤ s.now))

/-- The checkpoint timer (R522). -/
def coloTimer (fails : Bool) (s : State) : State :=
  if s.coloPeriodDue then
    let s1 := s.writeCheckpoint false fails
    { s1 with colo := { s1.colo with lastAt := s.now, urgentAt := none } }
  else if s.coloUrgentDue then
    let s1 := s.writeCheckpoint false fails
    { s1 with colo := { s1.colo with lastUrgentAt := some s.now, urgentAt := none } }
  else s

/-- COLO_CHECKPOINT_TIMER (R522). -/
def execColoCheckpointTimer (t : Moment) (fails : Bool) (s : State) : Host.Outcome State Fault Refusal :=
  s.whileOn (coloTimer fails (s.atTime t))

/-- COLO_CTL.CHECKPOINT (R528). -/
def checkpointAct (fails : Bool) (v : Word) (s : State) : State := if v.bit 0 then s.writeCheckpoint false fails else s

/-- CHECKPOINT (R522). -/
def execCheckpoint (w : RegW) (fails : Bool) (s : State) : Host.Outcome State Fault Refusal :=
  s.whileOn (s.onWrite w R.COLO_CTL (checkpointAct fails))

/-- COLO_CTL.CLOSE (R528): the closing checkpoint, after which the epoch ends cleanly. -/
def closeAct (fails : Bool) (v : Word) (s : State) : State := if v.bit 1 then s.writeCheckpoint true fails else s

/-- CLOSE (R528). -/
def execClose (w : RegW) (fails : Bool) (s : State) : Host.Outcome State Fault Refusal :=
  s.whileOn (s.onWrite w R.COLO_CTL (closeAct fails))

end Sys2Proof.Machine
end

