-- ==== Sys2Proof/Machine/Pins.lean ====
section
/-!
DEFINITION. Pins, supplies, resets, the management bus and the test port (21_pins.md), and the thermal trip (R482).
-/

namespace Sys2Proof.Machine

/-! ## The package off, and its reset (R9, R27, R559-R564) -/

/-- A package reset (R9, R27): every block at its Reset column. The colophon's store, the flash, the committed SVN, the board's pin
levels, the thermal trip and the test port stay, and so do the model's own fields. -/
def State.packageReset (s : State) : State :=
  let c : ColoSt := { bank0 := s.colo.bank0, bank1 := s.colo.bank1, nextBank := s.colo.nextBank, slot0 := s.colo.slot0, slot1 := s.colo.slot1, storeBad := s.colo.storeBad, epochs := s.colo.epochs, archive := s.colo.archive, deferred := s.colo.deferred }
  let r : State := { State.reset with pending := s.pending, now := s.now, drawn := s.drawn, readData := s.readData, colo := c, bind := { State.reset.bind with flash := s.bind.flash }, pins := { s.pins with inReset := true, i3c := none }, span := { State.reset.span with baseAt := s.now, mainsLevel := s.span.mainsLevel }, power := { State.reset.power with accruedAt := s.now } }
  r.setFld R.BIND_STATUS F.BIND_STATUS.FUSED_SVN (s.fld R.BIND_STATUS F.BIND_STATUS.FUSED_SVN)

/-- Does a low pulse of RESET_N of this many 1/16 ns act (R564)? Below 1 µs never, from 10 µs on always; between, either. -/
def resetActs (width free : Nat) : Bool :=
  if width < 16000 then false else if 160000 ≤ width then true else free % 2 == 1

/-- A low pulse of RESET_N, which lasts until the start that follows it (R564). -/
def resetN (width : Nat) (s : State) : State :=
  let x := s.draw 7 1
  let s1 := if 16000 ≤ width ∧ width < 160000 then x.2 else s
  if resetActs width x.1 && s1.pins.powered then
    let s2 := s1.packageReset
    { s2 with pins := { s2.pins with resetLow := true } }
  else s1

/-- RESET_N (R564). -/
def execResetN (t : Moment) (width : Nat) (s : State) : Host.Outcome State Fault Refusal := .next (resetN width (s.atTime t))

/-- A rail below its range for `dur` sixteenths of a nanosecond: more than 2 µs while RESET_N is deasserted resets the package
(R560). -/
def railUndervoltage (dur : Nat) (s : State) : State :=
  if s.pins.powered ∧ !s.pins.resetLow ∧ 32000 < dur then s.packageReset else s

/-- RAIL_UNDERVOLTAGE (R560). -/
def execRailUndervoltage (t : Moment) (dur : Nat) (s : State) : Host.Outcome State Fault Refusal :=
  .next (railUndervoltage dur (s.atTime t))

/-- SYSCLK lost: the package resets (R27, R561). -/
def sysclkLoss (s : State) : State := if s.pins.powered then s.packageReset else s

/-- SYSCLK_LOSS (R561). -/
def execSysclkLoss (t : Moment) (s : State) : Host.Outcome State Fault Refusal := .next (sysclkLoss (s.atTime t))

/-- REFCLK lost: the host link goes down, and nothing else (R561). -/
def refclkLoss (dirty : List Nat) (s : State) : State := if s.hostUp then s.hostDown dirty else s

/-- REFCLK_LOSS (R561). -/
def execRefclkLoss (t : Moment) (dirty : List Nat) (s : State) : Host.Outcome State Fault Refusal :=
  .next (refclkLoss dirty (s.atTime t))

/-- The supplies ramp into range, RESET_N and PERST_N held asserted by the board (R559): outputs in their reset states. -/
def powerUp (s : State) : State :=
  if s.pins.powered then s
  else { s with pins := { s.pins with powered := true, inReset := true, resetLow := true, perstLow := true } }

/-- POWER_UP (R559). -/
def execPowerUp (t : Moment) (s : State) : Host.Outcome State Fault Refusal := .next (powerUp (s.atTime t))

/-- The supplies are removed: everything but the stores is lost, THERMTRIP_N released, every pin floats (R567, R569). -/
def powerDown (s : State) : State :=
  let s1 := s.packageReset
  { s1 with pins := { throttle := s.pins.throttle, powered := false } }

/-- POWER_DOWN (R567). -/
def execPowerDown (t : Moment) (s : State) : Host.Outcome State Fault Refusal := .next (powerDown (s.atTime t))

/-! ## The thermal trip (R482) -/

/-- Records on their way reach the queue, at most `n` of them. -/
def acceptAll : Nat → State → State
  | 0, s => s
  | n + 1, s => acceptAll n (faultAccept s)

/-- A sensor at its trip limit: THERMTRIP_N is asserted, a CRITICAL record written to the colophon if it can be, and every clock
stops (R482). -/
def thermtrip (written : Bool) (s : State) : State :=
  let s1 := (s.life 5 1).raiseHub Sev.CRITICAL St.THERMTRIP Uk.POWER
  let s2 := if written then (acceptAll s1.faults.raised.length s1).writeCheckpoint false false else s1
  { s2 with pins := { s2.pins with thermtrip := true } }

/-- THERMTRIP (R482). -/
def execThermtrip (t : Moment) (written : Bool) (s : State) : Host.Outcome State Fault Refusal :=
  s.whileOn (thermtrip written (s.atTime t))

/-- THROTTLE_N's level: the envelope follows (R475). While HCP0 reloads, asserting it drives every compute die to 1.000 GHz
(R544). -/
def throttleN (l : Level) (s : State) : State :=
  let s1 := State.envShow { s with pins := { s.pins with throttle := l == .low } }
  if l = .low ∧ s.hcpLoading 0 then (List.range 4).foldl (fun u d => u.setGrant d (min 40 (u.grantOf d))) s1 else s1

/-- THROTTLE_N (R475). -/
def execThrottleN (t : Moment) (l : Level) (s : State) : Host.Outcome State Fault Refusal := .next (s.powerStep t (throttleN l))

/-! ## Output pins (R567-R569) -/

/-- Is ALERT_N pulled low (R567)? Its failed check and recovery are those of R535, its processor failure that of R549. -/
def State.alertLow (s : State) : Bool :=
  s.pins.powered && !s.pins.inReset &&
    ((s.faults.queue.any fun r => r.sev == Sev.CRITICAL) || s.bind.spFailed ||
      (s.fld R.BIND_STATUS F.BIND_STATUS.STATE == 0 && s.fld R.BIND_STATUS F.BIND_STATUS.FAIL != 0) ||
      s.fld R.BIND_STATUS F.BIND_STATUS.STATE == 1)

/-- Is THERMTRIP_N pulled low (R567)? -/
def State.thermtripLow (s : State) : Bool := s.pins.powered && s.pins.thermtrip

/-- Is LASER_EN driven high (R418, R568)? -/
def State.laserEn (s : State) : Bool := s.pins.powered && !s.pins.inReset && s.laserOn

/-! ## The management bus (R566) -/

/-- ENTDAA (R566): the part takes a dynamic address while it runs and has none. -/
def execEntdaa (addr : BitVec 7) (s : State) : Host.Outcome State Fault Refusal :=
  .next (if s.off || s.pins.i3c.isSome then s else { s with pins := { s.pins with i3c := some addr } })

/-- SETDASA (R566): the same, sent to the static address 0x4C. -/
def execSetdasa (static_ addr : BitVec 7) (s : State) : Host.Outcome State Fault Refusal :=
  .next (if s.off || s.pins.i3c.isSome || static_ != 0x4C#7 then s else { s with pins := { s.pins with i3c := some addr } })

/-! ## The test port (R575, R576) -/

/-- The register a test instruction selects. -/
inductive TestReg where
  | boundary | idcode | bypass
deriving DecidableEq, Repr

/-- The register between TDI and TDO (R576): every code of no instruction selects the bypass register. -/
def testReg (ir : BitVec 8) : TestReg :=
  if ir = 0x01#8 then .idcode
  else if ir = 0x00#8 ∨ ir = 0x02#8 ∨ ir = 0x03#8 ∨ ir = 0x06#8 ∨ ir = 0x07#8 then .boundary
  else .bypass

/-- A test instruction loaded: one that drives pins acts only while RESET_N is asserted, and selects bypass otherwise (R576). -/
def testLoad (ir : BitVec 8) (drive : TestDrive) (s : State) : State :=
  if !s.pins.powered then s
  else if drive != .none && !s.pins.resetLow then { s with pins := { s.pins with ir := 0xFF#8, drive := .none } }
  else { s with pins := { s.pins with ir := ir, drive := drive } }

/-- TRST_N low, or TMS high for five TCK cycles (R575): the test logic is reset and IDCODE selected. -/
def execTestLogicReset (s : State) : Host.Outcome State Fault Refusal := .next (testLoad 0x01 .none s)

/-- EXTEST (R576). -/
def execExtest (s : State) : Host.Outcome State Fault Refusal := .next (testLoad 0x00 .extest s)

/-- The word the identification register holds (R576). -/
def State.idcode (s : State) : Word :=
  ((((0 : Word).put 0 0 1).put 11 1 Config.jep106.toNat).put 27 12 0x7420).put 31 28 (s.fld R.PKG_ID F.PKG_ID.STEP_MAJOR)

/-- IDCODE (R576): the identification register is selected, and read. -/
def execIdcode (s : State) : Host.Outcome State Fault Refusal :=
  .next (let s1 := testLoad 0x01 .none s
         if s.pins.powered then { s1 with readData := s.idcode } else s1)

/-- SAMPLE (R576): the boundary cells capture the pins' levels; no pin changes. -/
def execSample (cells : List Bool) (s : State) : Host.Outcome State Fault Refusal :=
  .next (let s1 := testLoad 0x02 .none s
         if s.pins.powered then { s1 with pins := { s1.pins with cells := cells } } else s1)

/-- PRELOAD (R576): the boundary cells are loaded; no pin changes. -/
def execPreload (cells : List Bool) (s : State) : Host.Outcome State Fault Refusal :=
  .next (let s1 := testLoad 0x03 .none s
         if s.pins.powered then { s1 with pins := { s1.pins with preload := cells } } else s1)

/-- CLAMP (R576): the pins hold what the boundary cells say, and bypass is selected. -/
def execClamp (s : State) : Host.Outcome State Fault Refusal := .next (testLoad 0x04 .clamp s)

/-- HIGHZ (R576): outputs float. -/
def execHighz (s : State) : Host.Outcome State Fault Refusal := .next (testLoad 0x05 .highz s)

/-- EXTEST_PULSE (R576). -/
def execExtestPulse (s : State) : Host.Outcome State Fault Refusal := .next (testLoad 0x06 .pulse s)

/-- EXTEST_TRAIN (R576). -/
def execExtestTrain (s : State) : Host.Outcome State Fault Refusal := .next (testLoad 0x07 .train s)

/-- BYPASS, or any code the table does not list (R576). -/
def execBypass (code : BitVec 8) (s : State) : Host.Outcome State Fault Refusal :=
  .next (testLoad (if code.toNat < 8 then 0xFF#8 else code) .none s)

end Sys2Proof.Machine
end

