-- ==== Sys2Proof/Machine/Boundary.lean ====
section
/-!
DEFINITION. What each span boundary does: the load band of the span that ended and of the one that begins (R483), the colophon's
histograms (R520), the fabric's messages (R431, R434, R440), and what is kept once a span.
-/

namespace Sys2Proof.Machine

/-- The span that ended is judged: its average, and a miss if the band held over it (R483). The band is not enforced in a span in
which HCP0 reloads (R544). -/
def State.bandEnd (s : State) (avg : Nat) : State :=
  let s1 := s.setFld R.LS_STATUS F.LS_STATUS.LAST_AVG_W (min 65535 avg)
  if s.power.bandOn && s.flag R.LS_CFG F.LS_CFG.EN && !s.hcpLoading 0 then
    let above := decide (s.fld R.LS_STATUS F.LS_STATUS.CEIL_W < avg)
    let below := decide (avg < s.fld R.LS_STATUS F.LS_STATUS.FLOOR_W)
    let s2 := if above then s1.setFld R.LS_STATUS F.LS_STATUS.CEIL_MISS 1 else s1
    let s3 := if below then s2.setFld R.LS_STATUS F.LS_STATUS.FLOOR_MISS 1 else s2
    if above || below then s3.raiseHub Sev.INFO St.LS_MISS Uk.POWER else s3
  else s1

/-- H_k of R483: the ceiling of the span that begins, from the average of the one before it. -/
def bandCeil (maxW ramp env p : Nat) : Nat := min (min maxW (p + ramp)) env

/-- L_k of R483. -/
def bandFloor (minW ramp p h : Nat) : Nat := min (if minW ≤ p then max minW (p - ramp) else p) h

/-- The band of the span that begins (R483). -/
def State.bandBegin (s : State) (avg : Nat) : State :=
  let en := s.flag R.LS_CFG F.LS_CFG.EN && !s.hcpLoading 0
  let h := bandCeil (s.fld R.LS_BAND F.LS_BAND.MAX_W) (s.fld R.LS_BAND F.LS_BAND.RAMP_W) s.envelope.1 avg
  let l := bandFloor (s.fld R.LS_BAND F.LS_BAND.MIN_W) (s.fld R.LS_BAND F.LS_BAND.RAMP_W) avg h
  let s1 := (s.setFld R.LS_STATUS F.LS_STATUS.CEIL_W (if en then h else 0)).setFld R.LS_STATUS F.LS_STATUS.FLOOR_W (if en then l else 0)
  { s1 with power := { s1.power with bandOn := en } }

/-! ## Histograms (R520) -/

/-- The bin of a temperature. -/
def tempBin (c : Nat) : Nat := if c < 40 then 0 else min 15 ((c - 40) / 5 + 1)

/-- The bin of the package's power. -/
def powerBin (w : Nat) : Nat := min 15 (w / 100)

/-- The bin of a die's clock, in steps of 25 MHz; a clock below 1.0 GHz has none. -/
def clockBin (f : Nat) : Option Nat := if f < 40 then none else some (min 15 ((f - 40) / 8))

/-- `us` microseconds added to a bin of both copies of a histogram. -/
def State.histAdd (s : State) (us h bin : Nat) : State :=
  let k := 16 * h + bin
  let add := fun (m : List (Nat × Nat)) => Sparse.set k (Sparse.get 0 k m + us) m
  { s with colo := { s.colo with histLife := add s.colo.histLife, histEpoch := add s.colo.histEpoch } }

/-- Is the unit of a temperature histogram in service? -/
def State.histUnit (s : State) (h : Nat) : Bool :=
  if h < 4 then s.dieIn h else if h = 4 then true else s.stackIn (h - 5)

/-- The histograms' samples of a boundary. -/
def State.histograms (s : State) (x : SpanSample) : State :=
  let us := s.span.len / 16000
  if !s.colo.loaded then s
  else
    let s1 := (x.temps.filter fun p => s.histUnit p.1).foldl (fun u p => u.histAdd us p.1 (tempBin p.2)) s
    let s2 := s1.histAdd us 25 (powerBin (s.fld R.LS_STATUS F.LS_STATUS.LAST_AVG_W))
    (List.range 4).foldl (fun u d =>
      match if s.dieIn d then clockBin (s.fld (R.PWR_D_CLK d) F.PWR_D_CLK.CUR) else none with
      | some b => u.histAdd us (26 + d) b
      | none => u) s2

/-! ## The boundary -/

/-- The throttle reason whose duration rose most since the last boundary, 0 if none rose (R440, R489). -/
def State.paceReason (s : State) : Nat :=
  ((List.range 7).foldl (fun b i =>
    let n := s.fld (R.TR_DUR i) F.CTR.COUNT - (s.power.durAt.getD i 0).toNat
    if b.2 < n then (i + 1, n) else b) (0, 0)).1

/-- A span boundary, if the span count has risen since the last (R28). -/
def spanBoundary (x : SpanSample) (s : State) : State :=
  let n := s.spanNow.toNat / 16777216
  if n = s.span.lastBoundary then s
  else
    let s1 : State := { s with span := { s.span with lastBoundary := n, exportNoted := [], ceNoted := [] }, arrays := s.arrays.map fun p => (p.1, { p.2 with ceNoted := [] }) }
    let s2 := ((s1.spanHold).bandEnd x.avgW).bandBegin x.avgW
    let s3 := s2.histograms x
    let s4 : State := if s3.power.tablesDue then { s3 with power := { s3.power with tables := s3.power.tables + 1, tablesDue := false } } else s3
    let r := s4.paceReason
    let s5 : State := { s4 with power := { s4.power with durAt := (List.range 7).map fun i => BitVec.ofNat 64 (s4.fld (R.TR_DUR i) F.CTR.COUNT) } }
    s5.fabBoundary fun _ => r

/-- SPAN_BOUNDARY (R28). -/
def execSpanBoundary (t : Moment) (x : SpanSample) (s : State) : Host.Outcome State Fault Refusal :=
  s.whileOn (s.powerStep t (spanBoundary x))

end Sys2Proof.Machine
end

