-- ==== Sys2Proof/Machine/Rejoin.lean ====
section
/-!
DEFINITION. A compute die's return to service while the rest runs (R331): its reset, and what completes it.
-/

namespace Sys2Proof.Machine

/-- The registers of the MMIO offsets for which `p` holds go to their Reset column, with the values of the binding image (R9). -/
def State.resetRegs (s : State) (p : Nat → Bool) : State :=
  let kept := s.regs.filter fun r => !p r.1
  { s with regs := (s.imageRegs.filter fun r => p r.1).foldl (fun m r => Sparse.set r.1 (resetWord r.1 ||| r.2) m) kept }

/-- Is an MMIO offset in the blocks of die `d`, or of one of its stacks (R9)? -/
def dieBlock (d o : Nat) : Bool :=
  decide (R.dieBase d ≤ o ∧ o < R.dieBase (d + 1)) || decide (0xA0000 + 0x500 * d ≤ o ∧ o < 0xA0000 + 0x500 * (d + 1))

/-- The tables of a die's units empty: contexts, arrays, engines, translations, phase, remote cache, scratchpad, clock. -/
def State.dieClear (s : State) (d : Nat) : State :=
  let scr := 0x7D000000000000 + d * 0x100000000
  { s with cxs := s.cxs.filter (fun p => p.1 / 128 != d), arrays := s.arrays.filter (fun p => p.1 / 8 != d), eng := s.eng.filter (fun p => p.1 / 32 != d), tlb := s.tlb.filter (fun e => e.die != d), phase := s.phase.filter (fun p => p.1 != d), ac := Sparse.set d (0, s.now) s.ac, acHist := s.acHist.filter (fun p => p.1 != d), hs := s.hs.filter (fun p => p.1 / 5 != d), mem := { s.mem with rc := Sparse.del d s.mem.rc, cells := Memory.clear scr 0x10000000 s.mem.cells, scrPoison := s.mem.scrPoison.filter (fun a => decide (a < scr ∨ scr + 0x10000000 ≤ a)) }, power := { s.power with reqs := Sparse.del d s.power.reqs, latched := Sparse.del d s.power.latched, changedAt := Sparse.del d s.power.changedAt, clearedAt := Sparse.del d s.power.clearedAt, tripped := s.power.tripped.filter (fun p => p.1 != d), upWait := Sparse.del d s.power.upWait, doze := s.power.doze.filter (· != d), ranAt := Sparse.del d s.power.ranAt } }

/-- A die leaves reset (R9, R331): its blocks and its stacks' are reset, its contexts OFF, its planes, slots and caches empty. -/
def State.dieReset (s : State) (d : Nat) : State := (s.resetRegs (dieBlock d)).dieClear d

/-- HUB_CD_CTL_n.REJOIN (R331, R333): allowed while FENCED or OFFLINE, alone. -/
def rejoinAct (d : Die) (v : Word) (s : State) : State :=
  if v.get 2 0 = 4 then
    if s.cdState d = 2 ∨ s.cdState d = 4 then ((s.loseContexts d).dieReset d).setFld (R.HUB_CD_STATUS d) F.HUB_CD_STATUS.STATE 3
    else s.raiseReg St.HUB_CD_CTL_REFUSED (R.HUB_CD_CTL d)
  else if v.get 2 0 = 5 ∨ v.get 2 0 = 6 ∨ v.get 2 0 = 7 then s.raiseReg St.HUB_CD_CTL_REFUSED (R.HUB_CD_CTL d)
  else s

/-- REJOIN (R331). -/
def execRejoin (w : RegW) (d : Die) (s : State) : Host.Outcome State Fault Refusal :=
  s.whileOn (s.onWrite w (R.HUB_CD_CTL d) (rejoinAct d))

/-- A rejoining die has trained its links and recalibrated its stacks, whose visible memory reads zero (R331). Its controllers and base
dies take the newest segments of the store (R545). -/
def rejoinComplete (d : Die) (s : State) : State :=
  if s.cdState d = 3 ∧ (Sparse.find d.val s.mem.drainAt).isNone ∧ s.bound then
    let s1 := (s.linkUp (.pkgDown d) 16).linkUp (.pkgUp d) 16
    let s2 := (List.finRange 20).foldl (fun t j => if j.val / 5 = d.val then ((t.linkUp (.mem j) 8).stackZero j).stackOn j else t) s1
    let s3 := (s2.setFld (R.HUB_CD_STATUS d) F.HUB_CD_STATUS.STATE 0).setFld (R.HUB_CD_STATUS d) F.HUB_CD_STATUS.IN_SERVICE 1
    [4 + 2 * d.val, 5 + 2 * d.val].foldl State.takePending ((dieStacks d).foldl (fun t j => t.takePending (12 + j)) s3)
  else s

/-- REJOIN_COMPLETE (R331). -/
def execRejoinComplete (t : Moment) (d : Die) (s : State) : Host.Outcome State Fault Refusal :=
  s.whileOn (rejoinComplete d (s.atTime t))

end Sys2Proof.Machine
end

