-- ==== Sys2Proof/Machine/Registers.lean ====
section
/-!
DEFINITION. Register accesses: what a register reads (R6 and each chapter's Registers section), the write of a register (R6, R10),
and an access the MMIO region does not take (R10, R282).
-/

namespace Sys2Proof.Machine

/-! ## Reading -/

/-- Does a stamped command wait only for VALID (R51)? -/
def State.stampHeld (s : State) : Bool :=
  !s.spanUsable && s.cxKeys.any fun p => s.cxState p.1 p.2 == CxS.WAIT_STAMP &&
    (match (s.cx p.1 p.2).cur with
      | some k => stampReached (s.effStamp k) s.spanNow
      | none => false)

/-- Was a reference event accepted within the last 1.25 estimated spans (R51)? -/
def State.refPresent (s : State) : Bool :=
  match s.span.refAcceptedAt with
  | some a => decide (4 * (s.now - a) ≤ 5 * s.span.len)
  | none => false

/-- The record after a waiter in its list (R395). -/
def nextWaiter (w : Waiter) : List Waiter → Nat
  | [] => 0
  | x :: r =>
    if x = w then
      ((r.find? fun y => match w.kind, y.kind with
        | .gate q _ _, .gate q' _ _ => q == q'
        | .fe a _, .fe b _ => a == b
        | _, _ => false).map (·.index)).getD 0
    else nextWaiter w r

/-- SYNC_WAITER (R395). -/
def State.waiterWord (s : State) : Word :=
  match s.sync.waiters.find? fun w => w.index == s.fld R.SYNC_WAITER_SEL F.SYNC_WAITER_SEL.INDEX with
  | none => 0
  | some w =>
    let b := (((0 : Word).put 0 0 1).put 3 2 w.die.val).put 10 4 w.cx.val
    let c := match w.kind with
      | .gate q k _ => (b.put 24 11 q).put 27 25 k
      | .fe _ op => (b.put 1 1 1).put 27 25 (match op with | .wef => 0 | .rfe => 1 | .rff => 2 | .purge => 0)
    (c.put 40 28 (nextWaiter w s.sync.waiters)).put 41 41 (if w.granted then 1 else 0)

/-- SYNC_WAITER_ARG (R395). -/
def State.waiterArg (s : State) : Word :=
  match s.sync.waiters.find? fun w => w.index == s.fld R.SYNC_WAITER_SEL F.SYNC_WAITER_SEL.INDEX with
  | some { kind := .gate _ _ v, .. } => (0 : Word).put 31 0 v
  | some { kind := .fe pa _, .. } => (0 : Word).put 55 0 pa
  | none => 0

/-- CNT_SNAP_VAL (R517): the latched value of the selected counter; an offset that holds none reads zero. -/
def State.snapVal (s : State) : Word :=
  let o := s.fld R.CNT_SNAP_SEL F.CNT_SNAP_SEL.OFFSET * 8
  if isCounter o then Sparse.get 0 o s.faults.snap else 0

/-- COLO_HIST_BIN_i (R528). -/
def State.histBin (s : State) (i : Nat) : Word :=
  let k := 16 * s.fld R.COLO_HIST_SEL F.COLO_HIST_SEL.HIST + i
  BitVec.ofNat 64 (Sparse.get 0 k (if s.flag R.COLO_HIST_SEL F.COLO_HIST_SEL.EPOCH_COPY then s.colo.histEpoch else s.colo.histLife))

/-- COLO_ARCH_i (R528). -/
def State.archWord (s : State) (i : Nat) : Word :=
  match s.colo.archive[s.fld R.COLO_ARCH_SEL F.COLO_ARCH_SEL.INDEX]? with
  | some r => if s.colo.loaded then r.words.getD i 0 else 0
  | none => 0

/-- FQ_HEAD_i (R525): word i of the oldest record. -/
def State.headWord (s : State) (i : Nat) : Word :=
  match s.faults.queue with
  | [] => 0
  | r :: _ => r.words.getD i 0

/-- What the register at `o` of a HUB block reads. -/
def State.readHub (s : State) (o : Nat) : Word :=
  if o = R.SPAN_NOW then s.spanNow
  else if o = R.SPAN_STATUS then
    ((s.reg o).put 3 3 (if s.stampHeld then 1 else 0)).put 4 4 (if s.refPresent then 1 else 0)
  else if o = R.SPAN_MEAS then (s.reg o).put 63 32 s.span.len
  else if R.FQ_HEAD 0 ≤ o ∧ o ≤ R.FQ_HEAD 7 then s.headWord ((o - R.FQ_HEAD 0) / 8)
  else if o = R.CNT_SNAP_VAL then s.snapVal
  else if o = R.SYNC_WAITER then s.waiterWord
  else if o = R.SYNC_WAITER_ARG then s.waiterArg
  else if o = R.PWR_REST_STATUS then (s.reg o).put 4 3 s.restTarget
  else if R.TR_DUR 0 ≤ o ∧ o < R.TR_DUR 7 then s.trAccrue.reg o
  else if R.HS_STATUS 0 ≤ o ∧ o < R.HS_STATUS 20 ∧ 0x20 ≤ o % 0x100 ∧ o % 0x100 < 0xA0 then
    (s.hsSt ((o - R.HS_STATUS 0) / 0x100)).metaRec.getD ((o % 0x100 - 0x20) / 8) 0
  else if o = R.HL_STATUS then (s.reg o).put 13 12 (s.fld R.BIND_STATUS F.BIND_STATUS.STATE)
  else if R.SVC_MAP 0 ≤ o ∧ o < R.SVC_MAP 8 then s.serviceMap.getD ((o - R.SVC_MAP 0) / 8) 0
  else if o = R.COLO_LIFE 0 then if s.colo.loaded then s.powerOnUp.reg o else s.reg o
  else if R.COLO_HIST_BIN 0 ≤ o ∧ o < R.COLO_HIST_BIN 16 then s.histBin ((o - R.COLO_HIST_BIN 0) / 8)
  else if o = R.COLO_ARCH_SEL then (s.reg o).put 24 12 (if s.colo.loaded then s.colo.archive.length else 0)
  else if R.COLO_ARCH 0 ≤ o ∧ o < R.COLO_ARCH 8 then s.archWord ((o - R.COLO_ARCH 0) / 8)
  else s.reg o

/-- What the register at `o` reads (R6): its stored word, or what it shows of the state. -/
def State.readReg (s : State) (o : Nat) : Word :=
  if o < 0x1000000 then s.readHub o
  else
    let d := o / 0x1000000 - 1
    let r := o % 0x1000000
    if 0x30000 ≤ r ∧ r < 0x30800 ∧ 0x40 ≤ r % 0x100 then
      match ((s.arr d ((r - 0x30000) / 0x100)).spine)[(r % 0x100 - 0x40) / 8]? with
      | some e => e.word
      | none => 0
    else s.reg o

/-! ## Writing -/

/-- The state a meaning leaves. -/
def State.after (s : State) : Host.Outcome State Fault Refusal → State
  | .next t => t
  | .fault _ => s
  | .refused _ => s

/-- The row of the lowest bit written, of a control register whose bits each have a row; none if no bit is written. -/
def ctlRow (v : Word) (s : State) (rows : List (State → Host.Outcome State Fault Refusal)) : State :=
  match ((List.range rows.length).find? fun i => v.bit i).bind fun i => rows[i]? with
  | some f => s.after (f s)
  | none => s

/-- Every row of the bits written, in order. -/
def ctlRows (v : Word) (s : State) (rows : List (State → Host.Outcome State Fault Refusal)) : State :=
  ((List.range rows.length).filter fun i => v.bit i).foldl (fun t i => match rows[i]? with | some f => t.after (f t) | none => t) s

/-- What a write leaves of a HUB register whose fields have rows of their own. -/
def State.hubRow (s : State) (w : RegW) (o : Nat) : Option State :=
  let v := s.formed w o
  let at_ := fun (base stride n : Nat) => decide (base ≤ o) && decide ((o - base) % stride = 0) && decide ((o - base) / stride < n)
  let ix := fun (base stride : Nat) => (o - base) / stride
  if o = R.SPAN_CFG then some (s.after (execSpanCfgWrite w s))
  else if o = R.SPAN_LEN then some (s.after (execSpanLenWrite w s))
  else if o = R.SPAN_CTL then some (ctlRows v s [execRelock w, execRestart w])
  else if o = R.FIRN_CTL then some (if v.bit 8 then s.after (execFirnCtlRearm w s) else s.after (execFirnCtlMelt w s))
  else if o = R.FIRN_DDR then some (s.after (execFirnDdrWrite w s))
  else if at_ (R.FIRN_EPOCH 0) 8 256 then some (s.after (execFirnEpochWrite w (Fin.ofNat 256 (ix (R.FIRN_EPOCH 0) 8)) s))
  else if at_ (R.HUB_CD_CTL 0) 0x20 4 then
    (let d : Die := Fin.ofNat 4 (ix (R.HUB_CD_CTL 0) 0x20)
     some (ctlRow v s [execCdOffline w d, execIsolate w d, execRejoin w d]))
  else if o = R.FQ_POP then some (s.after (execFqPop w s))
  else if o = R.CNT_SNAP_CTL then some (s.after (execTake w s))
  else if o = R.PWR_LIMIT then some (s.after (execPwrLimitWrite w s))
  else if o = R.LS_BAND then some (s.after (execLsBandWrite w s))
  else if o = R.PWR_CTL then some (ctlRow v s [execForget w, execForgetAll w])
  else if o = R.PWR_REST_CTL then some (ctlRow v s [execArm w, execRestCancel w])
  else if o = R.XL_INV_CTL then some (s.after (execInvalidationStart w s))
  else if at_ (R.FAB_EXPORT 0) 8 4096 then some (s.after (execFabExportWrite w (Fin.ofNat 4096 (ix (R.FAB_EXPORT 0) 8)) s))
  else if at_ (R.HS_CTL 0) 0x100 20 then
    (let j : Fin 20 := Fin.ofNat 20 (ix (R.HS_CTL 0) 0x100)
     some (ctlRow v s [execRetrain s.now w j, execRecal w j, execHsOffline w j, execHsOnline w j]))
  else if at_ (R.HS_META_ADDR 0) 0x100 20 then some (s.after (execHsMetaAddrWrite w (Fin.ofNat 20 (ix (R.HS_META_ADDR 0) 0x100)) s))
  else if o = R.FAB_CFG then some (s.after (execFabCfgWrite w s))
  else if o = R.FAB_CTL then some (ctlRow v s [execLeave w, execAdmitMembers w, execThaw w, execDrift w, execFull w, execPaceSend w])
  else if o = R.HL_WIN then some (s.after (execHlWinWrite w s))
  else if o = R.BIND_CTL then some (ctlRows v s [execLoadPack w, execWriteFlash w, execBindCancel w])
  else if o = R.SVC_CTL then
    some (ctlRow v s [execRetrimSpan w, execRetrimDroop w, execRetrimSensors w, execOeOffline w, execOeOnline w, execPortRecal w])
  else if o = R.COLO_CTL then some (ctlRows v s [execCheckpoint w false, execClose w false])
  else if at_ (R.C_CTL 0) 0x1000 96 then
    (let n : Fin 96 := Fin.ofNat 96 (ix (R.C_CTL 0) 0x1000)
     some (ctlRow v s [execCoreOffline w n, execCoreOnline w n]))
  else none

/-- What a write leaves of a die's register whose fields have rows of their own. -/
def State.dieRow (s : State) (w : RegW) (o : Nat) : Option State :=
  let v := s.formed w o
  let d : Die := Fin.ofNat 4 (o / 0x1000000 - 1)
  let r := o % 0x1000000
  let b := r / 0x10000
  let x := r % 0x10000
  let c : Cx := Fin.ofNat 128 (x / 0x80)
  let u : Fin 8 := Fin.ofNat 8 (x / 0x100)
  let e : Fin 16 := Fin.ofNat 16 (x / 0x100)
  if b = 0 then
    if o = R.CX_CFG d c then some (s.after (execCxCfgWrite w d c s))
    else if o = R.CX_ATP d c then some (s.after (execCxAtpWrite w d c s))
    else if o = R.CX_DOORBELL d c then some (s.after (execCxDoorbell w d c s))
    else if o = R.CX_CTL d c then some (ctlRow v s [execResume w d c, execSkip w d c, execDrain w d c, execReset w d c])
    else none
  else if o = R.MA_CTL d u then some (ctlRow v s [execMaOffline w d u, execMaOnline w d u])
  else if o = R.VE_CTL d u then some (ctlRow v s [execVeOffline w d u, execVeOnline w d u])
  else if o = R.DM_CTL d e then some (ctlRow v s [execDmOffline w d e, execDmOnline w d e])
  else if o = R.RC_CFG d then some (s.after (execRcCfgWrite w d s))
  else if o = R.RC_CTL d then some (s.after (execRcInvalidate w d s))
  else none

/-- A write that clears a fence register's LOST begins its counts afresh (R95, R360). -/
def State.fenceWrite (s : State) (o : Nat) (v : Word) : State :=
  if v.bit 0 then (s.plainWrite o v).setFld o F.C_FENCE.LOST_FENCES 0 else s.plainWrite o v

/-- A write of a register with no row of its own (R6), with the checks its chapter gives. -/
def State.plainAct (s : State) (o : Nat) (v : Word) : State :=
  if o = R.FQ_CFG then (if 95 < v.get 7 1 then s.plainWriteBut o v [F.FQ_CFG.IRQ_CORE] else s.plainWrite o v)
  else if o = R.COLO_HIST_SEL then (if 29 < v.get 4 0 then s.plainWriteBut o v [F.COLO_HIST_SEL.HIST] else s.plainWrite o v)
  else if R.SYNC_RANGE 0 ≤ o ∧ o < R.SYNC_RANGE 16 then (if 16384 < v.get 13 0 + v.get 29 15 then s else s.plainWrite o v)
  else if R.HL_HDM_DPA 0 ≤ o ∧ o < R.HL_HDM_DPA 4 then
    (if (Sparse.find ((o - R.HL_HDM_DPA 0) / 8) s.host.decoders).isSome then s else s.plainWrite o v)
  else if 0x100000 ≤ o ∧ o < 0x160000 then
    (let n := (o - 0x100000) / 0x1000
     if o = R.C_FENCE n then s.fenceWrite o v
     else if o = R.C_CLK n then s.capWrite o (Dom.core n) v
     else s.plainWrite o v)
  else if 0x1000000 ≤ o then
    (let d := o / 0x1000000 - 1
     let r := o % 0x1000000
     if R.SCR_WIN d 0 ≤ o ∧ o < R.SCR_WIN d 16 then (if 256 < v.get 8 0 + v.get 24 16 then s else s.plainWrite o v)
     else if r < 0x4000 ∧ r % 0x80 = 0x48 then s.fenceWrite o v
     else if o = R.PWR_D_CLK d then s.capWrite o d v
     else s.plainWrite o v)
  else s.plainWrite o v

/-- A write to the register at `o`. -/
def State.writeReg (s : State) (w : RegW) (o : Nat) : State :=
  match if o < 0x1000000 then s.hubRow w o else s.dieRow w o with
  | some t => t
  | none => s.onWrite w o fun v t => t.plainAct o v

/-- The INFO record of an access the MMIO region does not take (R10). -/
def State.badAccess (s : State) (off : Nat) : State :=
  s.raise { status := St.MMIO_ACCESS, sev := Sev.INFO, kind := Uk.REGACCESS, addr := mmioAddr off, phys := true, hasAddr := true }

/-- A write of the 64-bit register at MMIO offset `off`, or of half of it (R6, R10). -/
def regWrite (w : RegW) (off : Nat) (s : State) : State :=
  if off % 8 = 0 ∧ (regFields off).isSome then s.writeReg w off else s.badAccess off

/-- REG_WRITE (R6). -/
def execRegWrite (w : RegW) (off : Nat) (s : State) : Host.Outcome State Fault Refusal := s.whileOn (regWrite w off s)

/-! ## Accesses of any size (R10, R282) -/

/-- Does the MMIO region take an access of `size` bytes at `off`? -/
def mmioOk (off size : Nat) : Bool :=
  ((size == 8 && off % 8 == 0) || (size == 4 && off % 4 == 0)) && (regFields (off / 8 * 8)).isSome

/-- The register write an aligned access of 4 or 8 bytes makes. -/
def mmioWrite (a : Agent) (off size : Nat) (v : Word) : RegW :=
  if size = 8 then { agent := a, half := .full, value := v }
  else if off % 8 = 0 then { agent := a, half := .lo, value := v &&& 0xFFFFFFFF#64 }
  else { agent := a, half := .hi, value := (v &&& 0xFFFFFFFF#64) <<< 32 }

/-- May an agent read the register at `o`? Only a core's C_FENCE names its readers (R360). -/
def State.mayRead (s : State) (a : Agent) (o : Nat) : Bool :=
  match a with
  | .core n => if 0x100000 ≤ o ∧ o < 0x160000 ∧ o % 0x1000 = 0x40 then s.corePart n == 0 || o == R.C_FENCE n else true
  | .dctl _ _ => !decide (0x100000 ≤ o ∧ o < 0x160000 ∧ o % 0x1000 = 0x40)
  | .host => true

/-- What an access reads, and the state it leaves: zero with a record if the region does not take it, the register's word or half, or
an open value where the spec names other readers. -/
def State.mmioRead (s : State) (a : Agent) (off size : Nat) : Word × State :=
  if mmioOk off size then
    let o := off / 8 * 8
    let x := if s.mayRead a o then (s.readReg o, s) else (let y := s.draw 8 64; (BitVec.ofNat 64 y.1, y.2))
    (if size = 8 then x.1 else if off % 8 = 0 then x.1 &&& 0xFFFFFFFF#64 else x.1 >>> 32, x.2)
  else (0, s.badAccess off)

/-- What a write access does (R10). -/
def State.mmioStore (s : State) (a : Agent) (off size : Nat) (v : Word) : State :=
  if mmioOk off size then s.writeReg (mmioWrite a off size v) (off / 8 * 8) else s.badAccess off

/-- MMIO_ACCESS (R10): an access of any size at any offset; what a read returns is left in `readData`. -/
def execMmioAccess (a : Agent) (off size : Nat) (write : Bool) (v : Word) (s : State) : Host.Outcome State Fault Refusal :=
  s.whileOn (if write then s.mmioStore a off size v else { (s.mmioRead a off size).2 with readData := (s.mmioRead a off size).1 })

end Sys2Proof.Machine
end

