-- ==== Sys2Proof/Machine/CoreAccess.lean ====
section
/-!
DEFINITION. A core's loads and stores by region (R400, R401), and its full/empty instructions (R390). An access comes with the
physical address its translation gives (R398).
-/

namespace Sys2Proof.Machine

/-- An access cut at 64-byte boundaries (R401): physical address and length of each part. -/
def pieces (pa n : Nat) : List (Nat × Nat) :=
  if pa % 64 + n ≤ 64 then [(pa, n)] else [(pa, 64 - pa % 64), (pa / 64 * 64 + 64, n - (64 - pa % 64))]

/-! ## Loads -/

/-- The bytes of an access's parts, and the state the reads leave. -/
def State.corePieces (n : Fin 96) : List (Nat × Nat) → State → ReadRes × State
  | [], s => (.data [] false, s)
  | (pa, k) :: r, s =>
    let a := (s.region pa).key pa
    match (s.combTouch n (a / 64 * 64)).coreSector n (a / 64 * 64) with
    | (.data b p, s1) =>
      match State.corePieces n r s1 with
      | (.data b' p', s2) => (.data ((b.drop (a % 64)).take k ++ b') (p || p'), s2)
      | x => x
    | x => x

/-- A load from the quire region or the MMIO region (R10, R370). -/
def State.coreIoLoad (s : State) (n : Fin 96) (pa sz : Nat) : Nat × State :=
  match s.region pa with
  | .quire off => if sz = 4 ∨ sz = 8 then (leNat (s.quireBytes off sz), s) else (0, storeBad (.agent (.core n)) off s)
  | .mmio off => ((s.mmioRead (.core n) off sz).1.toNat, (s.mmioRead (.core n) off sz).2)
  | _ => (0, s)

/-- A load of `sz` bytes at a physical address into `rd` (R400, R401). -/
def coreLoad (n : Fin 96) (rd pa sz : Nat) (unsigned_ : Bool) (s : State) : State :=
  let r := s.region pa
  if plainRegion r then
    match State.corePieces n (pieces pa sz) s with
    | (.data b false, s1) => s1.putLoaded n rd sz (leNat b) unsigned_
    | (.wait, s1) => s1
    | (_, s1) => s1.coreTrap n Cause.LOAD_ACCESS pa
  else if r = .outside then s.coreTrap n Cause.LOAD_ACCESS pa
  else if pa % sz ≠ 0 then s.coreTrap n Cause.LOAD_MISALIGNED pa
  else (s.coreIoLoad n pa sz).2.putLoaded n rd sz (s.coreIoLoad n pa sz).1 unsigned_

/-- CORE_LOAD (R400). `drain` is how many of the core's oldest stores its store buffer performs first (R357). -/
def execCoreLoad (n : Fin 96) (rd : Fin 32) (pa sz : Nat) (unsigned_ : Bool) (drain : Nat) (s : State) :
    Host.Outcome State Fault Refusal :=
  s.whileOn (s.onRun n fun t => coreLoad n rd.val pa sz unsigned_ (State.drainStores n drain t))

/-! ## Stores -/

/-- A store's parts put in the combining buffer or the store buffer (R357, R407). -/
def State.storePieces (n : Fin 96) (combined : Bool) : List (Nat × Nat) → List Byte → State → State
  | [], _, s => s
  | (pa, k) :: r, bs, s =>
    let a := (s.region pa).key pa
    State.storePieces n combined r (bs.drop k) (if combined then s.combPut n a (bs.take k) else s.sbPut n a (bs.take k))

/-- A store of bytes at a physical address (R400, R401). `ntl` marks one that follows an ntl.all hint. -/
def coreStoreBytes (n : Fin 96) (pa : Nat) (bs : List Byte) (ntl : Bool) (s : State) : State :=
  let r := s.region pa
  match r with
  | .fabric _ _ => if s.absent r then s.coreTrap n Cause.STORE_ACCESS pa else State.storePieces n true (pieces pa bs.length) bs s
  | .outside => s.coreTrap n Cause.STORE_ACCESS pa
  | .quire off =>
    if pa % bs.length ≠ 0 then s.coreTrap n Cause.STORE_MISALIGNED pa
    else if bs.length = 8 then quireStore (.agent (.core n)) off (BitVec.ofNat 64 (leNat bs)) s
    else storeBad (.agent (.core n)) off s
  | .mmio off =>
    if pa % bs.length ≠ 0 then s.coreTrap n Cause.STORE_MISALIGNED pa
    else s.mmioStore (.core n) off bs.length (BitVec.ofNat 64 (leNat bs))
  | _ => State.storePieces n ntl (pieces pa bs.length) bs s

/-- CORE_STORE (R400). `drain` is how many of the core's oldest stores its store buffer performs next (R357). -/
def execCoreStore (n : Fin 96) (rs2 : Fin 32) (pa sz : Nat) (ntl : Bool) (drain : Nat) (s : State) :
    Host.Outcome State Fault Refusal :=
  s.whileOn (s.onRun n fun t => State.drainStores n drain (coreStoreBytes n pa (leBytes sz (t.regValue n rs2.val sz)) ntl t))

/-! ## Full/empty instructions (R390) -/

/-- A full/empty instruction: it waits for the core's earlier stores to be accepted, acts on the word, and leaves 0 or 1 in `rd`; a
value read is stored to `dst` as a store that follows. -/
def coreFe (n : Fin 96) (op : FeOp) (rd : Nat) (v : Word) (pa dst : Nat) (s : State) : State :=
  if pa % 8 ≠ 0 then s.coreTrap n Cause.STORE_MISALIGNED pa
  else
    let s0 := s.coreDrain n true
    if s0.coreWaits n true then s0
    else match s0.feCheck pa with
      | .wait => s0
      | .fault _ => s0.coreTrap n Cause.STORE_ACCESS pa
      | .ok =>
        let k := (s0.region pa).key pa
        if feWorks op (s0.wordFull k) then
          let x := s0.feDo op k v
          let s1 := if x.2.wordFull k = s0.wordFull k then x.2 else x.2.feChanged k
          let s2 := s1.setCoreX n rd 0
          if feReads op then coreStoreBytes n dst x.1 false s2 else s2
        else s0.setCoreX n rd 1

/-- K_WEF (R390). -/
def execKWef (n : Fin 96) (rd rs2 : Fin 32) (pa : Nat) (s : State) : Host.Outcome State Fault Refusal :=
  s.whileOn (s.onRun n fun t => coreFe n .wef rd.val (t.coreX n rs2.val) pa 0 t)

/-- K_RFE (R390). -/
def execKRfe (n : Fin 96) (rd : Fin 32) (pa dst : Nat) (s : State) : Host.Outcome State Fault Refusal :=
  s.whileOn (s.onRun n (coreFe n .rfe rd.val 0 pa dst))

/-- K_RFF (R390). -/
def execKRff (n : Fin 96) (rd : Fin 32) (pa dst : Nat) (s : State) : Host.Outcome State Fault Refusal :=
  s.whileOn (s.onRun n (coreFe n .rff rd.val 0 pa dst))

/-- K_PURGE (R390). -/
def execKPurge (n : Fin 96) (rd : Fin 32) (pa : Nat) (s : State) : Host.Outcome State Fault Refusal :=
  s.whileOn (s.onRun n (coreFe n .purge rd.val 0 pa 0))

end Sys2Proof.Machine
end

