-- ==== Sys2Proof/Machine/Dispatch.lean ====
section
/-!
DEFINITION. The dispatch of a command to its meaning, one arm per row of spec/opcode_table.json.
-/

namespace Sys2Proof.Machine

def exec (i : Instr) (s : State) : Host.Outcome State Fault Refusal :=
  match i with
  | .regWrite w off => Sys2Proof.Machine.execRegWrite w off s
  | .mmioAccess a off size write v => Sys2Proof.Machine.execMmioAccess a off size write v s
  | .spanCfgWrite w => Sys2Proof.Machine.execSpanCfgWrite w s
  | .spanLenWrite w => Sys2Proof.Machine.execSpanLenWrite w s
  | .relock w => Sys2Proof.Machine.execRelock w s
  | .restart w => Sys2Proof.Machine.execRestart w s
  | .spanBoundary t x => Sys2Proof.Machine.execSpanBoundary t x s
  | .spanInPulse t => Sys2Proof.Machine.execSpanInPulse t s
  | .spanWord t w => Sys2Proof.Machine.execSpanWord t w s
  | .spanWordTimeout t => Sys2Proof.Machine.execSpanWordTimeout t s
  | .mainsRefEdge t l => Sys2Proof.Machine.execMainsRefEdge t l s
  | .mainsEdgeAccept t => Sys2Proof.Machine.execMainsEdgeAccept t s
  | .refTimeout t => Sys2Proof.Machine.execRefTimeout t s
  | .holdoverExpiry t => Sys2Proof.Machine.execHoldoverExpiry t s
  | .prearmReached t d c => Sys2Proof.Machine.execPrearmReached t d c s
  | .stampReached t d c => Sys2Proof.Machine.execStampReached t d c s
  | .cxDoorbell w d c => Sys2Proof.Machine.execCxDoorbell w d c s
  | .emptyReread t d c => Sys2Proof.Machine.execEmptyReread t d c s
  | .slotRead d c => Sys2Proof.Machine.execSlotRead d c s
  | .commandIssue d c => Sys2Proof.Machine.execCommandIssue d c s
  | .commandComplete d c slot => Sys2Proof.Machine.execCommandComplete d c slot s
  | .commandRetire d c => Sys2Proof.Machine.execCommandRetire d c s
  | .commandFault d c slot => Sys2Proof.Machine.execCommandFault d c slot s
  | .gatePoll t d c => Sys2Proof.Machine.execGatePoll t d c s
  | .nop d c => Sys2Proof.Machine.execNop d c s
  | .halt d c => Sys2Proof.Machine.execHalt d c s
  | .acq d c => Sys2Proof.Machine.execAcq d c s
  | .flush d c => Sys2Proof.Machine.execFlush d c s
  | .dfence d c => Sys2Proof.Machine.execDfence d c s
  | .settle d c => Sys2Proof.Machine.execSettle d c s
  | .melt d c => Sys2Proof.Machine.execMelt d c s
  | .wef d c => Sys2Proof.Machine.execWef d c s
  | .rfe d c => Sys2Proof.Machine.execRfe d c s
  | .rff d c => Sys2Proof.Machine.execRff d c s
  | .purge d c => Sys2Proof.Machine.execPurge d c s
  | .resume w d c => Sys2Proof.Machine.execResume w d c s
  | .skip w d c => Sys2Proof.Machine.execSkip w d c s
  | .drain w d c => Sys2Proof.Machine.execDrain w d c s
  | .reset w d c => Sys2Proof.Machine.execReset w d c s
  | .cxResetTimeout t d c => Sys2Proof.Machine.execCxResetTimeout t d c s
  | .cxCfgWrite w d c => Sys2Proof.Machine.execCxCfgWrite w d c s
  | .cxAtpWrite w d c => Sys2Proof.Machine.execCxAtpWrite w d c s
  | .openGroup d m => Sys2Proof.Machine.execOpenGroup d m s
  | .load d m => Sys2Proof.Machine.execLoad d m s
  | .stream d m => Sys2Proof.Machine.execStream d m s
  | .seal d m => Sys2Proof.Machine.execSeal d m s
  | .rowIssue d m ecc => Sys2Proof.Machine.execRowIssue d m ecc s
  | .rimeRow d m => Sys2Proof.Machine.execRimeRow d m s
  | .ballastRow d u => Sys2Proof.Machine.execBallastRow d u s
  | .spinePush d m => Sys2Proof.Machine.execSpinePush d m s
  | .slotRelease d m k => Sys2Proof.Machine.execSlotRelease d m k s
  | .maOffline w d m => Sys2Proof.Machine.execMaOffline w d m s
  | .maOnline w d m => Sys2Proof.Machine.execMaOnline w d m s
  | .arrayHw d m => Sys2Proof.Machine.execArrayHw d m s
  | .tile d v xs ecc row => Sys2Proof.Machine.execTile d v xs ecc row s
  | .mark d v => Sys2Proof.Machine.execMark d v s
  | .setloop d v xs => Sys2Proof.Machine.execSetloop d v xs s
  | .cvt d v xs => Sys2Proof.Machine.execCvt d v xs s
  | .veAdd d v xs => Sys2Proof.Machine.execVeAdd d v xs s
  | .veSub d v xs => Sys2Proof.Machine.execVeSub d v xs s
  | .veMul d v xs => Sys2Proof.Machine.execVeMul d v xs s
  | .veFma d v xs => Sys2Proof.Machine.execVeFma d v xs s
  | .veMax d v xs => Sys2Proof.Machine.execVeMax d v xs s
  | .veMin d v xs => Sys2Proof.Machine.execVeMin d v xs s
  | .sexp d v xs => Sys2Proof.Machine.execSexp d v xs s
  | .recip d v xs => Sys2Proof.Machine.execRecip d v xs s
  | .rsqrt d v xs => Sys2Proof.Machine.execRsqrt d v xs s
  | .relu d v xs => Sys2Proof.Machine.execRelu d v xs s
  | .gelu d v xs => Sys2Proof.Machine.execGelu d v xs s
  | .silu d v xs => Sys2Proof.Machine.execSilu d v xs s
  | .rsum d v xs => Sys2Proof.Machine.execRsum d v xs s
  | .rmax d v xs => Sys2Proof.Machine.execRmax d v xs s
  | .rsumsq d v xs => Sys2Proof.Machine.execRsumsq d v xs s
  | .transpose d v xs => Sys2Proof.Machine.execTranspose d v xs s
  | .reseal d v => Sys2Proof.Machine.execReseal d v s
  | .crcv d v => Sys2Proof.Machine.execCrcv d v s
  | .veOffline w d v => Sys2Proof.Machine.execVeOffline w d v s
  | .veOnline w d v => Sys2Proof.Machine.execVeOnline w d v s
  | .veHw d v => Sys2Proof.Machine.execVeHw d v s
  | .copy d e xs => Sys2Proof.Machine.execCopy d e xs s
  | .fill d e => Sys2Proof.Machine.execFill d e s
  | .desc d e xs => Sys2Proof.Machine.execDesc d e xs s
  | .dmaCompletion d c slot => Sys2Proof.Machine.execDmaCompletion d c slot s
  | .dmOffline w d e => Sys2Proof.Machine.execDmOffline w d e s
  | .dmOnline w d e => Sys2Proof.Machine.execDmOnline w d e s
  | .dmHw d e => Sys2Proof.Machine.execDmHw d e s
  | .firnWrite t id => Sys2Proof.Machine.execFirnWrite t id s
  | .firnFullTimeout t id => Sys2Proof.Machine.execFirnFullTimeout t id s
  | .settleFlip e => Sys2Proof.Machine.execSettleFlip e s
  | .firnMerge n => Sys2Proof.Machine.execFirnMerge n s
  | .meltComplete e => Sys2Proof.Machine.execMeltComplete e s
  | .firnCtlRearm w => Sys2Proof.Machine.execFirnCtlRearm w s
  | .firnCtlMelt w => Sys2Proof.Machine.execFirnCtlMelt w s
  | .firnDdrWrite w => Sys2Proof.Machine.execFirnDdrWrite w s
  | .firnEpochWrite w e => Sys2Proof.Machine.execFirnEpochWrite w e s
  | .refresh j hottest => Sys2Proof.Machine.execRefresh j hottest s
  | .patrolScrub addr found => Sys2Proof.Machine.execPatrolScrub addr found s
  | .retrain t w j => Sys2Proof.Machine.execRetrain t w j s
  | .driftThreshold t j twice => Sys2Proof.Machine.execDriftThreshold t j twice s
  | .retrainWindow t j => Sys2Proof.Machine.execRetrainWindow t j s
  | .retrainComplete t j failed => Sys2Proof.Machine.execRetrainComplete t j failed s
  | .recal w j => Sys2Proof.Machine.execRecal w j s
  | .recalComplete j => Sys2Proof.Machine.execRecalComplete j s
  | .hsOffline w j => Sys2Proof.Machine.execHsOffline w j s
  | .hsOnline w j => Sys2Proof.Machine.execHsOnline w j s
  | .hsMetaAddrWrite w j => Sys2Proof.Machine.execHsMetaAddrWrite w j s
  | .ddrChannelFail n => Sys2Proof.Machine.execDdrChannelFail n s
  | .tableWalk d c n va write => Sys2Proof.Machine.execTableWalk d c n va write s
  | .invalidationStart w => Sys2Proof.Machine.execInvalidationStart w s
  | .invalidationDieAck t d => Sys2Proof.Machine.execInvalidationDieAck t d s
  | .invalidationCut t d => Sys2Proof.Machine.execInvalidationCut t d s
  | .fabExportWrite w n => Sys2Proof.Machine.execFabExportWrite w n s
  | .flitReceive l seq crcOk => Sys2Proof.Machine.execFlitReceive l seq crcOk s
  | .linkRetrainDone t l g => Sys2Proof.Machine.execLinkRetrainDone t l g s
  | .groupTurn j toStack fromStack => Sys2Proof.Machine.execGroupTurn j toStack fromStack s
  | .rdShared r pa => Sys2Proof.Machine.execRdShared r pa s
  | .rdOwn r pa => Sys2Proof.Machine.execRdOwn r pa s
  | .rdBulk r pa => Sys2Proof.Machine.execRdBulk r pa s
  | .rdOnce r pa => Sys2Proof.Machine.execRdOnce r pa s
  | .wrLine id => Sys2Proof.Machine.execWrLine id s
  | .wrPart id => Sys2Proof.Machine.execWrPart id s
  | .wb a pa => Sys2Proof.Machine.execWb a pa s
  | .feOp op pa v => Sys2Proof.Machine.execFeOp op pa v s
  | .linkQsig id => Sys2Proof.Machine.execLinkQsig id s
  | .snpInv id => Sys2Proof.Machine.execSnpInv id s
  | .snpShare id => Sys2Proof.Machine.execSnpShare id s
  | .snpGet id => Sys2Proof.Machine.execSnpGet id s
  | .ack id => Sys2Proof.Machine.execAck id s
  | .invAck id => Sys2Proof.Machine.execInvAck id s
  | .retry id => Sys2Proof.Machine.execRetry id s
  | .creditGrant id => Sys2Proof.Machine.execCreditGrant id s
  | .absent id => Sys2Proof.Machine.execAbsent id s
  | .data id => Sys2Proof.Machine.execData id s
  | .snpData id => Sys2Proof.Machine.execSnpData id s
  | .isolate w d => Sys2Proof.Machine.execIsolate w d s
  | .dieClockLoss d => Sys2Proof.Machine.execDieClockLoss d s
  | .drainTimer t d => Sys2Proof.Machine.execDrainTimer t d s
  | .stackIsolation t j => Sys2Proof.Machine.execStackIsolation t j s
  | .cdOffline w d => Sys2Proof.Machine.execCdOffline w d s
  | .rejoin w d => Sys2Proof.Machine.execRejoin w d s
  | .rejoinComplete t d => Sys2Proof.Machine.execRejoinComplete t d s
  | .rcCfgWrite w d => Sys2Proof.Machine.execRcCfgWrite w d s
  | .rcInvalidate w d => Sys2Proof.Machine.execRcInvalidate w d s
  | .rcInvalidateDone d => Sys2Proof.Machine.execRcInvalidateDone d s
  | .destinationDead t p => Sys2Proof.Machine.execDestinationDead t p s
  | .fence n f => Sys2Proof.Machine.execFence n f s
  | .kDfence n rd => Sys2Proof.Machine.execKDfence n rd s
  | .combineTimeout t n sec => Sys2Proof.Machine.execCombineTimeout t n sec s
  | .coreLoad n rd pa sz unsigned_ drain => Sys2Proof.Machine.execCoreLoad n rd pa sz unsigned_ drain s
  | .coreStore n rs2 pa sz ntl drain => Sys2Proof.Machine.execCoreStore n rs2 pa sz ntl drain s
  | .coreAmo n op rd rs2 pa sz => Sys2Proof.Machine.execCoreAmo n op rd rs2 pa sz s
  | .lr n rd pa sz => Sys2Proof.Machine.execLr n rd pa sz s
  | .sc n rd rs2 pa sz => Sys2Proof.Machine.execSc n rd rs2 pa sz s
  | .cbo n op pa => Sys2Proof.Machine.execCbo n op pa s
  | .quireAdd x q v => Sys2Proof.Machine.execQuireAdd x q v s
  | .quireSub x q v => Sys2Proof.Machine.execQuireSub x q v s
  | .arrive x q r => Sys2Proof.Machine.execArrive x q r s
  | .set x q v => Sys2Proof.Machine.execSet x q v s
  | .config x q v => Sys2Proof.Machine.execConfig x q v s
  | .deadlineStore x q v => Sys2Proof.Machine.execDeadlineStore x q v s
  | .dlStepStore x q v => Sys2Proof.Machine.execDlStepStore x q v s
  | .flagClear x q v => Sys2Proof.Machine.execFlagClear x q v s
  | .quireAccess x off => Sys2Proof.Machine.execQuireAccess x off s
  | .mirror h q d => Sys2Proof.Machine.execMirror h q d s
  | .gatherDeadline t q => Sys2Proof.Machine.execGatherDeadline t q s
  | .kWef n rd rs2 pa => Sys2Proof.Machine.execKWef n rd rs2 pa s
  | .kRfe n rd pa dst => Sys2Proof.Machine.execKRfe n rd pa dst s
  | .kRff n rd pa dst => Sys2Proof.Machine.execKRff n rd pa dst s
  | .kPurge n rd pa => Sys2Proof.Machine.execKPurge n rd pa s
  | .coreOffline w n => Sys2Proof.Machine.execCoreOffline w n s
  | .coreDrained n => Sys2Proof.Machine.execCoreDrained n s
  | .coreOnline w n => Sys2Proof.Machine.execCoreOnline w n s
  | .coreFailed n => Sys2Proof.Machine.execCoreFailed n s
  | .lightLoss oe => Sys2Proof.Machine.execLightLoss oe s
  | .lightReturn oe => Sys2Proof.Machine.execLightReturn oe s
  | .fabricFlit n seq corrected intact lane => Sys2Proof.Machine.execFabricFlit n seq corrected intact lane s
  | .hello n versions => Sys2Proof.Machine.execHello n versions s
  | .wr h off mask data => Sys2Proof.Machine.execWr h off mask data s
  | .wcrc h off crc => Sys2Proof.Machine.execWcrc h off crc s
  | .rd h off nsec => Sys2Proof.Machine.execRd h off nsec s
  | .qsig h q op v => Sys2Proof.Machine.execQsig h q op v s
  | .rdData p pseq data poison => Sys2Proof.Machine.execRdData p pseq data poison s
  | .rcpt p pseq => Sys2Proof.Machine.execRcpt p pseq s
  | .rcptTimer t p => Sys2Proof.Machine.execRcptTimer t p s
  | .refuse p pseq => Sys2Proof.Machine.execRefuse p pseq s
  | .nakE2e p pseq => Sys2Proof.Machine.execNakE2e p pseq s
  | .resync p first => Sys2Proof.Machine.execResync p first s
  | .span t view count arr => Sys2Proof.Machine.execSpan t view count arr s
  | .delayReq t p port at_ corr => Sys2Proof.Machine.execDelayReq t p port at_ corr s
  | .delayRsp t port at_ corr recv send back => Sys2Proof.Machine.execDelayRsp t port at_ corr recv send back s
  | .member t p votes join leave versions at_ => Sys2Proof.Machine.execMember t p votes join leave versions at_ s
  | .view t v => Sys2Proof.Machine.execView t v s
  | .viewAdopt t => Sys2Proof.Machine.execViewAdopt t s
  | .memberTimeout t p => Sys2Proof.Machine.execMemberTimeout t p s
  | .leaderSilence t => Sys2Proof.Machine.execLeaderSilence t s
  | .paceRpt t p part q round reason at_ => Sys2Proof.Machine.execPaceRpt t p part q round reason at_ s
  | .paceSet t p part stretch base => Sys2Proof.Machine.execPaceSet t p part stretch base s
  | .paceApply t part => Sys2Proof.Machine.execPaceApply t part s
  | .leave w => Sys2Proof.Machine.execLeave w s
  | .admitMembers w => Sys2Proof.Machine.execAdmitMembers w s
  | .thaw w => Sys2Proof.Machine.execThaw w s
  | .drift w => Sys2Proof.Machine.execDrift w s
  | .full w => Sys2Proof.Machine.execFull w s
  | .paceSend w => Sys2Proof.Machine.execPaceSend w s
  | .fabCfgWrite w => Sys2Proof.Machine.execFabCfgWrite w s
  | .hostMemRead hpa want => Sys2Proof.Machine.execHostMemRead hpa want s
  | .hostMemWrite hpa mask data poison => Sys2Proof.Machine.execHostMemWrite hpa mask data poison s
  | .birsp id => Sys2Proof.Machine.execBirsp id s
  | .bisnpTimeout t id => Sys2Proof.Machine.execBisnpTimeout t id s
  | .hdmCommit n hpa size ways memEn cacheEn => Sys2Proof.Machine.execHdmCommit n hpa size ways memEn cacheEn s
  | .hostWindowAccess pa => Sys2Proof.Machine.execHostWindowAccess pa s
  | .hlWinWrite w => Sys2Proof.Machine.execHlWinWrite w s
  | .identify => Sys2Proof.Machine.execIdentify s
  | .getEventRecords l => Sys2Proof.Machine.execGetEventRecords l s
  | .clearEventRecords l all seqs => Sys2Proof.Machine.execClearEventRecords l all seqs s
  | .getEventInterruptPolicy => Sys2Proof.Machine.execGetEventInterruptPolicy s
  | .setEventInterruptPolicy a b c d => Sys2Proof.Machine.execSetEventInterruptPolicy a b c d s
  | .getFwInfo => Sys2Proof.Machine.execGetFwInfo s
  | .transferFw a off data => Sys2Proof.Machine.execTransferFw a off data s
  | .activateFw online => Sys2Proof.Machine.execActivateFw online s
  | .getTimestamp => Sys2Proof.Machine.execGetTimestamp s
  | .setTimestamp v => Sys2Proof.Machine.execSetTimestamp v s
  | .getSupportedLogs => Sys2Proof.Machine.execGetSupportedLogs s
  | .getLog which => Sys2Proof.Machine.execGetLog which s
  | .getBindingState => Sys2Proof.Machine.execGetBindingState s
  | .recoveryTransfer off data => Sys2Proof.Machine.execRecoveryTransfer off data s
  | .recoveryApply => Sys2Proof.Machine.execRecoveryApply s
  | .recoveryCheckDone t v b => Sys2Proof.Machine.execRecoveryCheckDone t v b s
  | .setWakeBudget us => Sys2Proof.Machine.execSetWakeBudget us s
  | .getWakeBudget => Sys2Proof.Machine.execGetWakeBudget s
  | .getServiceMap => Sys2Proof.Machine.execGetServiceMap s
  | .setPowerLimit w => Sys2Proof.Machine.execSetPowerLimit w s
  | .mailboxUnsupported op => Sys2Proof.Machine.execMailboxUnsupported op s
  | .perstN t k dirty => Sys2Proof.Machine.execPerstN t k dirty s
  | .functionLevelReset => Sys2Proof.Machine.execFunctionLevelReset s
  | .ideFail t => Sys2Proof.Machine.execIdeFail t s
  | .powerInterval t r => Sys2Proof.Machine.execPowerInterval t r s
  | .droopTrip t u det deep => Sys2Proof.Machine.execDroopTrip t u det deep s
  | .droopClear t u det => Sys2Proof.Machine.execDroopClear t u det s
  | .freqSwitch t dom => Sys2Proof.Machine.execFreqSwitch t dom s
  | .freqChangeApply t dom => Sys2Proof.Machine.execFreqChangeApply t dom s
  | .railLimit t r x => Sys2Proof.Machine.execRailLimit t r x s
  | .thermtrip t written => Sys2Proof.Machine.execThermtrip t written s
  | .throttleN t l => Sys2Proof.Machine.execThrottleN t l s
  | .pwrLimitWrite w => Sys2Proof.Machine.execPwrLimitWrite w s
  | .lsBandWrite w => Sys2Proof.Machine.execLsBandWrite w s
  | .stepPhaseReached t => Sys2Proof.Machine.execStepPhaseReached t s
  | .lsMainsTimeout t => Sys2Proof.Machine.execLsMainsTimeout t s
  | .forget w => Sys2Proof.Machine.execForget w s
  | .forgetAll w => Sys2Proof.Machine.execForgetAll w s
  | .dozeEntry t d => Sys2Proof.Machine.execDozeEntry t d s
  | .dozeExit t d => Sys2Proof.Machine.execDozeExit t d s
  | .arm w => Sys2Proof.Machine.execArm w s
  | .restCancel w => Sys2Proof.Machine.execRestCancel w s
  | .restEntry t wfi draw => Sys2Proof.Machine.execRestEntry t wfi draw s
  | .restExit t x => Sys2Proof.Machine.execRestExit t x s
  | .faultRecordAccept => Sys2Proof.Machine.execFaultRecordAccept s
  | .fqPop w => Sys2Proof.Machine.execFqPop w s
  | .take w => Sys2Proof.Machine.execTake w s
  | .coloCheckpointTimer t fails => Sys2Proof.Machine.execColoCheckpointTimer t fails s
  | .checkpoint w fails => Sys2Proof.Machine.execCheckpoint w fails s
  | .close w fails => Sys2Proof.Machine.execClose w fails s
  | .startUp t v b link => Sys2Proof.Machine.execStartUp t v b link s
  | .bindTimeout t => Sys2Proof.Machine.execBindTimeout t s
  | .svnCommit t => Sys2Proof.Machine.execSvnCommit t s
  | .loadPack w => Sys2Proof.Machine.execLoadPack w s
  | .packCheckDone t v => Sys2Proof.Machine.execPackCheckDone t v s
  | .segmentSwitch t n fails => Sys2Proof.Machine.execSegmentSwitch t n fails s
  | .writeFlash w => Sys2Proof.Machine.execWriteFlash w s
  | .flashWriteDone t v fails => Sys2Proof.Machine.execFlashWriteDone t v fails s
  | .bindCancel w => Sys2Proof.Machine.execBindCancel w s
  | .retrimSpan w => Sys2Proof.Machine.execRetrimSpan w s
  | .retrimDroop w => Sys2Proof.Machine.execRetrimDroop w s
  | .retrimSensors w => Sys2Proof.Machine.execRetrimSensors w s
  | .oeOffline w => Sys2Proof.Machine.execOeOffline w s
  | .oeOnline w => Sys2Proof.Machine.execOeOnline w s
  | .portRecal w => Sys2Proof.Machine.execPortRecal w s
  | .svcActionDone t failed => Sys2Proof.Machine.execSvcActionDone t failed s
  | .spFail t => Sys2Proof.Machine.execSpFail t s
  | .getVersion => Sys2Proof.Machine.execGetVersion s
  | .getCapabilities => Sys2Proof.Machine.execGetCapabilities s
  | .negotiateAlgorithms offered => Sys2Proof.Machine.execNegotiateAlgorithms offered s
  | .getDigests => Sys2Proof.Machine.execGetDigests s
  | .getCertificate slot => Sys2Proof.Machine.execGetCertificate slot s
  | .challenge slot => Sys2Proof.Machine.execChallenge slot s
  | .getMeasurements index => Sys2Proof.Machine.execGetMeasurements index s
  | .keyExchange slot => Sys2Proof.Machine.execKeyExchange slot s
  | .finish verified => Sys2Proof.Machine.execFinish verified s
  | .endSession => Sys2Proof.Machine.execEndSession s
  | .entdaa addr => Sys2Proof.Machine.execEntdaa addr s
  | .setdasa static_ addr => Sys2Proof.Machine.execSetdasa static_ addr s
  | .resetN t width => Sys2Proof.Machine.execResetN t width s
  | .railUndervoltage t dur => Sys2Proof.Machine.execRailUndervoltage t dur s
  | .sysclkLoss t => Sys2Proof.Machine.execSysclkLoss t s
  | .refclkLoss t dirty => Sys2Proof.Machine.execRefclkLoss t dirty s
  | .regulatorTimeout t r => Sys2Proof.Machine.execRegulatorTimeout t r s
  | .testLogicReset => Sys2Proof.Machine.execTestLogicReset s
  | .extest => Sys2Proof.Machine.execExtest s
  | .idcode => Sys2Proof.Machine.execIdcode s
  | .sample cells => Sys2Proof.Machine.execSample cells s
  | .preload cells => Sys2Proof.Machine.execPreload cells s
  | .clamp => Sys2Proof.Machine.execClamp s
  | .highz => Sys2Proof.Machine.execHighz s
  | .extestPulse => Sys2Proof.Machine.execExtestPulse s
  | .extestTrain => Sys2Proof.Machine.execExtestTrain s
  | .bypass code => Sys2Proof.Machine.execBypass code s
  | .portTrainingDone n lanes => Sys2Proof.Machine.execPortTrainingDone n lanes s
  | .perstNDeassert t u => Sys2Proof.Machine.execPerstNDeassert t u s
  | .powerUp t => Sys2Proof.Machine.execPowerUp t s
  | .powerDown t => Sys2Proof.Machine.execPowerDown t s
  | .hostWindowResponse pa data error poison => Sys2Proof.Machine.execHostWindowResponse pa data error poison s
  | .interruptTaken n => Sys2Proof.Machine.execInterruptTaken n s
  | .wrs n sto => Sys2Proof.Machine.execWrs n sto s
  | .wrsTimeout t n => Sys2Proof.Machine.execWrsTimeout t n s

end Sys2Proof.Machine
end

