-- ==== Sys2Proof/WellFormed.lean ====
section
/-!
DEFINITION. Which commands are well formed: the operands a sender can send. Every operand whose type already holds it to what the spec
allows needs no check; a meaning is total on ill-formed operands too.
-/

namespace Sys2Proof

/-- An offset of the MMIO region, as wide as BAR0 (R283, R461). -/
def mmioOff (off : Nat) : Bool := decide (off < 0x8000000)

/-- The size in bytes of a load, a store or a register access. -/
def accessSize (n : Nat) : Bool := n == 1 || n == 2 || n == 4 || n == 8

/-- A physical address (R280): 56 bits. -/
def physAddr (pa : Nat) : Bool := decide (pa < 0x100000000000000)

/-- A queue slot (R59, R87). -/
def slotNo (slot : Nat) : Bool := decide (slot < 65536)

/-- Findings at offsets of a die's scratchpad (R178). -/
def scrOk (xs : List ScrFinding) : Bool := xs.all fun x => decide (x.offset < 0x10000000)

/-- A power reading with a value for each die, stack group and sensor (R482). -/
def readingOk (r : PowerReading) : Bool :=
  r.dieMW.length == 4 && r.groupMW.length == 4 && r.dieC.length == 4 && r.dieC.all (·.length == 16) && r.hubC.length == 24 &&
    r.oeC.length == 8 && r.oeC.all (·.length == 2)

/-- At most one DIMM a channel (R266). -/
def dimmsDistinct (b : BringUp) : Bool := decide ((b.dimms.map (·.channel)).Nodup)

/-- Is the command well formed? -/
def Instr.wf : Instr → Bool
  | .regWrite _ off => mmioOff off && off % 8 == 0
  | .mmioAccess _ off size _ _ => mmioOff off && accessSize size
  | .spanCfgWrite _ => true
  | .spanLenWrite _ => true
  | .relock _ => true
  | .restart _ => true
  | .spanBoundary _ x => x.temps.all fun p => decide (p.2 < 256)
  | .spanInPulse _ => true
  | .spanWord _ _ => true
  | .spanWordTimeout _ => true
  | .mainsRefEdge _ _ => true
  | .mainsEdgeAccept _ => true
  | .refTimeout _ => true
  | .holdoverExpiry _ => true
  | .prearmReached _ _ _ => true
  | .stampReached _ _ _ => true
  | .cxDoorbell _ _ _ => true
  | .emptyReread _ _ _ => true
  | .slotRead _ _ => true
  | .commandIssue _ _ => true
  | .commandComplete _ _ slot => slotNo slot
  | .commandRetire _ _ => true
  | .commandFault _ _ slot => slotNo slot
  | .gatePoll _ _ _ => true
  | .nop _ _ => true
  | .halt _ _ => true
  | .acq _ _ => true
  | .flush _ _ => true
  | .dfence _ _ => true
  | .settle _ _ => true
  | .melt _ _ => true
  | .wef _ _ => true
  | .rfe _ _ => true
  | .rff _ _ => true
  | .purge _ _ => true
  | .resume _ _ _ => true
  | .skip _ _ _ => true
  | .drain _ _ _ => true
  | .reset _ _ _ => true
  | .cxResetTimeout _ _ _ => true
  | .cxCfgWrite _ _ _ => true
  | .cxAtpWrite _ _ _ => true
  | .openGroup _ _ => true
  | .load _ _ => true
  | .stream _ _ => true
  | .seal _ _ => true
  | .rowIssue _ _ _ => true
  | .rimeRow _ _ => true
  | .ballastRow _ _ => true
  | .spinePush _ _ => true
  | .slotRelease _ _ _ => true
  | .maOffline _ _ _ => true
  | .maOnline _ _ _ => true
  | .arrayHw _ _ => true
  | .tile _ _ xs _ row => scrOk xs && decide (row < 32)
  | .mark _ _ => true
  | .setloop _ _ xs => scrOk xs
  | .cvt _ _ xs => scrOk xs
  | .veAdd _ _ xs => scrOk xs
  | .veSub _ _ xs => scrOk xs
  | .veMul _ _ xs => scrOk xs
  | .veFma _ _ xs => scrOk xs
  | .veMax _ _ xs => scrOk xs
  | .veMin _ _ xs => scrOk xs
  | .sexp _ _ xs => scrOk xs
  | .recip _ _ xs => scrOk xs
  | .rsqrt _ _ xs => scrOk xs
  | .relu _ _ xs => scrOk xs
  | .gelu _ _ xs => scrOk xs
  | .silu _ _ xs => scrOk xs
  | .rsum _ _ xs => scrOk xs
  | .rmax _ _ xs => scrOk xs
  | .rsumsq _ _ xs => scrOk xs
  | .transpose _ _ xs => scrOk xs
  | .reseal _ _ => true
  | .crcv _ _ => true
  | .veOffline _ _ _ => true
  | .veOnline _ _ _ => true
  | .veHw _ _ => true
  | .copy _ _ xs => scrOk xs
  | .fill _ _ => true
  | .desc _ _ xs => scrOk xs
  | .dmaCompletion _ _ slot => slotNo slot
  | .dmOffline _ _ _ => true
  | .dmOnline _ _ _ => true
  | .dmHw _ _ => true
  | .firnWrite _ _ => true
  | .firnFullTimeout _ _ => true
  | .settleFlip _ => true
  | .firnMerge _ => true
  | .meltComplete _ => true
  | .firnCtlRearm _ => true
  | .firnCtlMelt _ => true
  | .firnDdrWrite _ => true
  | .firnEpochWrite _ _ => true
  | .refresh _ hottest => decide (hottest < 256)
  | .patrolScrub _ _ => true
  | .retrain _ _ _ => true
  | .driftThreshold _ _ _ => true
  | .retrainWindow _ _ => true
  | .retrainComplete _ _ _ => true
  | .recal _ _ => true
  | .recalComplete _ => true
  | .hsOffline _ _ => true
  | .hsOnline _ _ => true
  | .hsMetaAddrWrite _ _ => true
  | .ddrChannelFail _ => true
  | .tableWalk _ _ _ _ _ => true
  | .invalidationStart _ => true
  | .invalidationDieAck _ _ => true
  | .invalidationCut _ _ => true
  | .fabExportWrite _ _ => true
  | .flitReceive _ _ _ => true
  | .linkRetrainDone _ _ _ => true
  | .groupTurn _ toStack fromStack => decide (toStack + fromStack ≤ 16)
  | .rdShared _ pa => physAddr pa && pa % 64 == 0
  | .rdOwn _ pa => physAddr pa && pa % 64 == 0
  | .rdBulk _ pa => physAddr pa && pa % 64 == 0
  | .rdOnce _ pa => physAddr pa && pa % 64 == 0
  | .wrLine _ => true
  | .wrPart _ => true
  | .wb _ pa => physAddr pa && pa % 64 == 0
  | .feOp _ pa _ => physAddr pa
  | .linkQsig _ => true
  | .snpInv _ => true
  | .snpShare _ => true
  | .snpGet _ => true
  | .ack _ => true
  | .invAck _ => true
  | .retry _ => true
  | .creditGrant _ => true
  | .absent _ => true
  | .data _ => true
  | .snpData _ => true
  | .isolate _ _ => true
  | .dieClockLoss _ => true
  | .drainTimer _ _ => true
  | .stackIsolation _ _ => true
  | .cdOffline _ _ => true
  | .rejoin _ _ => true
  | .rejoinComplete _ _ => true
  | .rcCfgWrite _ _ => true
  | .rcInvalidate _ _ => true
  | .rcInvalidateDone _ => true
  | .destinationDead _ _ => true
  | .fence _ _ => true
  | .kDfence _ _ => true
  | .combineTimeout _ _ sec => sec % 64 == 0
  | .coreLoad _ _ pa sz _ _ => physAddr pa && accessSize sz
  | .coreStore _ _ pa sz _ _ => physAddr pa && accessSize sz
  | .coreAmo _ op _ _ pa sz => physAddr pa && (sz == 4 || sz == 8 || (sz == 16 && op == .cas))
  | .lr _ _ pa sz => physAddr pa && (sz == 4 || sz == 8)
  | .sc _ _ _ pa sz => physAddr pa && (sz == 4 || sz == 8)
  | .cbo _ _ pa => physAddr pa
  | .quireAdd _ _ _ => true
  | .quireSub _ _ _ => true
  | .arrive _ _ _ => true
  | .set _ _ _ => true
  | .config _ _ _ => true
  | .deadlineStore _ _ _ => true
  | .dlStepStore _ _ _ => true
  | .flagClear _ _ _ => true
  | .quireAccess _ off => decide (off < 0x100000)
  | .mirror _ _ _ => true
  | .gatherDeadline _ _ => true
  | .kWef _ _ _ pa => physAddr pa
  | .kRfe _ _ pa dst => physAddr pa && physAddr dst
  | .kRff _ _ pa dst => physAddr pa && physAddr dst
  | .kPurge _ _ pa => physAddr pa
  | .coreOffline _ _ => true
  | .coreDrained _ => true
  | .coreOnline _ _ => true
  | .coreFailed _ => true
  | .lightLoss _ => true
  | .lightReturn _ => true
  | .fabricFlit _ _ _ _ _ => true
  | .hello _ _ => true
  | .wr _ _ _ bs => decide (bs.length ≤ 256) && bs.length % 64 == 0
  | .wcrc _ _ _ => true
  | .rd _ _ _ => true
  | .qsig _ _ _ _ => true
  | .rdData _ _ bs _ => bs.length == 64
  | .rcpt _ _ => true
  | .rcptTimer _ _ => true
  | .refuse _ _ => true
  | .nakE2e _ _ => true
  | .resync _ _ => true
  | .span _ _ _ _ => true
  | .delayReq _ _ _ _ _ => true
  | .delayRsp _ _ _ _ _ _ _ => true
  | .member _ _ _ _ _ _ _ => true
  | .view _ v => decide (v.votes < 65536)
  | .viewAdopt _ => true
  | .memberTimeout _ _ => true
  | .leaderSilence _ => true
  | .paceRpt _ _ _ _ _ _ _ => true
  | .paceSet _ _ _ _ _ => true
  | .paceApply _ _ => true
  | .leave _ => true
  | .admitMembers _ => true
  | .thaw _ => true
  | .drift _ => true
  | .full _ => true
  | .paceSend _ => true
  | .fabCfgWrite _ => true
  | .hostMemRead _ _ => true
  | .hostMemWrite _ _ bs _ => bs.length == 64
  | .birsp _ => true
  | .bisnpTimeout _ _ => true
  | .hdmCommit _ _ _ _ _ _ => true
  | .hostWindowAccess _ => true
  | .hlWinWrite _ => true
  | .identify => true
  | .getEventRecords _ => true
  | .clearEventRecords _ _ _ => true
  | .getEventInterruptPolicy => true
  | .setEventInterruptPolicy _ _ _ _ => true
  | .getFwInfo => true
  | .transferFw _ _ _ => true
  | .activateFw _ => true
  | .getTimestamp => true
  | .setTimestamp _ => true
  | .getSupportedLogs => true
  | .getLog _ => true
  | .getBindingState => true
  | .recoveryTransfer _ bs => decide (bs.length ≤ 4096)
  | .recoveryApply => true
  | .recoveryCheckDone _ _ b => dimmsDistinct b
  | .setWakeBudget _ => true
  | .getWakeBudget => true
  | .getServiceMap => true
  | .setPowerLimit _ => true
  | .mailboxUnsupported _ => true
  | .perstN _ _ dirty => dirty.all (fun a => a % 64 == 0)
  | .functionLevelReset => true
  | .ideFail _ => true
  | .powerInterval _ r => readingOk r
  | .droopTrip _ _ _ _ => true
  | .droopClear _ _ _ => true
  | .freqSwitch _ _ => true
  | .freqChangeApply _ _ => true
  | .railLimit _ _ _ => true
  | .thermtrip _ _ => true
  | .throttleN _ _ => true
  | .pwrLimitWrite _ => true
  | .lsBandWrite _ => true
  | .stepPhaseReached _ => true
  | .lsMainsTimeout _ => true
  | .forget _ => true
  | .forgetAll _ => true
  | .dozeEntry _ _ => true
  | .dozeExit _ _ => true
  | .arm _ => true
  | .restCancel _ => true
  | .restEntry _ _ _ => true
  | .restExit _ _ => true
  | .faultRecordAccept => true
  | .fqPop _ => true
  | .take _ => true
  | .coloCheckpointTimer _ _ => true
  | .checkpoint _ _ => true
  | .close _ _ => true
  | .startUp _ _ b _ => dimmsDistinct b
  | .bindTimeout _ => true
  | .svnCommit _ => true
  | .loadPack _ => true
  | .packCheckDone _ _ => true
  | .segmentSwitch _ _ _ => true
  | .writeFlash _ => true
  | .flashWriteDone _ _ _ => true
  | .bindCancel _ => true
  | .retrimSpan _ => true
  | .retrimDroop _ => true
  | .retrimSensors _ => true
  | .oeOffline _ => true
  | .oeOnline _ => true
  | .portRecal _ => true
  | .svcActionDone _ _ => true
  | .spFail _ => true
  | .getVersion => true
  | .getCapabilities => true
  | .negotiateAlgorithms _ => true
  | .getDigests => true
  | .getCertificate _ => true
  | .challenge _ => true
  | .getMeasurements _ => true
  | .keyExchange _ => true
  | .finish _ => true
  | .endSession => true
  | .entdaa addr => addr != 0#7
  | .setdasa _ addr => addr != 0#7
  | .resetN _ _ => true
  | .railUndervoltage _ _ => true
  | .sysclkLoss _ => true
  | .refclkLoss _ dirty => dirty.all (fun a => a % 64 == 0)
  | .regulatorTimeout _ _ => true
  | .testLogicReset => true
  | .extest => true
  | .idcode => true
  | .sample _ => true
  | .preload _ => true
  | .clamp => true
  | .highz => true
  | .extestPulse => true
  | .extestTrain => true
  | .bypass _ => true
  | .portTrainingDone _ _ => true
  | .perstNDeassert _ _ => true
  | .powerUp _ => true
  | .powerDown _ => true
  | .hostWindowResponse _ bs error _ => error || bs.length == 64
  | .interruptTaken _ => true
  | .wrs _ _ => true
  | .wrsTimeout _ _ => true

end Sys2Proof
end

