-- ==== Sys2Proof/Safety.lean ====
section
/-!
DEFINITION. What counts as a sound state of the block, in the terms the statements use: the memory's canonical form, the thermal trip
that holds until the supplies are removed, and which commands act while every clock stands still.
-/

namespace Sys2Proof.Machine

/-- The command answers a next state of which `P` holds. -/
def Answers (i : Instr) (s : State) (P : State → Prop) : Prop := ∃ t, exec i s = .next t ∧ P t

/-- The part runs: powered, out of reset, not tripped. -/
abbrev State.On (s : State) : Prop := s.off = false

/-- A register write whose source may write the register and whose formed value is `v` (R6, R10, R409). -/
abbrev State.Writes (s : State) (w : RegW) (o : Nat) (v : Word) : Prop := s.mayWrite w.agent o = true ∧ s.formed w o = v

/-- The newest record raised, if any was: what a meaning adds to the fault path. -/
def State.lastRaised (s : State) : Option FaultRec := s.faults.raised.getLast?

/-- Every register but those of `l` reads in `t` what it read in `s`. -/
def RegsBut (l : List Nat) (s t : State) : Prop := ∀ o, o ∉ l → t.reg o = s.reg o

/-- Every context but `c` of die `d` is, beside its registers, in `t` what it was in `s`. -/
def CxBut (d : Die) (c : Cx) (s t : State) : Prop := ∀ (e : Die) (b : Cx), (e, b) ≠ (d, c) → t.cx e b = s.cx e b

/-- Every quire record but those of `l` is in `t` what it was in `s`. -/
def QuiresBut (l : List Nat) (s t : State) : Prop := ∀ q, q ∉ l → t.quire q = s.quire q

/-- No CONSUME waiter on quire `q` waits for a unit (R378). -/
abbrev State.noConsumer (s : State) (q : Nat) : Prop := ∀ w ∈ s.sync.waiters, w.consumes q = false

/-- What an effective operation may change beside quire records: waiters it satisfies, with their contexts, contexts it wakes from EMPTY,
the sync unit's counters and status, and a counter's wrap (R374, R377, R62). -/
def SyncOnly (s t : State) : Prop :=
  t = { s with regs := t.regs, faults := t.faults, cxs := t.cxs, sync := { s.sync with quires := t.sync.quires, waiters := t.sync.waiters } } ∧
  (∀ o, o ∉ [R.SYNC_OPS, R.SYNC_ERRORS, R.SYNC_ROUNDS, R.SYNC_STATUS] → (∀ d c, o ≠ R.CX_STATE d c) → t.reg o = s.reg o) ∧
  (∀ d c, (∀ w ∈ s.sync.waiters, ¬ (w.die = d ∧ w.cx = c)) → s.cxState d c ≠ CxS.EMPTY → t.cx d c = s.cx d c ∧ t.cxState d c = s.cxState d c) ∧
  (∀ w ∈ t.sync.waiters, w ∈ s.sync.waiters)

/-- Is it the fabric window? -/
def Region.isFabric (r : Region) : Bool :=
  match r with
  | .fabric _ _ => true
  | _ => false

/-- Is it the quire or the MMIO region? -/
def Region.isIo (r : Region) : Bool :=
  match r with
  | .quire _ | .mmio _ => true
  | _ => false

/-- Is it another package? -/
def Dst.isPkg : Dst → Bool
  | .pkg _ => true
  | _ => false

/-- What an AMO stores for the old value `x` and the operand `y` (R397): a compare-and-swap stores where the compare holds. -/
def amoStored {w : Nat} (op : AmoOp) (x y : BitVec w) : BitVec w :=
  match op with
  | .swap => y
  | .add => x + y
  | .and => x &&& y
  | .or => x ||| y
  | .xor => x ^^^ y
  | .min => if x.sle y then x else y
  | .max => if y.sle x then x else y
  | .minu => if x.ule y then x else y
  | .maxu => if x.ule y then y else x
  | .cas => y

/-- The bytes of a line as the cores hold it, or as its home does. -/
def State.coreBytes (s : State) (line : Nat) : List Byte :=
  match s.heldLine .cores line with
  | some x => x.data
  | none => s.ice line

/-- The agent that owns a line (R312), if one does. -/
def State.ownerOf (s : State) (line : Nat) : Option CAgent :=
  match s.dirOf line with
  | some (.owner b) => some b
  | _ => none

/-- A core may read the line at key `a` at once: memory in service, not held, not poisoned, owned by no other agent, and the core has
no write of its own in flight to it (R400, R269). -/
abbrev State.coreReads (s : State) (n : Fin 96) (a : Nat) : Prop :=
  let line := a / 64 * 64
  (∀ x ∈ [a, line], (s.region x).isMem = true ∧ s.absent (s.region x) = false ∧ s.held (s.region x) = false) ∧ s.poisoned line = false ∧
  (s.ownerOf line = none ∨ s.ownerOf line = some .cores) ∧ (∀ w ∈ s.mem.wrs, w.src = .core n → w.addr ≠ line)

/-- A core may write the line at key `a` at once: the cores own it, or hold no copy of it (R312). -/
abbrev State.coreOwns (s : State) (n : Fin 96) (a : Nat) : Prop :=
  let line := a / 64 * 64
  s.coreReads n a ∧ (((s.heldLine .cores line).map (·.data.length) = some 64 ∧ s.dirOf line = some (.owner .cores)) ∨
    (s.heldLine .cores line = none ∧ s.ownerOf line = none))

/-- The core has no store that is not performed. -/
abbrev State.coreQuiet (s : State) (n : Fin 96) : Prop :=
  (s.core n).sb = [] ∧ (s.core n).early = [] ∧ (s.core n).comb = [] ∧ ∀ p ∈ s.cores, p.2.early = []

/-- The cores own the line at key `a` and hold it dirty for core `n`, bytes `bs` at the key and the rest as they were; no byte of memory
and no other line has changed (R312, R411). -/
def State.coreWrote (s t : State) (n : Fin 96) (a : Nat) (bs : List Byte) : Prop :=
  let line := a / 64 * 64
  t.dirOf line = some (.owner .cores) ∧
  (∃ x, t.heldLine .cores line = some x ∧ x.dirty = true ∧ x.owner = some n.val ∧
    ∀ i < 64, x.data.getD i 0 = if a % 64 ≤ i ∧ i < a % 64 + bs.length then bs.getD (i - a % 64) 0 else (s.coreBytes line).getD i 0) ∧
  t.mem.cells = s.mem.cells ∧ (∀ b, b ≠ line → t.heldLine .cores b = s.heldLine .cores b) ∧ RegsBut [R.HL_BISNP] s t ∧
  (∀ m : Fin 96, m ≠ n → (s.core m).resv = some (line / 128) → (t.core m).resv = none) ∧ (∀ m : Fin 96, m ≠ n → (t.core m).x = (s.core m).x) ∧
  t = { s with regs := t.regs, faults := t.faults, mem := t.mem, cores := t.cores }

/-! ## Engines -/

/-- Of the records a command has raised beyond `s`, each tells a counter's wrap (R138). -/
def OnlyWraps (s t : State) : Prop :=
  t.faults = { s.faults with raised := t.faults.raised } ∧ s.faults.raised <+: t.faults.raised ∧
  ∀ x ∈ t.faults.raised.drop s.faults.raised.length, x.status = St.CNT_WRAP

/-- Every array but array `m` of die `d` is in `t` what it was in `s`. -/
def ArrBut (d m : Nat) (s t : State) : Prop := ∀ k, k ≠ 8 * d + m → Sparse.get {} k t.arrays = Sparse.get {} k s.arrays

/-- In context `c` of die `d` the flight at a slot has become what `g` makes of it, and nothing else of any context has changed. -/
def FlightBy (d : Die) (c : Cx) (slot : Nat) (g : Flight → Flight) (s t : State) : Prop :=
  t.cx d c = (s.cx d c).mapFlight slot g ∧ CxBut d c s t

/-- The work of a command has ended (R74). -/
def ended (f : Flight) : Flight := { f with phase := .worked, held := none }

/-- The command has met a fault of its engine, of a code and an address (R83). -/
def stopped (code addr : Nat) (f : Flight) : Flight :=
  { f with phase := .faulted, fault := St.ENGINE_FAULT, faultAddr := addr, code := code, held := none }

/-- The fault register of a die's engine and its address register (R135, R193, R222). -/
def faultRegs (d u : Nat) : Nat × Nat :=
  if u < 8 then (R.MA_FAULT d u, R.MA_FAULT_ADDR d u) else if u < 16 then (R.VE_FAULT d (u - 8), R.VE_FAULT_ADDR d (u - 8))
  else (R.DM_FAULT d (u - 16), R.DM_FAULT_ADDR d (u - 16))

/-- The engine's fault register tells a code, the context, the slot and the address, unless it held a fault: then it has MORE set (R131). -/
def FaultTold (d u c slot code addr : Nat) (s t : State) : Prop :=
  let o := (faultRegs d u).1
  let a := (faultRegs d u).2
  (s.flag o F.MA_FAULT.VALID = false → t.fld o F.MA_FAULT.CODE = code ∧ t.fld o F.MA_FAULT.CX = c ∧ t.fld o F.MA_FAULT.SLOT = slot % 65536 ∧
    t.flag o F.MA_FAULT.VALID = true ∧ t.fld o F.MA_FAULT.MORE = s.fld o F.MA_FAULT.MORE ∧ t.reg a = BitVec.ofNat 64 addr) ∧
  (s.flag o F.MA_FAULT.VALID = true → t.flag o F.MA_FAULT.MORE = true ∧ t.fld o F.MA_FAULT.CODE = s.fld o F.MA_FAULT.CODE ∧ t.reg a = s.reg a)

/-- A command of engine `u` ends with a fault of the engine: its context's flight, the engine's fault register, and nothing else but when
the die last ran (R131, R190, R218). -/
def EngineStops (d : Die) (u : Nat) (c : Cx) (slot code addr : Nat) (s t : State) : Prop :=
  FlightBy d c slot (stopped code addr) s t ∧ FaultTold d u c.val slot code addr s t ∧ RegsBut [(faultRegs d u).1, (faultRegs d u).2] s t ∧
  t = { s with regs := t.regs, cxs := t.cxs, power := { s.power with ranAt := t.power.ranAt } }

/-- What a command of an array may change: the registers of `l`, the array, its context's flights, when the die last ran. -/
def ArrayOnly (d m : Nat) (l : List Nat) (s t : State) : Prop :=
  RegsBut l s t ∧ ArrBut d m s t ∧ OnlyWraps s t ∧
  t = { s with regs := t.regs, faults := t.faults, cxs := t.cxs, arrays := t.arrays, power := { s.power with ranAt := t.power.ranAt } }

/-- What an engine of die `d` finds at once at the sector of virtual address `va`, for a stream: a leaf in the stream's cache that
grants the read, and a sector in the die's scratchpad or in a stack of the die that is in service, not held and owned by no agent,
with no write of the context in flight to it. Its key, the bytes a reader of the instance sees, and whether it is poisoned. -/
def State.nearSec (s : State) (d : Die) (c : Cx) (inst : Option (Nat × Nat)) (stream va : Nat) : Option (Nat × List Byte × Bool) :=
  match s.tlbFind d stream (s.asid d c) (va % 2 ^ 57) with
  | none => none
  | some e =>
    let r := s.region (leafAddr e.pte e.level (va % 2 ^ 57))
    let k := r.key (leafAddr e.pte e.level (va % 2 ^ 57))
    if pteGrants e.pte false && !s.absent r && !s.held r && s.mem.wrs.all fun w => !(w.src == .cx d c && w.addr == k) then
      match r with
      | .scr n _ => if n = d.val then some (k, s.cells k 64, s.mem.scrPoison.contains k) else none
      | .hbm j _ =>
        if j / 5 = d.val then
          (match s.dirOf k with
           | some (.owner _) => none
           | _ => some (k, s.sectorFor inst k, s.poisoned k))
        else none
      | _ => none
    else none

/-- The bytes of a run an engine finds at once, and whether any of its sectors is poisoned. -/
def State.nearRun (s : State) (d : Die) (c : Cx) (inst : Option (Nat × Nat)) (stream va n : Nat) : Option (List Byte × Bool) :=
  let l := (List.range (sectorCount va n)).map fun i => s.nearSec d c inst stream (va / 64 * 64 + 64 * i)
  if l.all Option.isSome then some ((((l.filterMap id).flatMap fun x => x.2.1).drop (va % 64)).take n, (l.filterMap id).any fun x => x.2.2) else none

/-- A write of an engine of die `d` to the byte at a key lands at once: the die's scratchpad, or, outside an epoch, a stack of the die,
in service and not held, with no copy of the line, no firn entry of it, no sector of it in the die's remote cache, and no write of the die in flight. -/
def State.landsAt (s : State) (d : Die) (inst : Option (Nat × Nat)) (key : Nat) : Bool :=
  let line := key / 64 * 64
  !s.absent (s.region line) && (s.rc d).sector line == none && s.mem.wrs.all (fun w => w.src.die != some d) &&
    match s.region line with
    | .scr n _ => n == d.val
    | .hbm j _ => j / 5 == d.val && inst == none && !s.held (s.region line) && s.dirOf line == none && s.firn.entries.all fun e => e.sector != line
    | _ => false

/-- The key of the byte at virtual address `va` where a stream's cache grants the write and the write lands at once. -/
def State.nearDst (s : State) (d : Die) (c : Cx) (inst : Option (Nat × Nat)) (stream va : Nat) : Option Nat :=
  match s.tlbFind d stream (s.asid d c) (va % 2 ^ 57) with
  | none => none
  | some e =>
    let pa := leafAddr e.pte e.level (va % 2 ^ 57)
    if pteGrants e.pte true && s.landsAt d inst ((s.region pa).key pa) then some ((s.region pa).key pa) else none

/-- The run, (source, destination, length), that an item of a DMA plan begins. -/
def DItem.run? : DItem → Option (Nat × Nat × Nat)
  | .check r _ => some (r.src, r.dst, r.len)
  | _ => none

/-- The memory with the bytes of each (address, bytes) pair written in order, `key` taking an address to its byte. -/
def writeRuns (key : Nat → Nat) (l : List (Nat × List Byte)) (m : List Host.Cell) : List Host.Cell :=
  l.foldl (fun m p => (List.range p.2.length).foldl (fun m i => Memory.write (key (p.1 + i)) (p.2.getD i 0) m) m) m

/-- What a command of a vector engine may change: the registers of `l`, its context's flights, memory's bytes, block records and scratchpad
poison, reservations its writes break, when the die last ran. -/
def VectorOnly (l : List Nat) (s t : State) : Prop :=
  RegsBut l s t ∧ OnlyWraps s t ∧
  t = { s with regs := t.regs, faults := t.faults, cxs := t.cxs, mem := { s.mem with cells := t.mem.cells, blocks := t.mem.blocks, scrPoison := t.mem.scrPoison }, cores := t.cores, power := { s.power with ranAt := t.power.ranAt } }

/-! ## Power -/

/-- Every register but those of `l`, PWR_STATUS and the throttle reasons' registers reads in `t` what it read in `s`. -/
def TrBut (l : List Nat) (s t : State) : Prop :=
  ∀ o, o ∉ l → o ≠ R.PWR_STATUS → (∀ r < 7, o ≠ R.TR_DUR r ∧ o ≠ R.TR_LAST r ∧ o ≠ R.TR_LAST_AT r) → t.reg o = s.reg o

/-- What a step of the power controller may change: the registers of `l`, those that show the throttle reasons, the controller's own
state and the count of the dies' clock cycles; records raised are added to. -/
def PowerOnly (l : List Nat) (s t : State) : Prop :=
  TrBut l s t ∧ s.faults.raised <+: t.faults.raised ∧
  t = { s with regs := t.regs, faults := { s.faults with raised := t.faults.raised }, power := t.power, ac := t.ac, acHist := t.acHist }

/-! ## The whole part -/

/-- The memory is in its canonical form. -/
abbrev State.memOk (s : State) : Prop := Memory.wf s.mem.cells = true

/-- The part has tripped on a temperature and its supplies have not been removed (R482, R567). -/
abbrev State.tripped (s : State) : Prop := s.pins.powered = true ∧ s.pins.thermtrip = true

/-- The commands that act while the part is off: its supplies, resets and clocks, the two pins the board drives at any time, the start,
and the test port (R468, R475, R537, R559-R564, R575, R576). -/
def actsWhileOff : Instr → Bool
  | .startUp _ _ _ _ | .resetN _ _ | .railUndervoltage _ _ | .sysclkLoss _ | .refclkLoss _ _ | .powerUp _ | .powerDown _ => true
  | .perstN _ _ _ | .perstNDeassert _ _ | .throttleN _ _ => true
  | .testLogicReset | .extest | .idcode | .sample _ | .preload _ | .clamp | .highz | .extestPulse | .extestTrain | .bypass _ => true
  | _ => false

end Sys2Proof.Machine
end

