-- ==== Sys2Proof/Certificates/Slice0/Obligations.lean ====
section
/-!
DEFINITION. The statements for the provers: what the rules of spec/ say of the commands, of the state they change and of what they
leave alone.
-/

open Sys2Proof Sys2Proof.Machine

/-- Step of a state with a command at the front of its queue is exec of that command on the state with the rest of the queue; with an empty queue the state stays as it is (the model's choice, log entry 3). (00_scope.md, 95_what_each_step_holds.md) -/
def Obligations.StepRunsFront : Prop :=
  (∀ (c : Instr) (r : List Instr) (s : State), step { s with pending := c :: r } = exec c { s with pending := r }) ∧
  (∀ s : State, s.pending = [] → step s = .next s)

/-- After reset every register reads its Reset column, nothing waits in any queue, log or table, span time is 0 in FREE, every context is OFF and every quire is a NATIVE quire of value 0. (01_package.md, 02_span_time.md, 03_launch.md, 13_quires.md, R9, R47, R370) -/
def Obligations.ResetState : Prop :=
  (∀ o : Nat, State.reset.reg o = resetWord o) ∧
  State.reset.pending = [] ∧ State.reset.spanNow = 0 ∧ State.reset.spanState = SpanS.FREE ∧ State.reset.spanValid = false ∧
  (∀ (d : Die) (c : Cx), State.reset.cxState d c = CxS.OFF) ∧
  (∀ q : Nat, State.reset.quire q = {} ∧ (State.reset.quire q).value = 0 ∧ (State.reset.quire q).mode = Qm.NATIVE) ∧
  State.reset.faults.queue = [] ∧ State.reset.faults.nextSeq = 0 ∧ State.reset.mem.wrs = []

/-- The memory of the state after reset is in its canonical form, and every byte reads as an unlisted byte (the model's choice, log entry 1). (09_memory.md) -/
def Obligations.ResetMemoryCanonical : Prop :=
  State.reset.memOk ∧ ∀ a : Nat, Memory.read a State.reset.mem.cells = Memory.unlisted

/-- While the part is unpowered, held in reset or tripped, a command other than those of its supplies, resets, clocks, board pins, start and test port leaves the whole state as it is (log entry 5). (18_power.md, 21_pins.md, R482, R559) -/
def Obligations.ClocksStill : Prop :=
  ∀ (c : Instr) (s : State), s.off = true → actsWhileOff c = false → exec c s = .next s

/-- Once the part has tripped, every step leaves it tripped, with THERMTRIP_N low and the part off, whatever command it takes, unless that command removes the supplies; and after the supplies are removed the trip is gone. (18_power.md, 21_pins.md, R482, R567) -/
def Obligations.TripHolds : Prop :=
  (∀ s t : State, s.tripped → (∀ m : Moment, s.pending.head? ≠ some (.powerDown m)) → step s = .next t →
    t.tripped ∧ t.off = true ∧ t.thermtripLow = true) ∧
  (∀ (s : State) (m : Moment), Answers (.powerDown m) s fun t => t.pins.thermtrip = false ∧ t.thermtripLow = false)

/-- A write of a register that has no command of its own, by a source with the right, sets its RW fields, clears the W1C bits written as 1, leaves its RO fields, and changes no other register and no other state. A write of SYNC_RANGE, SCR_WIN, FQ_CFG or COLO_HIST_SEL with a value its chapter refuses leaves the register, or the refused field, as it was. (01_package.md, 13_quires.md, 06_spine_vector.md, 19_faults.md, R6, R10, R394, R198, R523, R528) -/
def Obligations.RegWriteByType : Prop :=
  (∀ (s : State) (w : RegW) (v : Word) (o : Nat), s.On → s.Writes w o v →
    o ∈ [R.SPAN_LIMITS, R.SPAN_LATE, R.SPAN_LATE_MAX, R.FIRN_CFG, R.FIRN_STATUS, R.PWR_CFG, R.HL_CFG, R.XL_INV_VA, R.XL_INV_STATUS,
      R.SYNC_STATUS, R.BIND_SRC, R.BIND_LEN, R.COLO_WALL] →
    Answers (.regWrite w o) s fun t =>
      t.reg o = writeFields ((regFields o).getD []) (s.reg o) v ∧
      (∀ f ∈ (regFields o).getD [], (f.ty = .rw → t.fld o f = v.get f.hi f.lo) ∧ (f.ty = .ro → t.fld o f = s.fld o f) ∧
        (f.ty = .w1c → ∀ i, f.lo ≤ i → i ≤ f.hi → (t.reg o).bit i = ((s.reg o).bit i && !v.bit i))) ∧
      t = { s with regs := t.regs } ∧ RegsBut [o] s t) ∧
  (∀ (s : State) (w : RegW) (v : Word), s.On →
    (∀ n : Fin 16, s.Writes w (R.SYNC_RANGE n) v → 16384 < v.get 13 0 + v.get 29 15 → exec (.regWrite w (R.SYNC_RANGE n)) s = .next s) ∧
    (∀ (d : Die) (n : Fin 16), s.Writes w (R.SCR_WIN d n) v → 256 < v.get 8 0 + v.get 24 16 → exec (.regWrite w (R.SCR_WIN d n)) s = .next s) ∧
    (s.Writes w R.FQ_CFG v → 95 < v.get 7 1 → Answers (.regWrite w R.FQ_CFG) s fun t =>
      t.fld R.FQ_CFG F.FQ_CFG.IRQ_CORE = s.fld R.FQ_CFG F.FQ_CFG.IRQ_CORE ∧ t.fld R.FQ_CFG F.FQ_CFG.IRQ_MIN_SEV = v.get 10 8 ∧ t = { s with regs := t.regs }) ∧
    (s.Writes w R.COLO_HIST_SEL v → 29 < v.get 4 0 → Answers (.regWrite w R.COLO_HIST_SEL) s fun t =>
      t.fld R.COLO_HIST_SEL F.COLO_HIST_SEL.HIST = s.fld R.COLO_HIST_SEL F.COLO_HIST_SEL.HIST ∧ t = { s with regs := t.regs }))

/-- An access the MMIO region does not take reads zero or is ignored, and places one INFO record MMIO_ACCESS; an aligned 8-byte or 4-byte read of a register returns its word or half and changes nothing. A write of a HUB register by a core outside the management partition, other than of its own C_FENCE, is ignored and places one INFO record CORE_REG_DENIED. (01_package.md, 10_translation.md, 14_cores.md, R10, R282, R409) -/
def Obligations.MmioAccess : Prop :=
  (∀ (s : State) (a : Agent) (off size : Nat) (v : Word), s.On →
    (mmioOk off size = false →
      (Answers (.mmioAccess a off size false v) s fun t => t.readData = 0 ∧ t = { s with readData := 0, faults := t.faults } ∧
        t.lastRaised.map (·.status) = some St.MMIO_ACCESS ∧ t.lastRaised.map (·.sev) = some Sev.INFO) ∧
      (Answers (.mmioAccess a off size true v) s fun t => t = { s with faults := t.faults } ∧ t.lastRaised.map (·.status) = some St.MMIO_ACCESS)) ∧
    (mmioOk off 8 = true → s.mayRead a off = true →
      exec (.mmioAccess a off 8 false v) s = .next { s with readData := s.readReg off }) ∧
    (mmioOk off 4 = true → s.mayRead a (off / 8 * 8) = true →
      exec (.mmioAccess a off 4 false v) s = .next { s with readData := if off % 8 = 0 then s.readReg (off / 8 * 8) &&& 0xFFFFFFFF#64 else s.readReg (off / 8 * 8) >>> 32 })) ∧
  (∀ (s : State) (w : RegW) (n : Fin 96), s.On → w.agent = .core n → s.corePart n ≠ 0 →
    let den (t : State) : Prop := t = { s with faults := t.faults } ∧ t.lastRaised.map (·.status) = some St.CORE_REG_DENIED ∧
      t.lastRaised.map (·.sev) = some Sev.INFO ∧ t.lastRaised.map (·.index) = some n.val
    Answers (.spanCfgWrite w) s den ∧ Answers (.pwrLimitWrite w) s den ∧ Answers (.fabCfgWrite w) s den ∧ Answers (.fqPop w) s den ∧
    Answers (.take w) s den ∧ Answers (.loadPack w) s den ∧ (∀ m : Fin 96, Answers (.coreOffline w m) s den) ∧
    (∀ d : Die, Answers (.isolate w d) s den) ∧ (∀ (d : Die) (c : Cx), Answers (.cxCfgWrite w d c) s den))

/-- SPAN_LEN takes 100,000 to 100,000,000 and otherwise stays with CFG_REFUSED set; ENABLE written 0 makes the unit FREE and VALID 0; a change of the source fields while enabled is refused; RELOCK enters ACQUIRING; RESTART sets span time to 0 while disabled, and sets CFG_REFUSED while enabled. (02_span_time.md, R47, R49, R57) -/
def Obligations.SpanConfiguration : Prop :=
  ∀ (s : State) (w : RegW) (v : Word), s.On →
    (s.Writes w R.SPAN_LEN v →
      (v.get 31 0 < 100000 ∨ 100000000 < v.get 31 0 →
        Answers (.spanLenWrite w) s fun t => t.reg R.SPAN_LEN = s.reg R.SPAN_LEN ∧ t.fld R.SPAN_STATUS F.SPAN_STATUS.CFG_REFUSED = 1 ∧
          t = { s with regs := t.regs } ∧ RegsBut [R.SPAN_STATUS] s t) ∧
      (100000 ≤ v.get 31 0 ∧ v.get 31 0 ≤ 100000000 →
        Answers (.spanLenWrite w) s fun t => t.fld R.SPAN_LEN F.SPAN_LEN.LOCAL_LEN_NS = v.get 31 0 ∧
          t = { s with regs := t.regs, span := t.span } ∧ RegsBut [R.SPAN_LEN] s t)) ∧
    (s.Writes w R.SPAN_CFG v → v.bit 4 = false →
      Answers (.spanCfgWrite w) s fun t => t.spanState = SpanS.FREE ∧ t.spanValid = false ∧ t.spanEnabled = false ∧
        t = { s with regs := t.regs, span := t.span } ∧ RegsBut [R.SPAN_CFG, R.SPAN_STATUS] s t) ∧
    (s.Writes w R.SPAN_CFG v → s.spanEnabled = true → v.bit 4 = true → v.get 1 0 ≠ 3 → v.get 3 0 ≠ (s.reg R.SPAN_CFG).get 3 0 →
      Answers (.spanCfgWrite w) s fun t => (t.reg R.SPAN_CFG).get 3 0 = (s.reg R.SPAN_CFG).get 3 0 ∧
        t.fld R.SPAN_STATUS F.SPAN_STATUS.CFG_REFUSED = 1 ∧ t.lastRaised.map (·.status) = some St.SPAN_CFG_BUSY ∧
        t = { s with regs := t.regs, faults := t.faults } ∧ RegsBut [R.SPAN_CFG, R.SPAN_STATUS] s t) ∧
    (s.Writes w R.SPAN_CTL v → v.bit 0 = true → s.spanEnabled = true → s.spanSource ≠ 0 → s.spanState ≠ SpanS.FREE →
      Answers (.relock w) s fun t => t.spanState = SpanS.ACQUIRING ∧ t.span = { s.span with lockCount := 0 } ∧
        t = { s with regs := t.regs, span := t.span } ∧ RegsBut [R.SPAN_STATUS] s t) ∧
    (s.Writes w R.SPAN_CTL v → v.bit 1 = true → s.spanEnabled = true →
      Answers (.restart w) s fun t => t.spanNow = s.spanNow ∧ t.fld R.SPAN_STATUS F.SPAN_STATUS.CFG_REFUSED = 1 ∧
        t = { s with regs := t.regs } ∧ RegsBut [R.SPAN_STATUS] s t) ∧
    (s.Writes w R.SPAN_CTL v → v.bit 1 = true → s.spanEnabled = false →
      Answers (.restart w) s fun t => t.spanNow = 0 ∧ t.lastRaised.map (·.status) = some St.SPAN_STEP ∧
        t = { s with span := t.span, faults := t.faults })

/-- While LOCKED, a pulse on SPAN_IN within LOCK_THRESH_NS is captured with its phase error and keeps the unit LOCKED with its value; a valid word in sequence becomes the reference count; a pulse without a word for 10 µs sets WORD_ERR with a SPAN_WORD record; a level change on MAINS_REF starts the filter, and an edge that has held 50 µs, the first, is captured in SPAN_CAP_MAINS at its crossing. (02_span_time.md, 21_pins.md, R34, R35, R36, R37, R563) -/
def Obligations.SpanReferenceEvents : Prop :=
  ∀ (s : State) (m : Moment), s.On → s.now ≤ m →
    let s0 := s.atTime m
    (s.onSpanIn = true → s.spanState = SpanS.LOCKED → s0.withinLock (fracOffset (s0.spanNow.get 23 0) 0) = true →
      Answers (.spanInPulse m) s fun t => t.reg R.SPAN_CAP_REF = s0.spanNow ∧ t.spanNow = s0.spanNow ∧ t.spanState = SpanS.LOCKED ∧
        t.span.pulseAt = some m ∧ t = { s0 with regs := t.regs, span := t.span } ∧ RegsBut [R.SPAN_CAP_REF, R.SPAN_STATUS] s t) ∧
    (∀ (p : Nat) (w : Word) (r : Nat), s.span.pulseAt = some p → s.span.wordSeen = false → m ≤ p + 160000 → spanWordValid w = true →
      s.span.refCount = some r → w.get 47 8 = (r + 1) % 0x10000000000 → s.spanState = SpanS.LOCKED →
      Answers (.spanWord m w) s fun t => t.span.refCount = some (w.get 47 8) ∧ t.span.wordSeen = true ∧ t.spanState = SpanS.LOCKED ∧
        t = { s0 with regs := t.regs, span := t.span, drawn := t.drawn } ∧ RegsBut [R.SPAN_MEAS] s t) ∧
    (∀ p : Nat, s.span.pulseAt = some p → s.span.wordSeen = false → p + 160000 ≤ m →
      Answers (.spanWordTimeout m) s fun t => t.fld R.SPAN_STATUS F.SPAN_STATUS.WORD_ERR = 1 ∧ t.lastRaised.map (·.status) = some St.SPAN_WORD ∧
        t = { s0 with regs := t.regs, span := t.span, faults := t.faults, drawn := t.drawn } ∧ RegsBut [R.SPAN_MEAS, R.SPAN_STATUS] s t) ∧
    (∀ l : Level, s.span.mainsLevel ≠ l →
      exec (.mainsRefEdge m l) s = .next { s0 with span := { s0.span with mainsLevel := l, mainsEdgeAt := some (m, s0.spanNow) } }) ∧
    (∀ (e : Nat) (v : Word), s.span.mainsEdgeAt = some (e, v) → s0.mainsDue = true → s.span.mainsLastAt = none → s.onMains = false →
      Answers (.mainsEdgeAccept m) s fun t => t.reg R.SPAN_CAP_MAINS = v ∧ t.span.mainsLastAt = some e ∧ t.mem = s.mem ∧ t.sync = s.sync ∧ t.cxs = s.cxs)

/-- A LOCKED unit without a reference event for its limit enters HOLDOVER with REF_LOST and an INFO record SPAN_REF_LOST, its value going on; HOLD_SPANS reaching HOLDOVER_MAX makes it FREE with VALID 0 and a DEFERRED record SPAN_UNLOCKED; a boundary takes in the span that ended, its average and its count, once. (02_span_time.md, 18_power.md, R28, R37, R39, R483) -/
def Obligations.SpanTimeouts : Prop :=
  ∀ (s : State) (m : Moment), s.On → s.now ≤ m →
    let s0 := s.atTime m
    (∀ a : Nat, s.span.refAcceptedAt = some a → s.spanEnabled = true → s.spanSource ≠ 0 → a + s.refLimit ≤ m → s.spanState = SpanS.LOCKED →
      Answers (.refTimeout m) s fun t => t.spanState = SpanS.HOLDOVER ∧ t.fld R.SPAN_STATUS F.SPAN_STATUS.REF_LOST = 1 ∧
        t.spanValid = s.spanValid ∧ t.spanNow = s0.spanNow ∧ t.lastRaised.map (·.status) = some St.SPAN_REF_LOST ∧
        t = { s0 with regs := t.regs, span := t.span, faults := t.faults } ∧ RegsBut [R.SPAN_STATUS] s t) ∧
    (s.spanState = SpanS.HOLDOVER → s.fld R.SPAN_LIMITS F.SPAN_LIMITS.HOLDOVER_MAX ≠ 0 →
      s.fld R.SPAN_LIMITS F.SPAN_LIMITS.HOLDOVER_MAX ≤ (s0.spanNow - s.span.holdBase).toNat / 16777216 →
      Answers (.holdoverExpiry m) s fun t => t.spanState = SpanS.FREE ∧ t.spanValid = false ∧ t.spanNow = s0.spanNow ∧
        t.lastRaised.map (·.status) = some St.SPAN_UNLOCKED ∧ t.lastRaised.map (·.sev) = some Sev.DEFERRED ∧ RegsBut [R.SPAN_STATUS] s t) ∧
    (∀ x : SpanSample, (s0.spanNow).toNat / 16777216 ≠ s.span.lastBoundary → s.fabState = FabS.OFF → s.colo.loaded = false → x.avgW < 65536 →
      Answers (.spanBoundary m x) s fun t => t.span.lastBoundary = s0.spanNow.toNat / 16777216 ∧ t.span.exportNoted = [] ∧
        t.fld R.LS_STATUS F.LS_STATUS.LAST_AVG_W = x.avgW ∧ t.mem = s.mem ∧ t.sync = s.sync ∧ t.cxs = s.cxs)

/-- A record that reaches a queue with room is appended with the next SEQ, one more than the last; at a full queue a record not CRITICAL and at or below the lowest severity is dropped, any other replaces the oldest of the lowest severity; every drop counts in FQ_DROPPED, sets OVF and counts in the colophon, and the record is offered to the host all the same. (R511) -/
def Obligations.FaultQueueAccept : Prop :=
  ∀ (s : State) (r : FaultRec) (rest : List FaultRec), s.On → pickRaised s.faults.raised = some (r, rest) → r.sev ≤ 4 →
    let q := s.faults.queue
    let r' := { r with seq := s.faults.nextSeq }
    (q.length < 4096 → Answers .faultRecordAccept s fun t => t.faults.queue = q ++ [r'] ∧ t.faults.nextSeq = (s.faults.nextSeq + 1) % 2 ^ 48 ∧
      t = { s with regs := t.regs, faults := t.faults, colo := t.colo }) ∧
    (4096 ≤ q.length → Answers .faultRecordAccept s fun t =>
      t.faults.queue = (if r.sev ≠ Sev.CRITICAL ∧ r.sev ≤ minSev q then q else dropOldest (minSev q) q ++ [r']) ∧
      t.fld R.FQ_DROPPED F.CTR.COUNT = (s.fld R.FQ_DROPPED F.CTR.COUNT + 1) % 2 ^ 48 ∧ t.fld R.FQ_STATUS F.FQ_STATUS.OVF = 1 ∧
      (t.reg (R.COLO_LIFE 11)).toNat = min (2 ^ 64 - 1) ((s.reg (R.COLO_LIFE 11)).toNat + 1) ∧
      (t.reg (R.COLO_LIFE (6 + r.sev))).toNat = min (2 ^ 64 - 1) ((s.reg (R.COLO_LIFE (6 + r.sev))).toNat + 1) ∧
      ((eventLog r.sev, r') ∈ t.faults.hostLogs ∨ eventLog r.sev ∈ t.faults.hostOvf) ∧
      t = { s with regs := t.regs, faults := t.faults, colo := t.colo })

/-- A write of FQ_POP removes the head if the head carries the SEQ written; otherwise it removes nothing and sets POP_MISS. Nothing else changes. (R514) -/
def Obligations.FaultQueuePop : Prop :=
  ∀ (s : State) (w : RegW) (v : Word), s.On → s.Writes w R.FQ_POP v →
    (∀ (r : FaultRec) (rest : List FaultRec), s.faults.queue = r :: rest → r.seq = v.get 47 0 →
      Answers (.fqPop w) s fun t => t.faults = { s.faults with queue := rest } ∧ t.fld R.FQ_STATUS F.FQ_STATUS.POP_MISS = s.fld R.FQ_STATUS F.FQ_STATUS.POP_MISS ∧
        t = { s with regs := t.regs, faults := t.faults } ∧ RegsBut [R.FQ_STATUS] s t) ∧
    ((∀ r ∈ s.faults.queue.head?, r.seq ≠ v.get 47 0) →
      Answers (.fqPop w) s fun t => t.faults = s.faults ∧ t.fld R.FQ_STATUS F.FQ_STATUS.POP_MISS = 1 ∧
        t = { s with regs := t.regs } ∧ RegsBut [R.FQ_STATUS] s t)

/-- TAKE latches every counter and the span time of the latch. CHECKPOINT, CLOSE and the due checkpoint timer write a checkpoint to the bank whose turn it is and leave the other; a write that fails leaves both and sets WRITE_FAIL with a DEFERRED record COLO_WRITE_FAIL; after a security-processor failure none is written. (19_faults.md, 20_binding.md, R517, R522, R528, R549) -/
def Obligations.SnapshotAndCheckpoints : Prop :=
  ∀ (s : State) (w : RegW) (v : Word), s.On →
    let wrote (u t : State) (closing : Bool) : Prop :=
      (u.colo.nextBank = 0 → t.colo.nextBank = 1 ∧ t.colo.bank1 = u.colo.bank1 ∧ t.colo.bank0.map (·.closing) = some closing) ∧
      (u.colo.nextBank ≠ 0 → t.colo.nextBank = 0 ∧ t.colo.bank0 = u.colo.bank0 ∧ t.colo.bank1.map (·.closing) = some closing) ∧
      t = { u with regs := t.regs, colo := t.colo, faults := t.faults }
    let failed (u t : State) : Prop :=
      t.colo.bank0 = u.colo.bank0 ∧ t.colo.bank1 = u.colo.bank1 ∧ t.fld R.COLO_STATUS F.COLO_STATUS.WRITE_FAIL = 1 ∧
      t.lastRaised.map (·.status) = some St.COLO_WRITE_FAIL ∧ t = { u with regs := t.regs, colo := t.colo, faults := t.faults }
    (s.Writes w R.CNT_SNAP_CTL v → v.bit 0 = true → s.trAccrue.regs = s.regs →
      Answers (.take w) s fun t => t.reg R.CNT_SNAP_AT = s.spanNow ∧ (∀ o, isCounter o = true → Sparse.get 0 o t.faults.snap = s.reg o) ∧
        RegsBut [R.CNT_SNAP_AT] s t) ∧
    (s.bind.spFailed = false → s.Writes w R.COLO_CTL v → v.bit 0 = true →
      Answers (.checkpoint w false) s (fun t => wrote s t false) ∧ Answers (.checkpoint w true) s (failed s)) ∧
    (s.bind.spFailed = false → s.Writes w R.COLO_CTL v → v.bit 1 = true →
      Answers (.close w false) s (fun t => wrote s t true ∧ t.colo.closed = true) ∧ Answers (.close w true) s (failed s)) ∧
    (∀ m : Moment, s.bind.spFailed = false → (s.atTime m).coloPeriodDue = true →
      Answers (.coloCheckpointTimer m false) s (fun t => wrote (s.atTime m) t false ∧ t.colo.lastAt = (s.atTime m).now)) ∧
    (s.bind.spFailed = true → s.Writes w R.COLO_CTL v → exec (.checkpoint w false) s = .next s ∧ exec (.close w false) s = .next s)

/-- A write of CX_CFG with ENABLE to a context in OFF starts it in READY at START_SLOT with nothing issued, if its CX_ATP.MODE is 10 and START_SLOT lies in the queue; otherwise the context stays OFF with one INFO record CX_START_REFUSED. Outside OFF such a write changes only FENCE_STALL and PRIO, and one that would change PART is reported with CX_CFG_BUSY. CX_ATP takes a value whose MODE is 10 and no other. A doorbell, or the reread 1 µs after a context found its slot empty, makes an EMPTY context READY. (03_launch.md, R62, R87, R88, R91) -/
def Obligations.ContextStart : Prop :=
  ∀ (s : State) (w : RegW) (v : Word) (d : Die) (c : Cx), s.On →
    let o := R.CX_CFG d c
    (s.Writes w o v → s.cxState d c = CxS.OFF → v.bit 0 = true → 6 ≤ v.get 28 24 → v.get 28 24 ≤ 16 → v.bit 22 = false →
      (s.fld (R.CX_ATP d c) F.CX_ATP.MODE = 10 → v.get 47 32 < 2 ^ v.get 28 24 →
        Answers (.cxCfgWrite w d c) s fun t => t.cxState d c = CxS.READY ∧ t.fld o F.CX_CFG.ENABLE = 1 ∧ t.cxPart d c = v.get 7 4 ∧
          t.qsize d c = 2 ^ v.get 28 24 ∧ t.headAt d c = v.get 47 32 ∧ t.issueAt d c = v.get 47 32 ∧
          t.cx d c = { ({} : Ctx) with loss := (s.cx d c).loss, waitSince := s.now } ∧
          t = { s with regs := t.regs, cxs := t.cxs } ∧ CxBut d c s t ∧ RegsBut [o, R.CX_HEAD d c, R.CX_STATE d c] s t) ∧
      (s.fld (R.CX_ATP d c) F.CX_ATP.MODE ≠ 10 ∨ 2 ^ v.get 28 24 ≤ v.get 47 32 →
        Answers (.cxCfgWrite w d c) s fun t => t.cxState d c = CxS.OFF ∧ t.fld o F.CX_CFG.ENABLE = s.fld o F.CX_CFG.ENABLE ∧
          t.lastRaised.map (·.status) = some St.CX_START_REFUSED ∧ t = { s with regs := t.regs, faults := t.faults } ∧ RegsBut [o] s t)) ∧
    (s.Writes w o v → s.cxState d c ≠ CxS.OFF →
      Answers (.cxCfgWrite w d c) s fun t => t.fld o F.CX_CFG.ENABLE = s.fld o F.CX_CFG.ENABLE ∧ t.cxPart d c = s.cxPart d c ∧
        t.fld o F.CX_CFG.DB_Q = s.fld o F.CX_CFG.DB_Q ∧ t.fld o F.CX_CFG.DB_EN = s.fld o F.CX_CFG.DB_EN ∧ t.qsize d c = s.qsize d c ∧
        t.fld o F.CX_CFG.START_SLOT = s.fld o F.CX_CFG.START_SLOT ∧ t.fld o F.CX_CFG.PRIO = v.get 3 2 ∧
        t.fld o F.CX_CFG.FENCE_STALL = v.get 1 1 ∧ (v.get 7 4 ≠ s.cxPart d c → t.lastRaised.map (·.status) = some St.CX_CFG_BUSY) ∧
        t = { s with regs := t.regs, faults := t.faults } ∧ RegsBut [o] s t) ∧
    (s.Writes w (R.CX_ATP d c) v →
      (v.get 63 60 = 10 → exec (.cxAtpWrite w d c) s = .next (s.setReg (R.CX_ATP d c) v)) ∧
      (v.get 63 60 ≠ 10 → exec (.cxAtpWrite w d c) s = .next s)) ∧
    (s.Writes w (R.CX_DOORBELL d c) v →
      (v.bit 0 = true → s.cxState d c = CxS.EMPTY →
        Answers (.cxDoorbell w d c) s fun t => t.cxState d c = CxS.READY ∧ t.cx d c = { s.cx d c with cur := none, waitSince := s.now } ∧
          t = { s with regs := t.regs, cxs := t.cxs } ∧ CxBut d c s t ∧ RegsBut [R.CX_STATE d c] s t) ∧
      (v.bit 0 = false ∨ s.cxState d c ≠ CxS.EMPTY → exec (.cxDoorbell w d c) s = .next s)) ∧
    (∀ m : Moment, s.now ≤ m → s.cxState d c = CxS.EMPTY →
      ((s.cx d c).waitSince + 16000 ≤ m →
        Answers (.emptyReread m d c) s fun t => t.cxState d c = CxS.READY ∧ t.cx d c = { s.cx d c with cur := none, waitSince := m } ∧
          t = { s.atTime m with regs := t.regs, cxs := t.cxs } ∧ CxBut d c s t ∧ RegsBut [R.CX_STATE d c] s t) ∧
      (m < (s.cx d c).waitSince + 16000 → exec (.emptyReread m d c) s = .next (s.atTime m)))

/-- A READY context with nothing read reads the slot at ISSUE: VER 0 makes it EMPTY; a command is taken and waits at ISSUE; a read that faults stops it with the status and the address; a slot already issued, behind which ISSUE was returned, is passed over. A stopped, waiting or full/empty context reads nothing. (03_launch.md, R59, R68, R86, R580) -/
def Obligations.SlotRead : Prop :=
  ∀ (s u : State) (d : Die) (c : Cx) (w0 w1 w2 w3 : Word), s.On →
    let ready := s.cxState d c = CxS.READY ∧ (s.cx d c).cur = none ∧ (s.cx d c).resetting = none ∧ (s.cx d c).inFe = false
    let slot := s.issueAt d c
    (ready → (s.cx d c).flight slot = none → s.readSlot d c slot = (.words w0 w1 w2 w3, u) →
      (w0.get 3 0 = 0 → Answers (.slotRead d c) s fun t => t.cxState d c = CxS.EMPTY ∧ t.cx d c = { u.cx d c with waitSince := u.now } ∧
        t = { u with regs := t.regs, cxs := t.cxs } ∧ CxBut d c u t ∧ RegsBut [R.CX_STATE d c] u t) ∧
      (w0.get 3 0 ≠ 0 → w0.bit 18 = false → (u.cx d c).skipGroup = false →
        exec (.slotRead d c) s = .next (u.setCx d c { u.cx d c with cur := some ⟨w0, w1, w2, w3, 0, 0, 0, 0⟩, waitSince := u.now }))) ∧
    (∀ st va : Nat, ready → (s.cx d c).flight slot = none → s.readSlot d c slot = (.fault st va, u) → st < 256 → slot < 65536 → va < 2 ^ 64 →
      Answers (.slotRead d c) s fun t => t.fld (R.CX_FAULT d c) F.CX_FAULT.STATUS = st ∧ t.fld (R.CX_FAULT d c) F.CX_FAULT.SLOT = slot ∧
        t.fld (R.CX_FAULT d c) F.CX_FAULT.DONE = 0 ∧ (t.reg (R.CX_FAULT_ADDR d c)).toNat = va ∧ t.cxStopped d c = true ∧
        t.lastRaised.map (·.status) = some st ∧ t = { u with regs := t.regs, faults := t.faults } ∧
        RegsBut [R.CX_STATE d c, R.CX_FAULT d c, R.CX_FAULT_ADDR d c] u t) ∧
    (∀ f : Flight, ready → (s.cx d c).flight slot = some f → 0 < (s.cx d c).back → f.cmd.isCtl Op.HALT = false → s.qsize d c ≤ 65536 →
      Answers (.slotRead d c) s fun t => t.issueAt d c = (slot + f.cmd.slots) % s.qsize d c ∧ (t.cx d c).flights = (s.cx d c).flights ∧
        t = { s with regs := t.regs, cxs := t.cxs } ∧ CxBut d c s t ∧ RegsBut [R.CX_HEAD d c] s t) ∧
    (¬ ready → exec (.slotRead d c) s = .next s)

/-- A well-formed command with no gate, stamp or epoch, of a READY context with fewer than eight in flight, issues: a control command at once, an engine command when its engine is in service and its context wins it; it becomes the flight of its slot and ISSUE moves past its slots. A malformed command stops its context with its status and does not issue. (03_launch.md, R67, R70, R73, R81, R83) -/
def Obligations.CommandIssue : Prop :=
  ∀ (s : State) (d : Die) (c : Cx) (k : Cmd), s.On → (s.cx d c).cur = some k → s.cxState d c = CxS.READY → (s.cx d c).resetting = none →
    let slot := s.issueAt d c
    let issued (t : State) : Prop :=
      (∃ f, (t.cx d c).flight slot = some f ∧ f.cmd = k ∧ f.phase = .issued ∧ f.id = s.mem.nextId ∧ f.order = s.issues) ∧
      (t.cx d c).cur = none ∧ t.issueAt d c = (slot + k.slots) % s.qsize d c ∧ t.headAt d c = s.headAt d c ∧ t.issues = s.issues + 1 ∧
      t.mem = { s.mem with nextId := s.mem.nextId + 1 } ∧ t.sync.quires = s.sync.quires ∧ t.cores = s.cores ∧ t.firn = s.firn
    (s.malformed d c k = none → k.epochEn = false → (s.cx d c).badGroup k = false → k.gateEn = false → k.stampEn = false →
      (s.cx d c).inflight < 8 → s.qsize d c ≤ 65536 → (∀ w ∈ s.sync.waiters, w.of d c slot = false) →
      (k.kind = 3 → Answers (.commandIssue d c) s issued) ∧
      (k.kind ≠ 3 → s.engIn d k.engine = true → s.power.doze = [] →
        (s.setCx d c { s.cx d c with inArb := true }).wins d c k = true → Answers (.commandIssue d c) s issued)) ∧
    (∀ st : Nat, s.malformed d c k = some st → (s.cx d c).groupUnit = none →
      Answers (.commandIssue d c) s fun t => t.cxState d c = CxS.STALLED ∧ t.fld (R.CX_FAULT d c) F.CX_FAULT.STATUS = st ∧
        t.fld (R.CX_FAULT d c) F.CX_FAULT.SLOT = slot ∧ t.fld (R.CX_FAULT d c) F.CX_FAULT.DONE = 0 ∧
        t.lastRaised.map (fun r => (r.status, r.sev, r.cx, r.cxDie)) = some (st, Sev.FATAL_UNIT, c.val, d.val) ∧
        t.mem.cells = s.mem.cells ∧ t.issues = s.issues ∧ t.firn = s.firn)

/-- A context in WAIT_STAMP is released when span time is usable and has reached its stamp, and not before; at PREARM before the stamp an engine command reserves its engine. A polled gate found true 1 µs after the last reading makes its context READY with its gate held; found false, it is polled again. (02_span_time.md, 03_launch.md, R41, R42, R72) -/
def Obligations.StampsAndPolls : Prop :=
  ∀ (s : State) (m : Moment) (d : Die) (c : Cx) (k : Cmd), s.On → s.now ≤ m → (s.cx d c).cur = some k →
    let s0 := s.atTime m
    (s.cxState d c = CxS.WAIT_STAMP → k.stampEn = true → s.flag (R.FAB_PACE k.part) F.FAB_PACE.EN = false →
      (stampReached k.x1 s0.spanNow = true → s.spanUsable = true → s.frozen k.part = false →
        Answers (.stampReached m d c) s fun t => t.cxState d c = CxS.READY ∧ t = { s0 with regs := t.regs } ∧ RegsBut [R.CX_STATE d c] s t) ∧
      (stampReached k.x1 s0.spanNow = false ∨ s.spanUsable = false ∨ s.frozen k.part = true → exec (.stampReached m d c) s = .next s0) ∧
      (k.kind ≠ 3 → (k.x1 - s0.spanNow).toInt.toNat * s.span.len / 16777216 ≤ s.fld R.SPAN_LIMITS F.SPAN_LIMITS.PREARM * 160 →
        exec (.prearmReached m d c) s = .next (s0.setCx d c { s.cx d c with reserved := true })) ∧
      (s.fld R.SPAN_LIMITS F.SPAN_LIMITS.PREARM * 160 < (k.x1 - s0.spanNow).toInt.toNat * s.span.len / 16777216 →
        exec (.prearmReached m d c) s = .next s0)) ∧
    (s.cxState d c = CxS.WAIT_GATE → (s.cx d c).polled = true → (s.cx d c).waitSince + 16000 ≤ m → k.gateCond < 2 →
      (∀ f ∈ (s.cx d c).flights, f.polledAt = none) →
      ((s.quire k.gateQ).gateTrue k.gateCond k.gateVal = true →
        Answers (.gatePoll m d c) s fun t => t.cxState d c = CxS.READY ∧ (t.cx d c).gateHeld = true ∧ (t.cx d c).polled = false ∧
          (t.cx d c).consumeHeld = false ∧ t = { s0 with regs := t.regs, cxs := t.cxs } ∧ CxBut d c s t ∧ RegsBut [R.CX_STATE d c] s t) ∧
      ((s.quire k.gateQ).gateTrue k.gateCond k.gateVal = false →
        Answers (.gatePoll m d c) s fun t => t.cx d c = { s.cx d c with waitSince := m } ∧ t = { s0 with cxs := t.cxs } ∧ CxBut d c s t))

/-- A command whose work has ended completes unless its gate, its firn or its unreceipted writes under FENCED hold it, and its signal leaves carrying the writes that go before it. The completed command at HEAD retires: HEAD moves past its slots. A faulted command stops its context, WAIT_FAULT for a translation fault and STALLED else, with CX_FAULT, CX_FAULT_ADDR and one record, and ISSUE returns to it. (03_launch.md, R63, R74, R75, R83, R241) -/
def Obligations.CommandCompletes : Prop :=
  ∀ (s : State) (d : Die) (c : Cx) (slot : Nat) (f : Flight), s.On → (s.cx d c).flight slot = some f → (s.cx d c).resetting = none →
    (f.phase = .worked → f.cmd.kind ≠ 2 → (s.cx d c).gateDone f = true → s.cmdFirnHeld f = false → f.cmd.isSeal = false →
      f.cmd.isCtl Op.DFENCE = false →
      ((f.cmd.fenced = false ∨ (s.cmdWrites f = false ∧ f.lostWrite = false)) →
        (f.cmd.signalEn = false → Answers (.commandComplete d c slot) s fun t =>
          (t.cx d c).flight slot = some { f with phase := .complete, sigSent := true, tile := none } ∧ t.mem = s.mem ∧ t.sync = s.sync ∧
          t = { s with regs := t.regs, cxs := t.cxs, eng := t.eng } ∧ CxBut d c s t) ∧
        (f.cmd.signalEn = true → f.sigSent = false → f.cmd.signalRemote = false → f.cmd.signalOp ≠ 2 → Answers (.commandComplete d c slot) s fun t =>
          (t.cx d c).flight slot = some { f with phase := .complete, sigSent := true, tile := none } ∧
          t.sync.qsigs = s.sync.qsigs ++ [{ id := s.mem.nextId, src := .cx d c, q := f.cmd.signalQ, op := QOp.ofCode f.cmd.signalOp, arg := f.cmd.signalVal, slot := slot, part := f.cmd.part, before := s.unaccepted (.cx d c) }] ∧
          t.mem = { s.mem with nextId := s.mem.nextId + 1 } ∧ CxBut d c s t)) ∧
      (f.cmd.fenced = true → s.cmdWrites f = true → exec (.commandComplete d c slot) s = .next s)) ∧
    (f.phase ≠ .worked → exec (.commandComplete d c slot) s = .next s) ∧
    (∀ (u : State) (pa : Nat), slot = s.headAt d c → f.phase = .complete → f.inGroup = false → f.ext = false → s.signalOut d c slot = false →
      s.cxState d c ≠ CxS.OFF → s.qsize d c ≤ 65536 → s.clearSlot d c slot = (.ok pa, u) →
      Answers (.commandRetire d c) s fun t => t.headAt d c = (slot + 1) % s.qsize d c ∧ (t.cx d c).flight slot = none ∧ t.mem = u.mem ∧ t.firn = u.firn) ∧
    ((f.phase ≠ .complete ∨ f.inGroup = true) → slot = s.headAt d c → exec (.commandRetire d c) s = .next s) ∧
    (f.phase = .faulted → s.cxStopped d c = false → s.cxState d c ≠ CxS.OFF → f.inGroup = false → f.fault < 256 → slot < 65536 →
      f.faultAddr < 2 ^ 64 → f.cmd.kind < 4 → f.cmd.unit < 16 →
      Answers (.commandFault d c slot) s fun t =>
        t.cxState d c = (if f.fault = St.PAGE_MISSING ∨ f.fault = St.PAGE_DENIED ∨ f.fault = St.PAGE_TOO_SMALL then CxS.WAIT_FAULT else CxS.STALLED) ∧
        t.fld (R.CX_FAULT d c) F.CX_FAULT.STATUS = f.fault ∧ t.fld (R.CX_FAULT d c) F.CX_FAULT.SLOT = slot ∧
        t.fld (R.CX_FAULT d c) F.CX_FAULT.KIND = f.cmd.kind ∧ t.fld (R.CX_FAULT d c) F.CX_FAULT.UNIT = f.cmd.unit ∧
        t.fld (R.CX_FAULT d c) F.CX_FAULT.GROUP_ABANDONED = 0 ∧ t.fld (R.CX_FAULT d c) F.CX_FAULT.DONE = 0 ∧
        (t.reg (R.CX_FAULT_ADDR d c)).toNat = f.faultAddr ∧ t.issueAt d c = slot ∧ (t.cx d c).cur = none ∧
        t.lastRaised.map (fun r => (r.status, r.detail, r.cx, r.cxDie)) = some (f.fault, f.code, c.val, d.val) ∧ t.mem.cells = s.mem.cells)

/-- RESUME of a stopped context clears CX_FAULT and makes it READY; SKIP of a STALLED context that is not DONE retires the failed command without its signal; DRAIN of a context with nothing issued, and RESET of one with nothing issued or 20 µs later in any case, leave it OFF with ENABLE 0. An action its state does not allow, or a write with more than one bit, changes nothing and places CX_CTL_REFUSED. (03_launch.md, R84, R93) -/
def Obligations.ContextControl : Prop :=
  ∀ (s : State) (w : RegW) (v : Word) (d : Die) (c : Cx), s.On →
    let refused (t : State) : Prop := t.lastRaised.map (fun r => (r.status, r.sev)) = some (St.CX_CTL_REFUSED, Sev.INFO) ∧
      t = { s with faults := t.faults }
    let off (t : State) : Prop := t.cxState d c = CxS.OFF ∧ t.fld (R.CX_CFG d c) F.CX_CFG.ENABLE = 0
    (s.Writes w (R.CX_CTL d c) v → v.get 3 0 ∉ [0, 1, 2, 4, 8] →
      Answers (.resume w d c) s refused ∧ Answers (.skip w d c) s refused ∧ Answers (.drain w d c) s refused ∧ Answers (.reset w d c) s refused) ∧
    (s.Writes w (R.CX_CTL d c) v → v.get 3 0 = 1 →
      (s.cxStopped d c = true → (s.cx d c).stallNext = none → (s.cx d c).drainLater = false →
        Answers (.resume w d c) s fun t => t.cxState d c = CxS.READY ∧ t.reg (R.CX_FAULT d c) = 0 ∧ t.reg (R.CX_FAULT_ADDR d c) = 0 ∧
          (t.cx d c).cur = none ∧ t = { s with regs := t.regs, cxs := t.cxs, issues := t.issues } ∧ CxBut d c s t ∧
          RegsBut [R.CX_STATE d c, R.CX_FAULT d c, R.CX_FAULT_ADDR d c, R.CX_HEAD d c] s t) ∧
      (s.cxStopped d c = false → Answers (.resume w d c) s refused)) ∧
    (s.Writes w (R.CX_CTL d c) v → v.get 3 0 = 2 →
      (∀ f : Flight, s.cxState d c = CxS.STALLED → s.flag (R.CX_FAULT d c) F.CX_FAULT.DONE = false →
        s.flag (R.CX_FAULT d c) F.CX_FAULT.GROUP_ABANDONED = false → (s.cx d c).flight (s.fld (R.CX_FAULT d c) F.CX_FAULT.SLOT) = some f →
        f.tile = none → (s.cx d c).stallNext = none → (s.cx d c).drainLater = false →
        Answers (.skip w d c) s fun t => t.cxState d c = CxS.READY ∧ t.reg (R.CX_FAULT d c) = 0 ∧
          (t.cx d c).flight f.slot = some { f with phase := .complete, sigSent := true, tile := none, inGroup := false } ∧
          t.mem = s.mem ∧ t.sync = s.sync ∧ CxBut d c s t) ∧
      (s.cxState d c ≠ CxS.STALLED → Answers (.skip w d c) s refused)) ∧
    (s.Writes w (R.CX_CTL d c) v → v.get 3 0 = 4 →
      (s.cxState d c = CxS.OFF → Answers (.drain w d c) s refused) ∧
      (s.cxState d c ∈ [CxS.EMPTY, CxS.READY, CxS.WAIT_STAMP] → (s.cx d c).resetting = none → (s.cx d c).groupUnit = none →
        (s.cx d c).consumeHeld = false →
        ((s.cx d c).flights = [] → Answers (.drain w d c) s off) ∧
        ((s.cx d c).flights ≠ [] → Answers (.drain w d c) s fun t => t.cxState d c = CxS.DRAINING ∧ (t.cx d c).cur = none ∧
          t.mem = s.mem ∧ CxBut d c s t))) ∧
    (s.Writes w (R.CX_CTL d c) v → v.get 3 0 = 8 → (s.cx d c).flights = [] →
      Answers (.reset w d c) s fun t => off t ∧ t.cx d c = {} ∧ t.reg (R.CX_FAULT d c) = 0 ∧ t.reg (R.CX_FAULT_ADDR d c) = 0 ∧ t.mem = s.mem) ∧
    (∀ (m : Moment) (z : Nat), s.now ≤ m → (s.cx d c).resetting = some z →
      (z + 320000 ≤ m → Answers (.cxResetTimeout m d c) s fun t => off t ∧ t.cx d c = {} ∧ t.mem = s.mem) ∧
      (m < z + 320000 → exec (.cxResetTimeout m d c) s = .next (s.atTime m)))

/-- An issued NOP ends at once; HALT once every earlier command of its context has completed; DFENCE once every write and signal it waits for has been receipted or lost; ACQ after dropping from its die's remote cache every bulk sector of its range and no coherent one; FLUSH once the writes it waits for into its range have been accepted or lost. A range whose translation faults faults the command. (03_launch.md, 12_ordering.md, R69, R349, R351, R352) -/
def Obligations.ControlCommands : Prop :=
  ∀ (s : State) (d : Die) (c : Cx) (f : Flight), s.On → (s.cx d c).flight f.slot = some f → f.cmd.kind = 3 →
    let ended (u t : State) : Prop := (t.cx d c).flights = (u.cx d c).flights.map (fun g => if g.slot = f.slot then { g with phase := .worked, held := none } else g) ∧
      CxBut d c u t
    (s.ctlFront d c Op.NOP = some f → Answers (.nop d c) s fun t => ended s t ∧ t = { s with cxs := t.cxs }) ∧
    (s.ctlFront d c Op.HALT = some f →
      ((∀ g ∈ (s.cx d c).flights.takeWhile (fun g => g.slot != f.slot), g.phase = .complete) →
        Answers (.halt d c) s fun t => ended s t ∧ t = { s with cxs := t.cxs }) ∧
      ((∃ g ∈ (s.cx d c).flights.takeWhile (fun g => g.slot != f.slot), g.phase ≠ .complete) → exec (.halt d c) s = .next s)) ∧
    (s.ctlFront d c Op.DFENCE = some f →
      ((∀ i ∈ f.waitIds, s.wr i = none ∧ ∀ g ∈ s.sync.qsigs, g.id ≠ i) → Answers (.dfence d c) s fun t => ended s t ∧ t = { s with cxs := t.cxs }) ∧
      ((∃ i ∈ f.waitIds, s.wr i ≠ none ∨ ∃ g ∈ s.sync.qsigs, g.id = i) → exec (.dfence d c) s = .next s)) ∧
    (∀ (u : State) (l : List (Nat × Nat)), s.ctlFront d c Op.ACQ = some f → (u.cx d c).flight f.slot = some f →
      State.mapRange d c 1026 (f.cmd.w2.get 56 0) (f.cmd.w3.get 39 0) s = (.ok l, u) →
      Answers (.acq d c) s fun t => ended u t ∧ t.mem.cells = u.mem.cells ∧ t.regs = u.regs ∧
        (∀ tag ∈ (t.rc d).tags, ∀ x ∈ tag.sectors, x.2.bulk = true → inPieces (tag.addr + 64 * x.1) l = false) ∧
        (∀ tag ∈ (u.rc d).tags, ∀ x ∈ tag.sectors, x.2.bulk = false → ∃ tag' ∈ (t.rc d).tags, tag'.addr = tag.addr ∧ x ∈ tag'.sectors)) ∧
    (∀ (u : State) (l : List (Nat × Nat)), s.ctlFront d c Op.FLUSH = some f → (u.cx d c).flight f.slot = some f →
      State.mapRange d c 1026 (f.cmd.w2.get 56 0) (f.cmd.w3.get 39 0) s = (.ok l, u) →
      ((∀ i ∈ f.waitIds, ∀ w, u.wr i = some w → w.stage = .accepted ∨ inPieces w.addr l = false) →
        Answers (.flush d c) s fun t => ended u t ∧ t = { u with cxs := t.cxs }) ∧
      ((∃ i ∈ f.waitIds, ∃ w, u.wr i = some w ∧ w.stage = .sent ∧ inPieces w.addr l = true) → exec (.flush d c) s = .next u)) ∧
    (∀ (u : State) (st va : Nat), s.ctlFront d c Op.FLUSH = some f → (u.cx d c).flight f.slot = some f →
      State.mapRange d c 1026 (f.cmd.w2.get 56 0) (f.cmd.w3.get 39 0) s = (.fault st va, u) →
      Answers (.flush d c) s fun t => (t.cx d c).flight f.slot = some { f with phase := .faulted, fault := st, faultAddr := va, code := 0, held := none } ∧
        t = { u with cxs := t.cxs } ∧ CxBut d c u t)

/-- SETTLE ends at once on an IDLE epoch, begins the settle of a LIVE one, ends with SETTLE_MELTED and an INFO record on a MELTED one, and waits on a SETTLING or MELTING one; MELT melts an IDLE or LIVE epoch, dropping every log entry of its instance, ends at once on a MELTED one, and waits otherwise. The flip makes every entry of the instance ice and begins a new instance in IDLE; the end of a melt leaves the epoch MELTED. (08_firn.md, R225, R226, R235, R239) -/
def Obligations.EpochCommands : Prop :=
  (∀ (s : State) (d : Die) (c : Cx) (f : Flight), s.On → (s.cx d c).flight f.slot = some f → f.phase = .issued → f.cmd.kind = 3 →
    let e := f.cmd.w2.get 7 0
    let i := s.epInst e
    let w : EpochWait := { epoch := e, die := d, cx := c, slot := f.slot, isMelt := false }
    let at_ (t : State) (p : Phase) : Prop := ∃ g, (t.cx d c).flight f.slot = some g ∧ g.phase = p
    (s.ctlFront d c Op.SETTLE = some f →
      (s.epState e = Ep.IDLE → Answers (.settle d c) s fun t => at_ t .worked ∧ t = { s with cxs := t.cxs } ∧ CxBut d c s t) ∧
      (s.epState e = Ep.LIVE → Answers (.settle d c) s fun t => at_ t .running ∧ t.epState e = Ep.SETTLING ∧ t.firn = { s.firn with acting := s.firn.acting ++ [w] } ∧
        t = { s with regs := t.regs, cxs := t.cxs, firn := t.firn } ∧ CxBut d c s t ∧ RegsBut [R.FIRN_EPOCH e] s t) ∧
      (s.epState e = Ep.MELTED → Answers (.settle d c) s fun t => at_ t .worked ∧ t.fld R.FIRN_STATUS F.FIRN_STATUS.SETTLE_MELTED = 1 ∧
        t.lastRaised.map (fun r => (r.status, r.sev)) = some (St.FIRN_SETTLE_MELTED, Sev.INFO) ∧
        t = { s with regs := t.regs, cxs := t.cxs, faults := t.faults } ∧ CxBut d c s t ∧ RegsBut [R.FIRN_STATUS] s t) ∧
      ((s.epState e = Ep.SETTLING ∨ s.epState e = Ep.MELTING) → Answers (.settle d c) s fun t => at_ t .running ∧
        t = { s with cxs := t.cxs, firn := { s.firn with waits := s.firn.waits ++ [w] } } ∧ CxBut d c s t)) ∧
    (s.ctlFront d c Op.MELT = some f →
      (s.epState e = Ep.MELTED → Answers (.melt d c) s fun t => at_ t .worked ∧ t = { s with cxs := t.cxs } ∧ CxBut d c s t) ∧
      ((s.epState e = Ep.SETTLING ∨ s.epState e = Ep.MELTING) → Answers (.melt d c) s fun t => at_ t .running ∧
        t = { s with cxs := t.cxs, firn := { s.firn with waits := s.firn.waits ++ [{ (w : EpochWait) with isMelt := true }] } } ∧ CxBut d c s t) ∧
      ((s.epState e = Ep.IDLE ∨ s.epState e = Ep.LIVE) → Answers (.melt d c) s fun t => t.epState e = Ep.MELTING ∧
        (∀ x ∈ t.firn.entries, x.ofInst e i = false) ∧ (∀ x ∈ s.firn.entries, x.ofInst e i = false → x ∈ t.firn.entries) ∧
        t.mem.cells = s.mem.cells))) ∧
  (∀ (s : State) (n : Fin 256), s.On → (∀ x ∈ s.firn.waits, x.epoch ≠ n) →
    (s.epState n = Ep.SETTLING →
      (s.firnArrived n (s.epInst n) = true → s.firnHeld n (s.epInst n) = false →
        Answers (.settleFlip n) s fun t => t.epState n = Ep.IDLE ∧ t.epInst n = s.epInst n + 1 ∧
          (∀ x ∈ s.firn.entries, x.ofInst n (s.epInst n) = true → { x with settled := true } ∈ t.firn.entries) ∧
          (∀ x ∈ t.firn.entries, x.ofInst n (s.epInst n) = false)) ∧
      ((s.firnArrived n (s.epInst n) = false ∨ s.firnHeld n (s.epInst n) = true) → exec (.settleFlip n) s = .next s)) ∧
    (s.epState n = Ep.MELTING → Answers (.meltComplete n) s fun t => t.epState n = Ep.MELTED ∧ t.mem = s.mem ∧ t.firn.entries = s.firn.entries) ∧
    (s.epState n ≠ Ep.MELTING → exec (.meltComplete n) s = .next s))

/-- FIRN_CTL.REARM returns a MELTED epoch to IDLE with the next instance and is refused with FIRN_CTL_REFUSED in the other states but IDLE; FIRN_CTL.MELT melts an IDLE or LIVE epoch and waits on a SETTLING one; both bits together are refused. FIRN_DDR does not change while an epoch is LIVE, SETTLING or MELTING, nor to a size above 64 GiB; FIRN_EPOCH_n.PART does not change while its epoch is LIVE, SETTLING or MELTING. (08_firn.md, R225, R226, R245, R247, R248) -/
def Obligations.FirnRegisters : Prop :=
  ∀ (s : State) (w : RegW) (v : Word), s.On →
    let e := v.get 7 0
    let told (st : Nat) (t : State) : Prop := t.lastRaised.map (fun r => (r.status, r.sev)) = some (st, Sev.INFO) ∧ t = { s with faults := t.faults }
    (s.Writes w R.FIRN_CTL v →
      (v.bit 8 = true → v.bit 9 = true → Answers (.firnCtlRearm w) s (told St.FIRN_CTL_REFUSED) ∧ Answers (.firnCtlMelt w) s (told St.FIRN_CTL_REFUSED)) ∧
      (v.bit 8 = true → v.bit 9 = false →
        (s.epState e = Ep.IDLE → exec (.firnCtlRearm w) s = .next s) ∧
        (s.epState e = Ep.MELTED → Answers (.firnCtlRearm w) s fun t => t.epState e = Ep.IDLE ∧ t.epInst e = s.epInst e + 1 ∧
          t.fld (R.FIRN_EPOCH e) F.FIRN_EPOCH.INSTANCE = (s.epInst e + 1) % 256 ∧
          t = { s with regs := t.regs, firn := { s.firn with insts := t.firn.insts } } ∧ RegsBut [R.FIRN_EPOCH e] s t) ∧
        (s.epState e ≠ Ep.IDLE → s.epState e ≠ Ep.MELTED → Answers (.firnCtlRearm w) s (told St.FIRN_CTL_REFUSED))) ∧
      (v.bit 8 = false → v.bit 9 = true →
        (s.epState e = Ep.SETTLING → Answers (.firnCtlMelt w) s fun t =>
          (∃ x, t = { s with firn := { s.firn with waits := s.firn.waits ++ [x] } } ∧ x.epoch = e ∧ x.isMelt = true)) ∧
        ((s.epState e = Ep.IDLE ∨ s.epState e = Ep.LIVE) → Answers (.firnCtlMelt w) s fun t => t.epState e = Ep.MELTING ∧
          (∀ x ∈ t.firn.entries, x.ofInst e (s.epInst e) = false) ∧ t.mem.cells = s.mem.cells))) ∧
    (s.Writes w R.FIRN_DDR v →
      (s.anyLive = true → Answers (.firnDdrWrite w) s (told St.FIRN_CFG_BUSY)) ∧
      (s.anyLive = false → 64 < v.get 22 16 → exec (.firnDdrWrite w) s = .next s) ∧
      (s.anyLive = false → v.get 22 16 ≤ 64 → Answers (.firnDdrWrite w) s fun t => t.fld R.FIRN_DDR F.FIRN_DDR.SIZE_GIB = v.get 22 16 ∧
        t = { s with regs := t.regs } ∧ RegsBut [R.FIRN_DDR] s t)) ∧
    (∀ n : Fin 256, s.Writes w (R.FIRN_EPOCH n) v →
      (s.epState n ∈ [Ep.LIVE, Ep.SETTLING, Ep.MELTING] → v.get 7 4 ≠ s.fld (R.FIRN_EPOCH n) F.FIRN_EPOCH.PART →
        Answers (.firnEpochWrite w n) s (told St.FIRN_CFG_BUSY)) ∧
      (s.epState n ∉ [Ep.LIVE, Ep.SETTLING, Ep.MELTING] → Answers (.firnEpochWrite w n) s fun t =>
        t.fld (R.FIRN_EPOCH n) F.FIRN_EPOCH.PART = v.get 7 4 ∧ t.epState n = s.epState n ∧ t = { s with regs := t.regs } ∧ RegsBut [R.FIRN_EPOCH n] s t))

/-- A firn write that reaches its log becomes, or joins, an entry of its instance and leaves memory as it is; one that finds its log full with no spill waits, counted once, and after FULL_WAIT_US stops its command with FIRN_FULL; one of a melting instance is dropped. Merging writes a settled sector into memory, frees its entries, and changes what no reader of ice sees there and no byte outside it. (08_firn.md, R229, R231, R237, R239, R243) -/
def Obligations.FirnWrites : Prop :=
  (∀ (s : State) (m : Moment) (w : Wr) (e i : Nat), s.On → s.now ≤ m → s.wr w.id = some w → w.firn = some (e, i) → w.stage = .sent →
    let r := s.region w.addr
    let s0 := s.atTime m
    let mine (x : FirnEnt) : Bool := x.ofInst e i && x.sector == w.addr
    (s.absent r = false → s.held r = false → s.wrFirst w = true → w.crc = none → ¬ (s.epInst e = i ∧ Ep.MELTING ≤ s.epState e) →
      (s.firn.entries.any mine = false → s.logFull r.log = false → Answers (.firnWrite m w.id) s fun t =>
        t.firn.entries = s.firn.entries ++ [{ log := r.log, sector := w.addr, epoch := e, inst := i, mask := w.mask, data := w.data, poison := w.poison }] ∧
        t.wr w.id = some { w with stage := .accepted, heldAt := none } ∧ t.mem = { s.mem with wrs := t.mem.wrs } ∧
        t = { s0 with regs := t.regs, firn := t.firn, mem := t.mem }) ∧
      (s.firn.entries.any mine = true → Answers (.firnWrite m w.id) s fun t =>
        t.firn.entries.length = s.firn.entries.length ∧ (∀ x ∈ s.firn.entries, mine x = false → x ∈ t.firn.entries) ∧
        (∀ x ∈ t.firn.entries, mine x = true → w.mask &&& x.mask = w.mask) ∧
        t.wr w.id = some { w with stage := .accepted, heldAt := none } ∧ t.mem = { s.mem with wrs := t.mem.wrs } ∧
        t = { s0 with regs := t.regs, firn := t.firn, mem := t.mem }) ∧
      (s.firn.entries.any mine = false → s.logFull r.log = true → s.flag R.FIRN_CFG F.FIRN_CFG.SPILL_EN = false → w.heldAt = none →
        Answers (.firnWrite m w.id) s fun t => t.wr w.id = some { w with heldAt := some m } ∧ t.firn = s.firn ∧
          t.fld R.FIRN_FULL_WAITS F.CTR.COUNT = (s.fld R.FIRN_FULL_WAITS F.CTR.COUNT + 1) % 2 ^ 48 ∧
          t.fld R.FIRN_STATUS F.FIRN_STATUS.FULL_SEEN = 1 ∧ t.mem = { s.mem with wrs := t.mem.wrs })) ∧
    (s.absent r = false → s.held r = false → s.wrFirst w = true → s.epInst e = i → Ep.MELTING ≤ s.epState e →
      Answers (.firnWrite m w.id) s fun t => t.wr w.id = none ∧ t.firn = s.firn ∧ t.mem.cells = s.mem.cells) ∧
    (∀ (h : Nat) (d : Die) (c : Cx) (f : Flight), w.heldAt = some h → w.src = .cx d c → (s.cx d c).flights.find? (fun g => g.id == w.cmd) = some f →
      (s.fld R.FIRN_CFG F.FIRN_CFG.FULL_WAIT_US ≠ 0 → h + s.fld R.FIRN_CFG F.FIRN_CFG.FULL_WAIT_US * 16000 ≤ m →
        Answers (.firnFullTimeout m w.id) s fun t => (∃ g, (t.cx d c).flight f.slot = some g ∧ g.phase = .faulted ∧ g.fault = St.FIRN_FULL) ∧
          (∀ v ∈ t.mem.wrs, v.cmd = w.cmd → v.stage = .accepted) ∧ (∀ v ∈ s.mem.wrs, v.cmd ≠ w.cmd → v ∈ t.mem.wrs) ∧
          t.mem.cells = s.mem.cells ∧ t.firn = s.firn ∧ CxBut d c s t) ∧
      ((s.fld R.FIRN_CFG F.FIRN_CFG.FULL_WAIT_US = 0 ∨ m < h + s.fld R.FIRN_CFG F.FIRN_CFG.FULL_WAIT_US * 16000) →
        exec (.firnFullTimeout m w.id) s = .next s0))) ∧
  (∀ (s : State) (n : Fin 21) (x : FirnEnt), s.On → s.firn.entries.find? (fun x => x.settled && x.log == n.val) = some x → s.held (s.region x.sector) = false → s.memOk →
      Answers (.firnMerge n) s fun t => t.ice x.sector = s.ice x.sector ∧ t.cells x.sector 64 = s.ice x.sector ∧ t.memOk ∧
        (∀ a, a < x.sector ∨ x.sector + 64 ≤ a → Memory.read a t.mem.cells = Memory.read a s.mem.cells) ∧
        (∀ y ∈ t.firn.entries, y.settled = true → y.sector ≠ x.sector) ∧
        t = { s with regs := t.regs, firn := t.firn, mem := { s.mem with cells := t.mem.cells, blocks := t.mem.blocks } })

/-- At its home WEF writes an empty word and makes it full, RFE reads a full word and empties it, RFF reads a full word and leaves it full, PURGE empties a word; an operation that finds its word in the wrong state, or that no full/empty memory holds, changes nothing. (13_quires.md, R387, R388) -/
def Obligations.FullEmptyAtHome : Prop :=
  ∀ (s : State) (pa : Nat) (v : Word), s.On → pa % 8 = 0 → s.feCheck pa = .ok → s.memOk →
    let k := (s.region pa).key pa
    (s.wordFull k = false → s.sync.waiters = [] →
      (Answers (.feOp .wef pa v) s fun t => t.wordFull k = true ∧ (∀ i < 8, Memory.read (k + i) t.mem.cells = BitVec.ofNat 8 (v.toNat >>> (8 * i)))) ∧
      exec (.feOp .rfe pa v) s = .next s ∧ exec (.feOp .rff pa v) s = .next s) ∧
    (s.wordFull k = true → s.sync.waiters = [] → s.dirOf (k / 64 * 64) = none →
      exec (.feOp .wef pa v) s = .next s ∧
      (Answers (.feOp .rfe pa v) s fun t => t.readData = wordAt (s.feWord k) 0 ∧ t.wordFull k = false ∧ t.mem.cells = s.mem.cells ∧
        t = { s with readData := t.readData, mem := { s.mem with blocks := t.mem.blocks } }) ∧
      exec (.feOp .rff pa v) s = .next { s with readData := wordAt (s.feWord k) 0 } ∧
      (Answers (.feOp .purge pa v) s fun t => t.wordFull k = false ∧ t = { s with mem := { s.mem with blocks := t.mem.blocks } })) ∧
    (∀ (q : Nat) (op : FeOp), (q % 8 ≠ 0 ∨ s.feCheck q ≠ .ok) → exec (.feOp op q v) s = .next s)

/-- Once its writes before it are accepted and its address is translated, a WEF on an empty word, an RFE or RFF on a full word and a PURGE end, the word's bit as the operation leaves it; a WEF, RFE or RFF on a word in the wrong state waits in WAIT_FE on a waiter record naming the word, and changes no memory; a word that is no full/empty word faults the command with PAGE_DENIED. (13_quires.md, R387, R388, R389) -/
def Obligations.FullEmptyCommands : Prop :=
  ∀ (s u : State) (d : Die) (c : Cx) (f : Flight) (pa : Nat), s.On → (u.cx d c).flight f.slot = some f → f.cmd.kind = 3 → s.allAccepted f.waitIds = true →
    (∀ w ∈ s.sync.waiters, w.of d c f.slot = false) → (s.cx d c).polled = false → u.sync.waiters = [] → u.cxState d c = CxS.READY →
    let k := (u.region pa).key pa
    let ended (t : State) : Prop := ∃ g, (t.cx d c).flight f.slot = some g ∧ g.phase = .worked
    let waits (op : FeOp) (t : State) : Prop := t.cxState d c = CxS.WAIT_FE ∧
      (∃ w ∈ t.sync.waiters, w.kind = .fe k op ∧ w.die = d ∧ w.cx = c ∧ w.slot = f.slot) ∧ t.mem.cells = u.mem.cells ∧ t.wordFull k = u.wordFull k
    let denied (t : State) : Prop := (∃ g, (t.cx d c).flight f.slot = some g ∧ g.phase = .faulted ∧ g.fault = St.PAGE_DENIED) ∧ t.mem = u.mem
    let reached (op : Nat) (wr : Bool) : Prop := s.ctlFront d c op = some f ∧ f.cmd.op = op ∧
      s.translate d c (queueStream c) (f.cmd.w2.get 56 0) wr = (.ok pa, u)
    (reached Op.WEF true → u.feCheck pa = .ok →
      (u.wordFull k = false → Answers (.wef d c) s fun t => ended t ∧ t.wordFull k = true ∧ t.cxState d c = CxS.READY) ∧
      (u.wordFull k = true → Answers (.wef d c) s (waits .wef))) ∧
    (reached Op.PURGE true → u.feCheck pa = .ok → Answers (.purge d c) s fun t => ended t ∧ t.wordFull k = false ∧ t.mem.cells = u.mem.cells) ∧
    (∀ a : Nat, u.feDest d c f = (.ok, a, u) → u.feCheck pa = .ok →
      (reached Op.RFE true → (u.wordFull k = true → Answers (.rfe d c) s ended) ∧ (u.wordFull k = false → Answers (.rfe d c) s (waits .rfe))) ∧
      (reached Op.RFF false → (u.wordFull k = true → Answers (.rff d c) s ended) ∧ (u.wordFull k = false → Answers (.rff d c) s (waits .rff)))) ∧
    (u.feCheck pa = .fault St.PAGE_DENIED →
      (reached Op.WEF true → Answers (.wef d c) s denied) ∧ (reached Op.RFE true → Answers (.rfe d c) s denied) ∧
      (reached Op.RFF false → Answers (.rff d c) s denied) ∧ (reached Op.PURGE true → Answers (.purge d c) s denied))

/-- A refresh reading sets TEMP_C and doubles the refresh from 85 °C until every core die is below 80 °C. Patrol scrubbing of a stack in service counts what it finds: an uncorrectable sector becomes POISON with a DEFERRED record MEM_UE, its bytes as they were. A DDR5 channel that fails leaves service with a FATAL_UNIT record, and its addresses are absent. A write of HS_META_ADDR loads the record of a block of its stack, zeros for another. (09_memory.md, R258, R264, R265, R268, R276) -/
def Obligations.StackUpkeep : Prop :=
  ∀ (s : State) (j : Fin 20), s.On →
    (∀ hot : Nat, Answers (.refresh j hot) s fun t => t.fld (R.HS_STATUS j) F.HS_STATUS.TEMP_C = min 255 hot ∧
      t.fld (R.HS_STATUS j) F.HS_STATUS.REFRESH_2X = (if 85 ≤ hot then 1 else if hot < 80 then 0 else s.fld (R.HS_STATUS j) F.HS_STATUS.REFRESH_2X) ∧
      t.hsState j = s.hsState j ∧ t = { s with regs := t.regs } ∧ RegsBut [R.HS_STATUS j] s t) ∧
    (∀ (a : BitVec 56) (lin : Nat), a.toNat % 64 = 0 → s.region a.toNat = .hbm j lin → s.stackIn j = true →
      (s.flag (R.HS_CFG j) F.HS_CFG.SCRUB_EN = true → s.poisoned lin = false → Answers (.patrolScrub a (some .uncorrectable)) s fun t =>
        t.poisoned lin = true ∧ t.fld (R.HS_ECC_UE j) F.CTR.COUNT = (s.fld (R.HS_ECC_UE j) F.CTR.COUNT + 1) % 2 ^ 48 ∧
        t.lastRaised.map (fun r => (r.status, r.sev, r.addr)) = some (St.MEM_UE, Sev.DEFERRED, a.toNat) ∧ t.mem.cells = s.mem.cells) ∧
      (s.flag (R.HS_CFG j) F.HS_CFG.SCRUB_EN = true → Answers (.patrolScrub a (some .correctable)) s fun t =>
        t.fld (R.HS_ECC_CE j) F.CTR.COUNT = (s.fld (R.HS_ECC_CE j) F.CTR.COUNT + 1) % 2 ^ 48 ∧ t.mem = s.mem) ∧
      (s.flag (R.HS_CFG j) F.HS_CFG.SCRUB_EN = false → ∀ x, exec (.patrolScrub a x) s = .next s)) ∧
    (∀ n : Fin 12, s.flag (R.DC_STATUS n) F.DC_STATUS.IN_SERVICE = true → Answers (.ddrChannelFail n) s fun t =>
      t.fld (R.DC_STATUS n) F.DC_STATUS.IN_SERVICE = 0 ∧ (∀ off, t.ddrChannel off = n.val → t.absent (.ddr off) = true) ∧
      t.lastRaised.map (fun r => (r.status, r.sev, r.index)) = some (St.DDR_CHANNEL_FAIL, Sev.FATAL_UNIT, n.val) ∧
      t = { s with regs := t.regs, faults := t.faults } ∧ RegsBut [R.DC_STATUS n] s t) ∧
    (∀ (w : RegW) (v : Word), s.Writes w (R.HS_META_ADDR j) v → Answers (.hsMetaAddrWrite w j) s fun t =>
      (t.hsSt j).metaBlock = some (v.get 55 12 * 4096) ∧
      (v.get 55 12 * 4096 / 0x1000000000 = j.val → v.get 55 12 * 4096 % 0x1000000000 < 0xF00000000 → (t.hsSt j).metaRec = s.metaWords (v.get 55 12 * 4096)) ∧
      (v.get 55 12 * 4096 / 0x1000000000 ≠ j.val → (t.hsSt j).metaRec = List.replicate 16 0) ∧
      t = { s with regs := t.regs, hs := t.hs } ∧ RegsBut [R.HS_META_ADDR j] s t)

/-- A RETRAIN asked for, or an automatic one in its window or at twice the drift threshold, holds the accesses of its stack in RUN, or waits while another stack of its die holds; its end returns the stack to RUN, counted, with DRIFT_DUE clear, or with an HS_RETRAIN_FAIL record and DRIFT_DUE as it was. HS_CTL is refused with HS_CTL_REFUSED in a state that does not allow the action or with more than its bit. (09_memory.md, R269, R270, R275) -/
def Obligations.StackRetrains : Prop :=
  ∀ (s : State) (m : Moment) (j : Fin 20), s.On → s.now ≤ m →
    let s0 := s.atTime m
    let holds (t : State) : Prop := t.hsState j = HsS.RETRAIN ∧ (t.hsSt j).holdAt = m ∧ (∀ lin, t.held (.hbm j lin) = true) ∧
      t = { s0 with regs := t.regs, hs := t.hs } ∧ RegsBut [R.HS_STATUS j] s t
    let refused (t : State) : Prop := t.lastRaised.map (fun r => (r.status, r.sev)) = some (St.HS_CTL_REFUSED, Sev.INFO) ∧ t = { s0 with faults := t.faults }
    (∀ (w : RegW) (v : Word), s.Writes w (R.HS_CTL j) v → v.bit 0 = true →
      (v.get 3 0 = 1 → s.hsState j = HsS.RUN → s.neighbourHolds j = false → Answers (.retrain m w j) s holds) ∧
      (v.get 3 0 = 1 → s.hsState j = HsS.RUN → s.neighbourHolds j = true → exec (.retrain m w j) s = .next (s0.setHsSt j { s.hsSt j with retrainDue := true })) ∧
      ((v.get 3 0 ≠ 1 ∨ s.hsState j = HsS.OFFLINE ∨ s.hsState j = HsS.RECAL ∨ s.hsState j = HsS.RETRAIN) → Answers (.retrain m w j) s refused)) ∧
    (s.hsState j = HsS.RUN → s.flag (R.HS_CFG j) F.HS_CFG.AUTO_RETRAIN = true → s.neighbourHolds j = false →
      Answers (.driftThreshold m j true) s (fun t => holds t ∧ t.fld (R.HS_STATUS j) F.HS_STATUS.DRIFT_DUE = 1) ∧
      (s0.inWindow j = true → Answers (.driftThreshold m j false) s (fun t => holds t ∧ t.fld (R.HS_STATUS j) F.HS_STATUS.DRIFT_DUE = 1)) ∧
      (s0.inWindow j = true → s.flag (R.HS_STATUS j) F.HS_STATUS.DRIFT_DUE = true → Answers (.retrainWindow m j) s holds)) ∧
    ((s.flag (R.HS_CFG j) F.HS_CFG.AUTO_RETRAIN = false ∨ s0.inWindow j = false) →
      exec (.retrainWindow m j) s = .next s0 ∧
      (s.hsState j = HsS.RUN → exec (.driftThreshold m j false) s = .next (s0.setFld (R.HS_STATUS j) F.HS_STATUS.DRIFT_DUE 1))) ∧
    (s.hsState j = HsS.RETRAIN → (s.hsSt j).offAfter = false → (∀ k ∈ dieStacks (j / 5), (s.hsSt k).retrainDue = false) →
      ∀ failed : Bool, Answers (.retrainComplete m j failed) s fun t => t.hsState j = HsS.RUN ∧
        t.fld (R.HS_RETRAINS j) F.CTR.COUNT = (s.fld (R.HS_RETRAINS j) F.CTR.COUNT + 1) % 2 ^ 48 ∧
        min 0xFFFFFFFF ((m - (s.hsSt j).holdAt) / 16) ≤ t.fld (R.HS_HOLD_MAX j) F.HS_HOLD_MAX.MAX_NS ∧
        (failed = false → t.fld (R.HS_STATUS j) F.HS_STATUS.DRIFT_DUE = 0) ∧
        (failed = true → t.fld (R.HS_STATUS j) F.HS_STATUS.DRIFT_DUE = s.fld (R.HS_STATUS j) F.HS_STATUS.DRIFT_DUE ∧
          t.lastRaised.map (fun r => (r.status, r.sev)) = some (St.HS_RETRAIN_FAIL, Sev.DEFERRED)) ∧
        t.mem = s.mem ∧ t.hs = s.hs) ∧
    (s.hsState j ≠ HsS.RETRAIN → ∀ failed : Bool, exec (.retrainComplete m j failed) s = .next s0)

/-- RECAL and ONLINE act on a stack that is OFFLINE, and RECAL is refused on one in RUN; a full recalibration leaves the stack's whole memory reading zero with its block records at reset and no other stack's memory changed; ONLINE of a recalibrated stack puts it in service. OFFLINE takes a stack in RUN out, waits for a retrain to end; isolation fences the stack at once and after its drain timer ends with STACK_LOST. The memory of a stack out of service is absent. (09_memory.md, 11_coherence.md, R257, R271, R275, R329, R330, R331) -/
def Obligations.StackService : Prop :=
  ∀ (s : State) (j : Fin 20) (w : RegW) (v : Word), s.On →
    let gone (t : State) : Prop := t.hsState j = HsS.OFFLINE ∧ t.fld (R.HS_STATUS j) F.HS_STATUS.IN_SERVICE = 0 ∧
      t.fld (R.FIRN_LOG j) F.FIRN_LOG.ABSENT = 1 ∧ (∀ lin, t.absent (.hbm j lin) = true) ∧ (∀ p ∈ t.mem.coreLines ++ t.mem.hostLines, onStacks [j] p.1 = false)
    (s.Writes w (R.HS_CTL j) v → s.hsState j = HsS.OFFLINE →
      (v.get 3 0 = 2 → exec (.recal w j) s = .next (s.setHsState j HsS.RECAL)) ∧
      (v.get 3 0 = 8 → (s.hsSt j).recald = true → Answers (.hsOnline w j) s fun t => t.hsState j = HsS.RUN ∧
        t.fld (R.HS_STATUS j) F.HS_STATUS.IN_SERVICE = 1 ∧ t.fld (R.FIRN_LOG j) F.FIRN_LOG.ABSENT = 0 ∧
        t = { s with regs := t.regs, hs := t.hs } ∧ RegsBut [R.HS_STATUS j, R.FIRN_LOG j] s t) ∧
      (v.get 3 0 = 8 → (s.hsSt j).recald = false → Answers (.hsOnline w j) s fun t => t.hsState j = HsS.RECAL ∧ (t.hsSt j).onAfter = true ∧
        t = { s with regs := t.regs, hs := t.hs } ∧ RegsBut [R.HS_STATUS j] s t)) ∧
    (s.Writes w (R.HS_CTL j) v → s.hsState j = HsS.RUN →
      (v.get 3 0 = 2 → Answers (.recal w j) s fun t => t.lastRaised.map (·.status) = some St.HS_CTL_REFUSED ∧ t = { s with faults := t.faults }) ∧
      (v.get 3 0 = 4 → Answers (.hsOffline w j) s gone)) ∧
    (s.Writes w (R.HS_CTL j) v → s.hsState j = HsS.RETRAIN → v.get 3 0 = 4 →
      exec (.hsOffline w j) s = .next (s.setHsSt j { s.hsSt j with offAfter := true })) ∧
    (s.hsState j = HsS.RECAL → s.memOk → Answers (.recalComplete j) s fun t =>
      (∀ a, a / 0x1000000000 = j.val → Memory.read a t.mem.cells = 0 ∧ t.block a = {}) ∧
      (∀ a, a / 0x1000000000 ≠ j.val → Memory.read a t.mem.cells = Memory.read a s.mem.cells ∧ t.block a = s.block a) ∧ t.memOk ∧
      (if (s.hsSt j).onAfter then t.hsState j = HsS.RUN ∧ t.fld (R.HS_STATUS j) F.HS_STATUS.IN_SERVICE = 1
       else t.hsState j = HsS.OFFLINE ∧ (t.hsSt j).recald = true)) ∧
    (s.hsState j ≠ HsS.RECAL → exec (.recalComplete j) s = .next s) ∧
    (∀ m : Moment, s.now ≤ m →
      (Sparse.find j.val s.mem.stackDrainAt = none → s.flag (R.HS_STATUS j) F.HS_STATUS.IN_SERVICE = true → Answers (.stackIsolation m j) s fun t =>
        (∀ lin, t.absent (.hbm j lin) = true) ∧ Sparse.find j.val t.mem.stackDrainAt = some (m + 32000) ∧ t.mem.cells = s.mem.cells ∧ t.regs = s.regs) ∧
      (∀ z, Sparse.find j.val s.mem.stackDrainAt = some z →
        (z ≤ m → Answers (.stackIsolation m j) s fun t => gone t ∧ t.mem.cells = s.mem.cells ∧
          t.lastRaised.map (fun r => (r.status, r.sev, r.index)) = some (St.STACK_LOST, Sev.FATAL_UNIT, j.val)) ∧
        (m < z → exec (.stackIsolation m j) s = .next (s.atTime m))))

/-- A walk reads an entry of each level at its home: a leaf that grants the access fills the stream's cache and the die-wide one, and memory is as it was; an entry that is not valid stops a context reading its slot with PAGE_MISSING. FAB_EXPORT_n does not take a valid target outside HBM and DDR5, and reports FAB_EXPORT_BAD. (10_translation.md, R291, R292, R293, R304) -/
def Obligations.Translation : Prop :=
  ∀ (s : State) (d : Die) (c : Cx), s.On →
    let entry (a : Nat) : Word := BitVec.ofNat 64 (leNat (((s.ice ((s.region a).key a / 64 * 64)).drop ((s.region a).key a % 64)).take 8))
    let plain (a : Nat) : Prop := (s.region a).isMem = true ∧ s.absent (s.region a) = false ∧ s.held (s.region a) = false ∧
      s.poisoned ((s.region a).key a / 64 * 64) = false ∧ s.dirOf ((s.region a).key a / 64 * 64) = none
    let root (va : BitVec 57) : Nat := (s.reg (R.CX_ATP d c)).get 43 0 * 4096 + va.toNat / 2 ^ 48 % 512 * 8
    let next (va : BitVec 57) : Nat := ptePpn (entry (root va)) * 4096 + va.toNat / 2 ^ 39 % 512 * 8
    (∀ (n : Fin 256) (va : BitVec 57) (wr : Bool), plain (root va) → (entry (root va)).bit 0 = true → pteBad (entry (root va)) 4 = false →
      pteLeaf (entry (root va)) = false → plain (next va) → (entry (next va)).bit 0 = true → pteBad (entry (next va)) 3 = false →
      pteLeaf (entry (next va)) = true → pteGrants (entry (next va)) wr = true →
      Answers (.tableWalk d c n va wr) s fun t =>
        { die := d.val, stream := n.val, asid := s.asid d c, level := 3, vpn := va.toNat / 2 ^ 39, pte := entry (next va) } ∈ t.tlb ∧
        { die := d.val, stream := 256, asid := s.asid d c, level := 3, vpn := va.toNat / 2 ^ 39, pte := entry (next va) } ∈ t.tlb ∧
        t.mem = s.mem ∧ t.cxs = s.cxs ∧ RegsBut [R.XL_D_WALKS d] s t) ∧
    (∀ (n : Fin 256) (va : BitVec 57) (wr : Bool), 128 ≤ n.val → plain (root va) → (entry (root va)).bit 0 = false → s.cxState d c = CxS.READY → (s.cx d c).cur = none →
      Answers (.tableWalk d c n va wr) s fun t => t.cxState d c = CxS.WAIT_FAULT ∧ t.fld (R.CX_FAULT d c) F.CX_FAULT.STATUS = St.PAGE_MISSING ∧
        (t.reg (R.CX_FAULT_ADDR d c)).toNat = va.toNat ∧ t.mem = s.mem ∧ t.tlb = s.tlb) ∧
    (∀ (n : Fin 4096) (w : RegW) (v : Word), s.Writes w (R.FAB_EXPORT n) v →
      (v.bit 0 = true → (s.region (v.get 55 30 * 0x40000000)).isMem = false → Answers (.fabExportWrite w n) s fun t =>
        t.lastRaised.map (fun r => (r.status, r.sev)) = some (St.FAB_EXPORT_BAD, Sev.INFO) ∧ t = { s with faults := t.faults }) ∧
      (v.bit 0 = false ∨ (s.region (v.get 55 30 * 0x40000000)).isMem = true → n.val ≠ 4095 → Answers (.fabExportWrite w n) s fun t =>
        t.fld (R.FAB_EXPORT n) F.FAB_EXPORT.VALID = v.get 0 0 ∧ t.fld (R.FAB_EXPORT n) F.FAB_EXPORT.WRITE = v.get 1 1 ∧
        t.fld (R.FAB_EXPORT n) F.FAB_EXPORT.TARGET = v.get 55 30 ∧ t = { s with regs := t.regs } ∧ RegsBut [R.FAB_EXPORT n] s t))

/-- START drops from the die caches every entry of the scope asked for and waits for each die in service; while one runs, another is refused with XL_INV_BUSY. A die acknowledges once every transfer its dropped entries translated has completed, and the last acknowledgement sets DONE and clears BUSY. After 20 µs the transfers still waited for are cut, with CUT set. (10_translation.md, R295, R296, R298, R300) -/
def Obligations.Invalidation : Prop :=
  ∀ (s : State), s.On →
    (∀ (w : RegW) (v : Word), s.Writes w R.XL_INV_CTL v → v.bit 0 = true → v.get 2 1 ≠ 3 →
      (s.inv.busy = false → (∃ d < 4, s.dieIn d = true) → Answers (.invalidationStart w) s fun t => t.inv.busy = true ∧ t.inv.scope = v.get 2 1 ∧
        t.inv.asid = v.get 33 18 ∧ t.inv.dies = (List.range 4).filter s.dieIn ∧ t.inv.startedAt = s.now ∧ (∀ e ∈ t.tlb, t.inv.drops e = false) ∧
        (∀ e ∈ s.tlb, t.inv.drops e = false → e ∈ t.tlb) ∧ t.fld R.XL_INV_STATUS F.XL_INV_STATUS.BUSY = 1 ∧
        t = { s with regs := t.regs, inv := t.inv, tlb := t.tlb } ∧ RegsBut [R.XL_INV_CTL, R.XL_INV_STATUS] s t) ∧
      (s.inv.busy = true → Answers (.invalidationStart w) s fun t => t.lastRaised.map (fun r => (r.status, r.sev)) = some (St.XL_INV_BUSY, Sev.INFO) ∧
        t.inv = s.inv ∧ t.tlb = s.tlb ∧ t = { s with regs := t.regs, faults := t.faults } ∧ RegsBut [R.XL_INV_CTL] s t)) ∧
    (∀ (m : Moment) (d : Die), s.now ≤ m → s.inv.busy = true → d.val ∈ s.inv.dies →
      (s.invClear d = true → (∃ e ∈ s.inv.dies, e ≠ d.val) → exec (.invalidationDieAck m d) s = .next { s.atTime m with inv := { s.inv with dies := s.inv.dies.filter (· != d.val) } }) ∧
      (s.invClear d = true → (∀ e ∈ s.inv.dies, e = d.val) → s.flag R.XL_INV_CTL F.XL_INV_CTL.SIG_EN = false → Answers (.invalidationDieAck m d) s fun t =>
        t.inv = {} ∧ t.fld R.XL_INV_STATUS F.XL_INV_STATUS.BUSY = 0 ∧ t.fld R.XL_INV_STATUS F.XL_INV_STATUS.DONE = 1 ∧
        t.fld R.XL_INV_STATUS F.XL_INV_STATUS.LAST_US = min 0xFFFF ((m - s.inv.startedAt) / 16000) ∧
        t = { s.atTime m with regs := t.regs, inv := {} } ∧ RegsBut [R.XL_INV_STATUS] s t) ∧
      (s.invClear d = false → s.dieIn d = true → exec (.invalidationDieAck m d) s = .next (s.atTime m)) ∧
      (s.invClear d = false → s.inv.startedAt + 320000 ≤ m → Answers (.invalidationCut m d) s fun t =>
        t.fld R.XL_INV_STATUS F.XL_INV_STATUS.CUT = 1 ∧ (∀ w ∈ t.mem.wrs, s.inv.waitsWrite d w = false) ∧ t.inv = s.inv ∧ t.mem.cells = s.mem.cells) ∧
      (m < s.inv.startedAt + 320000 → exec (.invalidationCut m d) s = .next (s.atTime m)))

/-- A flit with a good CRC and the SEQ expected is taken; another is discarded and asks for a replay, and the eighth failure in a row retrains the link. A package link that trains with 8 lane groups or more comes back at that width, with fewer its die is isolated; a memory link with fewer than 4 fences its stack. The turning of a memory link's groups gives none to a direction with nothing queued. (11_coherence.md, R306, R308, R309, R310, R328, R329) -/
def Obligations.Links : Prop :=
  ∀ (s : State) (l : LinkId), s.On →
    (∀ seq : BitVec 12, (s.link l).retraining = false →
      (seq.toNat = (s.link l).expect → exec (.flitReceive l seq true) s = .next (s.setLink l { s.link l with expect := (seq.toNat + 1) % 4096, fails := 0, awaiting := false })) ∧
      ((s.link l).awaiting = true → seq.toNat ≠ (s.link l).expect → ∀ ok : Bool, exec (.flitReceive l seq ok) s = .next s) ∧
      (∀ ok : Bool, (ok = false ∨ seq.toNat ≠ (s.link l).expect) → ((s.link l).awaiting = false ∨ seq.toNat = (s.link l).expect) →
        ((s.link l).fails + 1 < 8 → Answers (.flitReceive l seq ok) s fun t => t.link l = { s.link l with fails := (s.link l).fails + 1, awaiting := true } ∧
          t.fld (linkReplays l) F.CTR.COUNT = (s.fld (linkReplays l) F.CTR.COUNT + 1) % 2 ^ 48 ∧ t = { s with regs := t.regs, faults := t.faults, mem := { s.mem with links := t.mem.links } }) ∧
        (8 ≤ (s.link l).fails + 1 → Answers (.flitReceive l seq ok) s fun t => (t.link l).retraining = true ∧ (t.link l).expect = (s.link l).expect ∧
          t = { s with regs := t.regs, faults := t.faults, mem := { s.mem with links := t.mem.links } }))) ∧
    (∀ (m : Moment) (d : Die) (g : Fin 17), s.now ≤ m → (s.link (.pkgDown d)).retraining = true →
      (8 ≤ g.val → Answers (.linkRetrainDone m (.pkgDown d) g) s fun t => (t.link (.pkgDown d)).retraining = false ∧ (t.link (.pkgDown d)).groups = g.val ∧
        t.fld (R.HUB_CD_STATUS d) F.HUB_CD_STATUS.WIDTH_DOWN = g.val ∧ t.cdState d = s.cdState d ∧ RegsBut [R.HUB_CD_STATUS d] s t) ∧
      (g.val < 8 → s.cdState d = 0 → Answers (.linkRetrainDone m (.pkgDown d) g) s fun t => t.cdState d = 2 ∧ t.dieIn d = false ∧
        Sparse.find d.val t.mem.drainAt = some (m + 32000))) ∧
    (∀ (m : Moment) (j : Fin 20) (g : Fin 17), s.now ≤ m → (s.link (.mem j)).retraining = true → 4 ≤ g.val → g.val ≤ 8 → Answers (.linkRetrainDone m (.mem j) g) s fun t =>
      (t.link (.mem j)).retraining = false ∧ t.fld (R.ML_STATUS (j / 5) (j % 5)) F.ML_STATUS.WIDTH = g.val ∧ t.fld (R.ML_STATUS (j / 5) (j % 5)) F.ML_STATUS.STATE = 0 ∧
      t.mem.stackDrainAt = s.mem.stackDrainAt) ∧
    (∀ (j : Fin 20) (up down : Nat), Answers (.groupTurn j up down) s fun t =>
      (t.link (.mem j)).toStack + (t.link (.mem j)).fromStack ≤ (s.link (.mem j)).groups ∧ (up = 0 → (t.link (.mem j)).toStack = 0) ∧
      (down = 0 → (t.link (.mem j)).fromStack = 0) ∧ (up = 0 → down ≠ 0 → (t.link (.mem j)).fromStack = (s.link (.mem j)).groups) ∧
      (down = 0 → up ≠ 0 → (t.link (.mem j)).toStack = (s.link (.mem j)).groups) ∧ t.regs = s.regs ∧ t.mem.cells = s.mem.cells)

/-- A read of a free line with no copy takes a tracker and sends the line's data and poison; RD_SHARED records the agent as a sharer, RD_OWN, which only CORES and HOST may ask, as the owner, RD_BULK and RD_ONCE record nothing. A home out of service answers ABSENT; one without a free tracker answers RETRY, counted, and keeps the request for a grant. DATA gives the line to CORES or HOST and frees the tracker; WB writes an owner's dirty line at home. (11_coherence.md, R312, R314, R318, R319) -/
def Obligations.HomeRequests : Prop :=
  ∀ (s : State), s.On →
    (∀ (r : Requester) (pa : Nat),
      let g := s.region pa
      let line := g.key pa / 64 * 64
      let reads : List Instr := [.rdShared r pa, .rdBulk r pa, .rdOnce r pa] ++ (if reqMayOwn r then [.rdOwn r pa] else [])
      let sent (t : State) : Prop := (∃ m ∈ t.mem.msgs, m.kind = .data ∧ m.agent = r ∧ m.home = g.home ∧ m.line = line ∧ m.data = t.ice line ∧ m.poison = t.poisoned line) ∧
        t.trackersUsed g.home = s.trackersUsed g.home + 1 ∧ t.mem.cells = s.mem.cells
      (s.absent g = true → ∀ i ∈ reads, Answers i s fun t => (∃ m ∈ t.mem.msgs, m.kind = .absent ∧ m.agent = r ∧ m.line = line) ∧
        t = { s with mem := { s.mem with msgs := t.mem.msgs, nextId := t.mem.nextId } }) ∧
      (s.absent g = false → s.held g = false → homeTrackers g.home ≤ s.trackersUsed g.home → ∀ i ∈ reads, Answers i s fun t =>
        (∃ m ∈ t.mem.msgs, m.kind = .retry ∧ m.agent = r ∧ m.line = line) ∧ (∃ x ∈ t.mem.retried, x.home = g.home ∧ x.req = r ∧ x.line = line ∧ x.granted = false) ∧
        t.fld (retryReg g.home) F.CTR.COUNT = (s.fld (retryReg g.home) F.CTR.COUNT + 1) % 2 ^ 48 ∧ t.mem.cells = s.mem.cells ∧ t.mem.txns = s.mem.txns) ∧
      (s.absent g = false → s.held g = false → s.fenced g.home r = false → s.trackersUsed g.home < homeTrackers g.home → s.dirOf line = none →
        (∀ x ∈ s.mem.txns, x.line ≠ line) → (∀ x ∈ s.mem.txns, x.id ≠ s.mem.nextId) →
        Answers (.rdShared r pa) s (fun t => sent t ∧ ∀ a, r = .agent a → t.dirOf line = some (.sharers [a])) ∧
        Answers (.rdBulk r pa) s (fun t => sent t ∧ t.dirOf line = none) ∧ Answers (.rdOnce r pa) s (fun t => sent t ∧ t.dirOf line = none) ∧
        (∀ a, r = .agent a → a = .cores ∨ a = .host → Answers (.rdOwn r pa) s fun t => sent t ∧ t.dirOf line = some (.owner a))) ∧
      (reqMayOwn r = false → exec (.rdOwn r pa) s = .next s)) ∧
    (∀ (m : Msg), s.msg m.id = some m →
      (m.kind = .absent → exec (.absent m.id) s = .next (s.dropMsg m.id)) ∧
      (m.kind = .retry → (∀ x ∈ s.mem.retried, x.home = m.home → x.granted = true) → exec (.retry m.id) s = .next (s.dropMsg m.id)) ∧
      (∀ x : Retried, m.kind = .grant → s.mem.retried.find? (fun r => r.home == m.home && r.req == m.agent) = some x → Answers (.creditGrant m.id) s fun t =>
        t.mem.retried = s.mem.retried.erase x ∧ (∃ y ∈ t.mem.txns, y.home = x.home ∧ y.line = x.line ∧ y.req = x.req ∧ y.kind = x.kind) ∧ t.mem.cells = s.mem.cells) ∧
      (∀ (x : Txn) (a : CAgent), m.kind = .data → m.agent = .agent a → a = .cores ∨ a = .host → s.txn m.txn = some x → x.kind = .rdShared ∨ x.kind = .rdOwn →
        (∀ y ∈ s.mem.txns, y.id ≠ x.id → y.line ≠ m.line) → (∀ y ∈ s.mem.retried, y.home = m.home → y.granted = true) → Answers (.data m.id) s fun t =>
          t.heldLine a m.line = some { data := m.data, dirty := false } ∧ t.txn m.txn = none ∧ t.msg m.id = none ∧ t.mem.cells = s.mem.cells ∧ t.regs = s.regs)) ∧
    (∀ (a : CAgent) (pa : Nat) (x : CLine),
      let line := (s.region pa).key pa / 64 * 64
      s.absent (s.region pa) = false → s.dirOf line = some (.owner a) → s.heldLine a line = some x → x.dirty = true → Answers (.wb a pa) s fun t =>
        t.mem.cells = Memory.writeBytes line x.data s.mem.cells ∧ t.regs = s.regs ∧ (∀ b, b ≠ line → t.dirOf b = s.dirOf b))

/-- SNP_INV drops the agent's copy and answers INV_ACK; SNP_SHARE leaves the owner a clean copy and returns its data; SNP_GET returns the data and drops the line. The home clears the sharer at INV_ACK and, at the last one, sends the data or accepts the write the line waited for; SNP_DATA writes the owner's data at home and lets the transaction take effect. A message of another kind changes nothing. (11_coherence.md, R314, R315, R318) -/
def Obligations.Snoops : Prop :=
  ∀ (s : State) (m : Msg) (a : CAgent), s.On → s.msg m.id = some m → m.agent = .agent a →
    let answer (k : MsgKind) (b : List Byte) (t : State) : Prop := ∃ x ∈ t.mem.msgs, x.kind = k ∧ x.agent = m.agent ∧ x.home = m.home ∧ x.line = m.line ∧ x.txn = m.txn ∧ x.data = b
    (m.kind = .snpInv → Answers (.snpInv m.id) s fun t => answer .invAck [] t ∧ t.mem.cells = s.mem.cells ∧ t.regs = s.regs ∧ t.mem.txns = s.mem.txns) ∧
    (∀ x : CLine, s.heldLine a m.line = some x →
      (m.kind = .snpShare → Answers (.snpShare m.id) s fun t => answer .snpData x.data t ∧ t.heldLine a m.line = some { x with dirty := false } ∧
        t.mem.cells = s.mem.cells ∧ t.regs = s.regs) ∧
      (m.kind = .snpGet → Answers (.snpGet m.id) s fun t => answer .snpData x.data t ∧ t.mem.cells = s.mem.cells ∧ t.regs = s.regs)) ∧
    (∀ x : Txn, m.kind = .invAck → s.txn m.txn = some x → x.kind = .rdOwn → x.begun = true → x.done = false → x.waitInv = [a] → x.waitData = none → x.line = m.line →
      s.copies m.line = [a] → (∀ b, x.req = .agent b → Answers (.invAck m.id) s fun t => t.dirOf m.line = some (.owner b) ∧
        (∃ y ∈ t.mem.msgs, y.kind = .data ∧ y.agent = x.req ∧ y.line = m.line) ∧ t.mem.cells = s.mem.cells ∧ t.regs = s.regs)) ∧
    (∀ (x : Txn) (b : CAgent), m.kind = .invAck → s.txn m.txn = some x → b ≠ a → b ∈ x.waitInv → (∀ y ∈ s.mem.txns, y.id = m.txn → y = x) → Answers (.invAck m.id) s fun t =>
      t.mem.msgs = s.mem.msgs.filter (fun y => y.id != m.id) ∧ t.mem.cells = s.mem.cells ∧ t.regs = s.regs) ∧
    (∀ x : Txn, m.kind = .snpData → s.txn m.txn = some x → x.kind = .rdBulk → x.begun = true → x.done = false → x.waitInv = [] → x.line = m.line →
      Answers (.snpData m.id) s fun t => t.mem.cells = Memory.writeBytes m.line m.data s.mem.cells ∧
        (∃ y ∈ t.mem.msgs, y.kind = .data ∧ y.agent = x.req ∧ y.line = m.line ∧ y.data = t.ice m.line) ∧ t.regs = s.regs) ∧
    (m.kind = .data → exec (.snpInv m.id) s = .next s ∧ exec (.snpShare m.id) s = .next s ∧ exec (.snpGet m.id) s = .next s ∧
      exec (.invAck m.id) s = .next s ∧ exec (.snpData m.id) s = .next s)

/-- A write that is the oldest of its source to a free line of HBM or DDR5 with no copy is accepted: the bytes of its mask are written and no other byte of memory changes; WR_LINE takes whole lines, WR_PART the others. A write behind an earlier one of its source waits. ACK ends an accepted write. A quire signal of the package waits for its source's earlier writes and then adds at its quire. (11_coherence.md, 12_ordering.md, R315, R317, R341, R342, R343) -/
def Obligations.WritesAtHome : Prop :=
  (∀ (s : State) (w : Wr), s.On → s.wr w.id = some w → w.firn = none →
    let g := s.region w.addr
    let accepted (t : State) : Prop := t.wr w.id = some { w with stage := .accepted } ∧ t.memOk ∧
      (∀ i < 64, Memory.read (w.addr + i) t.mem.cells = if w.mask.testBit i then w.data.getD i 0 else (s.ice w.addr).getD i 0) ∧
      (∀ a, a < w.addr ∨ w.addr + 64 ≤ a → Memory.read a t.mem.cells = Memory.read a s.mem.cells)
    (w.stage = .sent → w.crc = none → s.memOk → w.data.length = 64 → w.addr % 64 = 0 → (∃ j lin, g = .hbm j lin ∧ lin = w.addr) ∨ (∃ off, g = .ddr off) →
      w.dst.isPkg = false → s.absent g = false → s.held g = false → s.wrPending w.id = false → s.wrFirst w = true → s.wrSameHome w = true →
      s.dirOf w.addr = none → s.lineBusy w.addr = false → s.trackersUsed g.home < homeTrackers g.home → s.fenced g.home w.src.requester = false →
      (w.mask = fullMask → Answers (.wrLine w.id) s accepted ∧ exec (.wrPart w.id) s = .next s) ∧
      (w.mask ≠ fullMask → Answers (.wrPart w.id) s accepted ∧ exec (.wrLine w.id) s = .next s)) ∧
    (w.stage = .sent → w.dst.isPkg = false → s.absent g = false → s.wrFirst w = false →
      exec (.wrLine w.id) s = .next s ∧ exec (.wrPart w.id) s = .next s) ∧
    (w.stage = .accepted → exec (.ack w.id) s = .next (s.dropWr w.id)) ∧ (w.stage = .sent → exec (.ack w.id) s = .next s)) ∧
  (∀ (s : State) (g : QSig), s.On → s.sync.qsigs.find? (fun q => q.id == g.id) = some g → g.pkg = none →
    (s.sync.qsigs.find? fun h => h.src == g.src && h.pkg == g.pkg && h.q == g.q) = some g →
    (s.allAccepted g.before = false → exec (.linkQsig g.id) s = .next s) ∧
    (s.allAccepted g.before = true → g.op = .add → (s.quire g.q).mode = Qm.NATIVE → (s.quire g.q).value + g.arg < 2 ^ 32 → s.sync.waiters = [] →
      Answers (.linkQsig g.id) s fun t => (t.quire g.q).value = (s.quire g.q).value + g.arg ∧ t.sync.qsigs = s.sync.qsigs.filter (fun q => q.id != g.id) ∧
        (∀ q, q ≠ g.q → t.quire q = s.quire q) ∧ t.mem = s.mem))

/-- RC_CFG with ENABLE enables a cache that has been invalidated and is refused, with REFUSED and RC_ENABLE_REFUSED, for one that has not; without ENABLE it disables the cache, which is then no longer invalidated. INVALIDATE drops every sector and sets BUSY; its end clears the die from every sharer list, BUSY 0 and INVALIDATED 1. (11_coherence.md, R327, R336) -/
def Obligations.RemoteCaches : Prop :=
  ∀ (s : State) (w : RegW) (v : Word) (d : Die), s.On →
    (s.Writes w (R.RC_CFG d) v → v.bit 0 = true → s.flag (R.RC_STATUS d) F.RC_STATUS.INVALIDATED = true → Answers (.rcCfgWrite w d) s fun t =>
      t.fld (R.RC_CFG d) F.RC_CFG.ENABLE = 1 ∧ t.fld (R.RC_STATUS d) F.RC_STATUS.ENABLED = 1 ∧ t.fld (R.RC_CFG d) F.RC_CFG.ACQ_ALL_MIB = v.get 21 14 ∧
      t = { s with regs := t.regs } ∧ RegsBut [R.RC_CFG d, R.RC_STATUS d] s t) ∧
    (s.Writes w (R.RC_CFG d) v → v.bit 0 = true → s.flag (R.RC_STATUS d) F.RC_STATUS.INVALIDATED = false → Answers (.rcCfgWrite w d) s fun t =>
      t.fld (R.RC_CFG d) F.RC_CFG.ENABLE = s.fld (R.RC_CFG d) F.RC_CFG.ENABLE ∧ t.fld (R.RC_STATUS d) F.RC_STATUS.ENABLED = s.fld (R.RC_STATUS d) F.RC_STATUS.ENABLED ∧
      t.fld (R.RC_STATUS d) F.RC_STATUS.REFUSED = 1 ∧ t.lastRaised.map (fun r => (r.status, r.sev)) = some (St.RC_ENABLE_REFUSED, Sev.INFO) ∧
      t = { s with regs := t.regs, faults := t.faults } ∧ RegsBut [R.RC_CFG d, R.RC_STATUS d] s t) ∧
    (s.Writes w (R.RC_CFG d) v → v.bit 0 = false → Answers (.rcCfgWrite w d) s fun t => t.fld (R.RC_CFG d) F.RC_CFG.ENABLE = 0 ∧
      t.fld (R.RC_STATUS d) F.RC_STATUS.ENABLED = 0 ∧ t.fld (R.RC_STATUS d) F.RC_STATUS.INVALIDATED = 0 ∧
      t = { s with regs := t.regs } ∧ RegsBut [R.RC_CFG d, R.RC_STATUS d] s t) ∧
    (s.Writes w (R.RC_CTL d) v → v.bit 0 = true → Answers (.rcInvalidate w d) s fun t => (t.rc d).tags = [] ∧ (t.rc d).invalidating = true ∧
      t.fld (R.RC_STATUS d) F.RC_STATUS.BUSY = 1 ∧ t = { s with regs := t.regs, mem := { s.mem with rc := t.mem.rc } } ∧ RegsBut [R.RC_STATUS d] s t) ∧
    ((s.rc d).invalidating = true → Answers (.rcInvalidateDone d) s fun t => (t.rc d).invalidating = false ∧ (t.rc d).tags = (s.rc d).tags ∧
      t.fld (R.RC_STATUS d) F.RC_STATUS.BUSY = 0 ∧ t.fld (R.RC_STATUS d) F.RC_STATUS.INVALIDATED = 1 ∧
      (∀ p ∈ t.mem.dir, ∀ l, p.2 = .sharers l → CAgent.cd d ∉ l) ∧ t = { s with regs := t.regs, mem := { s.mem with rc := t.mem.rc, dir := t.mem.dir } } ∧
      RegsBut [R.RC_STATUS d] s t) ∧
    ((s.rc d).invalidating = false → exec (.rcInvalidateDone d) s = .next s)

/-- ISOLATE of a die that runs, or the loss of its clock, fences it, counts the loss and starts the 2 µs drain timer, after which DIE_LOST is raised, its stacks' lines are dropped from every cache and its contexts are lost. OFFLINE of a running die leaves it OFFLINE. REJOIN of a fenced or removed die resets its blocks and, once its links and stacks are trained in a bound part, puts it and them in service with their memory reading zero. An action the state does not allow, or two at once, is refused. (11_coherence.md, R328, R330, R331, R333) -/
def Obligations.DieService : Prop :=
  ∀ (s : State) (w : RegW) (v : Word) (d : Die), s.On →
    let refused (t : State) : Prop := t.lastRaised.map (fun r => (r.status, r.sev)) = some (St.HUB_CD_CTL_REFUSED, Sev.INFO) ∧ t = { s with faults := t.faults }
    let fenced (t : State) : Prop := t.cdState d = 2 ∧ t.dieIn d = false ∧ Sparse.find d.val t.mem.drainAt = some (s.now + 32000) ∧
      t.fld (R.HUB_CD_STATUS d) F.HUB_CD_STATUS.LOSSES = min 65535 (s.fld (R.HUB_CD_STATUS d) F.HUB_CD_STATUS.LOSSES + 1) ∧ t.mem.cells = s.mem.cells ∧ t.cxs = s.cxs
    (s.Writes w (R.HUB_CD_CTL d) v → v.get 2 0 = 2 → (s.cdState d = 0 ∨ s.cdState d = 1 → Answers (.isolate w d) s fenced) ∧
      (s.cdState d ≠ 0 → s.cdState d ≠ 1 → Answers (.isolate w d) s refused)) ∧
    (s.Writes w (R.HUB_CD_CTL d) v → v.get 2 0 = 7 → Answers (.isolate w d) s refused ∧ Answers (.cdOffline w d) s refused ∧ Answers (.rejoin w d) s refused) ∧
    (s.cdState d = 0 → Answers (.dieClockLoss d) s fenced) ∧ (s.cdState d = 2 → exec (.dieClockLoss d) s = .next s) ∧
    (∀ (m : Moment) (z : Nat), s.now ≤ m → Sparse.find d.val s.mem.drainAt = some z →
      (z ≤ m → Answers (.drainTimer m d) s fun t => t.fld (R.HUB_CD_STATUS d) F.HUB_CD_STATUS.IN_SERVICE = 0 ∧
        (∀ p ∈ t.mem.coreLines ++ t.mem.hostLines, onStacks (dieStacks d) p.1 = false) ∧ (∀ c : Cx, t.cx d c = {}) ∧
        (∃ r ∈ t.faults.raised, r.status = St.DIE_LOST ∧ r.sev = Sev.FATAL_UNIT ∧ r.die = d.val) ∧ (∃ r ∈ t.faults.raised, r.status = St.COH_LOST) ∧
        t.mem.cells = s.mem.cells) ∧
      (m < z → exec (.drainTimer m d) s = .next (s.atTime m))) ∧
    (s.Writes w (R.HUB_CD_CTL d) v → v.get 2 0 = 1 → (s.cdState d = 0 → Answers (.cdOffline w d) s fun t => t.cdState d = 4 ∧
        t.fld (R.HUB_CD_STATUS d) F.HUB_CD_STATUS.IN_SERVICE = 0 ∧ (∀ c : Cx, t.cx d c = {})) ∧
      (s.cdState d ≠ 0 → Answers (.cdOffline w d) s refused)) ∧
    (s.Writes w (R.HUB_CD_CTL d) v → v.get 2 0 = 4 → (s.cdState d = 2 ∨ s.cdState d = 4 → Answers (.rejoin w d) s fun t => t.cdState d = 3 ∧
        (∀ c : Cx, t.cx d c = {} ∧ t.cxState d c = CxS.OFF) ∧ (∀ m, m < 8 → t.arr d m = {}) ∧ (∀ e ∈ t.tlb, e.die ≠ d.val)) ∧
      (s.cdState d ≠ 2 → s.cdState d ≠ 4 → Answers (.rejoin w d) s refused)) ∧
    (∀ m : Moment, s.now ≤ m → s.cdState d = 3 → Sparse.find d.val s.mem.drainAt = none → s.bound = true → s.memOk →
      Answers (.rejoinComplete m d) s fun t => t.dieIn d = true ∧
        (∀ a, a / 0x1000000000 / 5 = d.val → Memory.read a t.mem.cells = 0) ∧ (∀ a, a / 0x1000000000 / 5 ≠ d.val → Memory.read a t.mem.cells = Memory.read a s.mem.cells) ∧
        (∀ j ∈ dieStacks d, t.hsState j = HsS.RUN ∧ t.fld (R.HS_STATUS j) F.HS_STATUS.IN_SERVICE = 1))

/-- An ADD whose sum fits, and a SUB not above VALUE, change VALUE, words 2 and 3, and satisfy the waiters they make true; an ADD that does not fit and a SUB above VALUE are refused in NATIVE and held at the end of the range in COMPAT; both are refused with QUIRE_MODE in GATHER and MIRROR. SET gives a quire its VALUE, and a head its DONE with no arrivals. DEADLINE and DL_STEP act on a head alone; FLAG_CLEAR clears the flags named. A store its source may not make sets REFUSED and places QUIRE_DENIED; no other record of a quire changes, and no byte of memory. (13_quires.md, R369, R371, R374, R375, R377) -/
def Obligations.QuireStores : Prop :=
  ∀ (s : State) (x : StoreSrc) (q : Quire) (v : BitVec 32), s.On →
    let r := s.quire q
    let n := v.toNat
    let X := QSource.src (storeSource x)
    let took (op : Nat) (r' : QuireRec) (t : State) : Prop := t.quire q = { r' with src := s.srcWord X op n, stamp := s.spanNow } ∧ QuiresBut [q] s t ∧ SyncOnly s t ∧
      t.fld R.SYNC_OPS F.CTR.COUNT = (s.fld R.SYNC_OPS F.CTR.COUNT + 1) % 2 ^ 48 ∧
      (∀ w ∈ t.sync.waiters, w.ready q r' = false)
    let told (flag st sev op arg : Nat) (t : State) : Prop := t.quire q = r.setFlag flag ∧ QuiresBut [q] s t ∧
      t.lastRaised.map (fun y => (y.status, y.sev, y.arg0)) = some (st, sev, s.srcWord X op arg) ∧
      t = { s with regs := t.regs, faults := t.faults, sync := { s.sync with quires := t.sync.quires } } ∧ RegsBut [R.SYNC_ERRORS] s t
    let denied (op arg : Nat) (t : State) : Prop := told Qf.REFUSED St.QUIRE_DENIED Sev.INFO op arg t ∧ t.regs = s.regs
    (s.mayCount x q = true → s.noConsumer q →
      ((r.mode = Qm.NATIVE ∨ r.mode = Qm.COMPAT) →
        (r.value + n < 2 ^ 32 → Answers (.quireAdd x q v) s (took Qo.ADD { r with value := r.value + n })) ∧
        (n ≤ r.value → Answers (.quireSub x q v) s (took Qo.SUB { r with value := r.value - n }))) ∧
      (r.mode = Qm.NATIVE →
        (2 ^ 32 ≤ r.value + n → Answers (.quireAdd x q v) s (told Qf.OVERFLOW St.QUIRE_OVERFLOW Sev.DEFERRED Qo.ADD n)) ∧
        (r.value < n → Answers (.quireSub x q v) s (told Qf.UNDERFLOW St.QUIRE_UNDERFLOW Sev.DEFERRED Qo.SUB n))) ∧
      (r.mode = Qm.COMPAT →
        (2 ^ 32 ≤ r.value + n → Answers (.quireAdd x q v) s (took Qo.ADD ({ r with value := 2 ^ 32 - 1 }.setFlag Qf.SATURATED))) ∧
        (r.value < n → Answers (.quireSub x q v) s (took Qo.SUB ({ r with value := 0 }.setFlag Qf.SATURATED)))) ∧
      ((r.mode = Qm.GATHER ∨ r.mode = Qm.MIRROR) →
        Answers (.quireAdd x q v) s (told Qf.REFUSED St.QUIRE_MODE Sev.DEFERRED Qo.ADD n) ∧ Answers (.quireSub x q v) s (told Qf.REFUSED St.QUIRE_MODE Sev.DEFERRED Qo.SUB n))) ∧
    (s.mayCount x q = false → Answers (.quireAdd x q v) s (denied Qo.ADD n) ∧ Answers (.quireSub x q v) s (denied Qo.SUB n)) ∧
    (s.mayManage x = true →
      (r.mode ≠ Qm.GATHER → s.noConsumer q → Answers (.set x q v) s (took Qo.SET { r with value := n })) ∧
      (s.isHead q = true → (s.quire (q + 1)).mode = Qm.GATHER → Answers (.set x q v) s fun t => t.quire q = { r with value := n, lateNoted := false, src := s.srcWord X Qo.SET n, stamp := s.spanNow } ∧
        t.quire (q + 1) = { s.quire (q + 1) with value := 0, arrN1 := 0 } ∧ QuiresBut [q.val, q.val + 1] s t ∧ SyncOnly s t) ∧
      (r.mode = Qm.GATHER → r.head = false → Answers (.set x q v) s (told Qf.REFUSED St.QUIRE_MODE Sev.DEFERRED Qo.SET n))) ∧
    (s.mayManage x = false → Answers (.set x q v) s (denied Qo.SET n)) ∧
    (∀ y : Word,
      let put (r' : QuireRec) (t : State) : Prop := t.quire q = r' ∧ QuiresBut [q] s t ∧ t = { s with sync := { s.sync with quires := t.sync.quires } }
      (s.mayManage x = true →
        (s.isHead q = true → Answers (.deadlineStore x q y) s (put { r with deadline := y, lateNoted := false }) ∧ Answers (.dlStepStore x q y) s (put { r with dlStep := y.get 39 0 })) ∧
        (s.isHead q = false → Answers (.deadlineStore x q y) s (told Qf.REFUSED St.QUIRE_MODE Sev.DEFERRED 0 (y.get 31 0)) ∧
          Answers (.dlStepStore x q y) s (told Qf.REFUSED St.QUIRE_MODE Sev.DEFERRED 0 (y.get 31 0))) ∧
        (r.flags < 256 → Answers (.flagClear x q y) s (put { r with flags := (BitVec.ofNat 8 r.flags &&& ~~~(y.extractLsb' 0 8)).toNat }))) ∧
      (s.mayManage x = false → Answers (.deadlineStore x q y) s (denied 0 (y.get 31 0)) ∧ Answers (.dlStepStore x q y) s (denied 0 (y.get 31 0)) ∧
        Answers (.flagClear x q y) s (denied 0 (y.get 31 0)))) ∧
    (∀ off : Nat, Answers (.quireAccess x off) s fun t => t.lastRaised.map (fun y => (y.status, y.sev)) = some (St.QUIRE_ACCESS, Sev.INFO) ∧ t = { s with faults := t.faults })

/-- An ARRIVE for the open round counts; the one that fills the round completes it: DONE moves on, the next round's arrivals become the open round's, DEADLINE moves by DL_STEP or clears, and each other package of the mirror set in the fabric is sent DONE. An ARRIVE for the next round counts there while there is room; any other is refused with OVERRUN and GATHER_OVERRUN, and one at a quire that is no head with QUIRE_MODE. CONFIG makes head and tally, is refused on the quires R383 names and with waiters, and a head moved out of GATHER makes its tally a NATIVE quire of zeros. A mirror update in its turn raises a MIRROR quire's VALUE and never lowers it. DEADLINE reached in an open round sets LATE once, with one GATHER_LATE record. (13_quires.md, R380, R381, R382, R383, R384, R385, R386) -/
def Obligations.Gatherings : Prop :=
  (∀ (s : State) (x : StoreSrc) (q : Quire) (v : BitVec 32), s.On → s.mayCount x q = true →
    let h := s.quire q
    let y := s.quire (q + 1)
    let X := QSource.src (storeSource x)
    let told (flag st : Nat) (t : State) : Prop := t.quire q = h.setFlag flag ∧ QuiresBut [q] s t ∧
      t.lastRaised.map (fun z => (z.status, z.sev, z.arg0)) = some (st, Sev.DEFERRED, s.srcWord X Qo.ARRIVE v.toNat) ∧
      t = { s with regs := t.regs, faults := t.faults, sync := { s.sync with quires := t.sync.quires } } ∧ RegsBut [R.SYNC_ERRORS] s t
    (s.isHead q = true → y.mode = Qm.GATHER →
      (v = BitVec.ofNat 32 h.value → y.value + 1 < h.participants → Answers (.arrive x q v) s fun t =>
        t.quire q = { h with src := s.srcWord X Qo.ARRIVE v.toNat, stamp := s.spanNow } ∧ t.quire (q + 1) = { y with value := y.value + 1 } ∧
        QuiresBut [q.val, q.val + 1] s t ∧ SyncOnly s t) ∧
      (v = BitVec.ofNat 32 h.value → y.value + 1 = h.participants → y.arrN1 < h.participants → Answers (.arrive x q v) s fun t =>
        let done := (h.value + 1) % 2 ^ 32
        t.quire q = { h with value := done, deadline := (if h.deadline = 0 ∨ h.dlStep = 0 then 0 else h.deadline + BitVec.ofNat 64 h.dlStep), lateNoted := false, src := s.srcWord X Qo.ARRIVE v.toNat, stamp := s.spanNow } ∧
        t.quire (q + 1) = { y with value := y.arrN1, arrN1 := 0 } ∧ QuiresBut [q.val, q.val + 1] s t ∧
        t.fld R.SYNC_ROUNDS F.CTR.COUNT = (s.fld R.SYNC_ROUNDS F.CTR.COUNT + 1) % 2 ^ 48 ∧
        (∃ l, t.sync.qsigs = s.sync.qsigs ++ l ∧ (∀ g ∈ l, g.mirror = true ∧ g.q = q ∧ g.arg = done) ∧
          (∀ p : Pkg, (∃ g ∈ l, g.pkg = some p) ↔ h.mirrorBase ≤ p ∧ p < h.mirrorBase + h.mirrorCount ∧ p.val ≠ s.pkg ∧ s.pkgIn p = true)) ∧
        t.mem = { s.mem with nextId := t.mem.nextId } ∧ t.fab = { s.fab with pairs := t.fab.pairs }) ∧
      (v = BitVec.ofNat 32 (h.value + 1) → y.arrN1 < h.participants → Answers (.arrive x q v) s fun t =>
        t.quire q = { h with src := s.srcWord X Qo.ARRIVE v.toNat, stamp := s.spanNow } ∧ t.quire (q + 1) = { y with arrN1 := y.arrN1 + 1 } ∧
        QuiresBut [q.val, q.val + 1] s t ∧ SyncOnly s t) ∧
      ((v = BitVec.ofNat 32 (h.value + 1) ∧ h.participants ≤ y.arrN1) ∨ (v ≠ BitVec.ofNat 32 h.value ∧ v ≠ BitVec.ofNat 32 (h.value + 1)) →
        Answers (.arrive x q v) s (told Qf.OVERRUN St.GATHER_OVERRUN))) ∧
    (s.isHead q = false → Answers (.arrive x q v) s (told Qf.REFUSED St.QUIRE_MODE))) ∧
  (∀ (s : State) (x : StoreSrc) (q : Quire) (v : Word), s.On →
    let m := v.get 1 0
    let r := s.quire q
    let told (st : Nat) (t : State) : Prop := t.lastRaised.map (fun z => (z.status, z.sev)) = some (st, Sev.INFO) ∧ QuiresBut [q] s t ∧
      t = { s with faults := t.faults, sync := { s.sync with quires := t.sync.quires } }
    let fresh (mode : Nat) (r' : QuireRec) : Prop := r' = { mode := mode, flags := r'.flags, src := r'.src, stamp := r'.stamp }
    let bad := s.mayManage x = false ∨ (q.val % 2 = 1 ∧ m = Qm.GATHER) ∨ (r.mode = Qm.GATHER ∧ r.head = false) ∨ (m = Qm.GATHER ∧ v.get 25 2 = 0) ∨ (m = Qm.MIRROR ∧ s.isHead q = true)
    (bad → Answers (.config x q v) s fun t => told St.QUIRE_DENIED t ∧ t.quire q = r.setFlag Qf.REFUSED) ∧
    (¬ bad → m ≠ r.mode →
      ((s.hasWaiters q = true ∨ ((s.isHead q = true ∨ m = Qm.GATHER) ∧ s.hasWaiters (q + 1) = true)) → Answers (.config x q v) s fun t => told St.SYNC_CFG_BUSY t ∧ t.quire q = r) ∧
      (s.hasWaiters q = false → s.hasWaiters (q + 1) = false → Answers (.config x q v) s fun t => t = { s with sync := { s.sync with quires := t.sync.quires } } ∧
        (m ≠ Qm.GATHER → fresh m (t.quire q) ∧ (t.quire q).flags = r.flags ∧
          (r.mode = Qm.GATHER → t.quire (q + 1) = {} ∧ QuiresBut [q.val, q.val + 1] s t) ∧ (r.mode ≠ Qm.GATHER → QuiresBut [q] s t)) ∧
        (m = Qm.GATHER → s.isHead q = false → t.isHead q = true ∧ (t.quire q).value = 0 ∧ (t.quire q).deadline = 0 ∧ (t.quire q).participants = v.get 25 2 ∧
          (t.quire q).mirrorBase = v.get 38 26 ∧ (t.quire q).mirrorCount = v.get 52 39 ∧
          fresh Qm.GATHER (t.quire (q + 1)) ∧ QuiresBut [q.val, q.val + 1] s t))) ∧
    (¬ bad → m = r.mode → m ≠ Qm.GATHER → exec (.config x q v) s = .next s) ∧
    (¬ bad → m = Qm.GATHER → s.isHead q = true → (s.quire (q + 1)).mode = Qm.GATHER → (s.quire (q + 1)).value < v.get 25 2 → Answers (.config x q v) s fun t =>
      let h' := { r with participants := v.get 25 2, mirrorBase := v.get 38 26, mirrorCount := v.get 52 39 }
      t.quire q = (if v.get 25 2 < (s.quire (q + 1)).arrN1 then h'.setFlag Qf.OVERRUN else h') ∧
      t.quire (q + 1) = { s.quire (q + 1) with arrN1 := min (s.quire (q + 1)).arrN1 (v.get 25 2) } ∧ QuiresBut [q.val, q.val + 1] s t ∧ SyncOnly s t)) ∧
  (∀ (s : State) (h : FabHdr) (q : Quire) (d : BitVec 32), s.On → s.fabState ≠ FabS.OFF → s.fabState ≠ FabS.LEAVING → s.isMember h.src = true → s.isDead h.src = false →
    h.pseq.toNat = (s.pair h.src).expectIn → (s.pair h.src).early = [] → s.fab.taken = [] → s.mem.wrs = [] → (s.quire q).mode = Qm.MIRROR →
    Answers (.mirror h q d) s fun t => t.mem = s.mem ∧ QuiresBut [q] s t ∧
      (0 < (d - BitVec.ofNat 32 (s.quire q).value).toInt → (t.quire q).value = d.toNat) ∧
      ((d - BitVec.ofNat 32 (s.quire q).value).toInt ≤ 0 → (t.quire q).value = (s.quire q).value) ∧
      (t.quire q).src = s.srcWord (.unit h.src) Qo.MIRROR d.toNat ∧ (t.pair h.src).expectIn = (h.pseq.toNat + 1) % 2 ^ 24) ∧
  (∀ (s : State) (m : Moment) (q : Quire), s.On →
    let h := s.quire q
    let s0 := s.atTime m
    let due := s.isHead q = true ∧ h.deadline ≠ 0 ∧ stampReached h.deadline s0.spanNow = true ∧ h.lateNoted = false
    (due → Answers (.gatherDeadline m q) s fun t => t.quire q = { h with lateNoted := true }.setFlag Qf.LATE ∧ QuiresBut [q] s t ∧
      t.lastRaised.map (fun z => (z.status, z.sev, z.arg0, z.arg1)) =
        some (St.GATHER_LATE, Sev.DEFERRED, BitVec.ofNat 64 h.value, BitVec.ofNat 64 ((s.quire (q + 1)).value + h.participants * 2 ^ 32)) ∧
      t = { s0 with faults := t.faults, sync := { s.sync with quires := t.sync.quires } }) ∧
    (¬ due → exec (.gatherDeadline m q) s = .next s0))

/-- A load within one sector returns the bytes its line or its own buffered stores give, extended to the register; a store goes to the store buffer, the combining buffer for the fabric window or after ntl.all, a quire or a register. Outside every region both take an access fault, misaligned in the quire and MMIO regions the address-misaligned exception. cbo.zero writes a line of zeros, cbo.clean writes a dirty line back and keeps it, cbo.flush and cbo.inval drop it. k.wef, k.rfe, k.rff and k.purge act on their word and leave 0, or leave 1 where the word is in the wrong state. (14_cores.md, R357, R390, R400, R401, R406, R407) -/
def Obligations.CoreAccesses : Prop :=
  ∀ (s : State) (n : Fin 96), s.On → s.coreRuns n = true →
    let k := s.core n
    (∀ (rd rs2 : Fin 32) (pa sz : Nat) (u : Bool), sz ∈ [1, 2, 4, 8] →
      let r := s.region pa
      let a := r.key pa
      let line := a / 64 * 64
      let v := leBytes sz (s.coreX n rs2).toNat
      (r.isMem = true → s.coreReads n a → a % 64 + sz ≤ 64 → pa % 64 + sz ≤ 64 → (∀ c ∈ k.comb, c.sector ≠ line) → rd ≠ 0 →
        Answers (.coreLoad n rd pa sz u 0) s fun t =>
          let w : BitVec (8 * sz) := BitVec.ofNat _ (leNat ((List.range sz).map fun i => s.coreOver n (a + i) ((s.coreBytes line).getD (a % 64 + i) 0)))
          t.coreX n rd = (if u then w.setWidth 64 else w.signExtend 64) ∧ (∀ x, x ≠ rd.val → t.coreX n x = s.coreX n x) ∧
          t.mem.cells = s.mem.cells ∧ RegsBut [R.HL_BISNP] s t) ∧
      (r.isMem = true → s.absent (s.region line) = false → s.held (s.region line) = false → (s.region line).isMem = true → s.poisoned line = true → pa % 64 + sz ≤ 64 →
        (∀ c ∈ k.comb, c.sector ≠ line) → s.dirOf line = none → Answers (.coreLoad n rd pa sz u 0) s fun t =>
          (t.core n).lastFault = Cause.LOAD_ACCESS ∧ (t.core n).faultAddr = pa ∧ (t.core n).x = k.x ∧ t.regs = s.regs ∧ t.mem.cells = s.mem.cells) ∧
      (plainRegion r = true → r.isFabric = false → pa % 64 + sz ≤ 64 → k.sb.length < 64 → (∀ c ∈ k.comb, c.sector ≠ line) →
        exec (.coreStore n rs2 pa sz false 0) s = .next (s.setCore n { k with sb := k.sb ++ [{ addr := a, data := v }] })) ∧
      (r.isMem = true → s.coreOwns n a → s.earlyAck (s.region a) = false → a % 64 + sz ≤ 64 → pa % 64 + sz ≤ 64 → s.coreQuiet n → (k.resv = none ∨ k.resv = some (line / 128)) →
        Answers (.coreStore n rs2 pa sz false 1) s fun t => s.coreWrote t n a v ∧ t.core n = k) ∧
      (((r.isFabric = true ∧ s.absent r = false) ∨ (r.isMem = true ∧ pa % 64 = a % 64)) → pa % 64 + sz ≤ 64 → k.sb = [] → k.comb = [] →
        ∀ ntl, (ntl = true ∨ r.isMem = false) → Answers (.coreStore n rs2 pa sz ntl 0) s fun t =>
          (∃ c, (t.core n).comb = [c] ∧ c.sector = line ∧ c.mask = byteMask (a % 64) sz ∧ c.lastAt = s.now ∧ ∀ i < sz, c.data.getD (a % 64 + i) 0 = v.getD i 0) ∧
          t = { s with cores := t.cores }) ∧
      (r = .outside → exec (.coreLoad n rd pa sz u 0) s = .next (s.coreTrap n Cause.LOAD_ACCESS pa) ∧
        ∀ ntl, exec (.coreStore n rs2 pa sz ntl 0) s = .next (s.coreTrap n Cause.STORE_ACCESS pa)) ∧
      (r.isIo = true → pa % sz ≠ 0 → exec (.coreLoad n rd pa sz u 0) s = .next (s.coreTrap n Cause.LOAD_MISALIGNED pa) ∧
        ∀ ntl, exec (.coreStore n rs2 pa sz ntl 0) s = .next (s.coreTrap n Cause.STORE_MISALIGNED pa)) ∧
      (∀ ntl, let o := pa - mmioAddr 0
        r = .mmio o → pa % 8 = 0 → exec (.coreStore n rs2 pa 8 ntl 0) s = .next (s.mmioStore (.core n) o 8 (s.coreX n rs2)) ∧
        (mmioOk o 8 = true → s.mayRead (.core n) (o / 8 * 8) = true → exec (.coreLoad n rd pa 8 u 0) s = .next (s.setCoreX n rd (s.readReg (o / 8 * 8)))))) ∧
    (∀ (q : Quire) (rd rs2 : Fin 32) (u ntl : Bool), let v := s.coreX n rs2
      let w := v.setWidth 32
      exec (.coreStore n rs2 (quireAddr q) 8 ntl 0) s = exec (.quireAdd (.agent (.core n)) q w) s ∧
      exec (.coreStore n rs2 (quireAddr q + 8) 8 ntl 0) s = exec (.quireSub (.agent (.core n)) q w) s ∧
      exec (.coreStore n rs2 (quireAddr q + 16) 8 ntl 0) s = exec (.arrive (.agent (.core n)) q w) s ∧
      exec (.coreStore n rs2 (quireAddr q + 24) 8 ntl 0) s = exec (.set (.agent (.core n)) q w) s ∧
      exec (.coreStore n rs2 (quireAddr q + 32) 8 ntl 0) s = exec (.config (.agent (.core n)) q v) s ∧
      exec (.coreStore n rs2 (quireAddr q + 56) 8 ntl 0) s = exec (.flagClear (.agent (.core n)) q v) s ∧
      (∀ i : Fin 8, exec (.coreLoad n rd (quireAddr q + 8 * i.val) 8 u 0) s = .next (s.setCoreX n rd (s.quireWord q i)))) ∧
    (s.coreQuiet n → ∀ (pa : Nat),
      let r := s.region pa
      let a := r.key pa
      let line := a / 64 * 64
      (r.isMem = true → s.absent r = false → s.coreOwns n line → k.resv = none → Answers (.cbo n .zero pa) s fun t => s.poisoned line = false ∧ t.dirOf line = some (.owner .cores) ∧
        (∃ x, t.heldLine .cores line = some x ∧ x.dirty = true ∧ x.owner = some n.val ∧ ∀ i < 64, x.data.getD i 0 = 0) ∧ t.mem.cells = s.mem.cells) ∧
      (∀ x, r.isMem = true → s.absent r = false → s.heldLine .cores line = some x → x.dirty = true →
        (Answers (.cbo n .clean pa) s fun t => t.heldLine .cores line = some { x with dirty := false, owner := none } ∧ t.mem.cells = Memory.writeBytes line x.data s.mem.cells ∧
          t.regs = s.regs ∧ t.mem.dir = s.mem.dir) ∧
        (∀ op, op = .flush ∨ op = .inval → Answers (.cbo n op pa) s fun t => t.heldLine .cores line = none ∧ t.mem.cells = Memory.writeBytes line x.data s.mem.cells ∧
          t.regs = s.regs ∧ (∀ b, b ≠ line → t.dirOf b = s.dirOf b))) ∧
      (plainRegion r = true → r.isMem = false → exec (.cbo n .clean pa) s = .next s ∧ exec (.cbo n .flush pa) s = .next s ∧ exec (.cbo n .inval pa) s = .next s) ∧
      (plainRegion r = false → ∀ op, exec (.cbo n op pa) s = .next (s.coreTrap n Cause.STORE_ACCESS pa)) ∧
      (pa % 8 = 0 → s.unaccepted (.core n) = [] → s.feCheck pa = .ok → s.sync.waiters = [] → ∀ (rd rs2 : Fin 32),
        (s.wordFull a = false → s.ownerOf line = none → Answers (.kWef n rd rs2 pa) s fun t => t.wordFull a = true ∧ t.coreX n rd = 0 ∧
          (∀ i < 8, Memory.read (a + i) t.mem.cells = BitVec.ofNat 8 ((s.coreX n rs2).toNat >>> (8 * i)))) ∧
        (s.wordFull a = true → exec (.kWef n rd rs2 pa) s = .next (s.setCoreX n rd 1)) ∧
        (s.wordFull a = false → ∀ dst, exec (.kRfe n rd pa dst) s = .next (s.setCoreX n rd 1) ∧ exec (.kRff n rd pa dst) s = .next (s.setCoreX n rd 1)) ∧
        (∀ dst, s.wordFull a = true → s.dirOf line = none → (s.region dst).isMem = true → dst % 64 + 8 ≤ 64 →
          Answers (.kRfe n rd pa dst) s (fun t => t.coreX n rd = 0 ∧ t.wordFull a = false ∧ (t.core n).sb = [{ addr := (s.region dst).key dst, data := s.feWord a }] ∧ t.mem.cells = s.mem.cells) ∧
          Answers (.kRff n rd pa dst) s (fun t => t.coreX n rd = 0 ∧ (t.core n).sb = [{ addr := (s.region dst).key dst, data := s.feWord a }] ∧ t.mem = s.mem)) ∧
        Answers (.kPurge n rd pa) s (fun t => t.coreX n rd = 0 ∧ t.wordFull a = false ∧ t.mem.cells = s.mem.cells)) ∧
      (pa % 8 ≠ 0 → ∀ (rd rs2 : Fin 32) (dst : Nat), (∀ i ∈ [Instr.kWef n rd rs2 pa, .kRfe n rd pa dst, .kRff n rd pa dst, .kPurge n rd pa], exec i s = .next (s.coreTrap n Cause.STORE_MISALIGNED pa))))

/-- An AMO or compare-and-swap on memory reads its word, stores the result in the line the cores then own, and returns the old value; LR also reserves its 128-byte granule; SC stores and returns 0 while the reservation stands and else returns 1, and ends the reservation. Other cores' reservations on a granule written are lost. Misaligned, and outside the cached regions, each takes its exception. wrs waits while a reservation stands, wrs.sto for 1 µs at most; an interrupt ends the waits and the reservation. (14_cores.md, R358, R397, R400, R401, R402) -/
def Obligations.CoreAtomics : Prop :=
  ∀ (s : State) (n : Fin 96), s.On →
    let k := s.core n
    (s.coreRuns n = true → s.coreQuiet n → ∀ (op : AmoOp) (rd rs2 : Fin 32) (pa sz : Nat), (sz = 4 ∨ sz = 8 ∨ (sz = 16 ∧ op = .cas)) →
      let a := (s.region pa).key pa
      let line := a / 64 * 64
      let x : BitVec (8 * sz) := BitVec.ofNat _ (leNat ((List.range sz).map fun i => (s.coreBytes line).getD (a % 64 + i) 0))
      let y : BitVec (8 * sz) := BitVec.ofNat _ (s.regValue n rs2 sz)
      let z : BitVec (8 * sz) := amoStored op x y
      let got (t : State) : Prop := (rd ≠ 0 → t.regValue n rd sz = x.toNat ∧ (sz ≤ 8 → t.coreX n rd = x.signExtend 64)) ∧
        (∀ i, i ≠ rd.val → (sz = 16 → i ≠ rd.val + 1) → t.coreX n i = s.coreX n i)
      (pa % sz = 0 → coreCached (s.region pa) = true → a % sz = 0 → s.coreOwns n a →
        (op ≠ .cas ∨ x.toNat = s.regValue n rd sz → Answers (.coreAmo n op rd rs2 pa sz) s fun t => got t ∧ s.coreWrote t n a (leBytes sz z.toNat)) ∧
        (op = .cas → x.toNat ≠ s.regValue n rd sz → Answers (.coreAmo n op rd rs2 pa sz) s fun t => got t ∧ t.coreBytes line = s.coreBytes line ∧ t.mem.cells = s.mem.cells ∧ RegsBut [R.HL_BISNP] s t) ∧
        (sz ≤ 8 → Answers (.lr n rd pa sz) s fun t => got t ∧ (t.core n).resv = some (a / 128) ∧ t.mem.cells = s.mem.cells ∧ RegsBut [R.HL_BISNP] s t) ∧
        (sz ≤ 8 → k.resv = some (a / 128) → Answers (.sc n rd rs2 pa sz) s fun t => s.coreWrote t n a (leBytes sz y.toNat) ∧ t.coreX n rd = 0 ∧ (t.core n).resv = none)) ∧
      (pa % sz = 0 → coreCached (s.region pa) = true → sz ≤ 8 → k.resv ≠ some (a / 128) →
        exec (.sc n rd rs2 pa sz) s = .next ((s.setCore n { k with resv := none }).setCoreX n rd 1)) ∧
      (pa % sz ≠ 0 → exec (.coreAmo n op rd rs2 pa sz) s = .next (s.coreTrap n Cause.STORE_MISALIGNED pa) ∧ exec (.lr n rd pa sz) s = .next (s.coreTrap n Cause.LOAD_MISALIGNED pa) ∧
        exec (.sc n rd rs2 pa sz) s = .next (s.coreTrap n Cause.STORE_MISALIGNED pa)) ∧
      (pa % sz = 0 → coreCached (s.region pa) = false → exec (.coreAmo n op rd rs2 pa sz) s = .next (s.coreTrap n Cause.STORE_ACCESS pa) ∧
        exec (.lr n rd pa sz) s = .next (s.coreTrap n Cause.LOAD_ACCESS pa) ∧ exec (.sc n rd rs2 pa sz) s = .next (s.coreTrap n Cause.STORE_ACCESS pa))) ∧
    (s.coreRuns n = true → ∀ sto : Bool, (k.resv = none → exec (.wrs n sto) s = .next s) ∧
      (k.resv ≠ none → exec (.wrs n sto) s = .next (s.setCore n { k with waitWrs := some (sto, s.now) }))) ∧
    (∀ m : Moment, (∀ z, k.waitWrs = some (true, z) → z + 16000 ≤ m → exec (.wrsTimeout m n) s = .next ((s.atTime m).setCore n { k with waitWrs := none })) ∧
      ((∀ z, k.waitWrs = some (true, z) → m < z + 16000 ∧ s.now ≤ m) → exec (.wrsTimeout m n) s = .next (s.atTime m))) ∧
    (s.fld (R.C_STATUS n) F.C_STATUS.STATE = 0 → exec (.interruptTaken n) s =
      .next (s.setCore n { k with waitFence := false, waitDfence := none, waitWrs := none, resv := none, irq23 := false })) ∧
    (∀ c p, s.coreTrap n c p = s.setCore n { k with lastFault := c, faultAddr := p, resv := none, waitWrs := none })

/-- A fence without W before it waits for nothing; one with W performs the core's stores, and with O after it the core waits until they are accepted. k.dfence with nothing outstanding returns the loss latch, which it clears, and brings up C_FENCE; it waits while a store is unreceipted. A combined sector leaves after 512 cycles without a store. OFFLINE takes a core in RUN to DRAINING and, once its stores are accepted and its dirty lines home, OFFLINE with its clock gated; ONLINE starts it from reset; a failed core is FAILED, its dirty lines poisoned, with one CORE_FAILED record. (12_ordering.md, 14_cores.md, R355, R357, R358, R360, R410, R411, R416) -/
def Obligations.CoreFencesAndService : Prop :=
  ∀ (s : State) (n : Fin 96), s.On →
    let k := s.core n
    let st := s.fld (R.C_STATUS n) F.C_STATUS.STATE
    (∀ f : FenceSets, st = 0 → k.waitDfence = none → k.waitWrs = none →
      (f.predW = false → exec (.fence n f) s = .next (s.setCore n { k with waitFence := false })) ∧
      (f.predW = true → k.sb = [] → (f.succO = true → k.early = []) → Answers (.fence n f) s fun t => (t.core n).comb = [] ∧
        ((t.core n).waitFence = true ↔ t.unaccepted (.core n) ≠ []) ∧ t.mem.cells = s.mem.cells) ∧
      (f.predW = true → k.sb = [] → k.comb = [] → (f.succO = true → k.early = []) → s.unaccepted (.core n) = [] → exec (.fence n f) s = .next (s.setCore n { k with waitFence := false }))) ∧
    (∀ rd : Fin 32, s.coreRuns n = true → k.sb = [] → k.comb = [] → k.early = [] →
      (s.unreceipted (.core n) ≠ [] → exec (.kDfence n rd) s = .next (s.setCore n { k with waitDfence := some rd.val })) ∧
      (s.unreceipted (.core n) = [] → k.loss = none → Answers (.kDfence n rd) s fun t => t.coreX n rd = 0 ∧ t.regs = s.regs ∧ t.mem = s.mem) ∧
      (∀ p, s.unreceipted (.core n) = [] → k.loss = some p → Answers (.kDfence n rd) s fun t => (rd ≠ 0 → t.coreX n rd = 1) ∧ (t.core n).loss = none ∧
        t.fld (R.C_FENCE n) F.C_FENCE.LOST = 1 ∧
        (s.fld (R.C_FENCE n) F.C_FENCE.LOST = 1 → t.fld (R.C_FENCE n) F.C_FENCE.FIRST_PKG = s.fld (R.C_FENCE n) F.C_FENCE.FIRST_PKG ∧
          t.fld (R.C_FENCE n) F.C_FENCE.LOST_FENCES = min 0xFFFF (s.fld (R.C_FENCE n) F.C_FENCE.LOST_FENCES + 1)) ∧
        (s.fld (R.C_FENCE n) F.C_FENCE.LOST = 0 → t.fld (R.C_FENCE n) F.C_FENCE.FIRST_PKG = p.val ∧ t.fld (R.C_FENCE n) F.C_FENCE.LOST_FENCES = 1) ∧
        t = { s with regs := t.regs, cores := t.cores } ∧ RegsBut [R.C_FENCE n] s t)) ∧
    (∀ (m : Moment) (c : Comb), s.now ≤ m → k.comb.find? (fun x => x.sector == c.sector) = some c →
      let cur := s.fld (R.C_CLK n) F.C_CLK.CUR
      (cur ≠ 0 → 512 * 640 ≤ (m - c.lastAt) * cur → Answers (.combineTimeout m n c.sector) s fun t => (t.core n).comb = k.comb.filter (fun x => x.sector != c.sector)) ∧
      ((m - c.lastAt) * cur < 512 * 640 → exec (.combineTimeout m n c.sector) s = .next (s.atTime m))) ∧
    (∀ (w : RegW) (v : Word), s.Writes w (R.C_CTL n) v →
      let refused (t : State) : Prop := t.lastRaised.map (fun r => (r.status, r.sev)) = some (St.CORE_CTL_REFUSED, Sev.INFO) ∧ t = { s with faults := t.faults }
      (v.get 1 0 = 3 → Answers (.coreOffline w n) s refused ∧ Answers (.coreOnline w n) s refused) ∧
      (v.get 1 0 = 1 → st ≠ 0 → Answers (.coreOffline w n) s refused) ∧ (v.get 1 0 = 2 → st = 3 → Answers (.coreOnline w n) s refused) ∧
      (v.get 1 0 = 1 → st = 0 → k.sb = [] → k.comb = [] → k.early = [] → Answers (.coreOffline w n) s fun t => t.fld (R.C_STATUS n) F.C_STATUS.STATE = 1 ∧
        t.core n = { k with waitFence := false, waitDfence := none, waitWrs := none } ∧ t = { s with regs := t.regs, cores := t.cores } ∧ RegsBut [R.C_STATUS n] s t) ∧
      (v.get 1 0 = 2 → st = 2 → Answers (.coreOnline w n) s fun t => t.core n = {} ∧ t.fld (R.C_STATUS n) F.C_STATUS.STATE = 0 ∧
        t.fld (R.C_CLK n) F.C_CLK.CUR = s.coreClock n % 2 ^ (F.C_CLK.CUR.hi + 1 - F.C_CLK.CUR.lo) ∧ t.coreRuns n = true ∧
        t = { s with regs := t.regs, cores := t.cores } ∧ RegsBut [R.C_STATUS n, R.C_CLK n] s t)) ∧
    (st = 1 → k.sb = [] → k.comb = [] → k.early = [] → s.unreceipted (.core n) = [] →
      (s.dirtyOf n = [] → Answers (.coreDrained n) s fun t => t.fld (R.C_STATUS n) F.C_STATUS.STATE = 2 ∧ t.fld (R.C_CLK n) F.C_CLK.CUR = 0 ∧ t.core n = {} ∧
        t = { s with regs := t.regs, cores := t.cores } ∧ RegsBut [R.C_STATUS n, R.C_CLK n] s t) ∧
      (∀ line x, s.dirtyOf n = [line] → s.heldLine .cores line = some x → x.dirty = true → Answers (.coreDrained n) s fun t => t.fld (R.C_STATUS n) F.C_STATUS.STATE = 2 ∧
        t.heldLine .cores line = some { x with dirty := false, owner := none } ∧ t.mem.cells = Memory.writeBytes line x.data s.mem.cells ∧ RegsBut [R.C_STATUS n, R.C_CLK n] s t)) ∧
    (st = 1 → s.coreQuiet n → s.unreceipted (.core n) ≠ [] → exec (.coreDrained n) s = .next s) ∧ (st ≠ 1 → exec (.coreDrained n) s = .next s) ∧
    (st ≠ 2 → st ≠ 3 → Answers (.coreFailed n) s fun t => t.fld (R.C_STATUS n) F.C_STATUS.STATE = 3 ∧ t.fld (R.C_STATUS n) F.C_STATUS.POISONED = min 0xFFFF (s.dirtyOf n).length ∧
      t.fld (R.C_CLK n) F.C_CLK.CUR = 0 ∧ t.core n = {} ∧ (∀ a ∈ s.dirtyOf n, t.poisoned a = true ∧ t.heldLine .cores a = none) ∧ t.mem.cells = s.mem.cells ∧
      t.lastRaised.map (fun r => (r.status, r.sev, r.index, r.arg0)) = some (St.CORE_FAILED, Sev.FATAL_UNIT, n.val, BitVec.ofNat 64 (s.dirtyOf n).length) ∧
      RegsBut [R.C_STATUS n, R.C_CLK n] s t) ∧
    ((st = 2 ∨ st = 3) → exec (.coreFailed n) s = .next s)

/-- OPEN with no named slot locked claims and clears its slots; with one locked it waits and MA_CYC_STALL counts. LOAD writes the shadow plane with its rows and scales, tagged with the context. STREAM outside the group, from an empty or foreign plane, of a pair not accepted, or from outside the regions stops with its code before a row issues; else the planes are exchanged if SWAP asks for it and the stream runs. SEAL with DISCARD releases the slots; else SPINE_PUSH pushes one locked entry per slot while the spine has room, and the last ends the group. A slot whose tile is read is released. The order of a STREAM's checks and one MA_CYC_STALL per waiting step are the model's choice. (04_arrays.md, 06_spine_vector.md, R98, R100, R101, R102, R104, R110, R111, R112, R130, R161) -/
def Obligations.ArrayGroups : Prop :=
  (∀ (s : State) (d : Die) (m : Fin 8) (c : Cx) (f : Flight), s.On → s.front d m.val = some (c, f) →
    let a := s.arr d m
    let k := f.cmd
    let st := R.MA_STATUS d m
    let act := s.maActive d m
    let stops (code addr : Nat) (t : State) : Prop := EngineStops d m.val c f.slot code addr s t
    let cleared (base n : Nat) (b : ArraySt) : Prop :=
      (∀ i : Nat, Sparse.get 0 i b.acc = if base ≤ i % 4096 / 128 ∧ i % 4096 / 128 < base + n then 0 else Sparse.get 0 i a.acc) ∧
      (∀ i : Nat, b.sat.contains i = (a.sat.contains i && !(decide (base ≤ i) && decide (i < base + n)))) ∧
      (∀ i : Nat, b.poison.contains i = (a.poison.contains i && !(decide (base ≤ i) && decide (i < base + n))))
    (k.engine = m.val → k.isArray 1 = true →
      let base := k.w2.get 4 0
      let n := k.w2.get 10 5
      ((∀ i < n, s.slotLocked d m (base + i) = false) → Answers (.openGroup d m) s fun t =>
        let b := t.arr d m
        b.group = some { cx := c.val, base := base, count := n, accInt := k.w2.bit 11, part := k.part, epoch := f.inst, activeAtOpen := act } ∧ cleared base n b ∧
        b = { a with group := b.group, acc := b.acc, sat := b.sat, poison := b.poison, ints := b.ints, p0 := { a.p0 with inGroup := false }, p1 := { a.p1 with inGroup := false } } ∧
        t.fld st F.MA_STATUS.GROUP_OPEN = 1 ∧ t.fld st F.MA_STATUS.OWNER = c.val ∧ t.fld st F.MA_STATUS.SLOT_BASE = base ∧ t.fld st F.MA_STATUS.SLOT_COUNT = n ∧
        FlightBy d c f.slot ended s t ∧ ArrayOnly d m [st] s t) ∧
      (¬ (∀ i < n, s.slotLocked d m (base + i) = false) → exec (.openGroup d m) s = .next (s.count (R.MA_CYC_STALL d m) 1))) ∧
    (k.engine = m.val → k.isArray 2 = true →
      let sh := 1 - act
      let row (r : Nat) : Option (List Byte × Bool) := s.nearRun d c f.inst (arrayStream m.val 0) (k.loadRow r) (rowBytes k.loadFmt)
      let scale (r : Nat) : Option (List Byte × Bool) := s.nearRun d c f.inst (arrayStream m.val 2) (k.loadScale r) 4
      let forbidden := k.loadScaled = true ∧ isIntFmt k.loadFmt = true
      (forbidden → Answers (.load d m) s (stops Ma.FORMAT_PAIR 0)) ∧
      (¬ forbidden → ∀ va ∈ s.badRegion d c (loadPort m) false k.loadRuns, Answers (.load d m) s (stops Ma.SRC_REGION va)) ∧
      (¬ forbidden → s.flag (R.MA_CFG d m) F.MA_CFG.CRC_CHECK = false → f.prog = 0 → (s.cx d c).flight f.slot = some f → (∀ r < k.loadRows, (row r).isSome = true) →
        (k.loadScaled = true → ∀ r < k.loadRows, (scale r).isSome = true) → Answers (.load d m) s fun t =>
          (t.arr d m).plane sh = { valid := true, fmt := k.loadFmt, rows := (List.range k.loadRows).map fun r => unpackBits (fmtBits k.loadFmt) 128 ((row r).getD ([], false)).1, scales := (if k.loadScaled then (List.range k.loadRows).map fun r => ((scale r).getD ([], false)).1.map BitVec.toNat else []), tag := c.val, poison := (List.range k.loadRows).any fun r => ((row r).getD ([], false)).2 || (k.loadScaled && ((scale r).getD ([], false)).2), inGroup := f.inGroup, taken := false } ∧
          t.arr d m = a.setPlane sh ((t.arr d m).plane sh) ∧ t.fld st (if sh = 0 then F.MA_STATUS.P0_VALID else F.MA_STATUS.P1_VALID) = 1 ∧ t.maActive d m = act ∧
          FlightBy d c f.slot (fun g => { ended g with prog := k.loadRows }) s t ∧ ArrayOnly d m [st, R.MA_CRC_UNVERIFIED d m] s t)) ∧
    (k.engine = m.val → k.isArray 3 = true → f.phase = .issued → k.strFmt ∈ streamedFmts →
      let p := a.plane (if k.strSwap then 1 - act else act)
      let within := ∃ g ∈ a.group, 128 * g.base ≤ k.strCol ∧ k.strCol + k.strRows ≤ 128 * (g.base + g.count)
      let suits := (isIntFmt p.fmt = true → k.strFmt ∈ [Fmt.INT4, Fmt.INT8, Fmt.INT16, Fmt.T5] ∧ k.strScales = 0) ∧ (isIntFmt p.fmt = false → k.strFmt ∉ [Fmt.INT4, Fmt.INT8, Fmt.INT16]) ∧
        a.group.map (·.accInt) = some (isIntFmt p.fmt)
      (¬ within → Answers (.stream d m) s (stops Ma.ACC_RANGE 0)) ∧
      (within → p.valid = false → Answers (.stream d m) s (stops Ma.PLANE_EMPTY 0)) ∧
      (within → p.valid = true → p.tag ≠ c.val → Answers (.stream d m) s (stops Ma.PLANE_FOREIGN 0)) ∧
      (within → p.valid = true → p.tag = c.val → ¬ suits → Answers (.stream d m) s (stops Ma.FORMAT_PAIR 0)) ∧
      (within → p.valid = true → p.tag = c.val → suits →
        (∀ va ∈ s.badRegion d c (streamPort m) false k.strRuns, Answers (.stream d m) s (stops Ma.SRC_REGION va)) ∧
        (s.badRegion d c (streamPort m) false k.strRuns = none → Answers (.stream d m) s fun t =>
          t.maActive d m = (if k.strSwap then 1 - act else act) ∧ t.arrays = s.arrays ∧ FlightBy d c f.slot (fun g => { g with phase := .running }) s t ∧ ArrayOnly d m [st] s t))) ∧
    (k.engine = m.val → k.isArray 4 = true → f.phase = .issued →
      (k.w2.bit 16 = true → ∀ g ∈ a.group, Answers (.seal d m) s fun t => cleared g.base g.count (t.arr d m) ∧
        t.arr d m = { a with group := none, acc := (t.arr d m).acc, sat := (t.arr d m).sat, poison := (t.arr d m).poison, ints := (t.arr d m).ints } ∧
        t.fld st F.MA_STATUS.GROUP_OPEN = 0 ∧ t.fld st F.MA_STATUS.SLOT_LOCKED = s.fld st F.MA_STATUS.SLOT_LOCKED ∧ FlightBy d c f.slot ended s t ∧ ArrayOnly d m [st] s t) ∧
      (k.w2.bit 16 = false → Answers (.seal d m) s fun t => FlightBy d c f.slot (fun g => { g with phase := .running }) s t ∧ t = { s with cxs := t.cxs })) ∧
    (k.engine = m.val → k.isArray 4 = true → f.phase = .running → ∀ g ∈ a.group, g.base + f.prog < 32 →
      (16 ≤ a.spine.length → exec (.spinePush d m) s = .next ((s.count (R.SPN_CYC_FULL d m) 1).count (R.MA_CYC_STALL d m) 1)) ∧
      (a.spine.length < 16 → Answers (.spinePush d m) s fun t =>
        let i := g.base + f.prog
        (t.arr d m).spine = a.spine ++ (t.arr d m).spine.drop a.spine.length ∧ (t.arr d m).spine.length = a.spine.length + 1 ∧
        (∀ e ∈ (t.arr d m).spine.drop a.spine.length, e.marker = false ∧ e.array = m.val ∧ e.slot = i ∧ e.sat = a.sat.contains i ∧ e.poison = a.poison.contains i ∧ e.accInt = g.accInt ∧
          e.part = g.part ∧ e.owner = g.cx ∧ e.tag = k.w2.get 15 0 ∧ e.place < 16 ∧ (∀ x ∈ a.spine, x.place ≠ e.place) ∧
          (∀ y ∈ g.epoch, s.epInst y.1 = y.2 → e.epochEn = true ∧ e.epoch = y.1 ∧ e.inst = y.2) ∧ (g.epoch = none → e.epochEn = false)) ∧
        (∀ j < 32, t.slotLocked d m j = (s.slotLocked d m j || j == i)) ∧ t.fld (R.SPN_STATUS d m) F.SPN_STATUS.COUNT = a.spine.length + 1 ∧
        t.fld (R.SPN_STATUS d m) F.SPN_STATUS.FULL = (if a.spine.length = 15 then 1 else 0) ∧
        t.arr d m = { a with spine := (t.arr d m).spine, nextPlace := (t.arr d m).nextPlace, group := (t.arr d m).group } ∧
        (f.prog + 1 = g.count → (t.arr d m).group = none ∧ t.fld st F.MA_STATUS.GROUP_OPEN = 0 ∧ FlightBy d c f.slot (fun h => { ended h with prog := f.prog + 1 }) s t) ∧
        (f.prog + 1 ≠ g.count → (t.arr d m).group = some g ∧ FlightBy d c f.slot (fun h => { h with prog := f.prog + 1 }) s t) ∧
        ArrayOnly d m [st, R.SPN_STATUS d m] s t))) ∧
  (∀ (s : State) (d : Die) (m : Fin 8) (i : Fin 32), s.On →
    (i.val ∈ (s.arr d m).readOut → Answers (.slotRelease d m i) s fun t => (∀ j < 32, t.slotLocked d m j = (s.slotLocked d m j && j != i.val)) ∧
      t.arr d m = { s.arr d m with readOut := (s.arr d m).readOut.filter (· != i.val) } ∧ t.cxs = s.cxs ∧ ArrayOnly d m [R.MA_STATUS d m] s t) ∧
    (i.val ∉ (s.arr d m).readOut → exec (.slotRelease d m i) s = .next s))

/-- A row of a running STREAM adds into its accumulator column, for every stationary row not masked, the sum of the 128 products: for integer pairs exactly, saturating at the ends of INT32 and setting the slot's SAT; for floating pairs by the procedure of R107. No other column changes. The last row ends the stream. An uncorrectable error of an entry the row reads, or of the plane, ends the stream with ACC_ECC or PLANE_ECC, the plane emptied; a correctable one changes no sum and is recorded once. A rime row, or a ballast operation on an idle unit, is counted and changes no sum, plane or memory. (04_arrays.md, 18_power.md, R97, R105, R107, R108, R113, R126, R127, R484) -/
def Obligations.ArrayRows : Prop :=
  (∀ (s : State) (d : Die) (m : Fin 8) (c : Cx) (f : Flight), s.On → s.front d m.val = some (c, f) → f.cmd.engine = m.val → f.cmd.isArray 3 = true → f.phase = .running →
    (s.cx d c).flight f.slot = some f →
    let a := s.arr d m
    let k := f.cmd
    let act := s.maActive d m
    let p := a.plane act
    let col := k.strCol + f.prog
    let slot := col / 128
    let st := R.MA_STATUS d m
    let hit := a.acc.any fun x => x.1 % 4096 / 128 == slot
    let row := s.nearRun d c f.inst (arrayStream m.val 1) (k.strRow f.prog) (rowBytes k.strFmt)
    let scale := s.nearRun d c f.inst (arrayStream m.val 2) (k.strScale f.prog) k.strScaleBytes
    (s.flag (R.MA_CFG d m) F.MA_CFG.CRC_CHECK = false → ∀ x ∈ row, (k.strScales ≠ 0 → scale.isSome = true) →
      let ss : List Byte × Bool := if k.strScales = 0 then ([], false) else scale.getD ([], false)
      let bad := x.2 || ss.2 || p.poison
      Answers (.rowIssue d m .none) s fun t =>
        let b := t.arr d m
        let wts : List Int := if k.strFmt = Fmt.T5 then (readNums Fmt.T5 128 x.1).1.map fun y => y.dy.1 else (unpackBits (fmtBits k.strFmt) 128 x.1).map fun y => (BitVec.ofNat (fmtBits k.strFmt) y).toInt
        (∀ r < 128, k.strOff r = true → Sparse.get 0 (4096 * r + col) b.acc = Sparse.get 0 (4096 * r + col) a.acc) ∧
        (∀ i : Nat, i % 4096 ≠ col % 4096 → Sparse.get 0 i b.acc = Sparse.get 0 i a.acc) ∧
        (col < 4096 → p.fmt ∈ [Fmt.INT8, Fmt.INT16] → k.strFmt ∈ [Fmt.INT4, Fmt.INT8, Fmt.INT16, Fmt.T5] → ∀ r < 128, k.strOff r = false →
          let old := (BitVec.ofNat 32 (Sparse.get 0 (4096 * r + col) a.acc)).toInt
          let sum := old + (List.zipWith (fun u y => (BitVec.ofNat (fmtBits p.fmt) u).toInt * y) (p.row r) wts).sum
          (BitVec.ofNat 32 (Sparse.get 0 (4096 * r + col) b.acc)).toInt = max (-(2 ^ 31)) (min (2 ^ 31 - 1) sum) ∧ ((sum < -(2 ^ 31) ∨ 2 ^ 31 ≤ sum) → slot ∈ b.sat)) ∧
        (col < 4096 → isIntFmt p.fmt = false → b.sat = a.sat ∧ ∀ r < 128, k.strOff r = false → Sparse.get 0 (4096 * r + col) b.acc =
          accFloat (Sparse.get 0 (4096 * r + col) a.acc) (dotFloat (if k.strScales = 2 then 16 else 32) ((p.row r).map (decodeNum p.fmt)) (readNums k.strFmt 128 x.1).1
            (ss.1.map fun y => decodeNum (if k.strScales = 1 then Fmt.E8M0 else Fmt.UE4M3) y.toNat) ((p.scales.getD r []).map (decodeNum Fmt.E8M0)))) ∧
        (∀ i : Nat, b.poison.contains i = (a.poison.contains i || (bad && i == slot))) ∧
        b = { a with acc := b.acc, sat := b.sat, poison := b.poison, p0 := { a.p0 with taken := true }, p1 := { a.p1 with taken := true }, rimeRun := 0 } ∧
        t.fld (R.MA_ROWS d m) F.CTR.COUNT = (s.fld (R.MA_ROWS d m) F.CTR.COUNT + 1) % 2 ^ 48 ∧ t.fld st F.MA_STATUS.RIME = 0 ∧
        (f.prog + 1 = k.strRows → FlightBy d c f.slot (fun g => { ended g with prog := f.prog + 1 }) s t) ∧
        (f.prog + 1 ≠ k.strRows → FlightBy d c f.slot (fun g => { g with prog := f.prog + 1, held := none }) s t) ∧
        ArrayOnly d m [st, R.MA_ROWS d m, R.MA_CYC_BUSY d m, R.MA_CRC_UNVERIFIED d m] s t ∧
        (∀ i : Fin 32, Answers (.rowIssue d m (.accCorrectable i)) s fun u => (u.arr d m).acc = b.acc ∧ u.cxs = t.cxs ∧
          (i.val = slot → hit = true → i.val ∉ a.ceNoted → u.arr d m = { b with ceNoted := i.val :: a.ceNoted } ∧
            ((u.faults.raised.drop s.faults.raised.length).head?.map fun y => (y.status, y.sev, y.kind, y.die, y.index, y.arg0)) = some (St.ACC_CE, Sev.CORRECTED, Uk.ARRAY, d.val, m.val, BitVec.ofNat 64 i)) ∧
          (¬ (i.val = slot ∧ hit = true ∧ i.val ∉ a.ceNoted) → u = t)) ∧
        (∀ i : Fin 32, ¬ (i.val = slot ∧ hit = true) → Answers (.rowIssue d m (.accUncorrectable i)) s fun u => u = t)) ∧
    (∀ i : Fin 32, i.val = slot → hit = true → Answers (.rowIssue d m (.accUncorrectable i)) s fun t => FlightBy d c f.slot (stopped Ma.ACC_ECC 0) s t ∧
      FaultTold d m.val c.val f.slot Ma.ACC_ECC 0 s t ∧ t.arrays = s.arrays ∧ ArrayOnly d m [R.MA_FAULT d m, R.MA_FAULT_ADDR d m, st] s t) ∧
    Answers (.rowIssue d m .planeUncorrectable) s fun t => FlightBy d c f.slot (stopped Ma.PLANE_ECC 0) s t ∧ FaultTold d m.val c.val f.slot Ma.PLANE_ECC 0 s t ∧
      t.arr d m = a.setPlane act {} ∧ t.fld st (if act = 0 then F.MA_STATUS.P0_VALID else F.MA_STATUS.P1_VALID) = 0 ∧ ArrayOnly d m [R.MA_FAULT d m, R.MA_FAULT_ADDR d m, st] s t) ∧
  (∀ (s : State) (d : Die) (m : Fin 8), s.On →
    let a := s.arr d m
    let p := a.plane (s.maActive d m)
    let may := s.engIn d m.val = true ∧ s.rimeAsked d = true ∧ s.flag (R.MA_CFG d m) F.MA_CFG.RIME_ALLOW = true ∧ p.valid = true ∧ p.taken = true ∧ a.rimeRun < 256
    (may → Answers (.rimeRow d m) s fun t => t.arr d m = { a with rimeRun := a.rimeRun + 1 } ∧
      t.fld (R.MA_CYC_RIME d m) F.CTR.COUNT = (s.fld (R.MA_CYC_RIME d m) F.CTR.COUNT + 1) % 2 ^ 48 ∧ t.fld (R.MA_STATUS d m) F.MA_STATUS.RIME = 1 ∧ t.cxs = s.cxs ∧
      ArrayOnly d m [R.MA_CYC_RIME d m, R.MA_STATUS d m] s t) ∧
    (¬ may → exec (.rimeRow d m) s = .next s)) ∧
  (∀ (s : State) (d : Die) (u : Fin 16), s.On →
    let may := s.flag R.LS_CFG F.LS_CFG.EN = true ∧ s.flag R.LS_CFG F.LS_CFG.BALLAST_EN = true ∧ s.power.below = true ∧ s.dieIn d = true ∧ s.ballastFree d u = true ∧ d.val ∉ s.power.doze ∧
      s.fld R.PWR_REST_STATUS F.PWR_REST_STATUS.STATE = 0
    (may → Answers (.ballastRow d u) s fun t => t.fld (R.PWR_D_BALLAST d) F.CTR.COUNT = (s.fld (R.PWR_D_BALLAST d) F.CTR.COUNT + 1) % 2 ^ 48 ∧
      t.fld R.LS_STATUS F.LS_STATUS.BALLAST_NOW = 1 ∧ RegsBut [R.PWR_D_BALLAST d, R.LS_STATUS] s t ∧ OnlyWraps s t ∧ t = { s with regs := t.regs, faults := t.faults }) ∧
    (¬ may → exec (.ballastRow d u) s = .next s))

/-- OFFLINE takes an idle engine out of service at once; one with a command, or an array with a group, leaves when it has ended. ONLINE returns it, an array with its planes empty and its slots free, unless its fault register holds a hardware failure: that, and a write with both bits set, places the refusal record of its kind. A failure takes the engine out of service with a FATAL_UNIT record that names it, and ends its command. (04_arrays.md, 06_spine_vector.md, 07_dma.md, R131, R132, R190, R191, R218, R220) -/
def Obligations.EngineService : Prop :=
  ∀ (s : State) (w : RegW) (v : Word) (d : Die), s.On →
    let told (st : Nat) (t : State) : Prop := t.lastRaised.map (fun z => (z.status, z.sev)) = some (st, Sev.INFO) ∧ t = { s with faults := t.faults }
    let idle (u : Nat) : Prop := ∀ p ∈ s.dieFlights d, p.2.cmd.kind ≠ 3 → p.2.cmd.engine = u → p.2.busy = false ∧ (u < 8 → p.2.inGroup = false)
    let engBut (u : Nat) (t : State) : Prop := ∀ k, k ≠ 32 * d.val + u → Sparse.get {} k t.eng = Sparse.get {} k s.eng
    let off (i : Instr) (u ctl status st : Nat) : Prop := s.Writes w ctl v →
      (v.get 1 0 = 1 → Answers i s fun t => (idle u → t.engIn d u = false ∧ (t.eng1 d u).offReq = false) ∧ (¬ idle u → t.engIn d u = s.engIn d u ∧ (t.eng1 d u).offReq = true) ∧
        (t.eng1 d u).last = (s.eng1 d u).last ∧ engBut u t ∧ RegsBut [status] s t ∧ t = { s with regs := t.regs, eng := t.eng }) ∧
      (v.get 1 0 = 3 → Answers i s (told st)) ∧ (v.bit 0 = false → exec i s = .next s)
    let on (i : Instr) (u ctl fault code status st : Nat) : Prop := s.Writes w ctl v →
      let broken := s.flag fault F.MA_FAULT.VALID = true ∧ s.fld fault F.MA_FAULT.CODE = code
      (v.get 1 0 = 2 → broken → Answers i s (told st)) ∧
      (v.get 1 0 = 2 → ¬ broken → Answers i s fun t => t.engIn d u = true ∧ (t.eng1 d u).offReq = false ∧ (t.eng1 d u).last = (s.eng1 d u).last ∧ engBut u t ∧
        (8 ≤ u → RegsBut [status] s t ∧ t = { s with regs := t.regs, eng := t.eng })) ∧
      (v.get 1 0 = 3 → Answers i s (told st)) ∧ (v.bit 1 = false → exec i s = .next s)
    let fails (i : Instr) (u code kind index status : Nat) : Prop :=
      (s.engIn d u = true → Answers i s fun t => t.engIn d u = false ∧
        t.lastRaised.map (fun z => (z.status, z.sev, z.detail, z.kind, z.die, z.index)) = some (St.ENGINE_FAULT, Sev.FATAL_UNIT, code, kind, d.val, index) ∧
        (∀ p ∈ s.front d u, p.2.cmd.engine = u → FlightBy d p.1 p.2.slot (stopped code 0) s t ∧ FaultTold d u p.1 p.2.slot code 0 s t) ∧
        (s.front d u = none → t.cxs = s.cxs ∧ FaultTold d u 0 0 code 0 s t) ∧ engBut u t ∧ RegsBut [status, (faultRegs d u).1, (faultRegs d u).2] s t ∧
        t = { s with regs := t.regs, faults := t.faults, cxs := t.cxs, eng := t.eng, power := { s.power with ranAt := t.power.ranAt } }) ∧
      (s.engIn d u = false → exec i s = .next s)
    (∀ m : Fin 8, off (.maOffline w d m) m (R.MA_CTL d m) (R.MA_STATUS d m) St.MA_CTL_REFUSED ∧
      on (.maOnline w d m) m (R.MA_CTL d m) (R.MA_FAULT d m) Ma.ARRAY_HW (R.MA_STATUS d m) St.MA_CTL_REFUSED ∧
      (s.Writes w (R.MA_CTL d m) v → v.get 1 0 = 2 → s.engIn d m.val = false → ¬ (s.flag (R.MA_FAULT d m) F.MA_FAULT.VALID = true ∧ s.fld (R.MA_FAULT d m) F.MA_FAULT.CODE = Ma.ARRAY_HW) →
        Answers (.maOnline w d m) s fun t =>
        let a := t.arr d m
        a.p0.valid = false ∧ a.p1.valid = false ∧ a.acc = [] ∧ a.group = none ∧ (∀ i < 32, t.slotLocked d m i = false) ∧ t.fld (R.MA_STATUS d m) F.MA_STATUS.P0_VALID = 0 ∧
        t.fld (R.MA_STATUS d m) F.MA_STATUS.P1_VALID = 0 ∧ t.fld (R.MA_STATUS d m) F.MA_STATUS.GROUP_OPEN = 0 ∧ ArrBut d m s t ∧ RegsBut [R.MA_STATUS d m, R.SPN_STATUS d m] s t ∧
        t = { s with regs := t.regs, eng := t.eng, arrays := t.arrays }) ∧
      fails (.arrayHw d m) m Ma.ARRAY_HW Uk.ARRAY m (R.MA_STATUS d m)) ∧
    (∀ x : Fin 8, off (.veOffline w d x) (8 + x) (R.VE_CTL d x) (R.VE_STATUS d x) St.VE_CTL_REFUSED ∧
      on (.veOnline w d x) (8 + x) (R.VE_CTL d x) (R.VE_FAULT d x) Vc.VE_HW (R.VE_STATUS d x) St.VE_CTL_REFUSED ∧ fails (.veHw d x) (8 + x) Vc.VE_HW Uk.VECTOR x (R.VE_STATUS d x)) ∧
    (∀ e : Fin 16, off (.dmOffline w d e) (16 + e) (R.DM_CTL d e) (R.DM_STATUS d e) St.DM_CTL_REFUSED ∧
      on (.dmOnline w d e) (16 + e) (R.DM_CTL d e) (R.DM_FAULT d e) Dc.DM_HW (R.DM_STATUS d e) St.DM_CTL_REFUSED ∧ fails (.dmHw d e) (16 + e) Dc.DM_HW Uk.DMA e (R.DM_STATUS d e))

/-- A command of no elements ends with nothing read or written. A range outside the partition's window, a destination that overlaps a source other than exactly, and an uncorrectable line stop it with their codes before anything is written. Else the results fill the destination range in order, the AUTO scales theirs, and no other byte of memory changes; its flags join CX_VE_FLAGS and its elements are counted. With every format an integer one, each result is formed exactly and saturates once. What the scratchpad's code corrects is counted; an uncorrectable line is marked, counted and recorded. The checks' order and the cycle count are the model's choice. (06_spine_vector.md, 05_formats.md, R168, R169, R170, R171, R172, R175, R176, R189, R194) -/
def Obligations.VectorStreams : Prop :=
  (∀ (s : State) (d : Die) (v : Fin 8) (c : Cx) (f : Flight) (xs : List ScrFinding), s.On → s.front d (8 + v.val) = some (c, f) → f.cmd.engine = 8 + v.val → f.cmd.kind = 1 →
    let k := f.cmd
    let n := f.count
    let s1 := s.scrAll d xs
    let dst := k.dstRange n
    let srcs := k.srcRanges n
    let given := if k.veQmode = 2 then k.scaleRange n else []
    let all := (dst.1 :: srcs.map (·.1)) ++ k.scaleRange n
    let inside := ∀ r ∈ all, r.1 + r.2 ≤ s.fld (R.SCR_WIN d k.part) F.SCR_WIN.SIZE_MIB * 0x100000
    let clear := ∀ x ∈ srcs, rangesMeet dst.1 x.1 = true → dst = x
    let sound := s1.winBad d k.part (srcs.map (·.1) ++ given) = none
    let stops (code : Nat) (l : List Nat) (t : State) : Prop := ∃ x ∈ l, EngineStops d (8 + v.val) c f.slot code x s1 t
    let rd (fmt off m : Nat) : List Machine.Num × Bool := readNums fmt m (s.cells (s.winAddr d k.part off) (fmtBytes fmt m))
    let a := rd k.veAfmt k.veA n
    let b := rd k.veBfmt k.veB (k.bCount n)
    let e := if k.op = opFMA then rd k.veDfmt k.veDst n else ([], false)
    let z := k.compute n a.1 b.1 e.1 ((given.flatMap fun r => s.cells (s.winAddr d k.part r.1) r.2).map BitVec.toNat)
    let lands := ∀ r ∈ dst.1 :: k.scaleRange n, ∀ i < r.2, s.landsAt d none (s.winAddr d k.part (r.1 + i)) = true
    let does (op : Nat) (i : Instr) : Prop := k.op = op →
      (n = 0 → Answers i s fun t => FlightBy d c f.slot ended s t ∧ t = { s with cxs := t.cxs, power := { s.power with ranAt := t.power.ranAt } }) ∧
      (n ≠ 0 → ¬ inside → Answers i s (stops Vc.VE_RANGE (all.map (·.1)))) ∧
      (n ≠ 0 → inside → ¬ clear → Answers i s (stops Vc.VE_OVERLAP (srcs.map (·.1.1)))) ∧
      (n ≠ 0 → inside → clear → ¬ sound → Answers i s (stops Vc.SCR_ECC ((srcs.map (·.1) ++ given).flatMap fun r => (List.range (r.2 / 64 + 2)).map fun j => r.1 + 64 * j))) ∧
      (n ≠ 0 → inside → clear → sound → lands → s.mem.wrs = [] → Answers i s fun t =>
        t.mem.cells = writeRuns id ((s.winAddr d k.part k.veDst, packElems k.veDfmt z.1) :: (if k.veQmode = 1 then [(s.winAddr d k.part k.veScale, z.2.1.map (BitVec.ofNat 8))] else [])) s.mem.cells ∧
        t.fld (R.CX_VE_FLAGS d c) F.CX_VE_FLAGS.FLAGS = (s.fld (R.CX_VE_FLAGS d c) F.CX_VE_FLAGS.FLAGS ||| z.2.2 ||| (if a.2 || b.2 || e.2 then Flag.INVALID else 0)) % (F.CX_VE_FLAGS.FLAGS.top + 1) ∧
        t.fld (R.VE_ELEMS d v) F.CTR.COUNT = (s.fld (R.VE_ELEMS d v) F.CTR.COUNT + z.1.length) % 2 ^ 48 ∧ FlightBy d c f.slot (fun g => { ended g with tile := none }) s t ∧
        (∀ x ∈ t.mem.scrPoison, x ∈ s1.mem.scrPoison) ∧ t.mem.blocks = s.mem.blocks ∧ t.cores = s.cores ∧ VectorOnly [R.CX_VE_FLAGS d c, R.VE_ELEMS d v, R.VE_CYC_BUSY d v] s1 t)
    does 0x10 (.cvt d v xs) ∧ does opADD (.veAdd d v xs) ∧ does opSUB (.veSub d v xs) ∧ does opMUL (.veMul d v xs) ∧ does opFMA (.veFma d v xs) ∧ does opMAX (.veMax d v xs) ∧ does opMIN (.veMin d v xs) ∧
    does opSEXP (.sexp d v xs) ∧ does opRECIP (.recip d v xs) ∧ does opRSQRT (.rsqrt d v xs) ∧ does opRELU (.relu d v xs) ∧ does opGELU (.gelu d v xs) ∧ does opSILU (.silu d v xs) ∧
    does 0x30 (.rsum d v xs) ∧ does 0x31 (.rmax d v xs) ∧ does 0x32 (.rsumsq d v xs)) ∧
  (∀ (k : Cmd) (n : Nat) (as_ bs cs : List Nat), isIntFmt k.veAfmt = true → isIntFmt k.veBfmt = true → isIntFmt k.veDfmt = true → k.veBmode = 0 →
    let u (fmt : Nat) (l : List Nat) : List Machine.Num := l.map (decodeNum fmt)
    let x (fmt : Nat) (l : List Nat) (i : Nat) : Int := (BitVec.ofNat (fmtBits fmt) (l.getD i 0)).toInt
    let z := k.compute n (u k.veAfmt as_) (u k.veBfmt bs) (u k.veDfmt cs) []
    let top : Int := 2 ^ (fmtBits k.veDfmt - 1)
    let is (i : Nat) (r : Int) : Prop := (BitVec.ofNat (fmtBits k.veDfmt) (z.1.getD i 0)).toInt = max (-top) (min (top - 1) r)
    ∀ i < n, (k.op = opADD → is i (x k.veAfmt as_ i + x k.veBfmt bs i)) ∧ (k.op = opSUB → is i (x k.veAfmt as_ i - x k.veBfmt bs i)) ∧
      (k.op = opMUL → is i (x k.veAfmt as_ i * x k.veBfmt bs i)) ∧ (k.op = opFMA → is i (x k.veAfmt as_ i * x k.veBfmt bs i + x k.veDfmt cs i)) ∧
      (k.op = opMAX → is i (max (x k.veAfmt as_ i) (x k.veBfmt bs i))) ∧ (k.op = opMIN → is i (min (x k.veAfmt as_ i) (x k.veBfmt bs i))) ∧
      (k.op = opRELU → is i (max (x k.veAfmt as_ i) 0)) ∧
      (k.op = 0x30 → k.veSeg n = n → as_.length = n → i = 0 → is 0 ((List.range n).map (x k.veAfmt as_)).sum) ∧
      (k.op = 0x32 → k.veSeg n = n → as_.length = n → i = 0 → is 0 ((List.range n).map fun j => x k.veAfmt as_ j ^ 2).sum)) ∧
  (∀ (s : State) (d : Die) (x : ScrFinding),
    let line := 0x7D000000000000 + d.val * 0x100000000 + x.offset % 0x10000000 / 64 * 64
    let t := s.scrAll d [x]
    (x.kind = .correctable → t = s.count (R.SCR_ECC_CE d) 1) ∧
    (x.kind = .uncorrectable → line ∈ s.mem.scrPoison → t = s) ∧
    (x.kind = .uncorrectable → line ∉ s.mem.scrPoison → t.mem = { s.mem with scrPoison := line :: s.mem.scrPoison } ∧
      t.lastRaised.map (fun y => (y.status, y.sev, y.kind, y.die, y.addr)) = some (St.SCR_UE, Sev.DEFERRED, Uk.DIE, d.val, line) ∧
      t.fld (R.SCR_ECC_UE d) F.CTR.COUNT = (s.fld (R.SCR_ECC_UE d) F.CTR.COUNT + 1) % 2 ^ 48 ∧ RegsBut [R.SCR_ECC_UE d] s t ∧ t = { s with regs := t.regs, faults := t.faults, mem := t.mem }))

/-- TILE and MARK take the oldest entry of their kind whose tag and partition fit; with none the engine waits. A TILE writes the tile, finished by R181, and its scales, in order and nothing else; its slot is then to be released, its entry gone. A poisoned entry, and an uncorrectable error of the tile, end it with TILE_POISON and release the slot; a destination outside its regions stops it before the take. SETLOOP sets CX_VE_LOOP. TRANSPOSE puts the element of row r and column c of each block at row c and column r. RESEAL gives each block the CRC-32C of what is read and clears UNCHECKED and OPEN; CRCV skips unchecked blocks and stops at the first that differs. (06_spine_vector.md, 05_formats.md, R113, R163, R164, R166, R175, R178, R180, R181, R182, R185) -/
def Obligations.VectorTiles : Prop :=
  ∀ (s : State) (d : Die) (v : Fin 8) (c : Cx) (f : Flight), s.On → s.front d (8 + v.val) = some (c, f) → f.cmd.engine = 8 + v.val → f.cmd.kind = 1 →
    let k := f.cmd
    let u := 8 + v.val
    let va := k.w2.get 56 0
    let size := s.fld (R.SCR_WIN d k.part) F.SCR_WIN.SIZE_MIB * 0x100000
    let win (off : Nat) : Nat := s.winAddr d k.part off
    let elems (n : Nat) (t : State) : Prop := t.fld (R.VE_ELEMS d v) F.CTR.COUNT = (s.fld (R.VE_ELEMS d v) F.CTR.COUNT + n) % 2 ^ 48
    let loopRegs := [R.CX_VE_FLAGS d c, R.CX_VE_LOOP d c, R.VE_ELEMS d v, R.VE_CYC_BUSY d v]
    let m := k.w2.get 63 61
    let a := s.arr d m
    let fit (marker : Bool) : Option SpnEnt := a.spine.find? fun e => e.marker == marker && ((BitVec.ofNat 16 e.tag ^^^ BitVec.ofNat 16 (k.w3.get 15 0)) &&& BitVec.ofNat 16 (k.w3.get 31 16)) == 0 && e.part == k.part
    let tagged := ∀ e ∈ a.spine, e.tag < 65536
    (k.op = 3 →
      (k.w2.bit 32 = false → ∀ xs : List ScrFinding, Answers (.setloop d v xs) s fun t => t.fld (R.CX_VE_LOOP d c) F.CX_VE_LOOP.LOOP = k.w2.get 31 0 ∧ FlightBy d c f.slot (fun g => { ended g with tile := none }) s t ∧
        t.mem = s.mem ∧ t.cores = s.cores ∧ VectorOnly loopRegs s t) ∧
      (k.w2.bit 32 = true → k.w3.get 27 0 + 4 ≤ size → s.winBad d k.part [(k.w3.get 27 0, 4)] = none → s.mem.wrs = [] → Answers (.setloop d v []) s fun t =>
        t.fld (R.CX_VE_LOOP d c) F.CX_VE_LOOP.LOOP = leNat (s.cells (win (k.w3.get 27 0)) 4) ∧ FlightBy d c f.slot (fun g => { ended g with tile := none }) s t ∧ t.mem = s.mem ∧ VectorOnly loopRegs s t) ∧
      (k.w2.bit 32 = true → size < k.w3.get 27 0 + 4 → Answers (.setloop d v []) s (EngineStops d u c f.slot Vc.VE_RANGE (k.w3.get 27 0) s)) ∧
      (k.w2.bit 32 = true → k.w3.get 27 0 + 4 ≤ size → ∀ o ∈ s.winBad d k.part [(k.w3.get 27 0, 4)], Answers (.setloop d v []) s (EngineStops d u c f.slot Vc.SCR_ECC o s))) ∧
    (k.op = 2 → f.tile = none → tagged →
      (∀ e ∈ fit true, Answers (.mark d v) s fun t => t.arr d m = { a with spine := a.spine.filter fun x => x.place != e.place } ∧ ArrBut d m s t ∧
        t.fld (R.SPN_STATUS d m) F.SPN_STATUS.COUNT = (a.spine.filter fun x => x.place != e.place).length % 32 ∧ FlightBy d c f.slot (fun g => { ended g with tile := none }) s t ∧
        VectorOnly (R.SPN_STATUS d m :: loopRegs) { s with arrays := t.arrays } t) ∧
      (fit true = none → exec (.mark d v) s = .next s)) ∧
    (k.op = 0x40 → k.veAfmt = k.veDfmt →
      let w := fmtBits k.veAfmt / 8
      let n := f.count
      let ss := k.trSrc w
      let ds := k.trDst w
      let src := (k.veA, 127 * ss + 128 * n * w)
      let dst := (k.veDst, (128 * n - 1) * ds + 128 * w)
      (n = 0 → Answers (.transpose d v []) s fun t => FlightBy d c f.slot ended s t ∧ t = { s with cxs := t.cxs, power := { s.power with ranAt := t.power.ranAt } }) ∧
      (n ≠ 0 → (size < dst.1 + dst.2 ∨ size < src.1 + src.2) → Answers (.transpose d v []) s fun t => ∃ o ∈ [dst.1, src.1], EngineStops d u c f.slot Vc.VE_RANGE o s t) ∧
      (n ≠ 0 → dst.1 + dst.2 ≤ size → src.1 + src.2 ≤ size → rangesMeet dst src = true → dst ≠ src → Answers (.transpose d v []) s (EngineStops d u c f.slot Vc.VE_OVERLAP src.1 s)) ∧
      (n ≠ 0 → w ∈ [1, 2, 4] → dst.1 + dst.2 ≤ size → src.1 + src.2 ≤ size → (rangesMeet dst src = true → dst = src) → 128 * w ≤ ds → s.winBad d k.part [src] = none → s.mem.wrs = [] →
        (∀ i < dst.2, s.landsAt d none (win (dst.1 + i)) = true) → Answers (.transpose d v []) s fun t =>
        (∀ b < n, ∀ y < 128, ∀ z < 128, t.cells (win (k.veDst + (128 * b + z) * ds + y * w)) w = s.cells (win (k.veA + y * ss + (128 * b + z) * w)) w) ∧
        (∀ o : Nat, (o < win dst.1 ∨ win dst.1 + dst.2 ≤ o) → Memory.read o t.mem.cells = Memory.read o s.mem.cells) ∧ elems (16384 * n) t ∧
        FlightBy d c f.slot (fun g => { ended g with tile := none }) s t ∧ t.mem.blocks = s.mem.blocks ∧ VectorOnly loopRegs s t)) ∧
    (k.op = 1 → f.tile = none → f.stage = 0 → f.prog = 0 → tagged → (s.cx d c).flight f.slot = some f →
      let outside := k.tlSp = false ∧ s.badRegion d c (tilePort v) true (k.tlDest ++ k.tlGiven) ≠ none
      (outside → ∀ (xs : List ScrFinding) (ecc : ArrayEcc) (row : Nat), Answers (.tile d v xs ecc row) s fun t => ∃ x ∈ s.badRegion d c (tilePort v) true (k.tlDest ++ k.tlGiven), EngineStops d u c f.slot Vc.DST_REGION x s t) ∧
      (¬ outside → fit false = none → ∀ (xs : List ScrFinding) (ecc : ArrayEcc) (row : Nat), exec (.tile d v xs ecc row) s = .next s) ∧
      (¬ outside → ∀ e ∈ fit false, e.array = m → e.slot < 32 →
        let inst := if e.epochEn then some (e.epoch, e.inst) else f.inst
        let gone := a.spine.filter fun x => x.place != e.place
        let taken (t : State) : Prop := t.fld (R.VE_TILES d v) F.CTR.COUNT = (s.fld (R.VE_TILES d v) F.CTR.COUNT + 1) % 2 ^ 48 ∧ (e.sat = true → t.flag (R.CX_VE_FLAGS d c) F.CX_VE_FLAGS.FLAGS = true) ∧ ArrBut d m s t
        let freed (t : State) : Prop := t.arr d m = { a with spine := gone } ∧ (∀ j < 32, t.slotLocked d m j = (s.slotLocked d m j && j != e.slot)) ∧
          FlightBy d c f.slot (fun g => stopped Vc.TILE_POISON 0 { g with tile := none, stage := 1 }) s t ∧ FaultTold d u c.val f.slot Vc.TILE_POISON 0 s t ∧ t.mem = s.mem
        let vec (on : Bool) (off : Nat) : List Machine.Num := if on then (readNums Fmt.FP32 128 (s.cells (win off) 512)).1 else []
        let key (x : Nat) : Option Nat := if k.tlSp then (if s.landsAt d none (win x) then some (win x) else none) else s.nearDst d c inst (veStream v.val 3) x
        let given (q : Nat) : List Nat := if k.tlQ = 2 then (s.cells (win (k.tlScaleAt q)) k.tlScaleN).map BitVec.toNat else []
        let codes (q : Nat) : List Nat × List (Nat × Nat) × Nat :=
          if tileExact k e then ((List.range 128).map fun p => if k.tlTrans then s.tileEntry d e p q else s.tileEntry d e q p, [], 0)
          else tileCodes k q (s.tileRow d e k q (vec k.tlScaleEn k.tlCscale) (vec k.tlBiasEn k.tlBias)) (given q)
        let puts (q : Nat) : List (Nat × List Byte) := if k.tlPlaces q = [] then [] else
          (k.tlRuns q).map (fun r => (k.tlBase + q * k.tlStride + r.1, ((packElems k.tlFmt (codes q).1).drop r.1).take r.2)) ++ (codes q).2.1.map fun x => (k.tlScaleAt q + x.1, [BitVec.ofNat 8 x.2])
        let srcs := (if k.tlBiasEn then [(k.tlBias, 512)] else []) ++ (if k.tlScaleEn then [(k.tlCscale, 512)] else [])
        (e.poison = true → Answers (.tile d v [] .none 0) s fun t => taken t ∧ freed t) ∧
        (e.poison = false → (∀ r ∈ srcs ++ (if k.tlSp then k.tlDest ++ k.tlGiven else []), r.1 + r.2 ≤ size) → (k.tlSp = true → ∀ x ∈ srcs, ∀ r ∈ k.tlDest ++ k.tlGiven, rangesMeet r x = false) →
          s.winBad d k.part (srcs ++ (if k.tlSp then k.tlGiven else [])) = none → s.mem.wrs = [] → (k.tlQ = 2 → k.tlSp = true ∧ ∀ g ∈ k.tlGiven, ∀ r ∈ k.tlDest, rangesMeet r g = false) →
          (∀ r ∈ k.tlDest, ∀ i < r.2, (key (r.1 + i)).isSome = true) →
          (Answers (.tile d v [] .none 0) s fun t =>
            t.mem.cells = writeRuns (fun x => (key x).getD 0) ((List.range 128).flatMap puts) s.mem.cells ∧ taken t ∧ t.arr d m = { a with spine := gone, readOut := a.readOut ++ [e.slot] } ∧
            elems ((List.range 128).map fun q => (k.tlPlaces q).length).sum t ∧
            (t.cx d c).flights.map (fun g => (g.slot, g.phase, g.tile)) = (s.cx d c).flights.map (fun g => if g.slot = f.slot then (g.slot, .worked, none) else (g.slot, g.phase, g.tile)) ∧ CxBut d c s t ∧
            (∀ o, o ∉ R.SPN_STATUS d m :: R.VE_TILES d v :: loopRegs → (∀ j, o ≠ R.HS_CRC_DISCARDED j) → t.reg o = s.reg o) ∧
            VectorOnly ((List.range 20).map R.HS_CRC_DISCARDED ++ R.SPN_STATUS d m :: R.VE_TILES d v :: loopRegs) { s with arrays := t.arrays } t) ∧
          (∀ (sl : Fin 32), sl.val = e.slot → (a.acc.any fun x => x.1 % 4096 / 128 == e.slot) = true → Answers (.tile d v [] (.accUncorrectable sl) 0) s fun t => taken t ∧ freed t ∧
            ((t.faults.raised.drop s.faults.raised.length).filter fun y => y.status != St.CNT_WRAP).map (fun y => (y.status, y.sev, y.kind, y.die, y.index, y.arg0)) = [(St.ACC_UE, Sev.DEFERRED, Uk.ARRAY, d.val, m, BitVec.ofNat 64 e.slot)])))) ∧
    (k.op = 0x50 ∨ k.op = 0x51 →
      let n := k.w3.get 39 0
      let i : Instr := if k.op = 0x50 then .reseal d v else .crcv d v
      let bad := s.badRegion d c (sumPort v) (k.op == 0x50) [(va, n)]
      ((va % 4096 ≠ 0 ∨ n % 4096 ≠ 0) → Answers i s (EngineStops d u c f.slot Vc.VE_RANGE va s)) ∧
      (va % 4096 = 0 → n % 4096 = 0 → ∀ x ∈ bad, Answers i s (EngineStops d u c f.slot Vc.DST_REGION x s)) ∧
      (va % 4096 = 0 → n % 4096 = 0 → bad = none → f.prog = 0 → f.inst = none → s.mem.wrs = [] → (s.cx d c).flight f.slot = some f →
        let sec (j : Nat) : Option (Nat × List Byte × Bool) := s.nearSec d c none (veStream v.val 4) (va + 64 * j)
        let key (b : Nat) : Nat := ((sec (64 * b)).getD (0, [], false)).1
        let bytes (b : Nat) : List Byte := (List.range 64).flatMap fun j => ((sec (64 * b + j)).getD (0, [], false)).2.1
        let torn (b : Nat) : Bool := (List.range 64).any fun j => ((sec (64 * b + j)).getD (0, [], false)).2.2
        let ends (t : State) : Prop := (t.cx d c).flights.map (fun g => (g.slot, g.phase)) = (s.cx d c).flights.map (fun g => if g.slot = f.slot then (g.slot, .worked) else (g.slot, g.phase)) ∧ CxBut d c s t
        (∀ j < n / 64, (sec j).isSome = true ∧ (s.nearDst d c none (veStream v.val 4) (va + 64 * j)).isSome = true) →
        (k.op = 0x50 → Answers (.reseal d v) s fun t => ends t ∧ t.mem.cells = s.mem.cells ∧ t.mem.scrPoison = s.mem.scrPoison ∧ VectorOnly loopRegs s t ∧
          (∀ b < n / 4096, t.block (key b) = if torn b then s.block (key b) else { s.block (key b) with crc := crc32c (bytes b), unchecked := false, isOpen := false }) ∧
          (∀ o : Nat, (∀ b < n / 4096, o / 4096 ≠ key b / 4096) → t.block o = s.block o)) ∧
        (k.op = 0x51 → 
          let wrong (b : Nat) : Bool := !(s.block (key b)).unchecked && (torn b || crc32c (bytes b) != (s.block (key b)).crc)
          (∀ b < n / 4096, wrong b = true → (∀ b' < b, wrong b' = false) → Answers (.crcv d v) s fun t =>
            (t.cx d c).flights.map (fun g => (g.slot, g.phase)) = (s.cx d c).flights.map (fun g => if g.slot = f.slot then (g.slot, .faulted) else (g.slot, g.phase)) ∧
            (∀ g ∈ (t.cx d c).flight f.slot, g.fault = St.CRC_MISMATCH ∧ g.faultAddr = va + 4096 * b ∧ g.code = 0) ∧ t.mem = s.mem ∧ VectorOnly [R.VE_CRC_UNVERIFIED d v] s t) ∧
          ((∀ b < n / 4096, wrong b = false) → Answers (.crcv d v) s fun t => ends t ∧ t.mem = s.mem ∧ VectorOnly (R.VE_CRC_UNVERIFIED d v :: loopRegs) s t ∧
            t.fld (R.VE_CRC_UNVERIFIED d v) F.CTR.COUNT = (s.fld (R.VE_CRC_UNVERIFIED d v) F.CTR.COUNT + ((List.range (n / 4096)).filter fun b => (s.block (key b)).unchecked).length) % 2 ^ 48))))

/-- A COPY or FILL of no bytes ends at once. One whose window range leaves the window, whose source and destination overlap, or whose ranges leave the regions stops with its code before anything is read. Else its bytes are moved, or the pattern written, in order and nowhere else, a piece at a time, and DM_BYTES_RD and DM_BYTES_WR count them; the last piece ends the command. A descriptor that breaks the layout stops DESC with DESC_BAD; a strided, gather or scatter descriptor gives the runs of R204 in their order, all-ones indices left out. Pieces end at 4 KiB boundaries of the destination by the model's choice. (07_dma.md, R199, R200, R202, R203, R204, R206, R207, R208, R209) -/
def Obligations.DmaMoves : Prop :=
  ∀ (s : State) (d : Die) (e : Fin 16) (c : Cx) (f : Flight), s.On → s.front d (16 + e.val) = some (c, f) → f.cmd.engine = 16 + e.val → f.cmd.kind = 2 → (s.cx d c).flight f.slot = some f →
    let k := f.cmd
    let size := s.fld (R.SCR_WIN d k.part) F.SCR_WIN.SIZE_MIB * 0x100000
    let rd (t : State) : Nat := t.fld (R.DM_BYTES_RD d e) F.CTR.COUNT
    let wr (t : State) : Nat := t.fld (R.DM_BYTES_WR d e) F.CTR.COUNT
    let counters := [R.DM_BYTES_RD d e, R.DM_BYTES_WR d e, R.DM_NARROW d e, R.DM_IDX_SKIP d e, R.DM_CRC_UNVERIFIED d e]
    let phased (p : Phase) (t : State) : Prop := (t.cx d c).flights.map (fun g => (g.slot, g.phase)) = (s.cx d c).flights.map (fun g => if g.slot = f.slot then (g.slot, p) else (g.slot, g.phase)) ∧ CxBut d c s t
    let fails (code va : Nat) (t : State) : Prop := phased .faulted t ∧ FaultTold d (16 + e.val) c.val f.slot code va s t ∧ t.mem = s.mem ∧
      (∀ g ∈ (t.cx d c).flight f.slot, g.fault = St.ENGINE_FAULT ∧ g.code = code ∧ g.faultAddr = va) ∧ RegsBut [R.DM_FAULT d e, R.DM_FAULT_ADDR d e] s t ∧ t = { s with regs := t.regs, cxs := t.cxs }
    let key (sp : Bool) (x : Nat) : Option Nat := if sp then (if s.landsAt d none (s.winAddr d k.part x) then some (s.winAddr d k.part x) else none) else s.nearDst d c f.inst (dmStream e.val 2) x
    let src (sp : Bool) (x n : Nat) : Option (List Byte) := if sp then (if s.winBad d k.part [(x, n)] = none ∧ s.mem.wrs = [] then some (s.cells (s.winAddr d k.part x) n) else none)
      else (s.nearRun d c f.inst (dmStream e.val 1) x n).bind fun y => if y.2 then none else some y.1
    let lands (r : DRun) (n : Nat) : Prop := ∀ i < n, (key r.dstSp (r.dst + i)).isSome = true
    let moved (r : DRun) (bs : List Byte) (t : State) : Prop := t.mem.cells = writeRuns (fun x => (key r.dstSp x).getD 0) [(r.dst, bs)] s.mem.cells ∧
      wr t = (wr s + bs.length) % 2 ^ 48 ∧ rd t = (if r.fill.isSome then rd s else (rd s + bs.length) % 2 ^ 48) ∧
      (∀ o, o ∉ counters → (∀ j, o ≠ R.HS_CRC_DISCARDED j) → t.reg o = s.reg o) ∧ VectorOnly ((List.range 20).map R.HS_CRC_DISCARDED ++ counters) s t
    (k.op ∈ [1, 2] → f.phase = .issued → f.plan = [] →
      let sp (w : Word) : Nat := if w.bit 57 then w.get 27 0 else w.get 56 0
      let w := if k.op = 1 then k.w3 else k.w2
      let len := k.argB.get 39 0
      let r := k.dmaRun
      let dst := sp w
      let n := min len (4096 - dst % 4096)
      let go (P : State → Prop) : Prop := (k.op = 1 → Answers (.copy d e []) s P) ∧ (k.op = 2 → Answers (.fill d e) s P)
      let inside := (k.op = 1 → k.w2.bit 57 = true → sp k.w2 + len ≤ size) ∧ (w.bit 57 = true → dst + len ≤ size)
      let apart := k.op = 1 → k.w2.bit 57 = w.bit 57 → rangesMeet (sp k.w2, len) (dst, len) = false
      let badSrc := if k.op = 1 ∧ k.w2.bit 57 = false then s.badRegion d c (dsrcPort e) false [(sp k.w2, len)] else none
      let badDst := if w.bit 57 then none else s.badRegion d c (ddstPort e) true [(dst, len)]
      let badEpoch := if k.epochEn = true ∧ w.bit 57 = false then s.awayVa d c (ddstPort e) [(dst, len)] else none
      (len = 0 → go fun t => phased .worked t ∧ t = { s with cxs := t.cxs }) ∧
      (0 < len → ¬ inside → go fun t => ∃ x ∈ [sp k.w2, dst], fails Dc.DM_RANGE x t) ∧
      (0 < len → inside → ¬ apart → go (fails Dc.DM_OVERLAP dst)) ∧
      (0 < len → inside → apart → ∀ x ∈ badSrc, go (fails Dc.SRC_REGION x)) ∧
      (0 < len → inside → apart → badSrc = none → ∀ x ∈ badDst, go (fails Dc.DST_REGION x)) ∧
      (0 < len → inside → apart → badSrc = none → badDst = none → ∀ x ∈ badEpoch, go (fails Dc.EPOCH_REGION x)) ∧
      (0 < len → inside → apart → badSrc = none → badDst = none → badEpoch = none → lands r n → s.mem.wrs = [] →
        (k.op = 2 → Answers (.fill d e) s fun t => moved r ((List.range n).map fun i => (leBytes 8 k.w3.toNat).getD (i % 8) 0) t ∧ phased (if n = len then .worked else .running) t) ∧
        (k.op = 1 → k.w2.bit 58 = false → ∀ bs ∈ src (k.w2.bit 57) (sp k.w2) n, Answers (.copy d e []) s fun t => moved r bs t ∧ phased (if n = len then .worked else .running) t) ∧
        (k.op = 1 → k.w2.bit 58 = true → k.w2.bit 57 = false → w.bit 57 = false → len = 4096 → sp k.w2 % 4096 = 0 → dst % 4096 = 0 → f.seen = [] → f.inst = none → ∀ z ∈ s.nearSec d c none (dmStream e.val 1) (sp k.w2), (s.region z.1).isMem = true →
          ∀ bs ∈ src false (sp k.w2) n,
          let b := s.block z.1
          ((b.unchecked = true ∨ crc32c bs = b.crc) → Answers (.copy d e []) s fun t => moved r bs t ∧ phased .worked t ∧
            t.fld (R.DM_CRC_UNVERIFIED d e) F.CTR.COUNT = (s.fld (R.DM_CRC_UNVERIFIED d e) F.CTR.COUNT + (if b.unchecked then 1 else 0)) % 2 ^ 48) ∧
          (b.unchecked = false → crc32c bs ≠ b.crc → Answers (.copy d e []) s fun t => phased .faulted t ∧ t.mem = s.mem ∧ t.regs = s.regs ∧
            ∀ g ∈ (t.cx d c).flight f.slot, g.fault = St.CRC_MISMATCH ∧ g.faultAddr = sp k.w2)))) ∧
    (k.op ∈ [1, 2, 3] → f.phase = .running → ∀ r : DRun, f.plan[f.prog]? = some (.move r) → r.fill = none → r.ckv = false → lands r r.len → s.mem.wrs = [] → ∀ bs ∈ src r.srcSp r.src r.len,
      let P (t : State) : Prop := moved r bs t ∧ phased (if f.prog + 1 = f.plan.length then .worked else .running) t ∧ (∀ g ∈ (t.cx d c).flight f.slot, g.prog = f.prog + 1 ∧ g.plan = f.plan)
      (k.op = 1 → Answers (.copy d e []) s P) ∧ (k.op = 3 → Answers (.desc d e []) s P)) ∧
    (k.op = 3 → f.phase = .issued → f.plan = [] → k.w3.get 15 0 = 0 → ∀ y ∈ s.nearRun d c f.inst (dmStream e.val 0) (k.w2.get 56 0) 64, y.2 = false → y.1.length = 64 →
      let x (i : Nat) : Word := BitVec.ofNat 64 (leNat ((y.1.drop (8 * i)).take 8))
      let bad := (x 0).get 3 0 ≠ 1 ∨ (x 0).get 5 4 = 3 ∨ (x 0).get 63 10 ≠ 0 ∨ (x 1).get 63 57 ≠ 0 ∨ (x 2).get 63 57 ≠ 0 ∨ (x 3).get 31 0 = 0 ∨ (x 6).get 63 57 ≠ 0 ∨ (x 7).get 63 32 ≠ 0
      let run := (x 3).get 31 0
      let step (i : Nat) : Int := if (x i).get 31 0 = 0 then run else ((x i).extractLsb' 0 32).toInt
      let from_ (i : Nat) (sp : Bool) (o : Int) : Nat := if sp then (((x i).get 56 0 + o) % 2 ^ 28).toNat else (((x i).get 56 0 + o) % 2 ^ 57).toNat
      let ss := (x 0).bit 7
      let ds := (x 0).bit 8
      let width := if (x 0).bit 6 then 8 else 4
      let index (i : Nat) : Option (List Byte × Bool) := s.nearRun d c f.inst (dmStream e.val 3) (((x 6).get 56 0 + i * width) % 2 ^ 57) width
      let places := if (x 0).get 5 4 = 0 then (List.range ((x 3).get 63 48 + 1)).flatMap fun j => (List.range ((x 3).get 47 32 + 1)).map fun i =>
          (from_ 1 ss (j * ((x 4).extractLsb' 32 32).toInt + i * step 4), from_ 2 ds (j * ((x 5).extractLsb' 32 32).toInt + i * step 5))
        else (List.range ((x 7).get 31 0)).filterMap fun i =>
          let v := leNat ((index i).getD ([], false)).1
          if v = 2 ^ (8 * width) - 1 then none else if (x 0).get 5 4 = 1 then some (from_ 1 ss (v * step 4), from_ 2 ds (i * step 5)) else some (from_ 1 ss (i * step 4), from_ 2 ds (v * step 5))
      (bad → Answers (.desc d e []) s (fails Dc.DESC_BAD (k.w2.get 56 0))) ∧
      (¬ bad → ((x 0).get 5 4 ≠ 0 → ∀ i < (x 7).get 31 0, (index i).isSome = true) → Answers (.desc d e []) s fun t =>
        ∀ g ∈ (t.cx d c).flight f.slot, g.plan.filterMap DItem.run? = places.map fun p => (p.1, p.2, run)) ∧
      (¬ bad → ((x 0).get 5 4 ≠ 0 → 0 < (x 7).get 31 0 ∧ ∀ i < (x 7).get 31 0, (index i).isSome = true) → ∀ p : Nat × Nat, places.head? = some p →
        ((x 0).get 5 4 ≠ 0 → leNat ((index 0).getD ([], false)).1 ≠ 2 ^ (8 * width) - 1) →
        let r : DRun := { src := p.1, srcSp := ss, dst := p.2, dstSp := ds, len := run }
        let n := min run (4096 - p.2 % 4096)
        (s.runFault d c e f r false).isSome = true → Answers (.desc d e []) s fun t => ∀ z ∈ s.runFault d c e f r false, fails z.1 z.2 t) ∧
      (¬ bad → ((x 0).get 5 4 ≠ 0 → 0 < (x 7).get 31 0 ∧ ∀ i < (x 7).get 31 0, (index i).isSome = true) → ∀ p : Nat × Nat, places.head? = some p →
        ((x 0).get 5 4 ≠ 0 → leNat ((index 0).getD ([], false)).1 ≠ 2 ^ (8 * width) - 1) →
        let r : DRun := { src := p.1, srcSp := ss, dst := p.2, dstSp := ds, len := run }
        let n := min run (4096 - p.2 % 4096)
        s.runFault d c e f r false = none → (x 0).bit 9 = false → lands r n → s.mem.wrs = [] → ∀ bs ∈ src ss p.1 n, Answers (.desc d e []) s fun t =>
          moved r bs t ∧ phased (if n = run ∧ places.length = 1 ∧ ((x 0).get 5 4 ≠ 0 → (x 7).get 31 0 = 1) then .worked else .running) t))

/-- A DMA command whose last write has left completes, its signal first, then its marker, then its wake; with FENCED it waits for its receipts, DM_STATUS showing it, and a lost write ends it with DELIVERY_LOST. A marker waits while its spine is full. A woken context that was EMPTY is READY. A command not at its completion point is left as it is. (07_dma.md, R201, R214, R215, R216) -/
def Obligations.DmaCompletion : Prop :=
  ∀ (s : State) (d : Die) (c : Cx) (slot : Nat) (f : Flight), s.On → (s.cx d c).flight slot = some f → f.cmd.kind = 2 →
    let k := f.cmd
    let st := R.DM_STATUS d k.unit
    let x := s.cx d c
    let a := s.arr d k.markArray
    let ready := f.phase = .worked ∧ x.gateDone f = true ∧ s.cmdFirnHeld f = false
    let calm := x.resetting = none ∧ s.cxState d c ≠ CxS.WAIT_FLIGHT ∧ s.cxState d c ≠ CxS.DRAINING
    let done (t : State) : Prop := (t.cx d c).flights.map (fun g => (g.slot, g.phase)) = x.flights.map fun g => if g.slot = slot then (g.slot, .complete) else (g.slot, g.phase)
    let shown (t : State) : Prop := ∀ o, o ∉ [st, R.CX_STATE d c, R.CX_STATE d k.wakeCx, R.MA_STATUS d k.markArray, R.SPN_STATUS d k.markArray] → t.reg o = s.reg o
    (¬ ready → exec (.dmaCompletion d c slot) s = .next s) ∧
    (ready → f.stage = 0 → k.fenced = true → s.cmdWrites f = true → Answers (.dmaCompletion d c slot) s fun t => t.fld st F.DM_STATUS.WAIT_RCPT = 1 ∧ RegsBut [st] s t ∧ t = { s with regs := t.regs }) ∧
    (ready → f.stage = 0 → k.fenced = true → s.cmdWrites f = false → f.lostWrite = true → Answers (.dmaCompletion d c slot) s fun t => t.fld st F.DM_STATUS.WAIT_RCPT = 0 ∧
      FlightBy d c slot (fun g => { g with phase := .faulted, fault := St.DELIVERY_LOST, faultAddr := 0, code := 0, held := none }) s t ∧ RegsBut [st] s t ∧ t = { s with regs := t.regs, cxs := t.cxs }) ∧
    (ready → calm → f.stage = 0 → (k.fenced = true → s.cmdWrites f = false ∧ f.lostWrite = false) → (k.signalEn = true → f.sigSent = false ∧ k.signalRemote = false ∧ k.signalOp ≠ 2) → (k.wakeEn = true → k.wakeCx ≠ c) →
      let signalled (t : State) : Prop := t.sync.qsigs = s.sync.qsigs ++ (if k.signalEn then
        [{ id := s.mem.nextId, src := .cx d c, q := k.signalQ, op := QOp.ofCode k.signalOp, arg := k.signalVal, slot := slot, part := k.part, before := s.unaccepted (.cx d c) }] else [])
      (k.markEn = true → 16 ≤ a.spine.length → f.slot = slot → Answers (.dmaCompletion d c slot) s fun t => signalled t ∧ t.arrays = s.arrays ∧
        (t.cx d c).flights.map (fun g => (g.slot, g.phase, g.stage)) = x.flights.map (fun g => if g.slot = slot then (g.slot, g.phase, 1) else (g.slot, g.phase, g.stage)) ∧
        t.fld (R.SPN_CYC_FULL d k.markArray) F.CTR.COUNT = (s.fld (R.SPN_CYC_FULL d k.markArray) F.CTR.COUNT + 1) % 2 ^ 48 ∧ RegsBut [st, R.SPN_CYC_FULL d k.markArray] s t ∧ t.mem = { s.mem with nextId := t.mem.nextId }) ∧
      ((k.markEn = true → a.spine.length < 16) → f.slot = slot → Answers (.dmaCompletion d c slot) s fun t => signalled t ∧ done t ∧ shown t ∧
        (k.markEn = false → t.arrays = s.arrays) ∧
        (k.markEn = true → (t.arr d k.markArray).spine.take a.spine.length = a.spine ∧ (t.arr d k.markArray).spine.length = a.spine.length + 1 ∧
          (∀ e ∈ (t.arr d k.markArray).spine.drop a.spine.length, e.marker = true ∧ e.array = k.markArray ∧ e.tag = k.actions / 16 % 65536 ∧ e.part = k.part ∧ e.owner = c.val ∧
            (∀ y ∈ f.inst, s.epInst y.1 = y.2 → e.epochEn = true ∧ e.epoch = y.1 ∧ e.inst = y.2)) ∧ ArrBut d k.markArray s t) ∧
        (k.wakeEn = true → s.cxState d k.wakeCx = CxS.EMPTY → t.cxState d k.wakeCx = CxS.READY) ∧
        (k.wakeEn = true → s.cxState d k.wakeCx ≠ CxS.EMPTY → t.cxState d k.wakeCx = s.cxState d k.wakeCx) ∧
        (∀ (b : Die) (y : Cx), (b, y) ≠ (d, c) → (b, y) ≠ (d, k.wakeCx) → t.cx b y = s.cx b y) ∧ t.mem = { s.mem with nextId := t.mem.nextId } ∧
        t = { s with regs := t.regs, cxs := t.cxs, arrays := t.arrays, eng := t.eng, sync := t.sync, mem := t.mem })) ∧
    (k.markEn = true → f.phase = .worked → f.stage = 1 → calm → f.slot = slot → k.signalEn = false → k.wakeEn = false → a.group = none → a.spine.length < 16 →
      (s.dieFlights d).find? (fun p => p.2.cmd.kind == 2 && p.2.phase == .worked && p.2.stage == 1 && p.2.cmd.markArray == k.markArray) = some (c, f) → ∀ m : Fin 8, m.val = k.markArray →
      Answers (.spinePush d m) s fun t => done t ∧ (t.arr d m).spine.length = a.spine.length + 1 ∧ (∀ e ∈ (t.arr d m).spine.drop a.spine.length, e.marker = true ∧ e.tag = k.actions / 16 % 65536) ∧ CxBut d c s t)

/-- LIGHT_LOSS takes both ports of a lit engine out of service with a FAB_NO_LIGHT record, LIGHT_RETURN retrains them. At a port in service a flit intact and in order is taken and any other discarded, a NAK, counted in FAB_REPLAYS, asking for the replay, the eighth failure in a row retraining the port; a lane removed narrows it. HELLO gives version 1, or keeps the port down with FAB_VERSION. Training that ends puts the port up on the lanes that trained. DRIFT, FULL and THAW act alone in a write of FAB_CTL and are refused with any other action beside them. A write of FAB_CFG changes the identity fields only while STATE is OFF, joins when bound with ENABLE set, and leaves at once when ENABLE is cleared (the model's choice). (16_fabric.md, R418, R419, R421, R423, R437, R442, R445, R447) -/
def Obligations.FabricPorts : Prop :=
  ∀ (s : State), s.On →
    let taking := s.fld R.BIND_STATUS F.BIND_STATUS.STATE = 2 ∧ s.fld R.FAB_CFG F.FAB_CFG.LASER_ON = 1 ∧ s.fabState ≠ FabS.OFF
    let may (n : Nat) : Prop := taking ∧ s.fab.oeOut.contains (n / 2) = false
    let others (l : List Nat) (r : List Nat) (t : State) : Prop := (∀ k, k ∉ l → t.port k = s.port k) ∧ RegsBut (l.map R.FAB_PORT ++ r) s t ∧ t.fab = { s.fab with ports := t.fab.ports }
    let shows (n v lanes : Nat) (t : State) : Prop := t.fld (R.FAB_PORT n) F.FAB_PORT.STATE = v ∧ t.fld (R.FAB_PORT n) F.FAB_PORT.LANES = lanes
    let err (n : Nat) (t : State) : Nat := t.fld (R.FAB_PORT n) F.FAB_PORT.LINK_ERR
    let up (n : Nat) : Prop := s.fld (R.FAB_PORT n) F.FAB_PORT.STATE = PortS.UP ∨ s.fld (R.FAB_PORT n) F.FAB_PORT.STATE = PortS.DRIFT
    let lanes (n : Nat) : Nat := s.fld (R.FAB_PORT n) F.FAB_PORT.LANES
    let lowest (l : Nat) : Nat := if l % 2 = 1 then 1 else if l / 2 % 2 = 1 then 2 else if l / 4 % 2 = 1 then 4 else if l / 8 % 2 = 1 then 8 else 0
    let told (st kind i : Nat) (t : State) : Prop := t.lastRaised.map (fun y => (y.status, y.sev, y.kind, y.index)) = some (st, Sev.DEFERRED, kind, i)
    let refused (t : State) : Prop := t.lastRaised.map (fun y => (y.status, y.sev)) = some (St.FAB_CTL_REFUSED, Sev.INFO) ∧ t = { s with faults := t.faults }
    (∀ oe : Fin 8,
      let l := [2 * oe.val, 2 * oe.val + 1]
      (s.fabState ≠ FabS.OFF → s.fab.oeOut.contains oe.val = false → (s.port (2 * oe.val)).dark = false → Answers (.lightLoss oe) s fun t =>
        (∀ n ∈ l, shows n PortS.DOWN 0 t ∧ t.port n = { s.port n with dark := true, training := false, expect := 0, awaiting := false, fails := 0 }) ∧
        told St.FAB_NO_LIGHT Uk.OE oe.val t ∧ others l [] t ∧ t = { s with regs := t.regs, fab := t.fab, faults := t.faults }) ∧
      ((s.port (2 * oe.val)).dark = true → exec (.lightLoss oe) s = .next s) ∧
      ((s.port (2 * oe.val)).dark = true → may (2 * oe.val) → Answers (.lightReturn oe) s fun t =>
        (∀ n ∈ l, t.fld (R.FAB_PORT n) F.FAB_PORT.STATE = PortS.TRAINING ∧ err n t = 1 ∧ (t.port n).dark = false ∧ (t.port n).training = true) ∧
        others l [] t ∧ t = { s with regs := t.regs, fab := t.fab }) ∧
      ((s.port (2 * oe.val)).dark = false → exec (.lightReturn oe) s = .next s)) ∧
    (∀ (n : Fin 16) (seq : BitVec 12) (corrected : Nat) (intact : Bool),
      let x := s.port n
      let o := R.FAB_PORT n
      let good := intact = true ∧ seq.toNat = x.expect
      let fec (t : State) : Prop := t.fld R.FAB_FEC_CORR F.CTR.COUNT = (s.fld R.FAB_FEC_CORR F.CTR.COUNT + corrected) % 2 ^ 48
      let replays (t : State) : Nat := t.fld R.FAB_REPLAYS F.CTR.COUNT
      let only (t : State) : Prop := others [n.val] [R.FAB_FEC_CORR, R.FAB_REPLAYS] t ∧ t = { s with regs := t.regs, fab := t.fab, faults := t.faults }
      (¬ up n → ∀ lane, exec (.fabricFlit n seq corrected intact lane) s = .next s) ∧
      (up n → good → Answers (.fabricFlit n seq corrected intact none) s fun t => t.port n = { x with expect := (x.expect + 1) % 4096, awaiting := false, fails := 0 } ∧ fec t ∧ replays t = replays s ∧ t.reg o = s.reg o ∧ only t) ∧
      (up n → ¬ good → x.awaiting = true → seq.toNat ≠ x.expect → Answers (.fabricFlit n seq corrected intact none) s fun t => t.port n = x ∧ fec t ∧ replays t = replays s ∧ t.reg o = s.reg o ∧ only t) ∧
      (up n → ¬ good → (x.awaiting = false ∨ seq.toNat = x.expect) → x.fails < 7 → Answers (.fabricFlit n seq corrected intact none) s fun t =>
        t.port n = { x with awaiting := true, fails := x.fails + 1 } ∧ fec t ∧ replays t = (replays s + 1) % 2 ^ 48 ∧ t.reg o = s.reg o ∧ only t) ∧
      (up n → ¬ good → (x.awaiting = false ∨ seq.toNat = x.expect) → 7 ≤ x.fails → may n → x.dark = false → Answers (.fabricFlit n seq corrected intact none) s fun t =>
        t.fld o F.FAB_PORT.STATE = PortS.TRAINING ∧ err n t = 1 ∧ (t.port n).training = true ∧ (t.port n).fails = 0 ∧ fec t ∧ replays t = (replays s + 1) % 2 ^ 48 ∧ only t) ∧
      (∀ i : Fin 4, up n → good → (lanes n).testBit i = true → Answers (.fabricFlit n seq corrected intact (some i)) s fun t =>
        err n t = 1 ∧ shows n (if lanes n = 2 ^ i.val then PortS.DOWN else s.fld o F.FAB_PORT.STATE) (lanes n - 2 ^ i.val) t ∧ fec t ∧ only t)) ∧
    (∀ n : Fin 16,
      let x := s.port n
      let o := R.FAB_PORT n
      (x.training = true →
        (∀ versions : BitVec 16, (versions.getLsbD 0 = true → Answers (.hello n versions) s fun t => t.fld o F.FAB_PORT.VERSION = 1 ∧ RegsBut [o] s t ∧ t = { s with regs := t.regs }) ∧
          (versions.getLsbD 0 = false → Answers (.hello n versions) s fun t => shows n PortS.DOWN 0 t ∧ t.fld o F.FAB_PORT.VERSION = 0 ∧ (t.port n).training = false ∧
            told St.FAB_VERSION Uk.PORT n.val t ∧ others [n.val] [] t ∧ t = { s with regs := t.regs, fab := t.fab, faults := t.faults })) ∧
        (∀ l : BitVec 4, (l ≠ 0 → s.fld o F.FAB_PORT.VERSION ≠ 0 → Answers (.portTrainingDone n l) s fun t =>
            shows n (if x.drift then PortS.DRIFT else PortS.UP) (if x.drift then lowest l.toNat else l.toNat) t ∧ err n t = (if l = 15 then err n s else 1) ∧ t.port n = { x with training := false } ∧
            others [n.val] [] t ∧ t = { s with regs := t.regs, fab := t.fab }) ∧
          ((l = 0 ∨ s.fld o F.FAB_PORT.VERSION = 0) → Answers (.portTrainingDone n l) s fun t => shows n PortS.DOWN 0 t ∧ (t.port n).training = false ∧ others [n.val] [] t ∧ t = { s with regs := t.regs, fab := t.fab }))) ∧
      (x.training = false → (∀ versions, exec (.hello n versions) s = .next s) ∧ (∀ l, exec (.portTrainingDone n l) s = .next s))) ∧
    (∀ (w : RegW) (v : Word), s.Writes w R.FAB_CTL v →
      (v.get 5 0 = 8 → Answers (.drift w) s fun t => others (List.range 16) [] t ∧ t = { s with regs := t.regs, fab := t.fab } ∧
        ∀ n : Fin 16, t.port n = { s.port n with drift := true } ∧ (up n → shows n PortS.DRIFT (lowest (lanes n)) t) ∧ (¬ up n → t.reg (R.FAB_PORT n) = s.reg (R.FAB_PORT n))) ∧
      (v.get 5 0 = 16 → Answers (.full w) s fun t => others (List.range 16) [] t ∧ t = { s with regs := t.regs, fab := t.fab } ∧
        ∀ n : Fin 16, (t.port n).drift = false ∧ shows n (s.fld (R.FAB_PORT n) F.FAB_PORT.STATE) (lanes n) t ∧
          (s.fld (R.FAB_PORT n) F.FAB_PORT.STATE = PortS.DRIFT → (t.port n).training = true ∧ err n t = 1) ∧
          (s.fld (R.FAB_PORT n) F.FAB_PORT.STATE ≠ PortS.DRIFT → t.reg (R.FAB_PORT n) = s.reg (R.FAB_PORT n) ∧ (t.port n).training = (s.port n).training)) ∧
      (v.get 5 0 = 4 → s.fabState = FabS.MEMBER → Answers (.thaw w) s fun t => t.fld R.FAB_STATUS F.FAB_STATUS.FROZEN = 0 ∧ t.fabState = FabS.MEMBER ∧ RegsBut [R.FAB_STATUS] s t ∧ t = { s with regs := t.regs }) ∧
      (v.get 5 0 = 4 → s.fabState ≠ FabS.MEMBER → Answers (.thaw w) s refused) ∧
      (v.bit 0 = true → v.get 5 0 ≠ 1 → Answers (.leave w) s refused) ∧ (v.bit 1 = true → v.get 5 0 ≠ 2 → Answers (.admitMembers w) s refused) ∧
      (v.bit 2 = true → v.get 5 0 ≠ 4 → Answers (.thaw w) s refused) ∧ (v.bit 3 = true → v.get 5 0 ≠ 8 → Answers (.drift w) s refused) ∧
      (v.bit 4 = true → v.get 5 0 ≠ 16 → Answers (.full w) s refused) ∧ (v.bit 5 = true → v.get 5 0 ≠ 32 → Answers (.paceSend w) s refused)) ∧
    (∀ (w : RegW) (v : Word), s.Writes w R.FAB_CFG v →
      let bound := s.fld R.BIND_STATUS F.BIND_STATUS.STATE = 2
      let ports (t : State) : Prop := ∀ n : Fin 16, (¬ (bound ∧ v.bit 1 = true) → shows n PortS.DOWN 0 t) ∧
        (bound → v.bit 1 = true → s.fld (R.FAB_PORT n) F.FAB_PORT.STATE = PortS.DOWN → s.fab.oeOut.contains (n.val / 2) = false → (s.port n).dark = false → v.bit 0 = true →
          t.fld (R.FAB_PORT n) F.FAB_PORT.STATE = PortS.TRAINING ∧ (t.port n).training = true)
      let frame (t : State) : Prop := others (List.range 16) [R.FAB_CFG, R.FAB_STATUS] t ∧ t = { s with regs := t.regs, fab := t.fab, faults := t.faults } ∧ (t.reg R.FAB_STATUS).get 63 3 = (s.reg R.FAB_STATUS).get 63 3
      (s.fabState = FabS.OFF → Answers (.fabCfgWrite w) s fun t => (t.reg R.FAB_CFG).get 51 0 = v.get 51 0 ∧ t.fabState = (if bound ∧ v.bit 0 = true then FabS.JOINING else FabS.OFF) ∧
        t.faults = s.faults ∧ ports t ∧ frame t) ∧
      (s.fabState ≠ FabS.OFF → v.bit 0 = true → Answers (.fabCfgWrite w) s fun t => (t.reg R.FAB_CFG).get 19 2 = (s.reg R.FAB_CFG).get 19 2 ∧ (t.reg R.FAB_CFG).get 51 20 = v.get 51 20 ∧ (t.reg R.FAB_CFG).get 1 0 = v.get 1 0 ∧
        (v.get 19 2 ≠ (s.reg R.FAB_CFG).get 19 2 → t.lastRaised.map (fun y => (y.status, y.sev)) = some (St.FAB_CFG_BUSY, Sev.INFO)) ∧ (v.get 19 2 = (s.reg R.FAB_CFG).get 19 2 → t.faults = s.faults) ∧
        t.fabState = s.fabState ∧ ports t ∧ frame t) ∧
      (s.fabState ≠ FabS.OFF → v.bit 0 = false → Answers (.fabCfgWrite w) s fun t => t.fabState = FabS.OFF ∧ (∀ p : Pkg, t.isMember p = false) ∧ (∀ n : Fin 16, (t.port n).drift = true) ∧
        t.fld R.FAB_STATUS F.FAB_STATUS.LEADER = 0 ∧ t.fld R.FAB_STATUS F.FAB_STATUS.ANCHOR = 0 ∧ t.fld R.FAB_STATUS F.FAB_STATUS.FROZEN = 0 ∧ t.reg R.FAB_PENDING = 0 ∧ t.fab.pairs = [] ∧ t.fab.taken = [] ∧ t.mem.cells = s.mem.cells ∧
        (s.fab.rds = [] → s.sync.qsigs = [] → s.mem.wrs = [] → t.mem = s.mem ∧ t.cxs = s.cxs ∧ t.cores = s.cores)))

/-- A package in the fabric takes a REQ of a member in its turn: a WR or WCRC goes to its homes as the fabric's write, sector by sector, an RD is answered with RD_DATA, a QSIG acts on the quire. One that the export table, an absent memory or REMOTE = 0 refuses changes nothing there: it is counted and its source told by REFUSE. A repeat is discarded; one that comes early is held, or, where 16 MiB are held, discarded with NAK_E2E. A REQ of a package that is no member is refused; one of a package declared dead is discarded, and RESYNC goes to it once. (16_fabric.md, 11_coherence.md, R285, R371, R372, R426, R427, R429, R430, R444) -/
def Obligations.FabricRequests : Prop :=
  ∀ (s : State) (h : FabHdr), s.On → s.fabState ≠ FabS.OFF →
    let p := h.src
    let n := h.pseq.toNat
    let x := s.pair p
    let resyncs := s.isDead p = true ∧ x.resynced = false
    let sends : List FabOut := if resyncs then s.fab.sent ++ [.resync p 0] else s.fab.sent
    let heard : FabSt := { s.fab with heard := Sparse.set p.val s.spanNow s.fab.heard, sent := sends, pairs := if resyncs then Sparse.set p.val { resynced := true } s.fab.pairs else s.fab.pairs }
    let all (P : Instr → Nat → Prop) : Prop := (∀ (off : BitVec 42) (mask : Option (BitVec 256)) (data : List Byte), P (.wr h off mask data) (16 + (if mask.isSome then 32 else 0) + data.length)) ∧
      (∀ (off : BitVec 42) (crc : BitVec 32), P (.wcrc h off crc) 32) ∧ (∀ (off : BitVec 42) (k : Fin 4), P (.rd h off k) 16) ∧
      (∀ (q : Quire) (op : QOp) (v : BitVec 32), P (.qsig h q op v) 32) ∧ (∀ (q : Quire) (v : BitVec 32), P (.mirror h q v) 32)
    let ahead := pseqAhead n x.expectIn
    let repeated := (0 < ahead ∧ ahead < 2 ^ 23) ∨ (x.early.any fun e => e.pseq == n) = true
    (s.isMember p = false → all fun c _ => Answers c s fun t => t.fab = { heard with sent := sends ++ [.refuse p n] } ∧
      t.fld R.FAB_REFUSED_RX F.CTR.COUNT = (s.fld R.FAB_REFUSED_RX F.CTR.COUNT + 1) % 2 ^ 48 ∧ RegsBut [R.FAB_REFUSED_RX] s t ∧ t = { s with regs := t.regs, fab := t.fab, faults := t.faults }) ∧
    (s.isMember p = true → s.isDead p = true → all fun c _ => exec c s = .next { s with fab := heard }) ∧
    (s.isMember p = true → s.isDead p = false → n ≠ x.expectIn →
      (repeated → all fun c _ => exec c s = .next { s with fab := heard }) ∧
      (¬ repeated → all fun c b => (s.earlyBytes + b ≤ 2 ^ 24 → Answers c s fun t => (t.pair p).early.map (·.pseq) = x.early.map (·.pseq) ++ [n] ∧ (t.pair p).expectIn = x.expectIn ∧
          t.fab = { heard with pairs := t.fab.pairs } ∧ t = { s with fab := t.fab }) ∧
        (2 ^ 24 < s.earlyBytes + b → exec c s = .next { s with fab := { heard with sent := s.fab.sent ++ [.nak p x.expectIn] } }))) ∧
    (s.isMember p = true → s.isDead p = false → n = x.expectIn → x.rcptSent = n → x.early = [] → s.fab.taken = [] → s.mem.wrs = [] → s.fabState ≠ FabS.LEAVING →
      let turned (t : State) : Prop := t.fab = { heard with pairs := Sparse.set p.val { x with expectIn := (n + 1) % 2 ^ 24 } s.fab.pairs, sent := t.fab.sent } ∧ t.mem.cells = s.mem.cells
      let refused (t : State) : Prop := turned t ∧ t.fab.sent = s.fab.sent ++ [.refuse p n] ∧ t.fld R.FAB_REFUSED_RX F.CTR.COUNT = (s.fld R.FAB_REFUSED_RX F.CTR.COUNT + 1) % 2 ^ 48 ∧ t.mem = s.mem
      let gated (t : State) : Prop := refused t ∧ t.fld R.FAB_EXPORT_REFUSED F.CTR.COUNT = (s.fld R.FAB_EXPORT_REFUSED F.CTR.COUNT + 1) % 2 ^ 48 ∧
        (s.span.exportNoted = [] → (t.faults.raised.map (·.status)).contains St.EXPORT_REFUSED = true) ∧ RegsBut [R.FAB_REFUSED_RX, R.FAB_EXPORT_REFUSED] s t ∧ t = { s with regs := t.regs, fab := t.fab, faults := t.faults, span := { s.span with exportNoted := t.span.exportNoted } }
      (∀ off : BitVec 42,
        let e := off.toNat / 2 ^ 30
        let w := s.reg (R.FAB_EXPORT e)
        let pa := w.get 55 30 * 2 ^ 30 + off.toNat % 2 ^ 30
        let open_ (write : Bool) : Prop := e ≠ 4095 ∧ w.bit 0 = true ∧ (write = true → w.bit 1 = true) ∧ (s.region pa).isMem = true
        let put (i mask : Nat) (data : List Byte) (crc : Option Nat) : Wr := { id := s.mem.nextId + i, src := .remote p, dst := (s.region (pa + 64 * i)).dst, addr := (s.region (pa + 64 * i)).key (pa + 64 * i) / 64 * 64, mask := mask, data := data, cmd := 2 ^ 32 + p.val * 2048 + h.unit.toNat, whole := mask == 2 ^ 64 - 1 && h.unit.toNat % 4 == 0, crc := crc, pseq := some n }
        let sent (l : List Wr) (t : State) : Prop := turned t ∧ t.fab.sent = s.fab.sent ∧ t = { s with fab := t.fab, mem := { s.mem with wrs := l, nextId := s.mem.nextId + l.length } }
        let shut (write : Bool) : Prop := (e ≠ 4095 ∧ (w.bit 0 = false ∨ (write = true ∧ w.bit 1 = false) ∨ (s.region pa).isMem = false)) ∨ (e = 4095 ∧ 2 ^ 20 ≤ off.toNat % 2 ^ 30)
        (∀ (mask : Option (BitVec 256)) (data : List Byte), data.length ≤ 256 →
          (open_ true → (∀ i < data.length / 64, (s.region (pa + 64 * i)).isMem = true ∧ s.absent (s.region (pa + 64 * i)) = false) → Answers (.wr h off mask data) s
            (sent ((List.range (data.length / 64)).map fun i => put i (if mask.isNone then 2 ^ 64 - 1 else (mask.getD 0).toNat / 2 ^ ((off.toNat + 64 * i) % 256 / 64 * 64) % 2 ^ 64) ((data.drop (64 * i)).take 64) none))) ∧
          (open_ true → data.length = 64 → s.absent (s.region pa) = true → Answers (.wr h off mask data) s refused) ∧
          (shut true → Answers (.wr h off mask data) s gated) ∧
          (e = 4095 → off.toNat % 2 ^ 30 < 2 ^ 20 → data.length = 64 → off.toNat % 64 = 0 → ∀ m ∈ mask, ∀ q : Quire, q.val = off.toNat % 2 ^ 30 / 64 →
            let word (i : Nat) : BitVec 32 := BitVec.ofNat 32 (leNat ((data.drop (8 * i)).take 8))
            (m.toNat / 2 ^ (off.toNat % 256) % 2 ^ 64 = 0xFF → Answers (.wr h off mask data) s fun t => turned t ∧ t.fab.sent = s.fab.sent ∧ exec (.quireAdd (.remote p) q (word 0)) s = .next { t with fab := s.fab }) ∧
            (m.toNat / 2 ^ (off.toNat % 256) % 2 ^ 64 = 0xFF00 → Answers (.wr h off mask data) s fun t => turned t ∧ t.fab.sent = s.fab.sent ∧ exec (.quireSub (.remote p) q (word 1)) s = .next { t with fab := s.fab }))) ∧
        (∀ crc : BitVec 32, (open_ true → s.absent (s.region pa) = false → Answers (.wcrc h off crc) s (sent [put 0 0 [] (some crc.toNat)])) ∧ (shut true → Answers (.wcrc h off crc) s gated)) ∧
        (∀ k : Fin 4,
          let keys := (List.range (k.val + 1)).map fun i => (s.region (pa + 64 * i)).key (pa + 64 * i) / 64 * 64
          (open_ false → s.absent (s.region pa) = false → s.held (s.region pa) = false → (∀ l ∈ keys, s.ownerOf l = none) → Answers (.rd h off k) s fun t =>
            turned t ∧ t.fab.sent = s.fab.sent ++ [.rdData p n (keys.flatMap s.ice) (keys.any s.poisoned)] ∧ t = { s with fab := t.fab }) ∧
          (open_ false → s.absent (s.region pa) = true → s.held (s.region pa) = false → Answers (.rd h off k) s refused) ∧
          (shut false → Answers (.rd h off k) s gated) ∧
          (e = 4095 → off.toNat % 2 ^ 30 < 2 ^ 20 → Answers (.rd h off k) s fun t =>
            turned t ∧ t.fab.sent = s.fab.sent ++ [.rdData p n (s.quireBytes (off.toNat % 2 ^ 20 / 64 * 64) (64 * (k.val + 1))) false] ∧ t = { s with fab := t.fab }))) ∧
      (∀ (q : Quire) (v : BitVec 32),
        let r := s.quire q
        let src := s.srcWord (.src (.remote p))
        let took (r' : QuireRec) (op : Nat) (t : State) : Prop := turned t ∧ t.fab.sent = s.fab.sent ∧ t.quire q = { r' with src := src op v.toNat, stamp := s.spanNow } ∧ QuiresBut [q] s t ∧ t.mem = s.mem
        (s.remoteOk q = true → (r.mode = Qm.NATIVE ∨ r.mode = Qm.COMPAT) → s.noConsumer q →
          (r.value + v.toNat < 2 ^ 32 → Answers (.qsig h q .add v) s (took { r with value := r.value + v.toNat } Qo.ADD)) ∧
          (v.toNat ≤ r.value → Answers (.qsig h q .sub v) s (took { r with value := r.value - v.toNat } Qo.SUB))) ∧
        (s.remoteOk q = true → s.isHead q = true → (s.quire (q + 1)).mode = Qm.GATHER → v = BitVec.ofNat 32 r.value → (s.quire (q + 1)).value + 1 < r.participants → Answers (.qsig h q .arrive v) s fun t =>
          turned t ∧ t.quire (q + 1) = { s.quire (q + 1) with value := (s.quire (q + 1)).value + 1 } ∧ (t.quire q).value = r.value ∧ QuiresBut [q.val, q.val + 1] s t ∧ t.mem = s.mem) ∧
        (s.remoteOk q = false → ∀ op : QOp, Answers (.qsig h q op v) s fun t => refused t ∧ t.quire q = r.setFlag Qf.REFUSED ∧ QuiresBut [q] s t ∧
          (t.faults.raised.map (·.status)).contains St.QUIRE_DENIED = true ∧ RegsBut [R.FAB_REFUSED_RX] s t)))

/-- RD_DATA gives the read it answers its sectors. RCPT ends every write and signal of the pair below its number and no other. REFUSE ends the REQ it names as lost. NAK_E2E counts the REQs sent again. RCPT_TIMER sends RCPT when something new was accepted. RESYNC starts new pair states and ends the death of the destination. DESTINATION_DEAD declares dead, once, a silent destination with an unreceipted REQ: what was held toward it is lost. A package out of the fabric takes no answer. (16_fabric.md, 11_coherence.md, R286, R367, R427, R428, R429, R430) -/
def Obligations.FabricAnswers : Prop :=
  (∀ (s : State) (p : Pkg) (n : BitVec 24), s.On → s.fabState = FabS.OFF → ∀ (data : List Byte) (b : Bool),
    exec (.rdData p n data b) s = .next s ∧ exec (.rcpt p n) s = .next s ∧ exec (.refuse p n) s = .next s ∧ exec (.nakE2e p n) s = .next s ∧ exec (.resync p n) s = .next s) ∧
  (∀ (s : State) (p : Pkg) (n : BitVec 24), s.On → s.fabState ≠ FabS.OFF → p.val ≠ s.pkg →
    let heard : FabSt := { s.fab with heard := Sparse.set p.val s.spanNow s.fab.heard }
    let mine (w : Wr) : Bool := w.dst == Dst.pkg p
    let to_ (r : FabRd) : Bool := decide ((s.region r.addr).dst = Dst.pkg p)
    let below (k : Nat) : Bool := decide (0 < pseqAhead k n.toNat ∧ pseqAhead k n.toNat < 2 ^ 23)
    (s.isDead p = false →
      (∀ (data : List Byte) (b : Bool), exec (.rdData p n data b) s = .next { s with fab := { heard with rds := s.fab.rds.map fun r => if to_ r = true ∧ r.pseq = n.toNat ∧ r.data = none then { r with data := some data, poison := b } else r } }) ∧
      (exec (.rcpt p n) s = .next { s with fab := heard, mem := { s.mem with wrs := s.mem.wrs.filter fun w => !(mine w && below (w.pseq.getD 0)) }, sync := { s.sync with qsigs := s.sync.qsigs.filter fun g => !(g.pkg == some p && below (g.pseq.getD 0)) } }) ∧
      (s.fabState ≠ FabS.JOINING → Answers (.refuse p n) s fun t =>
        t.fab = { heard with rds := s.fab.rds.map fun r => if to_ r = true ∧ r.pseq = n.toNat then { r with refused := true } else r } ∧
        (∀ w ∈ t.mem.wrs, w ∈ s.mem.wrs ∧ ¬ (mine w = true ∧ w.pseq = some n.toNat)) ∧ (∀ g ∈ t.sync.qsigs, g ∈ s.sync.qsigs ∧ ¬ (g.pkg = some p ∧ g.pseq = some n.toNat)) ∧
        (∀ w ∈ s.mem.wrs, mine w = true → w.pseq = some n.toNat → ∀ (d : Die) (c : Cx), w.src = .cx d c → (t.cx d c).loss.isSome = true ∧ ∀ f ∈ (t.cx d c).flights, f.id = w.cmd → f.lostWrite = true) ∧
        (∀ w ∈ s.mem.wrs, mine w = true → w.pseq = some n.toNat → ∀ k : Fin 96, w.src = .core k → (t.core k).loss.isSome = true ∧ (t.core k).irq23 = true ∧ t.fld (R.C_FENCE k) F.C_FENCE.LOST = 1) ∧
        t.mem.cells = s.mem.cells ∧ t.mem.blocks = s.mem.blocks) ∧
      (s.fabState = FabS.JOINING → s.fab.refused.contains p.val = false → s.mem.wrs = [] → s.sync.qsigs = [] → Answers (.refuse p n) s fun t => t.lastRaised.map (fun y => (y.status, y.sev, y.pkg)) = some (St.FAB_JOIN_REFUSED, Sev.DEFERRED, p.val) ∧
        t.fab = { heard with refused := p.val :: s.fab.refused, rds := t.fab.rds } ∧ t = { s with fab := t.fab, faults := t.faults }) ∧
      (Answers (.nakE2e p n) s fun t =>
        let held := (s.mem.wrs.filter fun w => mine w && !below (w.pseq.getD 0)).length + (s.sync.qsigs.filter fun g => g.pkg == some p && !below (g.pseq.getD 0)).length +
          (s.fab.rds.filter fun r => to_ r && r.data == none && !r.refused && !below r.pseq).length
        t.fld R.FAB_E2E_RESEND F.CTR.COUNT = (s.fld R.FAB_E2E_RESEND F.CTR.COUNT + held) % 2 ^ 48 ∧ RegsBut [R.FAB_E2E_RESEND] s t ∧ t = { s with regs := t.regs, faults := t.faults, fab := heard })) ∧
    (Answers (.resync p n) s fun t => t.isDead p = false ∧ (t.pair p).expectIn = n.toNat ∧ (t.pair p).rcptSent = n.toNat ∧ (t.pair p).early = [] ∧ (t.pair p).resynced = false ∧
      (∀ y ∈ t.fab.taken, y.1 ≠ p.val ∧ y ∈ s.fab.taken) ∧ (t.fab.sent = s.fab.sent ∨ t.fab.sent = s.fab.sent ++ [.resync p 0]) ∧ ((s.pair p).resynced = false → .resync p.val 0 ∈ t.fab.sent) ∧
      (s.isDead p = false → (s.pair p).resynced = true → t.mem = s.mem ∧ t.sync = s.sync ∧ RegsBut [R.FAB_DEAD (p / 64)] s t) ∧
      (∀ q : Pkg, q ≠ p → t.isDead q = s.isDead q ∧ t.pair q = s.pair q) ∧ t.mem.cells = s.mem.cells)) ∧
  (∀ (s : State) (m : Moment) (p : Pkg), s.On → s.now ≤ m →
    let s0 := s.atTime m
    let mine (w : Wr) : Bool := w.src == .remote p
    (s.fab.taken = [] → (∀ w ∈ s.mem.wrs, mine w = true → w.stage ≠ .sent) →
      ((s.pair p).expectIn = (s.pair p).rcptSent → exec (.rcptTimer m p) s = .next s0) ∧
      ((s.pair p).expectIn ≠ (s.pair p).rcptSent → exec (.rcptTimer m p) s = .next { s0 with fab := { s.fab with pairs := Sparse.set p.val { s.pair p with rcptSent := (s.pair p).expectIn } s.fab.pairs, sent := s.fab.sent ++ [.rcpt p (s.pair p).expectIn] }, mem := { s.mem with wrs := s.mem.wrs.filter fun w => !(mine w && w.stage == .accepted) } })) ∧
    (let holds := (s.mem.wrs.any fun w => w.dst == Dst.pkg p) = true ∨ (s.sync.qsigs.any fun g => g.pkg == some p) = true ∨ (s.fab.rds.any fun r => decide ((s.region r.addr).dst = Dst.pkg p) && r.data == none) = true
     let loss := s.fld R.FAB_CFG F.FAB_CFG.LOSS_SPANS
     let silent := (if loss = 0 then 2 else loss) * 2 ^ 24 ≤ (s0.spanNow - Sparse.get 0 p.val s.fab.heard).toNat
     (p.val ≠ s.pkg → holds → silent → s.isDead p = false → Answers (.destinationDead m p) s fun t => t.isDead p = true ∧ t.pair p = {} ∧ (∀ w ∈ t.mem.wrs, w ∈ s.mem.wrs ∧ w.dst ≠ .pkg p) ∧ (∀ g ∈ t.sync.qsigs, g ∈ s.sync.qsigs ∧ g.pkg ≠ some p) ∧
       (∀ r ∈ t.fab.rds, r ∈ s.fab.rds ∧ (s.region r.addr).dst ≠ .pkg p) ∧ t.fld R.FAB_DEAD_DECL F.CTR.COUNT = (s.fld R.FAB_DEAD_DECL F.CTR.COUNT + 1) % 2 ^ 48 ∧
       t.lastRaised.map (fun y => (y.status, y.sev, y.pkg)) = some (St.DELIVERY_LOST, Sev.DEFERRED, p.val) ∧
       (∀ w ∈ s.mem.wrs, w.dst = .pkg p → ∀ (d : Die) (c : Cx), w.src = .cx d c → (t.cx d c).loss.isSome = true) ∧ (∀ q : Pkg, q ≠ p → t.isDead q = s.isDead q ∧ t.pair q = s.pair q) ∧ t.mem.cells = s.mem.cells) ∧
     (p.val = s.pkg ∨ ¬ holds ∨ ¬ silent ∨ s.isDead p = true → exec (.destinationDead m p) s = .next s0)))

/-- SPAN of the view gives the reference event at the median of its planes' estimates, those more than 20 ns from it left out; another view's is ignored and counted. DELAY_REQ is answered by the anchor alone, and DELAY_RSP gives the plane's delay. MEMBER notes its sender; at the leader a JOIN becomes pending or is refused, and a LEAVE announces the next view. A VIEW is held until its boundary, when the lowest is adopted: members, leader and anchor as it says, and the package joins, stays, leaves or falls into the minority. A member not heard from for LOSS_SPANS is removed by the leader if its part holds more than half the votes, and a part that does not freezes; so does a member that hears no leader. LEAVE and ADMIT announce views. (16_fabric.md, R431, R433, R434, R435, R436, R437, R438, R439) -/
def Obligations.FabricMembers : Prop :=
  ∀ (s : State) (m : Moment), s.On → s.now ≤ m →
    let s0 := s.atTime m
    let me := s.pkg
    let view := s.fld R.FAB_STATUS F.FAB_STATUS.VIEW
    let leads := s.fld R.FAB_STATUS F.FAB_STATUS.LEADER = 1
    let loss := (if s.fld R.FAB_CFG F.FAB_CFG.LOSS_SPANS = 0 then 2 else s.fld R.FAB_CFG F.FAB_CFG.LOSS_SPANS) * 2 ^ 24
    let reached (p : Nat) : Bool := p == me || ((Sparse.find p s.fab.memberAt).any fun w => decide ((s0.spanNow - w).toNat < loss))
    let heard (p : Pkg) : FabSt := { s.fab with heard := Sparse.set p.val s0.spanNow s.fab.heard }
    let told (st sev p : Nat) (t : State) : Prop := t.lastRaised.map (fun y => (y.status, y.sev, y.pkg)) = some (st, sev, p)
    let refused (t : State) : Prop := t.lastRaised.map (fun y => (y.status, y.sev)) = some (St.FAB_CTL_REFUSED, Sev.INFO) ∧ t = { s with faults := t.faults }
    let announced (add remove : List Nat) (at_ : Word) (t : State) : Prop := ∃ v : ViewMsg, t.fab.views = s.fab.views ++ [v] ∧ v.number.toNat = (view + s.fab.views.length + 1) % 2 ^ 32 ∧ v.boundary = at_ ∧
      (∀ p : Pkg, ((p, true) ∈ v.entries ↔ (s.isMember p = true ∧ p.val ∉ remove) ∨ p.val ∈ add) ∧ ((p, false) ∈ v.entries ↔ p.val ∈ remove)) ∧
      (∀ p : Pkg, FabOut.view p v ∈ t.fab.sent ↔ FabOut.view p v ∈ s.fab.sent ∨ ((s.isMember p = true ∨ p.val ∈ add) ∧ p.val ≠ me))
    let frozen (t : State) : Prop := t.fabState = FabS.MINORITY ∧ t.fld R.FAB_STATUS F.FAB_STATUS.FROZEN = 1 ∧ t.fld R.FAB_STATUS F.FAB_STATUS.LEADER = 0 ∧ (∀ n : Fin 16, (t.port n).drift = true) ∧
      t.lastRaised.map (fun y => (y.status, y.sev, y.kind)) = some (St.FAB_MINORITY, Sev.DEFERRED, Uk.FABRIC) ∧ t.fld R.FAB_STATUS F.FAB_STATUS.VIEW = view ∧ t.mem.cells = s.mem.cells
    (∀ (v : BitVec 32) (count : BitVec 40) (a : List SpanArr), s.fabState ≠ FabS.OFF → a ≠ [] → (∀ x ∈ a, s.fld (R.FAB_PORT x.port) F.FAB_PORT.STATE = PortS.UP) →
      let est (x : SpanArr) : Int := (x.at_ : Int) - x.corr / 4096 - (s.fld (R.FAB_PORT x.port) F.FAB_PORT.DELAY : Int)
      let rej (t : State) : Nat := t.fld R.FAB_SPAN_REJ F.CTR.COUNT
      let taken (at_ : Int) (k : Nat) (t : State) : Prop := t.reg R.SPAN_CAP_REF = s0.spanNow ∧ t.span.refAcceptedAt = some s0.now ∧ t.span.refCount = some count.toNat ∧ t.span.lastRefAt = some (min m at_.toNat) ∧
        rej t = (rej s + k) % 2 ^ 48 ∧ RegsBut [R.FAB_SPAN_REJ, R.SPAN_CAP_REF, R.SPAN_STATUS, R.SPAN_MEAS] s t ∧ t = { s0 with regs := t.regs, span := t.span, faults := t.faults, drawn := t.drawn }
      let here := s.fabState = FabS.JOINING ∨ v.toNat = view
      let follows := s.onFabric = true ∧ s.fld R.FAB_STATUS F.FAB_STATUS.ANCHOR = 0
      (¬ here → Answers (.span m v count a) s fun t => rej t = (rej s + 1) % 2 ^ 48 ∧ RegsBut [R.FAB_SPAN_REJ] s t ∧ t = { s0 with regs := t.regs, faults := t.faults }) ∧
      (here → ¬ follows → exec (.span m v count a) s = .next s0) ∧
      (∀ x, a = [x] → here → follows → Answers (.span m v count a) s (taken (est x) 0)) ∧
      (∀ x y z, a = [x, y, z] → here → follows → est x ≤ est y → est y ≤ est z → est y - est x ≤ 320 →
        (est z - est y ≤ 320 → Answers (.span m v count a) s (taken (est y) 0)) ∧
        (320 < est z - est y → Answers (.span m v count a) s (taken ((est x + est y) / 2) 1)))) ∧
    (∀ (p : Pkg) (n : Fin 16) (w : Word) (corr : Int),
      let anchors := s.fabState ≠ FabS.OFF ∧ s.fld R.FAB_STATUS F.FAB_STATUS.ANCHOR = 1
      (anchors → s.isDead p = false → exec (.delayReq m p n w corr) s = .next { s0 with fab := { heard p with sent := s.fab.sent ++ [.delayRsp p n w corr s0.spanNow s0.spanNow] } }) ∧
      (¬ anchors → exec (.delayReq m p n w corr) s = .next s0)) ∧
    (∀ (n : Fin 16) (w : Word) (corr back : Int) (recv send : Word),
      let ns16 (x : Word) : Nat := x.toNat * s.span.len / 2 ^ 24
      let trip : Int := (ns16 (s0.spanNow - w) : Int) - (ns16 (send - recv) : Int) - (corr + back) / 4096
      let asked := s.fabState ≠ FabS.OFF ∧ (s.port n).reqAt = some w
      (asked → Answers (.delayRsp m n w corr recv send back) s fun t => t.fld (R.FAB_PORT n) F.FAB_PORT.DELAY = min 65535 (trip.toNat / 2) ∧ t.port n = { s.port n with reqAt := none } ∧
        (∀ k, k ≠ n.val → t.port k = s.port k) ∧ RegsBut [R.FAB_PORT n] s t ∧ t = { s0 with regs := t.regs, fab := { s.fab with ports := t.fab.ports } }) ∧
      (¬ asked → exec (.delayRsp m n w corr recv send back) s = .next s0)) ∧
    (∀ (p : Pkg) (votes : Fin 16) (join leave : Bool) (versions : BitVec 16) (w : Word),
      let noted : FabSt := { heard p with memberAt := Sparse.set p.val s0.spanNow s.fab.memberAt, votes := Sparse.set p.val votes.val s.fab.votes, leaderAt := if p.val = s.fld R.FAB_STATUS F.FAB_STATUS.LEADER_PKG then s0.spanNow else s.fab.leaderAt }
      let c := Instr.member m p votes join leave versions w
      let voters := (s.members.filter fun q => (if q = me then s.fld R.FAB_CFG F.FAB_CFG.VOTES else if q = p.val then votes.val else Sparse.get 0 q s.fab.votes) != 0).length
      let may := s.isMember p = false ∧ versions.getLsbD 0 = true ∧ (votes.val = 0 ∨ voters < 64)
      (s.fabState = FabS.OFF → exec c s = .next s0) ∧
      (s.fabState ≠ FabS.OFF → s.isDead p = false → (join = true → ¬ leads) → (leave = true → ¬ leads ∨ s.isMember p = false) → Answers (.member m p votes join leave versions w) s fun t => t = { s0 with fab := noted }) ∧
      (s.fabState ≠ FabS.OFF → s.isDead p = false → join = true → leads → may → s.fab.joins.contains p.val = false → Answers (.member m p votes join leave versions w) s fun t =>
        t.fab = { noted with joins := s.fab.joins ++ [p.val] } ∧ (t.reg R.FAB_PENDING).get 13 0 = (s.fab.joins.length + 1) % 2 ^ 14 ∧ (∀ q ∈ s.fab.joins ++ [p.val], q < 8192 → (∀ r ∈ s.fab.joins, r < 8192) → (t.reg R.FAB_PENDING).get 26 14 ≤ q) ∧
        RegsBut [R.FAB_PENDING] s t ∧ t = { s0 with regs := t.regs, fab := t.fab }) ∧
      (s.fabState ≠ FabS.OFF → s.isDead p = false → join = true → leads → ¬ may → s.fab.refused.contains p.val = false → Answers (.member m p votes join leave versions w) s fun t =>
        t.fab = { noted with refused := p.val :: s.fab.refused, sent := s.fab.sent ++ [.refuse p 0] } ∧ told St.FAB_JOIN_REFUSED Sev.DEFERRED p.val t ∧ t = { s0 with fab := t.fab, faults := t.faults }) ∧
      (s.fabState ≠ FabS.OFF → s.isDead p = false → join = false → leave = true → leads → s.isMember p = true → Answers (.member m p votes join leave versions w) s fun t => announced [] [p.val] w t ∧ t = { s0 with fab := t.fab })) ∧
    (∀ v : ViewMsg,
      (s.fabState = FabS.OFF ∨ v.number.toNat ≤ view → exec (.view m v) s = .next s0) ∧
      (s.fabState ≠ FabS.OFF → view < v.number.toNat → s.isDead v.leader = false → Answers (.view m v) s fun t => (∀ x, x ∈ s.fab.views → x ∈ t.fab.views) ∧ ((∀ x ∈ s.fab.views, x.number ≠ v.number) → t.fab.views = s.fab.views ++ [v]) ∧
        t.fab = { heard v.leader with leaderAt := s0.spanNow, views := t.fab.views, ports := t.fab.ports } ∧ ((s.fabState ≠ FabS.MINORITY ∨ v.entries.contains (s.ownPkg, true) = false) → t.regs = s.regs ∧ t.fab.ports = s.fab.ports) ∧ t = { s0 with regs := t.regs, fab := t.fab } ∧
        (s.fabState = FabS.MINORITY → v.entries.contains (s.ownPkg, true) = true → ∀ n : Fin 16, (t.port n).drift = false)) ∧
      ((∀ x ∈ s.fab.views, stampReached x.boundary s0.spanNow = false) → exec (.viewAdopt m) s = .next s0) ∧
      (v ∈ s.fab.views → stampReached v.boundary s0.spanNow = true → (∀ x ∈ s.fab.views, stampReached x.boundary s0.spanNow = true → x.number.toNat < v.number.toNat → False) → (∀ x ∈ s.fab.views, x.number = v.number → x = v) → (v.entries.map (·.1)).Nodup → s.fabState ≠ FabS.OFF → s.isDead s.ownPkg = false →
        let stays := (s.isMember s.ownPkg = true ∧ (s.ownPkg, false) ∉ v.entries) ∨ (s.ownPkg, true) ∈ v.entries
        let leaves := s.fabState = FabS.LEAVING ∧ ¬ stays
        Answers (.viewAdopt m) s fun t => t.fld R.FAB_STATUS F.FAB_STATUS.VIEW = v.number.toNat ∧ t.fld R.FAB_STATUS F.FAB_STATUS.VOTE_TOTAL = v.votes % 1024 ∧ t.fld R.FAB_STATUS F.FAB_STATUS.LEADER_PKG = v.leader.val ∧
          (¬ leaves → ∀ e ∈ v.entries, t.isMember e.1 = e.2) ∧ (¬ leaves → ∀ p : Pkg, (∀ e ∈ v.entries, e.1 ≠ p) → t.isMember p = s.isMember p) ∧
          (¬ leaves → ∀ e ∈ v.entries, e.1.val ≠ me → s.isMember e.1 ≠ e.2 → t.isDead e.1 = !e.2) ∧ t.mem.cells = s.mem.cells ∧
          (stays → t.fld R.FAB_STATUS F.FAB_STATUS.LEADER = (if v.leader.val = me then 1 else 0) ∧ t.fld R.FAB_STATUS F.FAB_STATUS.ANCHOR = (if v.anchor.val = me then 1 else 0)) ∧
          t.fabState = (if stays then (if s.fabState = FabS.JOINING ∨ s.fabState = FabS.MINORITY then FabS.MEMBER else s.fabState) else if s.fabState = FabS.LEAVING then FabS.OFF else if s.fabState = FabS.MEMBER then FabS.MINORITY else s.fabState) ∧
          (¬ stays → s.fabState = FabS.MEMBER → t.fld R.FAB_STATUS F.FAB_STATUS.FROZEN = 1) ∧ (stays → t.fld R.FAB_STATUS F.FAB_STATUS.FROZEN = s.fld R.FAB_STATUS F.FAB_STATUS.FROZEN) ∧
          (∀ x ∈ t.fab.views, x ∈ s.fab.views ∧ v.number.toNat < x.number.toNat))) ∧
    (∀ p : Pkg,
      let v (q : Nat) : Nat := if q = me then s.fld R.FAB_CFG F.FAB_CFG.VOTES else Sparse.get 0 q s.fab.votes
      let part := ((s.members.filter reached).map v).sum
      let total := s.fld R.FAB_STATUS F.FAB_STATUS.VOTE_TOTAL
      let goesOn := total < 2 * part ∨ (2 * part = total ∧ reached s.fab.anchor = true ∧ s.isMember s.fab.anchor = true)
      let gone := s.fabState = FabS.MEMBER ∧ s.isMember p = true ∧ reached p = false ∧ s.hcpLoading 1 = false
      (¬ gone → exec (.memberTimeout m p) s = .next s0) ∧
      (gone → leads → goesOn → (∀ x ∈ s.fab.views, (p, false) ∉ x.entries) → Answers (.memberTimeout m p) s fun t => announced [] (s.members.filter fun q => !reached q) (BitVec.ofNat 64 ((s0.spanNow.toNat / 2 ^ 24 + 4) * 2 ^ 24)) t ∧ t = { s0 with fab := t.fab }) ∧
      (gone → leads → ¬ goesOn → Answers (.memberTimeout m p) s frozen) ∧
      (gone → ¬ leads → v me ≠ 0 → v p ≠ 0 → ¬ goesOn → Answers (.memberTimeout m p) s frozen) ∧
      (gone → ¬ leads → (v me = 0 ∨ v p = 0) → exec (.memberTimeout m p) s = .next s0)) ∧
    (let silent := s.fabState = FabS.MEMBER ∧ ¬ s.isLeader = true ∧ loss ≤ (s0.spanNow - s.fab.leaderAt).toNat ∧ s.hcpLoading 1 = false
     (silent → Answers (.leaderSilence m) s frozen) ∧ (¬ silent → exec (.leaderSilence m) s = .next s0)) ∧
    (∀ (w : RegW) (v : Word), s.Writes w R.FAB_CTL v →
      (v.get 5 0 = 1 →
        (s.fabState = FabS.MEMBER → leads → Answers (.leave w) s fun t => t.fabState = FabS.LEAVING ∧ announced [] [me] (s.reg R.FAB_AT) t ∧ RegsBut [R.FAB_STATUS] s t ∧ t = { s with regs := t.regs, fab := t.fab }) ∧
        (s.fabState = FabS.MEMBER → ¬ leads → Answers (.leave w) s fun t => t.fabState = FabS.LEAVING ∧ t.fab = { s.fab with sent := s.fab.sent ++ [.member (s.fld R.FAB_STATUS F.FAB_STATUS.LEADER_PKG) false true (s.reg R.FAB_AT)] } ∧
          RegsBut [R.FAB_STATUS] s t ∧ t = { s with regs := t.regs, fab := t.fab }) ∧
        (s.fabState ≠ FabS.MEMBER → Answers (.leave w) s refused)) ∧
      (v.get 5 0 = 2 →
        let l := if v.bit 19 then s.fab.joins else s.fab.joins.filter fun q => q == v.get 18 6
        let ahead := 4 * 2 ^ 24 ≤ (s.reg R.FAB_AT - s.spanNow).toInt
        (leads → ahead → l ≠ [] → (∀ q ∈ l, q < 8192 ∧ s.isMember q = false) → Answers (.admitMembers w) s fun t => announced l [] (s.reg R.FAB_AT) t ∧ t = { s with fab := t.fab }) ∧
        ((¬ leads ∨ ¬ ahead ∨ l = []) → Answers (.admitMembers w) s refused)))

/-- A PACE_RPT of the head of a paced partition at its leader updates the round's largest lag and its package; under AUTO a lag above the threshold sends a stretch raised by the lag over the step, two boundaries ahead, once a round. Any other is only heard. A PACE_SET of the partition's leader is pending, any other is counted in FAB_BAD_MSG. Span time reaching a pending setting's effective BASE applies it, so that the effective stamp of BASE itself does not move. PACE_SEND at the leader sends the partition's STRETCH with BASE FAB_AT. (16_fabric.md, R440, R441, R444, R447, R450) -/
def Obligations.FabricPace : Prop :=
  ∀ (s : State) (m : Moment), s.On → s.now ≤ m →
    let s0 := s.atTime m
    (∀ (p : Pkg) (part : Fin 16), s.isDead p = false →
      let o := R.FAB_PACE part
      let heard : FabSt := { s.fab with heard := Sparse.set p.val s0.spanNow s.fab.heard }
      let x := Sparse.get ({} : PaceLead) part.val s.fab.leads
      (∀ (q : Quire) (round : BitVec 32) (reason : BitVec 8) (w : Word),
        let c := Instr.paceRpt m p part q round reason w
        let watched := s.fld o F.FAB_PACE.EN = 1 ∧ s.fld o F.FAB_PACE.LEADER_PKG = s.pkg ∧ s.fld o F.FAB_PACE.HEAD_Q = q.val
        let lag := (w - (x.startAt.getD 0)).toInt.toNat * s.span.len / 2 ^ 24 / 16
        (s.fabState = FabS.OFF → exec c s = .next s0) ∧
        (s.fabState ≠ FabS.OFF → ¬ watched → Answers (.paceRpt m p part q round reason w) s fun t => t = { s0 with fab := heard }) ∧
        (s.fabState ≠ FabS.OFF → watched → x.reports = [] → s.fld o F.FAB_PACE.AUTO = 0 → Answers (.paceRpt m p part q round reason w) s fun t =>
          (Sparse.get ({} : PaceLead) part.val t.fab.leads).reports = [(p.val, round.toNat, w)] ∧ t.fld (R.FAB_PACE_LAG part) F.FAB_PACE_LAG.LAG_NS = 0 ∧ t.fld (R.FAB_PACE_LAG part) F.FAB_PACE_LAG.LAG_PKG = p.val ∧
          t.fab = { heard with leads := t.fab.leads } ∧ RegsBut [R.FAB_PACE_LAG part] s t ∧ t = { s0 with regs := t.regs, fab := t.fab }) ∧
        (∀ (r : Pkg) (e : Word), s.fabState ≠ FabS.OFF → watched → r ≠ p → x.reports = [(r.val, round.toNat, e)] → x.round = round.toNat → x.startAt = some e → 0 ≤ (w - e).toInt → lag < 2 ^ 32 →
          let shown (t : State) : Prop := t.fld (R.FAB_PACE_LAG part) F.FAB_PACE_LAG.LAG_NS = lag ∧ t.fld (R.FAB_PACE_LAG part) F.FAB_PACE_LAG.LAG_PKG = (if lag = 0 then r.val else p.val) ∧ RegsBut [R.FAB_PACE_LAG part] s t
          let step := (e - x.prevStart.getD e).toInt.toNat * s.span.len / 2 ^ 24 / 16
          let cur := (s.paceOf part).stretch
          (s.fld o F.FAB_PACE.AUTO = 0 → Answers (.paceRpt m p part q round reason w) s fun t => shown t ∧ t.fab = { heard with leads := t.fab.leads } ∧ t.pace = s.pace) ∧
          (s.fld o F.FAB_PACE.AUTO = 1 → s.fld o F.FAB_PACE.LAG_THRESH * 1000 < lag → 0 < step → x.sentFor ≠ some round.toNat → Answers (.paceRpt m p part q round reason w) s fun t => shown t ∧
            let v := min 65535 (cur + (65536 * lag + step - 1) / step)
            let base := BitVec.ofNat 64 ((s0.spanNow.toNat / 2 ^ 24 + 2) * 2 ^ 24)
            t.paceOf part = { s.paceOf part with pend := some (base, v) } ∧ (∀ d : Pkg, FabOut.paceSet d part v base ∈ t.fab.sent ↔ FabOut.paceSet d part v base ∈ s.fab.sent ∨ ((d = r ∨ d = p) ∧ d.val ≠ s.pkg)) ∧
            (Sparse.get ({} : PaceLead) part.val t.fab.leads).sentFor = some round.toNat))) ∧
      (∀ (stretch : BitVec 16) (base : Word),
        (s.fabState = FabS.OFF → exec (.paceSet m p part stretch base) s = .next s0) ∧
        (s.fabState ≠ FabS.OFF → s.fld o F.FAB_PACE.LEADER_PKG = p.val → exec (.paceSet m p part stretch base) s = .next { s0 with fab := heard, pace := Sparse.set part.val { s.paceOf part with pend := some (base, stretch.toNat) } s.pace }) ∧
        (s.fabState ≠ FabS.OFF → s.fld o F.FAB_PACE.LEADER_PKG ≠ p.val → Answers (.paceSet m p part stretch base) s fun t => t.fld R.FAB_BAD_MSG F.CTR.COUNT = (s.fld R.FAB_BAD_MSG F.CTR.COUNT + 1) % 2 ^ 48 ∧
          RegsBut [R.FAB_BAD_MSG] s t ∧ t = { s0 with regs := t.regs, faults := t.faults, fab := heard }))) ∧
    (∀ part : Fin 16,
      let x := s.paceOf part
      let eff (t : State) (y : Word) : Word := y + t.reg (R.FAB_PACE_OFFSET part) + BitVec.ofNat 64 ((y - t.reg (R.FAB_PACE_BASE part)).toInt.toNat * (t.paceOf part).stretch / 65536)
      (x.pend = none → exec (.paceApply m part) s = .next s0) ∧
      (∀ (base : Word) (stretch : Nat), x.pend = some (base, stretch) →
        (stampReached (eff s base) s0.spanNow = false → exec (.paceApply m part) s = .next s0) ∧
        (stampReached (eff s base) s0.spanNow = true → Answers (.paceApply m part) s fun t => t.reg (R.FAB_PACE_BASE part) = base ∧ t.paceOf part = { x with stretch := stretch, pend := none } ∧
          t.fld (R.FAB_PACE part) F.FAB_PACE.STRETCH = stretch % 65536 ∧ (0 ≤ (base - s.reg (R.FAB_PACE_BASE part)).toInt → eff t base = eff s base) ∧
          RegsBut [R.FAB_PACE part, R.FAB_PACE_BASE part, R.FAB_PACE_OFFSET part] s t ∧ t = { s0 with regs := t.regs, pace := t.pace }))) ∧
    (∀ (w : RegW) (v : Word), s.Writes w R.FAB_CTL v → v.get 5 0 = 32 →
      let n := v.get 23 20
      let mine := s.fld (R.FAB_PACE n) F.FAB_PACE.LEADER_PKG = s.pkg ∧ s.fabState ≠ FabS.OFF
      (mine → Answers (.paceSend w) s fun t => t.paceOf n = { s.paceOf n with pend := some (s.reg R.FAB_AT, s.fld (R.FAB_PACE n) F.FAB_PACE.STRETCH) } ∧ (∀ k, k ≠ n → t.paceOf k = s.paceOf k) ∧
        (∀ d : Pkg, (∃ r ∈ (Sparse.get ({} : PaceLead) n s.fab.leads).reports, r.1 = d.val) → d.val ≠ s.pkg → FabOut.paceSet d n (s.fld (R.FAB_PACE n) F.FAB_PACE.STRETCH) (s.reg R.FAB_AT) ∈ t.fab.sent) ∧
        t = { s with pace := t.pace, fab := { s.fab with sent := t.fab.sent } }) ∧
      (¬ mine → Answers (.paceSend w) s fun t => t.lastRaised.map (fun y => (y.status, y.sev)) = some (St.FAB_CTL_REFUSED, Sev.INFO) ∧ t = { s with faults := t.faults }))

/-- A host access through a committed decoder reads the line at its home, as ice, with its poison, or is a write in flight to it; one outside every decoder or of absent memory is unsupported and counted in HL_UR. HDM_COMMIT checks alignment, interleave, range and overlap. The host window is put to the host while CXL.cache runs and else ends in an error; HL_WIN changes only while it does not. BISNP_TIMEOUT loses the host. PERST_N, a link down, HOST_LOST and IDE_FAIL reset the link's block and drop the host's copies with a COH_LOST record; PERST_N_DEASSERT trains the link, MEM_EN and CACHE_EN staying 0 while unbound. A function-level reset ends the running mailbox command. (17_host_link.md, 11_coherence.md, R457, R458, R459, R460, R462, R464, R467, R468, R469, R471) -/
def Obligations.HostMemory : Prop :=
  ∀ s : State, s.On →
    let h := s.host
    let up := s.fld R.HL_STATUS F.HL_STATUS.LINK_UP = 1
    let serves := up ∧ s.fld R.HL_STATUS F.HL_STATUS.MEM_EN = 1
    let caches := up ∧ s.fld R.HL_STATUS F.HL_STATUS.CACHE_EN = 1
    let bound := s.fld R.BIND_STATUS F.BIND_STATUS.STATE = 2
    let told (st sev : Nat) (t : State) : Prop := t.lastRaised.map (fun y => (y.status, y.sev)) = some (st, sev)
    let dropped (t : State) : Prop := t.mem.hostLines = [] ∧ (∀ l b, t.dirOf l = some (.owner b) → b ≠ .host) ∧ (∀ l b, t.dirOf l = some (.sharers b) → .host ∉ b) ∧ (∀ m ∈ t.mem.msgs, m.agent ≠ .agent .host) ∧ t.hostAsked = [] ∧
      t.host.decoders = [] ∧ t.host.code = .idle ∧ t.fld R.HL_STATUS F.HL_STATUS.LINK_UP = 0 ∧ t.fld R.HL_STATUS F.HL_STATUS.MEM_EN = 0 ∧ t.fld R.HL_STATUS F.HL_STATUS.CACHE_EN = 0 ∧ t.reg R.HL_WIN = resetWord R.HL_WIN ∧
      (t.faults.raised.map (·.status)).contains St.COH_LOST = true ∧ t.firn = s.firn
    (∀ hpa : BitVec 52,
      let covers (p : Nat × Decoder) : Bool := decide (p.2.hpa ≤ hpa.toNat ∧ hpa.toNat < p.2.hpa + p.2.size)
      let ur (t : State) : Prop := t.fld R.HL_UR F.CTR.COUNT = (s.fld R.HL_UR F.CTR.COUNT + 1) % 2 ^ 48 ∧ RegsBut [R.HL_UR] s t ∧ t = { s with regs := t.regs, faults := t.faults, host := { h with reply := .unsupported } }
      (¬ serves → (∀ w, exec (.hostMemRead hpa w) s = .next s) ∧ (∀ k d p, exec (.hostMemWrite hpa k d p) s = .next s)) ∧
      (serves → h.decoders.find? covers = none → (∀ w, Answers (.hostMemRead hpa w) s ur) ∧ (∀ k d p, Answers (.hostMemWrite hpa k d p) s ur)) ∧
      (serves → ∀ x, h.decoders.find? covers = some x →
        let pa := (x.2.dpa + (hpa.toNat - x.2.hpa)) / 64 * 64
        let r := s.region pa
        let line := r.key pa
        let here := r.isMem = true ∧ s.absent r = false
        (¬ here → (∀ w, Answers (.hostMemRead hpa w) s ur) ∧ (∀ k d p, Answers (.hostMemWrite hpa k d p) s ur)) ∧
        (here → (s.held r = true ∨ s.lineBusy line = true) → ∀ w, exec (.hostMemRead hpa w) s = .next s) ∧
        (here → s.held r = false → s.lineBusy line = false → s.ownerOf line = none →
          let got (t : State) : Prop := t.host = { h with reply := .data (s.ice line) (s.poisoned line) } ∧ t.mem.cells = s.mem.cells ∧
            t.fld R.HL_POISON_TX F.CTR.COUNT = (s.fld R.HL_POISON_TX F.CTR.COUNT + (if s.poisoned line then 1 else 0)) % 2 ^ 48 ∧ (∀ l, l ≠ line → t.dirOf l = s.dirOf l ∧ t.heldLine .host l = s.heldLine .host l)
          (Answers (.hostMemRead hpa .once) s fun t => got t ∧ t.mem = s.mem) ∧
          (Answers (.hostMemRead hpa .shared) s fun t => got t ∧ (t.copies line).contains .host = true ∧ (∀ b, (s.copies line).contains b = true → (t.copies line).contains b = true) ∧ (t.heldLine .host line).isSome = true) ∧
          (Answers (.hostMemRead hpa .own) s fun t => got t ∧ t.dirOf line = some (.owner .host) ∧ (t.heldLine .host line).map (·.data) = some (s.ice line) ∧ (∀ b, b ≠ .host → (s.copies line).contains b = true → t.heldLine b line = none))) ∧
        (here → s.held r = false → s.lineBusy line = false → s.poisoned line = false → s.dirOf line = some (.owner .cores) → ∀ y ∈ s.heldLine .cores line, y.dirty = true → y.data.length = 64 →
          ∀ w, Answers (.hostMemRead hpa w) s fun t => t.host.reply = .data y.data false ∧ t.dirOf line ≠ some (.owner .cores)) ∧
        (here → ∀ (k : BitVec 64) (d : List Byte) (p : Bool), Answers (.hostMemWrite hpa k d p) s fun t =>
          t.mem.wrs = s.mem.wrs ++ [{ id := s.mem.nextId, src := .host, dst := r.dst, addr := line, mask := k.toNat, data := d, poison := p }] ∧ t = { s with mem := { s.mem with wrs := t.mem.wrs, nextId := s.mem.nextId + 1 } }))) ∧
    (∀ (n : Fin 4) (hpa size : BitVec 52) (ways : BitVec 8) (a b : Bool),
      let x : Decoder := { hpa := hpa.toNat, size := size.toNat, dpa := s.fld (R.HL_HDM_DPA n) F.HL_HDM_DPA.DPA_BASE * 2 ^ 28 }
      let good := x.hpa % 2 ^ 28 = 0 ∧ x.size % 2 ^ 28 = 0 ∧ 0 < x.size ∧ ways = 1 ∧ s.dpaOk x.dpa x.size = true ∧ ∀ p ∈ h.decoders, p.1 ≠ n.val → p.2.dpa + p.2.size ≤ x.dpa ∨ x.dpa + x.size ≤ p.2.dpa
      let enabled (t : State) : Prop := t.fld R.HL_STATUS F.HL_STATUS.MEM_EN = (if a = true ∧ bound then 1 else 0) ∧ t.fld R.HL_STATUS F.HL_STATUS.CACHE_EN = (if b = true ∧ bound then 1 else 0) ∧
        t.fld R.HL_STATUS F.HL_STATUS.LINK_UP = 1 ∧ RegsBut [R.HL_STATUS] s t ∧ t = { s with regs := t.regs, host := { h with decoders := t.host.decoders, commitErr := t.host.commitErr }, faults := t.faults }
      (¬ up → exec (.hdmCommit n hpa size ways a b) s = .next s) ∧
      (up → good → Answers (.hdmCommit n hpa size ways a b) s fun t => enabled t ∧ t.host.decoders = Sparse.set n.val x h.decoders ∧ n.val ∉ t.host.commitErr ∧ t.faults = s.faults) ∧
      (up → ¬ good → Answers (.hdmCommit n hpa size ways a b) s fun t => enabled t ∧ t.host.decoders = Sparse.del n.val h.decoders ∧ n.val ∈ t.host.commitErr ∧ told St.HL_HDM_BAD Sev.INFO t)) ∧
    (∀ pa : BitVec 56,
      let line := pa.toNat / 64 * 64
      (∀ off, s.region pa.toNat = .host off →
        (caches → Answers (.hostWindowAccess pa) s fun t => line ∈ t.hostAsked ∧ (∀ a ∈ s.hostAsked, a ∈ t.hostAsked) ∧ (∀ a ∈ t.hostAsked, a = line ∨ a ∈ s.hostAsked) ∧ t = { s with hostAsked := t.hostAsked }) ∧
        (¬ caches → s.mem.wrs = [] → Answers (.hostWindowAccess pa) s fun t => line ∉ t.hostAsked ∧ Sparse.get {} line t.hostWin = { error := true } ∧ (∀ a, a ≠ line → Sparse.get {} a t.hostWin = Sparse.get {} a s.hostWin) ∧
          t = { s with hostAsked := t.hostAsked, hostWin := t.hostWin })) ∧
      (∀ off, s.region line = .host off → ∀ (d : List Byte) (e p : Bool),
        (s.windowWrite line = none → line ∈ s.hostAsked → exec (.hostWindowResponse pa d e p) s = .next { s with hostWin := Sparse.set line { data := d, error := e, poison := p } s.hostWin, hostAsked := s.hostAsked.filter (· != line) }) ∧
        (s.windowWrite line = none → line ∉ s.hostAsked → exec (.hostWindowResponse pa d e p) s = .next s) ∧
        (∀ w, s.windowWrite line = some w →
          (e = false → Answers (.hostWindowResponse pa d e p) s fun t => t.mem.wrs = (s.mem.wrs.map fun v => if v.id = w.id then { v with stage := .accepted } else v) ∧ t = { s with mem := { s.mem with wrs := t.mem.wrs } }) ∧
          (e = true → Answers (.hostWindowResponse pa d e p) s fun t => t.mem.wrs = (s.mem.wrs.filter fun v => v.id != w.id) ∧ t.mem.cells = s.mem.cells ∧ (∀ k : Fin 96, w.src = .core k → (t.core k).loss.isSome = true) ∧ (∀ (k : Die) (c : Cx), w.src = .cx k c → (t.cx k c).loss.isSome = true))))) ∧
    (∀ (w : RegW) (v : Word), s.Writes w R.HL_WIN v →
      (s.fld R.HL_STATUS F.HL_STATUS.CACHE_EN = 1 → Answers (.hlWinWrite w) s fun t => told St.HL_CFG_BUSY Sev.INFO t ∧ t = { s with faults := t.faults }) ∧
      (s.fld R.HL_STATUS F.HL_STATUS.CACHE_EN = 0 → 0x10000 < v.get 40 24 → exec (.hlWinWrite w) s = .next s) ∧
      (s.fld R.HL_STATUS F.HL_STATUS.CACHE_EN = 0 → v.get 40 24 ≤ 0x10000 → Answers (.hlWinWrite w) s fun t => t.reg R.HL_WIN = writeFields ((regFields R.HL_WIN).getD []) (s.reg R.HL_WIN) v ∧ t.fld R.HL_WIN F.HL_WIN.SIZE = v.get 40 24 ∧ RegsBut [R.HL_WIN] s t ∧ t = { s with regs := t.regs })) ∧
    (∀ (id : Nat) (m : Msg), s.msg id = some m → m.agent = .agent .host →
      (m.kind = .invAck → Answers (.birsp id) s fun t => exec (.invAck id) s = .next t) ∧ (m.kind = .snpData → Answers (.birsp id) s fun t => exec (.snpData id) s = .next t) ∧
      (m.kind = .snpInv ∨ m.kind = .snpShare ∨ m.kind = .snpGet → Answers (.birsp id) s fun t => t.msg id = none ∧ t.firn = s.firn ∧ t.sync = s.sync ∧ t.cxs = s.cxs ∧ (m.kind = .snpInv → t.heldLine .host m.line = none)) ∧
      (∀ k : Moment, s.now ≤ k →
        let us := s.fld R.HL_CFG F.HL_CFG.BI_TIMEOUT_US
        let due := (m.kind = .snpInv ∨ m.kind = .snpShare ∨ m.kind = .snpGet) ∧ m.at_ + (if us = 0 then 2000 else us) * 16000 ≤ k
        (due → Answers (.bisnpTimeout k id) s fun t => dropped t ∧ t.host.lostHold = true ∧ t.fld R.HL_STATUS F.HL_STATUS.HOST_LOST = 1 ∧ told St.HL_HOST_LOST Sev.DEFERRED t) ∧
        (¬ due → exec (.bisnpTimeout k id) s = .next (s.atTime k)))) ∧
    (∀ (k : Moment) (l : LinkDown) (dirty : List Nat), s.now ≤ k →
      (up → Answers (.perstN k l dirty) s fun t => dropped t ∧ t.pins = { s.pins with perstLow := if l = .perst then true else s.pins.perstLow } ∧ t.host.lostHold = (if l = .linkDown then h.lostHold else false) ∧ told St.COH_LOST Sev.DEFERRED t) ∧
      (¬ up → exec (.perstN k l dirty) s = .next { s.atTime k with pins := { s.pins with perstLow := if l = .perst then true else s.pins.perstLow }, host := { h with lostHold := if l = .linkDown then h.lostHold else false } })) ∧
    (∀ (k : Moment) (u : HostUp), s.now ≤ k → s.pins.resetLow = false →
      (h.lostHold = true → exec (.perstNDeassert k u) s = .next { s.atTime k with pins := { s.pins with perstLow := false } }) ∧
      (h.lostHold = false → Answers (.perstNDeassert k u) s fun t => t.fld R.HL_STATUS F.HL_STATUS.LINK_UP = 1 ∧ t.fld R.HL_STATUS F.HL_STATUS.WIDTH = u.width.toNat ∧ t.fld R.HL_STATUS F.HL_STATUS.RATE = u.rate.toNat ∧
        t.fld R.HL_STATUS F.HL_STATUS.MEM_EN = (if u.memEn = true ∧ bound then 1 else 0) ∧ t.fld R.HL_STATUS F.HL_STATUS.CACHE_EN = (if u.cacheEn = true ∧ bound then 1 else 0) ∧
        t.fld R.HL_STATUS F.HL_STATUS.HOST_LOST = s.fld R.HL_STATUS F.HL_STATUS.HOST_LOST ∧ RegsBut [R.HL_STATUS] s t ∧ t = { s.atTime k with regs := t.regs, pins := { s.pins with perstLow := false } })) ∧
    (Answers .functionLevelReset s fun t => t.host = { h with code := .idle, out := .none } ∧ (∀ a n, t.bind.op ≠ .transfer a n) ∧ t.bind.op ≠ .recovery ∧ t.bind.transfer = [] ∧ (∀ a n, s.bind.op = .pack a n ∨ s.bind.op = .flash a n → t.bind.op = s.bind.op) ∧
      t = { s with bind := { s.bind with op := t.bind.op, transfer := [] }, host := t.host }) ∧
    (∀ k : Moment, s.now ≤ k → (up → s.fld R.HL_STATUS F.HL_STATUS.IDE_ON = 1 → Answers (.ideFail k) s fun t => dropped t ∧ (t.faults.raised.map (·.status)).contains St.HL_IDE_FAIL = true) ∧
      (¬ up ∨ s.fld R.HL_STATUS F.HL_STATUS.IDE_ON = 0 → exec (.ideFail k) s = .next (s.atTime k)))

/-- A mailbox command is taken only while the link is up; while HCP2 reloads it is answered Busy, and one that needs a bound part is answered Unsupported without it. Each other command answers what R463 to R466 and R548 give, and changes nothing but what it sets: the event logs, the policy, the time stamp, the wake budget, the host's envelope, the image under transfer, the staging area. A recovery part beyond 160 MiB or on a bound part is Invalid Input. (17_host_link.md, 20_binding.md, 18_power.md, R463, R464, R465, R466, R475, R544, R548) -/
def Obligations.Mailbox : Prop :=
  ∀ s : State, s.On →
    let h := s.host
    let b := s.bind
    let up := s.fld R.HL_STATUS F.HL_STATUS.LINK_UP = 1
    let bound := s.fld R.BIND_STATUS F.BIND_STATUS.STATE = 2
    let saying (c : MboxCode) (o : MboxOut) : State := { s with host := { h with code := c, out := o } }
    let all (P : Instr → Bool → Prop) : Prop := P .identify false ∧ (∀ l, P (.getEventRecords l) false) ∧ (∀ l a q, P (.clearEventRecords l a q) false) ∧ P .getEventInterruptPolicy false ∧ (∀ x y z w, P (.setEventInterruptPolicy x y z w) false) ∧
      P .getFwInfo false ∧ (∀ a o d, P (.transferFw a o d) false) ∧ (∀ o, P (.activateFw o) false) ∧ P .getTimestamp false ∧ (∀ v, P (.setTimestamp v) false) ∧ P .getSupportedLogs false ∧ (∀ l, P (.getLog l) false) ∧ P .getBindingState false ∧
      (∀ o d, P (.recoveryTransfer o d) false) ∧ P .recoveryApply false ∧ (∀ u, P (.setWakeBudget u) true) ∧ P .getWakeBudget true ∧ P .getServiceMap true ∧ (∀ w, P (.setPowerLimit w) true)
    (¬ up → all fun c _ => exec c s = .next s) ∧
    (up → s.hcpLoading 2 = true → all fun c _ => exec c s = .next (saying .busy .none)) ∧
    (up → s.hcpLoading 2 = false → ¬ bound → all fun c needs => needs = true → exec c s = .next (saying .unsupported .none)) ∧
    (up → s.hcpLoading 2 = false → ∀ op : BitVec 16,
      ((op.toNat ∉ mboxOpcodes ∨ (op.toNat ∈ [0xC010, 0xC011, 0xC020, 0xC030] ∧ ¬ bound)) → exec (.mailboxUnsupported op) s = .next (saying .unsupported .none))) ∧
    (up → s.hcpLoading 2 = false →
      let staged (t : State) : Prop := t = { s with bind := { b with op := t.bind.op, transfer := t.bind.transfer, staging := t.bind.staging }, host := t.host, regs := t.regs } ∧ RegsBut [R.BIND_STATUS] s t
      (Answers .identify s fun t => t = saying .success t.host.out ∧ ∃ l, t.host.out = .words l ∧ l.getD 1 0 = 0x7420 ∧ s.reg R.PKG_SERIAL ∈ l ∧ s.reg R.PKG_ID ∈ l) ∧
      (∀ l : Fin 4, Answers (.getEventRecords l) s fun t => t = saying .success (.events ((s.faults.hostLogs.filter fun p => p.1 == l.val).map (·.2)) (s.faults.hostOvf.contains l.val))) ∧
      (∀ (l : Fin 4) (q : List (BitVec 48)),
        (Answers (.clearEventRecords l true q) s fun t => (∀ p ∈ t.faults.hostLogs, p.1 ≠ l.val) ∧ (∀ p ∈ s.faults.hostLogs, p.1 ≠ l.val → p ∈ t.faults.hostLogs) ∧ l.val ∉ t.faults.hostOvf ∧
          t = { saying .success .none with faults := { s.faults with hostLogs := t.faults.hostLogs, hostOvf := t.faults.hostOvf } }) ∧
        (Answers (.clearEventRecords l false q) s fun t => (∀ p ∈ s.faults.hostLogs, (p ∈ t.faults.hostLogs ↔ p.1 ≠ l.val ∨ ∀ x ∈ q, x.toNat ≠ p.2.seq)) ∧ t.faults.queue = s.faults.queue ∧
          t = { saying .success .none with faults := { s.faults with hostLogs := t.faults.hostLogs } })) ∧
      exec .getEventInterruptPolicy s = .next (saying .success (.policy h.policy)) ∧
      (∀ x y z w : BitVec 8, exec (.setEventInterruptPolicy x y z w) s = .next { s with host := { h with code := .success, out := .none, policy := [x.toNat, y.toNat, z.toNat, w.toNat] } }) ∧
      exec .getFwInfo s = .next (saying .success (.words [1, s.reg R.BIND_VERSION])) ∧
      exec (.activateFw true) s = .next (saying .invalidInput .none) ∧ exec (.activateFw false) s = .next (saying .success .none) ∧
      (∀ (o : BitVec 32) (d : List Byte),
        (b.op ≠ .none → ∀ a, exec (.transferFw a o d) s = .next (saying .busy .none)) ∧
        (b.op = .none → (Answers (.transferFw .full o d) s fun t => staged t ∧ t.host = { h with code := .background, out := .none } ∧ (∃ n, t.bind.op = .transfer (Memory.writeBytes o.toNat d []) n) ∧ t.bind.transfer = []) ∧
          (Answers (.transferFw .init o d) s fun t => staged t ∧ t.host = { h with code := .success, out := .none } ∧ t.bind.op = .none ∧ t.bind.transfer = Memory.writeBytes o.toNat d []) ∧
          (Answers (.transferFw .cont o d) s fun t => staged t ∧ t.host = { h with code := .success, out := .none } ∧ t.bind.op = .none ∧ t.bind.transfer = Memory.writeBytes o.toNat d b.transfer) ∧
          (Answers (.transferFw .last o d) s fun t => staged t ∧ t.host = { h with code := .background, out := .none } ∧ (∃ n, t.bind.op = .transfer (Memory.writeBytes o.toNat d b.transfer) n) ∧ t.bind.transfer = []) ∧
          (Answers (.transferFw .abort o d) s fun t => staged t ∧ t.host = { h with code := .success, out := .none } ∧ t.bind.op = .none ∧ t.bind.transfer = [])) ∧
        (bound ∨ 0xA000000 < o.toNat + d.length → exec (.recoveryTransfer o d) s = .next (saying .invalidInput .none)) ∧
        (¬ bound → o.toNat + d.length ≤ 0xA000000 → b.op ≠ .none → exec (.recoveryTransfer o d) s = .next (saying .busy .none)) ∧
        (¬ bound → o.toNat + d.length ≤ 0xA000000 → b.op = .none → Answers (.recoveryTransfer o d) s fun t => staged t ∧ t.host = { h with code := .success, out := .none } ∧ t.bind.staging = Memory.writeBytes o.toNat d b.staging ∧
          t.fld R.BIND_STATUS F.BIND_STATUS.STATE = 1 ∧ t.fld R.BIND_STATUS F.BIND_STATUS.FAIL = s.fld R.BIND_STATUS F.BIND_STATUS.FAIL)) ∧
      (bound → exec .recoveryApply s = .next (saying .invalidInput .none)) ∧ (¬ bound → b.op ≠ .none → exec .recoveryApply s = .next (saying .busy .none)) ∧
      (¬ bound → b.op = .none → exec .recoveryApply s = .next { saying .background .none with bind := { b with op := .recovery } }) ∧
      (h.timestamp ≠ 0 → exec .getTimestamp s = .next (saying .success (.words [h.timestamp + BitVec.ofNat 64 ((s.now - h.timestampAt) / 16)]))) ∧ (h.timestamp = 0 → exec .getTimestamp s = .next (saying .success (.words [0]))) ∧
      (∀ v : Word, exec (.setTimestamp v) s = .next { s with host := { h with code := .success, out := .none, timestamp := v, timestampAt := s.now } }) ∧
      exec .getSupportedLogs s = .next (saying .success (.effects [0, 1])) ∧ exec (.getLog 0) s = .next (saying .success (.effects mboxOpcodes)) ∧
      exec (.getLog 1) s = .next (saying .success (.effects [s.fld R.BIND_STATUS F.BIND_STATUS.FAIL])) ∧
      exec .getBindingState s = .next (saying .success (.words [BitVec.ofNat 64 (s.fld R.BIND_STATUS F.BIND_STATUS.STATE), BitVec.ofNat 64 (s.fld R.BIND_STATUS F.BIND_STATUS.FAIL)])) ∧
      (bound →
        (∀ u : BitVec 32, Answers (.setWakeBudget u) s fun t => t.fld R.HL_WAKE_BUDGET F.HL_WAKE_BUDGET.BUDGET_US = u.toNat ∧ RegsBut [R.HL_WAKE_BUDGET] s t ∧ t = { saying .success .none with regs := t.regs }) ∧
        (Answers .getWakeBudget s fun t => t = saying .success (.words [BitVec.ofNat 64 (s.fld R.HL_WAKE_BUDGET F.HL_WAKE_BUDGET.BUDGET_US), BitVec.ofNat 64 s.restTarget])) ∧
        (Answers .getServiceMap s fun t => t = saying .success t.host.out ∧ ∃ l, t.host.out = .words l ∧ l.length = 8 ∧ (∀ d : Die, (l.getD 0 0).bit d = s.dieIn d) ∧
          (∀ n : Fin 16, (l.getD 0 0).bit (32 + n) = s.portUp n) ∧ (∀ n : Fin 12, (l.getD 0 0).bit (48 + n) = s.flag (R.DC_STATUS n) F.DC_STATUS.IN_SERVICE) ∧ l.drop 5 = [0, 0, 0]) ∧
        (∀ w : BitVec 16, (w = 0 ∨ 400 ≤ w.toNat → Answers (.setPowerLimit w) s fun t => t.fld R.PWR_LIMIT F.PWR_LIMIT.HOST_W = w.toNat ∧ (t.reg R.PWR_LIMIT).get 15 0 = (s.reg R.PWR_LIMIT).get 15 0 ∧
            t.fld R.PWR_STATUS F.PWR_STATUS.EFF_W = t.envelope.1 % 2 ^ 16 ∧ RegsBut [R.PWR_LIMIT, R.PWR_STATUS] s t ∧ t = { saying .success .none with regs := t.regs }) ∧
          (0 < w.toNat → w.toNat < 400 → Answers (.setPowerLimit w) s fun t => t.reg R.PWR_LIMIT = s.reg R.PWR_LIMIT ∧ t.lastRaised.map (fun y => (y.status, y.sev)) = some (St.PWR_LIMIT_BAD, Sev.INFO) ∧
            t = { saying .invalidInput .none with faults := t.faults }))))

/-- The effective envelope is the least of the fused one and the limits set. An interval adds its energy to the package's counter, divides it among the accounts, and, unless HCP0 reloads, grants: what HUB, the optical engines and the links drew and the shares of the dies and stack groups together fit the envelope, and each die's clock is the highest step, no lower than 1.000 GHz, whose power fits its share. THROTTLE_N and PWR_LIMIT move the envelope; a limit from 1 to 399 W is refused, and HOST_W is the host's. LS_BAND refuses MIN_W above MAX_W. FORGET and FORGET_ALL clear phases' entries. THERMTRIP stops the part and writes a CRITICAL record to the colophon if it can. (18_power.md, R18, R474, R475, R477, R482, R490, R491, R495, R497, R498, R500) -/
def Obligations.PowerSharing : Prop :=
  ∀ s : State, s.On →
    let eff (t : State) : Nat := t.fld R.PWR_STATUS F.PWR_STATUS.EFF_W
    let limits (throttled : Bool) (t : State) : List Nat := ([t.fld R.PKG_FUSED F.PKG_FUSED.ENVELOPE_W, t.fld R.PWR_LIMIT F.PWR_LIMIT.MGMT_W, t.fld R.PWR_LIMIT F.PWR_LIMIT.HOST_W] ++
      (if throttled then [t.fld R.PWR_LIMIT F.PWR_LIMIT.PIN_W] else [])).filter (· ≠ 0)
    let least (throttled : Bool) (t : State) : Prop := eff t = (limits throttled t).foldl min 1200
    let told (st sev : Nat) (t : State) : Prop := t.lastRaised.map (fun y => (y.status, y.sev)) = some (st, sev)
    (∀ (m : Moment) (r : PowerReading), s.now ≤ m →
      let s0 := s.atTime m
      let e := (limits s.pins.throttle s).foldl min 1200 * 1000
      let base := r.oeMW + r.linkMW + min 180000 r.hubMW
      let sat (o n : Nat) (t : State) : Prop := (t.reg o).toNat = min (2 ^ 64 - 1) ((s.reg o).toNat + n)
      let parts := (r.engineE.map (·.2.2)).sum + (r.coreE.map (·.2)).sum + r.ballastE
      (Answers (.powerInterval m r) s fun t => sat R.PWR_ENERGY_PKG r.energy t ∧ t.fld R.PWR_STATUS F.PWR_STATUS.AVG_W = min 65535 (r.avg10ms / 1000) ∧ least s.pins.throttle t ∧
        (parts ≤ r.energy → sat R.PWR_ENERGY_SHAPING r.ballastE t ∧ sat R.PWR_ENERGY_UNATTR (r.energy - parts) t) ∧ (r.energy ≤ parts → t.reg R.PWR_ENERGY_UNATTR = s.reg R.PWR_ENERGY_UNATTR) ∧
        (∀ (d : Die) (c : Cx) (n : Nat), r.engineE = [(d, c, n)] → sat (R.CX_ENERGY d c) (min n r.energy) t) ∧ t.cxs = s.cxs ∧ t.mem = s.mem ∧ t.sync = s.sync ∧ t.span = s.span) ∧
      (s.hcpLoading 0 = true → Answers (.powerInterval m r) s fun t => (∀ d : Die, t.grantOf d = s.grantOf d) ∧ t.power.coreGrant = s.power.coreGrant ∧ t.power.groupShare = s.power.groupShare) ∧
      (s.hcpLoading 0 = false → s.power.dead = [] → base ≤ e → (∀ d : Die, s.dieIn d = true) → Answers (.powerInterval m r) s fun t =>
        let share (i : Nat) : Nat := Sparse.get 0 i t.power.dieShare
        let group (i : Nat) : Nat := Sparse.get 0 i t.power.groupShare
        base + (share 0 + share 1 + share 2 + share 3) + (group 0 + group 1 + group 2 + group 3) ≤ e ∧ ∀ i < 4, share i ≤ 160000 ∧ group i ≤ 105000) ∧
      (s.hcpLoading 0 = false → s.power.dead = [] → s.power.rails = [] → s.aligned = false → s.power.bandLow = 0 → s.fld R.LS_CFG F.LS_CFG.EN = 0 → s.fld R.PWR_CFG F.PWR_CFG.REPRO = 0 → s.occ = [] → r.draws = [] →
        ∀ d : Die, s.dieIn d = true → r.dieC.getD d [] = [] → 40 ≤ s.clockLimit d → Answers (.powerInterval m r) s fun t =>
          let power (f : Nat) : Nat := (s.dieNeed r d).1 * Config.curve s.power.tables d f / 65536
          let share := Sparse.get 0 d.val t.power.dieShare
          40 ≤ t.grantOf d ∧ t.grantOf d ≤ s.clockLimit d ∧ (t.grantOf d = 40 ∨ power (t.grantOf d) ≤ share) ∧ (∀ f, t.grantOf d < f → f ≤ s.clockLimit d → share < power f))) ∧
    (∀ (m : Moment) (l : Level), s.now ≤ m →
      let held := l = .low ∧ s.hcpLoading 0 = true
      Answers (.throttleN m l) s fun t => t.pins = { s.pins with throttle := decide (l = .low) } ∧ least (decide (l = .low)) t ∧ t.fld R.PWR_STATUS F.PWR_STATUS.PIN = (if l = .low then 1 else 0) ∧
        (¬ held → ∀ d : Die, t.grantOf d = s.grantOf d) ∧ (held → ∀ d : Die, t.grantOf d = min 40 (s.grantOf d)) ∧
        TrBut ([0, 1, 2, 3].map R.PWR_D_CLK) s t ∧ t = { s.atTime m with regs := t.regs, pins := t.pins, power := t.power, faults := t.faults }) ∧
    (∀ (w : RegW) (v : Word), s.Writes w R.PWR_LIMIT v →
      let good (n : Nat) : Prop := n = 0 ∨ 400 ≤ n
      let set (n old new : Nat) : Prop := (good n → new = n) ∧ (¬ good n → new = old)
      let host := w.agent = .host
      Answers (.pwrLimitWrite w) s fun t => set (v.get 15 0) (s.fld R.PWR_LIMIT F.PWR_LIMIT.MGMT_W) (t.fld R.PWR_LIMIT F.PWR_LIMIT.MGMT_W) ∧ set (v.get 47 32) (s.fld R.PWR_LIMIT F.PWR_LIMIT.PIN_W) (t.fld R.PWR_LIMIT F.PWR_LIMIT.PIN_W) ∧
        (host → set (v.get 31 16) (s.fld R.PWR_LIMIT F.PWR_LIMIT.HOST_W) (t.fld R.PWR_LIMIT F.PWR_LIMIT.HOST_W)) ∧ (¬ host → t.fld R.PWR_LIMIT F.PWR_LIMIT.HOST_W = s.fld R.PWR_LIMIT F.PWR_LIMIT.HOST_W) ∧
        ((good (v.get 15 0) ∧ good (v.get 47 32) ∧ (host → good (v.get 31 16))) → t.faults = s.faults) ∧ ((¬ good (v.get 15 0) ∨ ¬ good (v.get 47 32) ∨ (host ∧ ¬ good (v.get 31 16))) → told St.PWR_LIMIT_BAD Sev.INFO t) ∧
        least s.pins.throttle t ∧ RegsBut [R.PWR_LIMIT, R.PWR_STATUS] s t ∧ t = { s with regs := t.regs, faults := t.faults }) ∧
    (∀ (w : RegW) (v : Word), s.Writes w R.LS_BAND v →
      (v.get 31 16 < v.get 15 0 → Answers (.lsBandWrite w) s fun t => told St.LS_CFG_BAD Sev.INFO t ∧ t = { s with faults := t.faults }) ∧
      (v.get 15 0 ≤ v.get 31 16 → Answers (.lsBandWrite w) s fun t => t.reg R.LS_BAND = writeFields ((regFields R.LS_BAND).getD []) (s.reg R.LS_BAND) v ∧ (t.reg R.LS_BAND).get 31 0 = v.get 31 0 ∧ RegsBut [R.LS_BAND] s t ∧ t = { s with regs := t.regs })) ∧
    (∀ (w : RegW) (v : Word), s.Writes w R.PWR_CTL v →
      (v.get 1 0 = 1 → Answers (.forget w) s fun t => t.reg (R.PWR_PHASE (v.get 15 8)) = 0 ∧ Sparse.find (v.get 15 8) t.power.learnt = none ∧ (∀ p, p ≠ v.get 15 8 → Sparse.find p t.power.learnt = Sparse.find p s.power.learnt) ∧
        RegsBut [R.PWR_PHASE (v.get 15 8)] s t ∧ t = { s with regs := t.regs, power := { s.power with learnt := t.power.learnt, toLearn := t.power.toLearn } }) ∧
      (v.get 1 0 = 2 → Answers (.forgetAll w) s fun t => (∀ p < 256, t.reg (R.PWR_PHASE p) = 0 ∧ Sparse.find p t.power.learnt = none) ∧
        RegsBut ((List.range 256).map R.PWR_PHASE) s t ∧ t = { s with regs := t.regs, power := { s.power with learnt := t.power.learnt, toLearn := t.power.toLearn } }) ∧
      (v.get 1 0 = 3 → Answers (.forget w) s fun t => told St.PWR_CTL_REFUSED Sev.INFO t ∧ t = { s with faults := t.faults })) ∧
    (∀ (m : Moment) (b : Bool), s.now ≤ m →
      (Answers (.thermtrip m b) s fun t => t.pins = { s.pins with thermtrip := true } ∧ t.tripped ∧ t.mem = s.mem ∧ t.cxs = s.cxs ∧ (b = false → told St.THERMTRIP Sev.CRITICAL t ∧ t.colo = s.colo ∧ (t.reg (R.COLO_LIFE 5)).toNat = min (2 ^ 64 - 1) ((s.reg (R.COLO_LIFE 5)).toNat + 1)) ∧
        (b = true → s.faults.raised = [] → (t.faults.queue.map (·.status)).contains St.THERMTRIP = true ∧ (s.colo.nextBank = 0 → t.colo.bank0.isSome = true ∧ t.colo.bank1 = s.colo.bank1) ∧ (s.colo.nextBank ≠ 0 → t.colo.bank1.isSome = true ∧ t.colo.bank0 = s.colo.bank0))))

/-- A droop stretches its unit's clock, by half beyond T2, and changes no count of AC cycles; it clears when every detector has. A clock changes at its switch, at most once per 20 µs; a change latched under a droop begins 2 µs after it cleared. A rail at its limit, or whose regulator does not answer, lowers its domains one step per reading, RAIL_CURRENT binding them, until it falls below 95%. Rises held for the mains phase take effect at it. LS_MAINS.VALID clears 50 ms after the last edge. A die dozes when idle and wakes for a command or a stamp. ARM is refused while the target is run or doze; an armed, idle package rests from PWR_REST_AT on, its stacks in self-refresh, in drift its DDR5 and ports too, and returns at its triggers. (18_power.md, R478, R479, R480, R481, R486, R488, R492, R493, R494, R501, R558) -/
def Obligations.PowerEvents : Prop :=
  ∀ (s : State) (m : Moment), s.On → s.now ≤ m →
    let s0 := s.atTime m
    let told (st sev : Nat) (t : State) : Prop := t.lastRaised.map (fun y => (y.status, y.sev)) = some (st, sev)
    let quiet (t : State) : Prop := PowerOnly [] s0 t ∧ t.power = { s.power with accruedAt := t.power.accruedAt } ∧ t.ac = s.ac
    (∀ (u : DroopUnit) (det : Fin 8),
      let k := unitCode u
      let here := k = 4 ∨ det.val < 4
      let had := (s.power.tripped.any fun p => p.1 == k && p.2.1 == det.val) = true
      let deeper := (s.power.tripped.any fun p => p.1 == k && p.2.2) = true
      let stretch (t : State) : Nat := if k = 4 then t.power.hubStretch else t.fld (R.PWR_D_CLK k) F.PWR_D_CLK.STRETCH
      let regs := [R.PWR_D_CLK k, R.PWR_D_DROOPS k, R.PWR_D_STRETCH_CYC k, R.COLO_LIFE 21, R.COLO_LIFE_SAT]
      (∀ deep : Bool,
        (here → Answers (.droopTrip m u det deep) s fun t => stretch t = (if deep = true ∨ deeper then 2 else 1) ∧ (t.power.tripped.any fun p => p.1 == k && p.2.1 == det.val) = true ∧
          (k < 4 → ¬ had → t.fld (R.PWR_D_DROOPS k) F.CTR.COUNT = (s.fld (R.PWR_D_DROOPS k) F.CTR.COUNT + 1) % 2 ^ 48) ∧ (had → t.reg (R.PWR_D_DROOPS k) = s.reg (R.PWR_D_DROOPS k)) ∧
          (∀ d : Die, t.acNow d = s0.acNow d) ∧ (∀ v : Nat, v ≠ k → t.stretchOf v = s.stretchOf v ∨ (k = 4 ∧ 4 ≤ v)) ∧ PowerOnly regs s0 t) ∧
        (¬ here → Answers (.droopTrip m u det deep) s quiet)) ∧
      (had → Answers (.droopClear m u det) s fun t =>
        let left := s.power.tripped.filter fun p => p.1 == k && p.2.1 != det.val
        t.power.tripped = (s.power.tripped.filter fun p => !(p.1 == k && p.2.1 == det.val)) ∧ stretch t = (if (left.any fun p => p.2.2) = true then 2 else if left = [] then 0 else 1) ∧
        (left = [] → Sparse.find k t.power.clearedAt = some m) ∧ (∀ d : Die, t.acNow d = s0.acNow d) ∧ PowerOnly regs s0 t) ∧
      (¬ had → Answers (.droopClear m u det) s quiet)) ∧
    (∀ dom : ClockDomain,
      let k := domCode dom
      let cur (t : State) : Nat := if k < 4 then t.fld (R.PWR_D_CLK k) F.PWR_D_CLK.CUR else t.fld (R.C_CLK (k - 0x20)) F.C_CLK.CUR
      let regs := [if k < 4 then R.PWR_D_CLK k else R.C_CLK (k - 0x20)]
      let early := ∃ a ∈ Sparse.find k s.power.changedAt, m < a + 320000
      (∀ f, Sparse.find k s.power.reqs = some f → ¬ early → f < 256 → Answers (.freqSwitch m dom) s fun t => cur t = f ∧ Sparse.find k t.power.reqs = none ∧ Sparse.find k t.power.changedAt = some m ∧ (∀ d : Die, t.acNow d = s0.acNow d) ∧ PowerOnly regs s0 t) ∧
      ((Sparse.find k s.power.reqs = none ∨ early) → Answers (.freqSwitch m dom) s quiet) ∧
      (∀ f a, Sparse.find k s.power.latched = some f → Sparse.find (if k < 4 then k else 4) s.power.clearedAt = some a →
        (s.stretchOf k = 0 ∧ a + 32000 ≤ m → Answers (.freqChangeApply m dom) s fun t => Sparse.find k t.power.latched = none ∧ Sparse.find k t.power.reqs = some f ∧ cur t = cur s ∧
          (k < 4 → t.fld (R.PWR_D_CLK k) F.PWR_D_CLK.PENDING = 0) ∧ PowerOnly regs s0 t) ∧
        (s.stretchOf k ≠ 0 ∨ m < a + 32000 → Answers (.freqChangeApply m dom) s quiet)) ∧
      (Sparse.find k s.power.latched = none → Answers (.freqChangeApply m dom) s quiet)) ∧
    (∀ r : Rail,
      let doms := railDomains r
      let regs := [0, 1, 2, 3].map R.PWR_D_CLK
      let dead := s.power.dead.contains r.val = true
      let low := (Sparse.find r.val s.power.rails).isSome = true
      let lowered (t : State) : Prop := Sparse.get 0 r.val t.power.rails = Sparse.get 0 r.val s.power.rails + 1 ∧ (∀ x ∈ doms, (x, Tr.RAIL_CURRENT) ∈ t.power.lowered ∧ (x < 0x80 → t.grantOf x = max 40 (s.grantOf x - 1))) ∧
        (∀ d : Die, d.val ∉ doms → t.grantOf d = s.grantOf d) ∧ PowerOnly regs s0 t
      (s.grantOf r < 40 → r.val < 4 → s.aligned = false) → (∀ d : Die, s.grantOf d < 256) → (∀ n : Fin 96, s.grantOf (Dom.core n) < 256) →
        (dead ∨ low → Answers (.railLimit m r .between) s lowered) ∧ (¬ dead → ¬ low → Answers (.railLimit m r .between) s quiet) ∧ Answers (.railLimit m r .atLimit) s lowered ∧ (dead → Answers (.railLimit m r .below95) s lowered) ∧
        (¬ dead → Answers (.railLimit m r .below95) s fun t => Sparse.find r.val t.power.rails = none ∧ (∀ x ∈ doms, t.railSteps x = 0 → (x, Tr.RAIL_CURRENT) ∉ t.power.lowered) ∧ (∀ d : Die, t.grantOf d = s.grantOf d) ∧
          t.power = { s.power with rails := t.power.rails, lowered := t.power.lowered, accruedAt := t.power.accruedAt } ∧ PowerOnly [] s0 t) ∧
        (Answers (.regulatorTimeout m r) s fun t => lowered t ∧ t.power.dead.contains r.val = true ∧ (∀ k ∈ s.power.dead, k ∈ t.power.dead))) ∧
    (let mine := s.aligned = true ∧ s0.mainsPhase = s.fld R.LS_CFG F.LS_CFG.STEP_PHASE
     (mine → (s.power.upWait.map (·.1)).Nodup → (∀ p ∈ s.power.upWait, p.1 < 4 ∧ p.2 < 256) → Answers (.stepPhaseReached m) s fun t => t.power.upWait = [] ∧ (∀ p ∈ s.power.upWait, t.grantOf p.1 = p.2) ∧
       (∀ d : Die, (∀ p ∈ s.power.upWait, p.1 ≠ d.val) → t.grantOf d = s.grantOf d) ∧ PowerOnly ([0, 1, 2, 3].map R.PWR_D_CLK) s0 t) ∧
     (¬ mine → Answers (.stepPhaseReached m) s quiet)) ∧
    ((∃ a ∈ s.power.edgeAt, a + 800000000 ≤ m) → Answers (.lsMainsTimeout m) s fun t => t.fld R.LS_MAINS F.LS_MAINS.VALID = 0 ∧ t.fld R.LS_MAINS F.LS_MAINS.PERIOD = s.fld R.LS_MAINS F.LS_MAINS.PERIOD ∧ RegsBut [R.LS_MAINS] s t ∧ t = { s0 with regs := t.regs }) ∧
    ((∀ a ∈ s.power.edgeAt, m < a + 800000000) → exec (.lsMainsTimeout m) s = .next s0) ∧
    (∀ d : Die,
      let near := s0.stampNear (some d) 2 = true
      let ran := ∃ a ∈ Sparse.find d.val s.power.ranAt, m < a + s.fld R.PWR_REST_CFG F.PWR_REST_CFG.DOZE_IDLE_US * 16000
      let busy := ((s.dieFlights d).any fun p => decide (p.2.cmd.kind < 2) && p.2.busy) = true
      let goes := s.dieIn d = true ∧ 1 ≤ s.restTarget ∧ ¬ busy ∧ ¬ ran ∧ s.power.doze.contains d.val = false ∧ ¬ near
      (goes → exec (.dozeEntry m d) s = .next { s0 with power := { s.power with doze := s.power.doze ++ [d.val] } }) ∧ (¬ goes → exec (.dozeEntry m d) s = .next s0) ∧
      (s.readyForGated d = true ∨ near → exec (.dozeExit m d) s = .next { s0 with power := { s.power with doze := s.power.doze.filter (· != d.val) } }) ∧
      (s.readyForGated d = false → ¬ near → exec (.dozeExit m d) s = .next s0)) ∧
    (∀ (w : RegW) (v : Word), s.Writes w R.PWR_REST_CTL v →
      let armed (n : Nat) (t : State) : Prop := t.fld R.PWR_REST_STATUS F.PWR_REST_STATUS.ARMED = n ∧ t.restState = s.restState ∧ RegsBut [R.PWR_REST_STATUS] s t ∧ t = { s with regs := t.regs }
      let refused (t : State) : Prop := told St.PWR_REST_REFUSED Sev.INFO t ∧ t = { s with faults := t.faults }
      (v.get 1 0 = 1 → (2 ≤ s.restTarget → Answers (.arm w) s (armed 1)) ∧ (s.restTarget < 2 → Answers (.arm w) s refused)) ∧
      (v.get 1 0 = 2 → Answers (.restCancel w) s (armed 0)) ∧ (v.get 1 0 = 3 → Answers (.arm w) s refused ∧ Answers (.restCancel w) s refused)) ∧
    (∀ (wfi : List (Fin 96)) (draw : Nat),
      let goes := s.fld R.PWR_REST_STATUS F.PWR_REST_STATUS.ARMED = 1 ∧ s.restState = 0 ∧ 2 ≤ s.restTarget ∧ stampReached (s.reg R.PWR_REST_AT) s0.spanNow = true ∧ s0.pkgIdle wfi draw = true
      (goes → Answers (.restEntry m wfi draw) s fun t => t.restState = s.restTarget ∧ t.fld R.PWR_REST_STATUS F.PWR_REST_STATUS.ARMED = 0 ∧ (∀ j : Fin 20, t.hsState j = (if s.hsState j = HsS.RUN then HsS.SELF_REFRESH else s.hsState j)) ∧
        (∀ l, t.heldLine .cores l = none) ∧ t.cxs = s.cxs ∧ t.sync = s.sync ∧ t.firn = s.firn ∧
        (s.restTarget = 3 → (∀ n : Fin 12, s.flag (R.DC_STATUS n) F.DC_STATUS.IN_SERVICE = true → t.fld (R.DC_STATUS n) F.DC_STATUS.SELF_REFRESH = 1) ∧ ∀ n : Fin 16, (t.port n).drift = true) ∧
        (s.restTarget = 2 → (∀ n : Fin 12, t.reg (R.DC_STATUS n) = s.reg (R.DC_STATUS n)) ∧ t.fab = s.fab)) ∧
      (¬ goes → exec (.restEntry m wfi draw) s = .next s0)) ∧
    (∀ x : RestCause,
      let due := 2 ≤ s.restState ∧ (x = .until → s.reg R.PWR_REST_UNTIL ≠ 0 ∧ stampReached (s.reg R.PWR_REST_UNTIL) s0.spanNow = true) ∧ (x = .stamp → s0.stampNear none (restLatency s.restState) = true)
      (due → Answers (.restExit m x) s fun t => t.restState = 0 ∧ (∀ j : Fin 20, t.hsState j ≠ HsS.SELF_REFRESH) ∧ (∀ j : Fin 20, s.hsState j = HsS.SELF_REFRESH → (s.hsSt j).want = none → (s.hsSt j).retrainDue = false → t.hsState j = HsS.RUN) ∧
        t.cxs = s.cxs ∧ t.sync = s.sync ∧ (s.restState = 3 → (∀ n : Fin 12, t.fld (R.DC_STATUS n) F.DC_STATUS.SELF_REFRESH = 0) ∧ ∀ n : Fin 16, (t.port n).drift = false) ∧ (s.restState = 2 → t.fab.ports = s.fab.ports)) ∧
      (¬ due → exec (.restExit m x) s = .next s0))

/-- START_UP takes a powered package out of reset once and opens its colophon; an image that fails a check leaves it unbound with the code, a record and BIND_FAILS counted, one that passes is applied and the part is bound, its units that came up in service and the cores the image names running. A recovery image does the same from staging. BIND_TIMEOUT fails a start of 5 s; SVN_COMMIT blows the fuses up to the image's SVN. LOAD_PACK and WRITE_FLASH copy their bytes and are refused while an operation runs; a pack that passes goes to its targets, pending where they are out of service; a target switches, or keeps its firmware with SEG_LOAD_FAIL. A flash write that fails a check changes no byte. CANCEL drops a pack under check, or the segments not yet switched. (20_binding.md, R464, R535, R536, R537, R538, R539, R543, R544, R549, R552) -/
def Obligations.Binding : Prop :=
  ∀ (s : State) (m : Moment), s.now ≤ m →
    let s0 := s.atTime m
    let stat (t : State) (f : Fld) : Nat := t.fld R.BIND_STATUS f
    let told (st sev : Nat) (t : State) : Prop := t.lastRaised.map (fun y => (y.status, y.sev)) = some (st, sev)
    let life (i : Nat) (t : State) : Prop := (t.reg (R.COLO_LIFE i)).toNat = min (2 ^ 64 - 1) ((s.reg (R.COLO_LIFE i)).toNat + 1)
    let up (img : List Host.Cell) (v : TrustVerdict) (b : BringUp) (t : State) : Prop := stat t F.BIND_STATUS.STATE = 2 ∧ stat t F.BIND_STATUS.FAIL = 0 ∧ stat t F.BIND_STATUS.IMG_SVN = imgNat img 13 1 ∧ t.reg R.BIND_VERSION = BitVec.ofNat 64 (imgNat img 16 8) ∧
      t.bind.ended = true ∧ t.bind.imageDigest = v.digest.toNat ∧ (t.bind.commit = if imgNat img 14 1 = 1 ∧ stat s F.BIND_STATUS.FUSED_SVN < imgNat img 13 1 then some (imgNat img 13 1) else none) ∧
      (∀ d : Die, t.fld (R.HUB_CD_STATUS d) F.HUB_CD_STATUS.IN_SERVICE = 1 ↔ b.failedDies.contains d = false) ∧
      (∀ j : Fin 20, t.fld (R.HS_STATUS j) F.HS_STATUS.IN_SERVICE = 1 ↔ b.failedStacks.contains j = false ∧ ∀ d : Die, d.val = j.val / 5 → b.failedDies.contains d = false) ∧ t.fab.oeOut = b.failedOEs.map (·.val) ∧
      (∀ n : Fin 96, t.fld (R.C_STATUS n) F.C_STATUS.STATE = 0 ↔ (if n.val < 64 then t.reg R.BIND_CORES_LO else t.reg R.BIND_CORES_HI).bit (n.val % 64) = true)
    let unbound (st : Nat) (t : State) : Prop := stat t F.BIND_STATUS.STATE = 0 ∧ stat t F.BIND_STATUS.FAIL = st % 256 ∧ told st Sev.DEFERRED t ∧ t.bind.ended = true
    (∀ (v : TrustVerdict) (b : BringUp) (l : Option HostUp),
      let starts := s.pins.powered = true ∧ s.bind.started = false ∧ s.pins.thermtrip = false
      let began (t : State) : Prop := t.pins.inReset = false ∧ t.pins.resetLow = false ∧ t.bind.started = true ∧ t.bind.startAt = m ∧ t.colo.loaded = true ∧ t.bind.flash = s.bind.flash ∧
        (∀ u ∈ l, s.pins.perstLow = false → s.host.lostHold = false → t.fld R.HL_STATUS F.HL_STATUS.LINK_UP = 1) ∧ (b.coloBad = true → t.fld R.COLO_STATUS F.COLO_STATUS.LOST_HISTORY = 1)
      (¬ starts → exec (.startUp m v b l) s = .next s0) ∧
      (starts → b.stepsDone = false → Answers (.startUp m v b l) s fun t => began t ∧ stat t F.BIND_STATUS.STATE = stat s F.BIND_STATUS.STATE ∧ t.bind.ended = s.bind.ended) ∧
      (starts → b.stepsDone = true → ∀ st, s.checkImage s.bind.flash 0xA000000 v = some st → Answers (.startUp m v b l) s fun t => began t ∧ unbound st t ∧ t.mem = s.mem) ∧
      (starts → b.stepsDone = true → s.checkImage s.bind.flash 0xA000000 v = none →
        (b.failedHcp = true ∨ b.applyFails = true → Answers (.startUp m v b l) s fun t => began t ∧ unbound St.BIND_APPLY_FAIL t) ∧
        (b.failedHcp = false → b.applyFails = false → (∀ d : Die, s.fld (R.HUB_CD_STATUS d) F.HUB_CD_STATUS.IN_SERVICE = 0) → (∀ j : Fin 20, s.fld (R.HS_STATUS j) F.HS_STATUS.IN_SERVICE = 0) → (∀ n : Fin 96, s.fld (R.C_STATUS n) F.C_STATUS.STATE ≠ 0) →
          Answers (.startUp m v b l) s fun t => began t ∧ up s.bind.flash v b t ∧ stat t F.BIND_STATUS.SOURCE = 0))) ∧
    (s.On →
      (∀ (v : TrustVerdict) (b : BringUp),
        let good := s.checkImage s.bind.staging 0xA000000 { v with flashAnswers := true }
        (s.bind.op ≠ .recovery → exec (.recoveryCheckDone m v b) s = .next s0) ∧
        (s.bind.op = .recovery → (∀ st, good = some st → Answers (.recoveryCheckDone m v b) s fun t => unbound st t ∧ t.bind.op = .none ∧ t.mem = s.mem ∧ t.bind.staging = s.bind.staging)) ∧
        (s.bind.op = .recovery → good = none → (b.failedHcp = true ∨ b.applyFails = true) → Answers (.recoveryCheckDone m v b) s fun t => unbound St.BIND_APPLY_FAIL t ∧ t.bind.op = .none) ∧
        (s.bind.op = .recovery → good = none → b.failedHcp = false → b.applyFails = false → (∀ d : Die, s.fld (R.HUB_CD_STATUS d) F.HUB_CD_STATUS.IN_SERVICE = 0) → (∀ j : Fin 20, s.fld (R.HS_STATUS j) F.HS_STATUS.IN_SERVICE = 0) → (∀ n : Fin 96, s.fld (R.C_STATUS n) F.C_STATUS.STATE ≠ 0) →
          Answers (.recoveryCheckDone m v b) s fun t => up s.bind.staging v b t ∧ stat t F.BIND_STATUS.SOURCE = 1 ∧ t.bind.op = .none ∧ t.bind.staging = [])) ∧
      (let late := s.bind.started = true ∧ s.bind.ended = false ∧ s.bind.spFailed = false ∧ s.bind.startAt + 80000000000 ≤ m
       (late → Answers (.bindTimeout m) s fun t => told St.SP_FAIL Sev.CRITICAL t ∧ t = { s0 with bind := { s.bind with spFailed := true }, faults := t.faults }) ∧ (¬ late → exec (.bindTimeout m) s = .next s0)) ∧
      (let due := stat s F.BIND_STATUS.STATE = 2
       (∀ n, s.bind.commit = some n → due → n < 128 → Answers (.svnCommit m) s fun t => stat t F.BIND_STATUS.FUSED_SVN = n ∧ stat t F.BIND_STATUS.STATE = 2 ∧ t.bind = { s.bind with commit := none } ∧ RegsBut [R.BIND_STATUS] s t ∧ t = { s0 with regs := t.regs, bind := t.bind }) ∧
       (s.bind.commit = none ∨ ¬ due → exec (.svnCommit m) s = .next s0)) ∧
      (∀ (w : RegW) (v : Word), s.Writes w R.BIND_CTL v →
        let busy (t : State) : Prop := told St.BIND_BUSY Sev.INFO t ∧ t = { s with faults := t.faults }
        let pa := s.fld R.BIND_SRC F.BIND_SRC.ADDR * 4096
        let len := s.fld R.BIND_LEN F.BIND_LEN.LEN
        let still := s.mem.coreLines = [] ∧ s.mem.hostLines = []
        let copied (img : List Host.Cell) : Prop := pa + len ≤ 0x14000000000 → (s.memOk → s.srcOk pa len = true → ∀ i : Nat, Memory.read i img = if i < len then Memory.read (pa + i) s.mem.cells else 0)
        let begun (op : BindOp) (t : State) : Prop := t.bind = { s.bind with op := op } ∧ t.reg R.BIND_OP = 1 ∧ RegsBut [R.BIND_OP] s t ∧ t = { s with regs := t.regs, bind := t.bind }
        (s.bind.op ≠ .none → (v.bit 0 = true → Answers (.loadPack w) s busy) ∧ (v.bit 1 = true → Answers (.writeFlash w) s busy)) ∧
        (s.bind.op = .none → s.bind.spFailed = false → still →
          (v.bit 0 = true → Answers (.loadPack w) s fun t => ∃ img, begun (.pack img (if s.srcOk pa len = true then len else 0)) t ∧ copied img) ∧
          (v.bit 1 = true → Answers (.writeFlash w) s fun t => ∃ img, begun (.flash img (if s.srcOk pa len = true then len else 0)) t ∧ copied img)) ∧
        (v.bit 2 = true →
          (∀ img n, s.bind.op = .pack img n → Answers (.bindCancel w) s fun t => t.bind = { s.bind with op := .none } ∧ t.fld R.BIND_OP F.BIND_OP.FAILED = 1 ∧ t.fld R.BIND_OP F.BIND_OP.RESULT = St.PACK_BAD % 256 ∧ RegsBut [R.BIND_OP] s t ∧ t = { s with regs := t.regs, bind := t.bind }) ∧
          ((∀ img n, s.bind.op ≠ .pack img n) → Answers (.bindCancel w) s fun t => t.bind.loading = [] ∧ t.bind.op = s.bind.op ∧ t.bind.fw = s.bind.fw ∧ (∀ n < 41, t.fld (R.SEG_RUN n) F.SEG_RUN.PENDING = 0) ∧
            RegsBut ((List.range 41).map R.SEG_RUN) s t ∧ t = { s with regs := t.regs, bind := { s.bind with loading := [], store := t.bind.store } }))) ∧
      (∀ (v : TrustVerdict) (img : List Host.Cell) (n : Nat),
        (s.bind.op = .pack img n →
          (s.packOk img n v = false → Answers (.packCheckDone m v) s fun t => t.bind = { s.bind with op := .none } ∧ told St.PACK_BAD Sev.INFO t ∧ t.fld R.BIND_OP F.BIND_OP.FAILED = 1 ∧ t.fld R.BIND_OP F.BIND_OP.RESULT = St.PACK_BAD % 256 ∧ RegsBut [R.BIND_OP] s t ∧ t.mem = s.mem) ∧
          (s.packOk img n v = true → Answers (.packCheckDone m v) s fun t => t.bind.op = .none ∧ t.bind.store = s.bind.store ++ imgSegs img ∧ t.fld R.BIND_OP F.BIND_OP.DONE = 1 ∧ t.fld R.BIND_OP F.BIND_OP.FAILED = 0 ∧ t.bind.fw = s.bind.fw ∧ t.mem = s.mem ∧
            (∀ g ∈ imgSegs img, ∀ k ∈ g.targets, (s.targetIn k = true → (k, g) ∈ t.bind.loading) ∧ (s.targetIn k = false → t.fld (R.SEG_RUN k) F.SEG_RUN.PENDING = 1)) ∧ (∀ x ∈ s.bind.loading, x ∈ t.bind.loading) ∧
            ((∃ g ∈ imgSegs img, g.kind = 0x12) → t.power.tablesDue = true))) ∧
        ((∀ i k, s.bind.op ≠ .pack i k) → exec (.packCheckDone m v) s = .next s0) ∧
        (∀ fails : Bool,
          let code := s.checkSeven img n { v with flashAnswers := true }
          let ended (bad : Bool) (t : State) : Prop := t.bind.op = .none ∧ t.mem = s.mem ∧
            (s.bind.op = .flash img n → t.fld R.BIND_OP F.BIND_OP.DONE = (if bad then 0 else 1) ∧ t.fld R.BIND_OP F.BIND_OP.FAILED = (if bad then 1 else 0) ∧ RegsBut [R.BIND_OP] s t ∧ t.host = s.host) ∧
            (s.bind.op ≠ .flash img n → t.regs = s.regs ∧ t.host = { s.host with code := if bad then .invalidInput else .success })
          (s.bind.op = .flash img n ∨ s.bind.op = .transfer img n →
            (∀ st, code = some st → Answers (.flashWriteDone m v fails) s fun t => ended true t ∧ t.bind.flash = s.bind.flash ∧ told St.FLASH_WRITE_FAIL Sev.INFO t ∧ t.lastRaised.map (·.arg0) = some (BitVec.ofNat 64 st)) ∧
            (code = none → fails = false → Answers (.flashWriteDone m v fails) s fun t => ended false t ∧ t.bind.flash = img ∧ t.faults = s.faults) ∧
            (code = none → fails = true → Answers (.flashWriteDone m v fails) s fun t => ended true t ∧ told St.FLASH_WRITE_FAIL Sev.DEFERRED t ∧ ∃ a, ∀ x, x ≠ a → Memory.read x t.bind.flash = Memory.read x img)) ∧
          ((∀ i k, s.bind.op ≠ .flash i k ∧ s.bind.op ≠ .transfer i k) → exec (.flashWriteDone m v fails) s = .next s0))) ∧
      (∀ (n : Fin 41) (g : Seg),
        let first := s.bind.loading.find? fun p => loadGroup p.1 == loadGroup n
        (first = some (n.val, g) →
          (Answers (.segmentSwitch m n true) s fun t => told St.SEG_LOAD_FAIL Sev.DEFERRED t ∧ t.bind = { s.bind with loading := s.bind.loading.erase (n.val, g) } ∧ t.regs = s.regs) ∧
          (Answers (.segmentSwitch m n false) s fun t => Sparse.get 0 n.val t.bind.fw = g.digest ∧ t.bind.loading = s.bind.loading.erase (n.val, g) ∧ t.fld (R.SEG_RUN n) F.SEG_RUN.FROM_PACK = 1 ∧ t.fld (R.SEG_RUN n) F.SEG_RUN.PENDING = 0 ∧
            (t.reg (R.SEG_RUN n)).get 47 0 = g.version.get 47 0 ∧ stat t F.BIND_STATUS.PACK_LOADED = 1 ∧ t.mem = s.mem ∧ t.cxs = s.cxs ∧ (n.val < 32 ∨ n.val = 40 → RegsBut [R.SEG_RUN n, R.BIND_STATUS] s t ∧ t.fab = s.fab))) ∧
        ((∀ p ∈ first, p.1 ≠ n.val) → ∀ fails, exec (.segmentSwitch m n fails) s = .next s0)))

/-- An action of SVC_CTL runs alone: with another beside it, while one runs, or with a UNIT out of range it is refused. OE_OFFLINE and PORT_RECAL take ports out of service at once. SVC_ACTION_DONE ends the action; OE_ONLINE and PORT_RECAL then train their ports; a failure sets FAILED with a DEFERRED record. SP_FAIL of a bound part leaves it running with a CRITICAL record. The SPDM responder answers while the security processor runs: its requests in their order, slot 0 alone, one session, an ERROR to anything else (the order is taken from SPDM 1.2, PRESUMED). (20_binding.md, R541, R542, R546, R549, R553) -/
def Obligations.ServiceAndSpdm : Prop :=
  ∀ s : State, s.On →
    let told (st sev : Nat) (t : State) : Prop := t.lastRaised.map (fun y => (y.status, y.sev)) = some (st, sev)
    let down (l : List Nat) (t : State) : Prop := (∀ n ∈ l, t.portState n = PortS.DOWN ∧ t.portLanes n = 0 ∧ (t.port n).training = false) ∧ (∀ n : Fin 16, n.val ∉ l → t.port n = s.port n ∧ t.reg (R.FAB_PORT n) = s.reg (R.FAB_PORT n))
    (∀ (w : RegW) (v : Word), s.Writes w R.SVC_CTL v →
      let u := v.get 12 8
      let refused (t : State) : Prop := told St.SVC_CTL_REFUSED Sev.INFO t ∧ t = { s with faults := t.faults }
      let begun (a : SvcAct) (l : List Nat) (t : State) : Prop := t.fld R.SVC_STATUS F.SVC_STATUS.BUSY = 1 ∧ t.bind = { s.bind with svc := some (a, u) } ∧ RegsBut (R.SVC_STATUS :: l.map R.FAB_PORT) s t ∧ t = { s with regs := t.regs, bind := t.bind, fab := { s.fab with ports := t.fab.ports, oeOut := t.fab.oeOut } }
      let does (bit units : Nat) (c : Instr) (P : State → Prop) : Prop := (v.get 5 0 = 2 ^ bit → u < units → s.fld R.SVC_STATUS F.SVC_STATUS.BUSY = 0 → Answers c s P) ∧
        (v.bit bit = true → (v.get 5 0 ≠ 2 ^ bit ∨ units ≤ u ∨ s.fld R.SVC_STATUS F.SVC_STATUS.BUSY = 1) → Answers c s refused)
      does 0 32 (.retrimSpan w) (fun t => begun .retrimSpan [] t ∧ t.fab = s.fab) ∧ does 1 5 (.retrimDroop w) (fun t => begun .retrimDroop [] t ∧ t.fab = s.fab) ∧ does 2 5 (.retrimSensors w) (fun t => begun .retrimSensors [] t ∧ t.fab = s.fab) ∧
      does 3 8 (.oeOffline w) (fun t => begun .oeOffline [2 * u, 2 * u + 1] t ∧ down [2 * u, 2 * u + 1] t ∧ t.fab.oeOut.contains u = true ∧ ∀ i ∈ s.fab.oeOut, i ∈ t.fab.oeOut) ∧
      does 4 8 (.oeOnline w) (fun t => begun .oeOnline [] t ∧ t.fab = s.fab) ∧ does 5 16 (.portRecal w) (fun t => begun .portRecal [u] t ∧ down [u] t ∧ t.fab.oeOut = s.fab.oeOut)) ∧
    (∀ (m : Moment), s.now ≤ m →
      let s0 := s.atTime m
      let free := s.fabState ≠ FabS.OFF ∧ s.laserOn = true
      (s.bind.svc = none → ∀ b, exec (.svcActionDone m b) s = .next s0) ∧
      (∀ a u, s.bind.svc = some (a, u) →
        let ended (t : State) : Prop := t.bind.svc = none ∧ t.fld R.SVC_STATUS F.SVC_STATUS.BUSY = 0
        (Answers (.svcActionDone m true) s fun t => ended t ∧ t.fld R.SVC_STATUS F.SVC_STATUS.FAILED = 1 ∧ t.lastRaised.map (·.sev) = some Sev.DEFERRED ∧ RegsBut [R.SVC_STATUS] s t ∧ t = { s0 with regs := t.regs, bind := { s.bind with svc := none }, faults := t.faults, drawn := t.drawn }) ∧
        (a ∈ [.retrimSpan, .retrimDroop, .retrimSensors, .oeOffline] → Answers (.svcActionDone m false) s fun t => ended t ∧ t.fld R.SVC_STATUS F.SVC_STATUS.FAILED = s.fld R.SVC_STATUS F.SVC_STATUS.FAILED ∧ RegsBut [R.SVC_STATUS] s t ∧ t = { s0 with regs := t.regs, bind := { s.bind with svc := none } }) ∧
        (a = .oeOnline → u < 8 → Answers (.svcActionDone m false) s fun t => ended t ∧ t.fab.oeOut.contains u = false ∧ (∀ i ∈ s.fab.oeOut, i ≠ u → i ∈ t.fab.oeOut) ∧ t.mem = s.mem ∧
          (free → ∀ n ∈ [2 * u, 2 * u + 1], (s.port n).dark = false → t.portState n = PortS.TRAINING ∧ (t.port n).training = true)) ∧
        (a = .portRecal → u < 16 → Answers (.svcActionDone m false) s fun t => ended t ∧ t.fab.oeOut = s.fab.oeOut ∧ t.mem = s.mem ∧ (free → s.fab.oeOut.contains (u / 2) = false → (s.port u).dark = false → t.portState u = PortS.TRAINING ∧ (t.port u).training = true))) ∧
      (let fails := s.fld R.BIND_STATUS F.BIND_STATUS.STATE = 2 ∧ s.bind.spFailed = false
       (fails → Answers (.spFail m) s fun t => told St.SP_FAIL Sev.CRITICAL t ∧ t = { s0 with bind := { s.bind with spFailed := true }, faults := t.faults }) ∧ (¬ fails → exec (.spFail m) s = .next s0))) ∧
    (let b := s.bind
     let runs := b.started = true ∧ b.spFailed = false
     let ask (n : Nat) (c : Instr) (r : BindSt) : Prop := (¬ runs → exec c s = .next s) ∧ (runs → b.spdm < n → exec c s = .next { s with bind := { b with spdmReply := .error } }) ∧ (runs → n ≤ b.spdm → exec c s = .next { s with bind := r })
     let say (r : SpdmReply) : BindSt := { b with spdmReply := r }
     let on (v : Nat) : Nat := if s.fld R.BIND_STATUS F.BIND_STATUS.STATE = 2 then v else 0
     let blocks := [(1, Config.fusedDigest 0), (2, on b.imageDigest), (3, Config.fusedDigest 1), (4, s.fld R.BIND_STATUS F.BIND_STATUS.FUSED_SVN + 256 * on (s.fld R.BIND_STATUS F.BIND_STATUS.IMG_SVN)), (5, on b.cfgDigest)] ++
       (List.range 41).map fun n => (0x10 + n, on (Sparse.get 0 n b.fw))
     ask 0 (.getVersion) { b with spdm := 1, session := 0, spdmReply := .version } ∧ ask 1 (.getCapabilities) { b with spdm := max 2 b.spdm, spdmReply := .capabilities } ∧
     ask 2 (.negotiateAlgorithms true) { b with spdm := 3, spdmReply := .algorithms } ∧ ask 2 (.negotiateAlgorithms false) (say .error) ∧ ask 3 (.getDigests) (say (.digests [0])) ∧
     (∀ slot : Fin 8, ask 3 (.getCertificate slot) (say (if slot = 0 then .certificate 0 else .error)) ∧ ask 3 (.challenge slot) (say (if slot = 0 then .challengeAuth 0 else .error)) ∧
       ask 3 (.keyExchange slot) (if slot = 0 ∧ b.session = 0 then { b with session := 1, spdmReply := .keyExchange } else say .error)) ∧
     ask 3 (.getMeasurements 0xFF) (say (.measurements blocks)) ∧ ask 3 (.getMeasurements 0) (say (.measurements [])) ∧ (∀ p ∈ blocks, ask 3 (.getMeasurements (BitVec.ofNat 8 p.1)) (say (.measurements [p]))) ∧
     (∀ i : BitVec 8, i ≠ 0 → i ≠ 0xFF → (∀ p ∈ blocks, p.1 ≠ i.toNat) → ask 3 (.getMeasurements i) (say .error)) ∧
     (∀ ok : Bool, ask 3 (.finish ok) (if b.session ≠ 1 then say .error else if ok then { b with session := 2, spdmReply := .finish } else { b with session := 0, spdmReply := .error })) ∧
     ask 3 (.endSession) (if b.session = 2 then { b with session := 0, spdmReply := .endSession } else say .error))

/-- A low pulse of RESET_N of 10 µs or more, a rail below its range for more than 2 µs with RESET_N deasserted, and the loss of SYSCLK reset the package: every register but FUSED_SVN at its Reset column, every queue and context gone, the flash and the colophon's store kept. A pulse below 1 µs does nothing. POWER_UP leaves the part in reset with its inputs asserted. REFCLK_LOSS takes the host link down alone. ENTDAA and SETDASA give an address where there is none. A test instruction selects its register; one that drives pins acts only while RESET_N is asserted and selects bypass otherwise; IDCODE reads the identification word, SAMPLE and PRELOAD load the cells, and no test instruction touches the rest of the state. (21_pins.md, R9, R27, R559, R560, R561, R564, R566, R575, R576) -/
def Obligations.PinsAndTest : Prop :=
  (∀ (s : State) (m : Moment), s.now ≤ m →
    let s0 := s.atTime m
    let fresh (low : Bool) (t : State) : Prop := t.pins = { s.pins with inReset := true, resetLow := low || s.pins.resetLow, i3c := none } ∧ (∀ o, o ≠ R.BIND_STATUS → t.reg o = resetWord o) ∧
      t.reg R.BIND_STATUS = (resetWord R.BIND_STATUS).put F.BIND_STATUS.FUSED_SVN.hi F.BIND_STATUS.FUSED_SVN.lo (s.fld R.BIND_STATUS F.BIND_STATUS.FUSED_SVN) ∧
      t.bind = { flash := s.bind.flash } ∧ t.colo.bank0 = s.colo.bank0 ∧ t.colo.bank1 = s.colo.bank1 ∧ t.colo.epochs = s.colo.epochs ∧ t.colo.loaded = false ∧
      t.cxs = [] ∧ t.sync = {} ∧ t.firn = {} ∧ t.fab = {} ∧ t.mem = {} ∧ t.cores = [] ∧ t.host = {} ∧ t.faults = {} ∧ t.pending = s.pending ∧ t.off = true
    (∀ width : Nat,
      (width < 16000 → exec (.resetN m width) s = .next s0) ∧ (160000 ≤ width → s.pins.powered = true → Answers (.resetN m width) s (fresh true)) ∧
      (16000 ≤ width → width < 160000 → s.pins.powered = true → Answers (.resetN m width) s fun t => fresh true t ∨ t = { s0 with drawn := s.drawn + 1 })) ∧
    (∀ dur : Nat,
      let hit := s.pins.powered = true ∧ s.pins.resetLow = false ∧ 32000 < dur
      (hit → Answers (.railUndervoltage m dur) s (fresh false)) ∧ (¬ hit → exec (.railUndervoltage m dur) s = .next s0)) ∧
    (s.pins.powered = true → Answers (.sysclkLoss m) s (fresh false)) ∧ (s.pins.powered = false → exec (.sysclkLoss m) s = .next s0) ∧
    (s.pins.powered = false → exec (.powerUp m) s = .next { s0 with pins := { s.pins with powered := true, inReset := true, resetLow := true, perstLow := true } }) ∧ (s.pins.powered = true → exec (.powerUp m) s = .next s0) ∧
    (∀ dirty : List Nat,
      (s.fld R.HL_STATUS F.HL_STATUS.LINK_UP = 0 → exec (.refclkLoss m dirty) s = .next s0) ∧
      (s.fld R.HL_STATUS F.HL_STATUS.LINK_UP = 1 → Answers (.refclkLoss m dirty) s fun t => t.fld R.HL_STATUS F.HL_STATUS.LINK_UP = 0 ∧ t.pins = s.pins ∧ t.mem.hostLines = [] ∧ t.host.lostHold = s.host.lostHold ∧ t.firn = s.firn ∧ t.fab.ports = s.fab.ports ∧
        t.lastRaised.map (fun y => (y.status, y.sev)) = some (St.COH_LOST, Sev.DEFERRED)))) ∧
  (∀ (s : State) (a : BitVec 7),
    let takes := s.off = false ∧ s.pins.i3c = none
    let given : State := { s with pins := { s.pins with i3c := some a } }
    (takes → exec (.entdaa a) s = .next given ∧ exec (.setdasa 0x4C a) s = .next given) ∧ (¬ takes → exec (.entdaa a) s = .next s ∧ ∀ x, exec (.setdasa x a) s = .next s) ∧ (∀ x, x ≠ 0x4C → exec (.setdasa x a) s = .next s)) ∧
  (∀ s : State,
    let loaded (ir : BitVec 8) (d : TestDrive) : State := { s with pins := { s.pins with ir := ir, drive := d } }
    let drives (c : Instr) (ir : BitVec 8) (d : TestDrive) : Prop := (s.pins.resetLow = true → exec c s = .next (loaded ir d)) ∧ (s.pins.resetLow = false → exec c s = .next (loaded 0xFF .none))
    (s.pins.powered = false → (∀ l, exec (.sample l) s = .next s ∧ exec (.preload l) s = .next s) ∧ exec .testLogicReset s = .next s ∧ exec .extest s = .next s ∧ exec .idcode s = .next s ∧ exec .clamp s = .next s ∧ exec .highz s = .next s) ∧
    (s.pins.powered = true →
      drives .extest 0x00 .extest ∧ drives .clamp 0x04 .clamp ∧ drives .highz 0x05 .highz ∧ drives .extestPulse 0x06 .pulse ∧ drives .extestTrain 0x07 .train ∧
      exec .testLogicReset s = .next (loaded 0x01 .none) ∧
      (Answers .idcode s fun t => t = { loaded 0x01 .none with readData := t.readData } ∧ t.readData.bit 0 = true ∧ t.readData.get 11 1 = Config.jep106.toNat ∧ t.readData.get 27 12 = 0x7420 ∧ t.readData.get 31 28 = s.fld R.PKG_ID F.PKG_ID.STEP_MAJOR ∧ t.readData.get 63 32 = 0) ∧
      (∀ l : List Bool, exec (.sample l) s = .next { s with pins := { s.pins with ir := 0x02, drive := .none, cells := l } } ∧ exec (.preload l) s = .next { s with pins := { s.pins with ir := 0x03, drive := .none, preload := l } }) ∧
      (∀ c : BitVec 8, Answers (.bypass c) s fun t => testReg t.pins.ir = .bypass ∧ t = loaded t.pins.ir .none)))
end

