-- ==== Sys2Proof/Laws/Memory.lean ====
section
/-!
SUPPORT. The laws of memory: every operation keeps the canonical form, a read after a write of the same byte gives what was written,
and a write leaves every other byte alone.
-/

namespace Sys2Proof.Machine

/-- Every address of the list is above `lo`. -/
theorem Memory.wfFrom_above {m : List Host.Cell} {lo : Nat} (h : Memory.wfFrom (some lo) m = true) : ∀ c ∈ m, lo < c.1 := by
  induction m generalizing lo with
  | nil => intro c hc; cases hc
  | cons x r ih =>
    obtain ⟨j, v⟩ := x
    simp only [Memory.wfFrom, Bool.and_eq_true, decide_eq_true_eq] at h
    intro c hc
    rcases List.mem_cons.mp hc with rfl | hc
    · exact h.1.1
    · exact lt_trans h.1.1 (ih h.2 c hc)

theorem Memory.wfFrom_weaken {m : List Host.Cell} {lo : Option Nat} {l : Nat} (h : Memory.wfFrom (some l) m = true)
    (hl : ∀ k, lo = some k → k ≤ l) : Memory.wfFrom lo m = true := by
  cases m with
  | nil => rfl
  | cons x r =>
    obtain ⟨j, v⟩ := x
    simp only [Memory.wfFrom, Bool.and_eq_true, decide_eq_true_eq] at h ⊢
    refine ⟨⟨?_, h.1.2⟩, h.2⟩
    cases lo with
    | none => rfl
    | some k => exact decide_eq_true (lt_of_le_of_lt (hl k rfl) h.1.1)

theorem Memory.wfFrom_cons (lo : Option Nat) (a : Nat) (v : Byte) (m : List Host.Cell) :
    Memory.wfFrom lo ((a, v) :: m) = true ↔ (∀ k, lo = some k → k < a) ∧ v ≠ Memory.unlisted ∧ Memory.wfFrom (some a) m = true := by
  cases lo <;> simp [Memory.wfFrom, and_assoc]

theorem Memory.write_wfFrom {m : List Host.Cell} {lo : Option Nat} {a : Nat} {v : Byte} (h : Memory.wfFrom lo m = true)
    (ha : ∀ k, lo = some k → k < a) : Memory.wfFrom lo (Memory.write a v m) = true := by
  induction m generalizing lo with
  | nil =>
    simp only [Memory.write]
    split
    · rfl
    · rename_i hv
      exact (Memory.wfFrom_cons lo a v []).mpr ⟨ha, hv, rfl⟩
  | cons x r ih =>
    obtain ⟨j, w⟩ := x
    have h0 := h
    simp only [Memory.wfFrom, Bool.and_eq_true] at h0
    simp only [Memory.write]
    split
    · rename_i haj
      split
      · exact h
      · rename_i hv
        refine (Memory.wfFrom_cons lo a v _).mpr ⟨ha, hv, (Memory.wfFrom_cons (some a) j w r).mpr ⟨?_, ?_, h0.2⟩⟩
        · intro k hk; cases hk; exact haj
        · simpa using h0.1.2
    · rename_i haj
      split
      · rename_i hja
        subst hja
        split
        · exact Memory.wfFrom_weaken h0.2 (fun k hk => le_of_lt (ha k hk))
        · rename_i hv
          exact (Memory.wfFrom_cons lo j v r).mpr ⟨ha, hv, h0.2⟩
      · rename_i hja
        have hlt : j < a := by omega
        simp only [Memory.wfFrom, Bool.and_eq_true]
        refine ⟨h0.1, ih h0.2 (fun k hk => ?_)⟩
        cases hk
        exact hlt

/-- A byte write keeps the canonical form. -/
theorem Memory.write_wf {m : List Host.Cell} (a : Nat) (v : Byte) (h : Memory.wf m = true) : Memory.wf (Memory.write a v m) = true :=
  Memory.write_wfFrom h (fun _ hk => by cases hk)

theorem Memory.writeBytes_wf (bs : List Byte) {m : List Host.Cell} (a : Nat) (h : Memory.wf m = true) :
    Memory.wf (Memory.writeBytes a bs m) = true := by
  induction bs generalizing a m with
  | nil => exact h
  | cons b r ih => exact ih (a + 1) (Memory.write_wf a b h)

theorem Memory.writeMask_wf (bs : List Byte) {m : List Host.Cell} (a mask i : Nat) (h : Memory.wf m = true) :
    Memory.wf (Memory.writeMask a mask i bs m) = true := by
  induction bs generalizing i m with
  | nil => exact h
  | cons b r ih =>
    simp only [Memory.writeMask]
    split
    · exact ih (i + 1) (Memory.write_wf (a + i) b h)
    · exact ih (i + 1) h

theorem Memory.filter_wfFrom (p : Host.Cell → Bool) {m : List Host.Cell} {lo : Option Nat} (h : Memory.wfFrom lo m = true) :
    Memory.wfFrom lo (m.filter p) = true := by
  induction m generalizing lo with
  | nil => exact h
  | cons x r ih =>
    obtain ⟨j, v⟩ := x
    have h0 := h
    simp only [Memory.wfFrom, Bool.and_eq_true] at h0
    by_cases hp : p (j, v) = true
    · rw [List.filter_cons_of_pos hp]
      simp only [Memory.wfFrom, Bool.and_eq_true]
      exact ⟨h0.1, ih h0.2⟩
    · rw [List.filter_cons_of_neg hp]
      apply ih
      refine Memory.wfFrom_weaken h0.2 (fun k hk => ?_)
      subst hk
      exact le_of_lt (of_decide_eq_true h0.1.1)

/-- Clearing a range keeps the canonical form. -/
theorem Memory.clear_wf (lo n : Nat) {m : List Host.Cell} (h : Memory.wf m = true) : Memory.wf (Memory.clear lo n m) = true :=
  Memory.filter_wfFrom _ h

theorem Memory.read_of_above {m : List Host.Cell} {a : Nat} (h : ∀ c ∈ m, a < c.1) : Memory.read a m = Memory.unlisted := by
  cases m with
  | nil => rfl
  | cons x r =>
    have := h x (by simp)
    obtain ⟨j, v⟩ := x
    simp only [Memory.read]
    rw [if_neg (by simp at this; omega), if_pos (by simpa using this)]

theorem Memory.read_write_aux {m : List Host.Cell} {lo : Option Nat} (a b : Nat) (v : Byte) (h : Memory.wfFrom lo m = true) :
    Memory.read b (Memory.write a v m) = if b = a then v else Memory.read b m := by
  induction m generalizing lo with
  | nil =>
    simp only [Memory.write]
    split
    · rename_i hv; split <;> simp_all [Memory.read]
    · by_cases hb : b = a
      · subst hb; simp [Memory.read]
      · have : a ≠ b := fun h => hb h.symm
        simp [Memory.read, hb, this]
  | cons x r ih =>
    obtain ⟨j, w⟩ := x
    have h0 := h
    simp only [Memory.wfFrom, Bool.and_eq_true] at h0
    have hr := Memory.wfFrom_above h0.2
    simp only [Memory.write]
    split
    · rename_i haj
      split
      · rename_i hv
        by_cases hb : b = a
        · subst hb; simp only [Memory.read, if_neg (show ¬ j = b by omega), if_pos haj, if_true]; exact hv.symm
        · simp [hb]
      · by_cases hb : b = a
        · subst hb; simp [Memory.read]
        · have hab : a ≠ b := fun h => hb h.symm
          simp only [Memory.read, if_neg hab, if_neg hb]
          split
          · rename_i hba
            rw [if_neg (show ¬ j = b by omega), if_pos (show b < j by omega)]
          · rfl
    · rename_i haj
      split
      · rename_i hja
        subst hja
        split
        · rename_i hv
          by_cases hb : b = j
          · subst hb; rw [if_pos rfl, Memory.read_of_above hr]; exact hv.symm
          · have hjb : j ≠ b := fun h => hb h.symm
            simp only [Memory.read, if_neg hjb, if_neg hb]
            split
            · rename_i hlt
              exact Memory.read_of_above (fun c hc => lt_trans hlt (hr c hc))
            · rfl
        · by_cases hb : b = j
          · subst hb; simp [Memory.read]
          · have hjb : j ≠ b := fun h => hb h.symm
            simp [Memory.read, hb, hjb]
      · rename_i hja
        by_cases hjb : j = b
        · subst hjb
          simp [Memory.read, show ¬ j = a from hja]
        · simp only [Memory.read, if_neg hjb]
          split
          · rename_i hlt
            rw [if_neg (show ¬ b = a by omega)]
          · exact ih h0.2

/-- A read after a write of the same byte gives the byte written. -/
theorem Memory.read_write_same {m : List Host.Cell} (a : Nat) (v : Byte) (h : Memory.wf m = true) :
    Memory.read a (Memory.write a v m) = v := by rw [Memory.read_write_aux a a v h, if_pos rfl]

/-- A write leaves every other byte alone. -/
theorem Memory.read_write_of_ne {m : List Host.Cell} {a b : Nat} (v : Byte) (h : Memory.wf m = true) (hb : b ≠ a) :
    Memory.read b (Memory.write a v m) = Memory.read b m := by rw [Memory.read_write_aux a b v h, if_neg hb]

/-- A write of a run of bytes leaves the bytes outside it alone. -/
theorem Memory.read_writeBytes_of_outside (bs : List Byte) {m : List Host.Cell} {a b : Nat} (h : Memory.wf m = true)
    (hb : b < a ∨ a + bs.length ≤ b) : Memory.read b (Memory.writeBytes a bs m) = Memory.read b m := by
  induction bs generalizing a m with
  | nil => rfl
  | cons x r ih =>
    simp only [List.length_cons] at hb
    simp only [Memory.writeBytes]
    rw [ih (Memory.write_wf a x h) (by omega), Memory.read_write_of_ne x h (by omega)]

end Sys2Proof.Machine
end

