-- ==== Sys2Proof/Laws/Word.lean ====
section
/-!
SUPPORT. Bit fields: reading a field after writing it, and reading another.
-/

namespace Sys2Proof

theorem bitsOf_eq_of_testBit {a b hi lo : Nat} (h : ∀ i, lo ≤ i → i ≤ hi → a.testBit i = b.testBit i) :
    bitsOf a hi lo = bitsOf b hi lo := by
  apply Nat.eq_of_testBit_eq
  intro i
  simp only [bitsOf, Nat.testBit_mod_two_pow, Nat.testBit_shiftRight]
  by_cases hi' : i < hi + 1 - lo
  · simp only [hi', decide_true, Bool.true_and]
    exact h (lo + i) (by omega) (by omega)
  · simp [hi']

theorem Word.testBit_mask (hi lo i : Nat) (hh : hi < 64) :
    (Word.mask hi lo).toNat.testBit i = (decide (lo ≤ i) && decide (i ≤ hi)) := by
  simp only [Word.mask, BitVec.toNat_ofNat, Nat.testBit_mod_two_pow, Nat.testBit_shiftLeft, Nat.testBit_two_pow_sub_one]
  by_cases h1 : lo ≤ i <;> by_cases h2 : i ≤ hi <;> simp [h1, h2] <;> omega

theorem Word.testBit_put (w : Word) (hi lo v i : Nat) (hh : hi < 64) :
    (w.put hi lo v).toNat.testBit i =
      (if lo ≤ i ∧ i ≤ hi then v.testBit (i - lo) else w.toNat.testBit i) := by
  have hm := Word.testBit_mask hi lo i hh
  have hw : i < 64 ∨ w.toNat.testBit i = false := by
    by_cases h : i < 64
    · exact Or.inl h
    · right
      exact Nat.testBit_lt_two_pow (lt_of_lt_of_le w.isLt (Nat.pow_le_pow_right (by decide) (by omega)))
  have key : (w.put hi lo v).toNat.testBit i =
      ((w.toNat.testBit i && (decide (i < 64) && !(Word.mask hi lo).toNat.testBit i)) ||
        ((decide (i < 64) && (decide (lo ≤ i) && v.testBit (i - lo))) && (Word.mask hi lo).toNat.testBit i)) := by
    simp only [Word.put, ← BitVec.getLsbD.eq_1, BitVec.getLsbD_or, BitVec.getLsbD_and, BitVec.getLsbD_not, BitVec.getLsbD_ofNat, Nat.testBit_shiftLeft]
  rw [key, hm]
  by_cases h1 : lo ≤ i <;> by_cases h2 : i ≤ hi <;> simp [h1, h2]
  · intro _; omega
  all_goals
    rcases hw with h | h
    · intro _; exact h
    · intro h'; simp [h] at h'

/-- A field reads what was written to it. -/
theorem Word.get_put (w : Word) (hi lo v : Nat) (hh : hi < 64) :
    (w.put hi lo v).get hi lo = v % 2 ^ (hi + 1 - lo) := by
  apply Nat.eq_of_testBit_eq
  intro i
  simp only [Word.get, bitsOf, Nat.testBit_mod_two_pow, Nat.testBit_shiftRight]
  rw [Word.testBit_put w hi lo v (lo + i) hh]
  by_cases h : i < hi + 1 - lo
  · simp only [h, decide_true, Bool.true_and]
    rw [if_pos ⟨by omega, by omega⟩]
    congr 1; omega
  · simp [h]

/-- A field reads as before after a write of bits it does not share. -/
theorem Word.get_put_of_disjoint (w : Word) (hi lo v hi' lo' : Nat) (hh : hi < 64) (hd : hi' < lo ∨ hi < lo') :
    (w.put hi lo v).get hi' lo' = w.get hi' lo' := by
  apply bitsOf_eq_of_testBit
  intro i h1 h2
  rw [Word.testBit_put w hi lo v i hh, if_neg (by omega)]

end Sys2Proof
end

