-- ==== Sys2Proof/Laws/State.lean ====
section
/-!
SUPPORT. One lemma per field per update of the state, and what the registers and keyed tables read after a write.
-/

namespace Sys2Proof.Machine

/-! ## Keyed tables -/

theorem Sparse.find_set_same {α : Type} (k : Nat) (v : α) (l : List (Nat × α)) : Sparse.find k (Sparse.set k v l) = some v := by
  induction l with
  | nil => simp [Sparse.set, Sparse.find]
  | cons x r ih =>
    obtain ⟨j, w⟩ := x
    simp only [Sparse.set]
    split
    · simp [Sparse.find]
    · split
      · simp [Sparse.find]
      · rename_i h; simp [Sparse.find, h, ih]

theorem Sparse.find_set_of_ne {α : Type} {k i : Nat} (v : α) (l : List (Nat × α)) (h : i ≠ k) :
    Sparse.find i (Sparse.set k v l) = Sparse.find i l := by
  have hk : ¬ k = i := fun e => h e.symm
  induction l with
  | nil => simp [Sparse.set, Sparse.find, hk]
  | cons x r ih =>
    obtain ⟨j, w⟩ := x
    simp only [Sparse.set]
    split
    · simp [Sparse.find, hk]
    · split
      · rename_i hj; subst hj; simp [Sparse.find, hk]
      · simp [Sparse.find, ih]

theorem Sparse.get_set_same {α : Type} (d : α) (k : Nat) (v : α) (l : List (Nat × α)) : Sparse.get d k (Sparse.set k v l) = v := by
  induction l with
  | nil => simp [Sparse.set, Sparse.get]
  | cons x r ih =>
    obtain ⟨j, w⟩ := x
    simp only [Sparse.set]
    split
    · simp [Sparse.get]
    · split
      · simp [Sparse.get]
      · rename_i h; simp [Sparse.get, h, ih]

theorem Sparse.get_set_of_ne {α : Type} (d : α) {k i : Nat} (v : α) (l : List (Nat × α)) (h : i ≠ k) :
    Sparse.get d i (Sparse.set k v l) = Sparse.get d i l := by
  have hk : ¬ k = i := fun e => h e.symm
  induction l with
  | nil => simp [Sparse.set, Sparse.get, hk]
  | cons x r ih =>
    obtain ⟨j, w⟩ := x
    simp only [Sparse.set]
    split
    · simp [Sparse.get, hk]
    · split
      · rename_i hj; subst hj; simp [Sparse.get, hk]
      · simp [Sparse.get, ih]

/-! ## Registers -/

@[simp] theorem State.reg_setReg (s : State) (o : Nat) (w : Word) : (s.setReg o w).reg o = w := by
  simp [State.reg, State.setReg, Sparse.find_set_same]

theorem State.reg_setReg_of_ne (s : State) {o i : Nat} (w : Word) (h : i ≠ o) : (s.setReg o w).reg i = s.reg i := by
  simp [State.reg, State.setReg, Sparse.find_set_of_ne w s.regs h]

theorem State.fld_setReg_of_ne (s : State) {o i : Nat} (w : Word) (f : Fld) (h : i ≠ o) : (s.setReg o w).fld i f = s.fld i f := by
  simp only [State.fld, State.reg_setReg_of_ne s w h]

@[simp] theorem State.reg_setFld (s : State) (o : Nat) (f : Fld) (v : Nat) : (s.setFld o f v).reg o = (s.reg o).put f.hi f.lo v := by
  simp [State.setFld]

theorem State.reg_setFld_of_ne (s : State) {o i : Nat} (f : Fld) (v : Nat) (h : i ≠ o) : (s.setFld o f v).reg i = s.reg i := by
  simp [State.setFld, State.reg_setReg_of_ne s _ h]

/-- A field reads what was written to it. -/
theorem State.fld_setFld (s : State) (o : Nat) (f : Fld) (v : Nat) (h : f.hi < 64) :
    (s.setFld o f v).fld o f = v % 2 ^ (f.hi + 1 - f.lo) := by
  simp only [State.fld, State.reg_setFld, Word.get_put _ _ _ _ h]

/-- A field of another register reads as before. -/
theorem State.fld_setFld_of_ne (s : State) {o i : Nat} (f g : Fld) (v : Nat) (h : i ≠ o) :
    (s.setFld o f v).fld i g = s.fld i g := by
  simp only [State.fld, State.reg_setFld_of_ne s f v h]

/-- A field that shares no bit with the one written reads as before. -/
theorem State.fld_setFld_of_disjoint (s : State) (o : Nat) (f g : Fld) (v : Nat) (h : f.hi < 64) (hd : g.hi < f.lo ∨ f.hi < g.lo) :
    (s.setFld o f v).fld o g = s.fld o g := by
  simp only [State.fld, State.reg_setFld, Word.get_put_of_disjoint _ _ _ _ _ _ h hd]

/-! ## Tables of the state -/

@[simp] theorem State.cx_setCx (s : State) (d : Die) (c : Cx) (x : Ctx) : (s.setCx d c x).cx d c = x := by
  simp [State.cx, State.setCx, Sparse.get_set_same]

@[simp] theorem State.eng1_setEng (s : State) (d u : Nat) (e : EngSt) : (s.setEng d u e).eng1 d u = e := by
  simp [State.eng1, State.setEng, Sparse.get_set_same]

@[simp] theorem State.arr_setArr (s : State) (d m : Nat) (a : ArraySt) : (s.setArr d m a).arr d m = a := by
  simp [State.arr, State.setArr, Sparse.get_set_same]

@[simp] theorem State.quire_setQuire (s : State) (q : Nat) (r : QuireRec) : (s.setQuire q r).quire q = r := by
  simp [State.quire, State.setQuire, Sparse.get_set_same]

theorem State.quire_setQuire_of_ne (s : State) {q p : Nat} (r : QuireRec) (h : p ≠ q) : (s.setQuire q r).quire p = s.quire p := by
  simp [State.quire, State.setQuire, Sparse.get_set_of_ne _ r _ h]

@[simp] theorem State.core_setCore (s : State) (n : Nat) (k : CoreSt) : (s.setCore n k).core n = k := by
  simp [State.core, State.setCore, Sparse.get_set_same]

theorem State.core_setCore_of_ne (s : State) {n m : Nat} (k : CoreSt) (h : m ≠ n) : (s.setCore n k).core m = s.core m := by
  simp [State.core, State.setCore, Sparse.get_set_of_ne _ k _ h]

@[simp] theorem State.hsSt_setHsSt (s : State) (j : Nat) (x : StackSt) : (s.setHsSt j x).hsSt j = x := by
  simp [State.hsSt, State.setHsSt, Sparse.get_set_same]

@[simp] theorem State.cells_setCells (s : State) (m : List Host.Cell) : (s.setCells m).mem.cells = m := rfl

/-! ## One lemma per field per update -/

@[simp] theorem State.setReg_pending (s : State) (o : Nat) (w : Word) : (s.setReg o w).pending = s.pending := rfl
@[simp] theorem State.setReg_now (s : State) (o : Nat) (w : Word) : (s.setReg o w).now = s.now := rfl
@[simp] theorem State.setReg_drawn (s : State) (o : Nat) (w : Word) : (s.setReg o w).drawn = s.drawn := rfl
@[simp] theorem State.setReg_readData (s : State) (o : Nat) (w : Word) : (s.setReg o w).readData = s.readData := rfl
@[simp] theorem State.setReg_faults (s : State) (o : Nat) (w : Word) : (s.setReg o w).faults = s.faults := rfl
@[simp] theorem State.setReg_colo (s : State) (o : Nat) (w : Word) : (s.setReg o w).colo = s.colo := rfl
@[simp] theorem State.setReg_span (s : State) (o : Nat) (w : Word) : (s.setReg o w).span = s.span := rfl
@[simp] theorem State.setReg_mem (s : State) (o : Nat) (w : Word) : (s.setReg o w).mem = s.mem := rfl
@[simp] theorem State.setReg_firn (s : State) (o : Nat) (w : Word) : (s.setReg o w).firn = s.firn := rfl
@[simp] theorem State.setReg_sync (s : State) (o : Nat) (w : Word) : (s.setReg o w).sync = s.sync := rfl
@[simp] theorem State.setReg_cxs (s : State) (o : Nat) (w : Word) : (s.setReg o w).cxs = s.cxs := rfl
@[simp] theorem State.setReg_ac (s : State) (o : Nat) (w : Word) : (s.setReg o w).ac = s.ac := rfl
@[simp] theorem State.setReg_acHist (s : State) (o : Nat) (w : Word) : (s.setReg o w).acHist = s.acHist := rfl
@[simp] theorem State.setReg_cores (s : State) (o : Nat) (w : Word) : (s.setReg o w).cores = s.cores := rfl
@[simp] theorem State.setReg_hostWin (s : State) (o : Nat) (w : Word) : (s.setReg o w).hostWin = s.hostWin := rfl
@[simp] theorem State.setReg_hostAsked (s : State) (o : Nat) (w : Word) : (s.setReg o w).hostAsked = s.hostAsked := rfl
@[simp] theorem State.setReg_imageRegs (s : State) (o : Nat) (w : Word) : (s.setReg o w).imageRegs = s.imageRegs := rfl
@[simp] theorem State.setReg_arrays (s : State) (o : Nat) (w : Word) : (s.setReg o w).arrays = s.arrays := rfl
@[simp] theorem State.setReg_eng (s : State) (o : Nat) (w : Word) : (s.setReg o w).eng = s.eng := rfl
@[simp] theorem State.setReg_issues (s : State) (o : Nat) (w : Word) : (s.setReg o w).issues = s.issues := rfl
@[simp] theorem State.setReg_tlb (s : State) (o : Nat) (w : Word) : (s.setReg o w).tlb = s.tlb := rfl
@[simp] theorem State.setReg_inv (s : State) (o : Nat) (w : Word) : (s.setReg o w).inv = s.inv := rfl
@[simp] theorem State.setReg_hs (s : State) (o : Nat) (w : Word) : (s.setReg o w).hs = s.hs := rfl
@[simp] theorem State.setReg_pace (s : State) (o : Nat) (w : Word) : (s.setReg o w).pace = s.pace := rfl
@[simp] theorem State.setReg_phase (s : State) (o : Nat) (w : Word) : (s.setReg o w).phase = s.phase := rfl
@[simp] theorem State.setReg_occ (s : State) (o : Nat) (w : Word) : (s.setReg o w).occ = s.occ := rfl
@[simp] theorem State.setReg_fab (s : State) (o : Nat) (w : Word) : (s.setReg o w).fab = s.fab := rfl
@[simp] theorem State.setReg_power (s : State) (o : Nat) (w : Word) : (s.setReg o w).power = s.power := rfl
@[simp] theorem State.setReg_pins (s : State) (o : Nat) (w : Word) : (s.setReg o w).pins = s.pins := rfl
@[simp] theorem State.setReg_host (s : State) (o : Nat) (w : Word) : (s.setReg o w).host = s.host := rfl
@[simp] theorem State.setReg_bind (s : State) (o : Nat) (w : Word) : (s.setReg o w).bind = s.bind := rfl
@[simp] theorem State.setFld_pending (s : State) (o : Nat) (f : Fld) (v : Nat) : (s.setFld o f v).pending = s.pending := rfl
@[simp] theorem State.setFld_now (s : State) (o : Nat) (f : Fld) (v : Nat) : (s.setFld o f v).now = s.now := rfl
@[simp] theorem State.setFld_drawn (s : State) (o : Nat) (f : Fld) (v : Nat) : (s.setFld o f v).drawn = s.drawn := rfl
@[simp] theorem State.setFld_readData (s : State) (o : Nat) (f : Fld) (v : Nat) : (s.setFld o f v).readData = s.readData := rfl
@[simp] theorem State.setFld_faults (s : State) (o : Nat) (f : Fld) (v : Nat) : (s.setFld o f v).faults = s.faults := rfl
@[simp] theorem State.setFld_colo (s : State) (o : Nat) (f : Fld) (v : Nat) : (s.setFld o f v).colo = s.colo := rfl
@[simp] theorem State.setFld_span (s : State) (o : Nat) (f : Fld) (v : Nat) : (s.setFld o f v).span = s.span := rfl
@[simp] theorem State.setFld_mem (s : State) (o : Nat) (f : Fld) (v : Nat) : (s.setFld o f v).mem = s.mem := rfl
@[simp] theorem State.setFld_firn (s : State) (o : Nat) (f : Fld) (v : Nat) : (s.setFld o f v).firn = s.firn := rfl
@[simp] theorem State.setFld_sync (s : State) (o : Nat) (f : Fld) (v : Nat) : (s.setFld o f v).sync = s.sync := rfl
@[simp] theorem State.setFld_cxs (s : State) (o : Nat) (f : Fld) (v : Nat) : (s.setFld o f v).cxs = s.cxs := rfl
@[simp] theorem State.setFld_ac (s : State) (o : Nat) (f : Fld) (v : Nat) : (s.setFld o f v).ac = s.ac := rfl
@[simp] theorem State.setFld_acHist (s : State) (o : Nat) (f : Fld) (v : Nat) : (s.setFld o f v).acHist = s.acHist := rfl
@[simp] theorem State.setFld_cores (s : State) (o : Nat) (f : Fld) (v : Nat) : (s.setFld o f v).cores = s.cores := rfl
@[simp] theorem State.setFld_hostWin (s : State) (o : Nat) (f : Fld) (v : Nat) : (s.setFld o f v).hostWin = s.hostWin := rfl
@[simp] theorem State.setFld_hostAsked (s : State) (o : Nat) (f : Fld) (v : Nat) : (s.setFld o f v).hostAsked = s.hostAsked := rfl
@[simp] theorem State.setFld_imageRegs (s : State) (o : Nat) (f : Fld) (v : Nat) : (s.setFld o f v).imageRegs = s.imageRegs := rfl
@[simp] theorem State.setFld_arrays (s : State) (o : Nat) (f : Fld) (v : Nat) : (s.setFld o f v).arrays = s.arrays := rfl
@[simp] theorem State.setFld_eng (s : State) (o : Nat) (f : Fld) (v : Nat) : (s.setFld o f v).eng = s.eng := rfl
@[simp] theorem State.setFld_issues (s : State) (o : Nat) (f : Fld) (v : Nat) : (s.setFld o f v).issues = s.issues := rfl
@[simp] theorem State.setFld_tlb (s : State) (o : Nat) (f : Fld) (v : Nat) : (s.setFld o f v).tlb = s.tlb := rfl
@[simp] theorem State.setFld_inv (s : State) (o : Nat) (f : Fld) (v : Nat) : (s.setFld o f v).inv = s.inv := rfl
@[simp] theorem State.setFld_hs (s : State) (o : Nat) (f : Fld) (v : Nat) : (s.setFld o f v).hs = s.hs := rfl
@[simp] theorem State.setFld_pace (s : State) (o : Nat) (f : Fld) (v : Nat) : (s.setFld o f v).pace = s.pace := rfl
@[simp] theorem State.setFld_phase (s : State) (o : Nat) (f : Fld) (v : Nat) : (s.setFld o f v).phase = s.phase := rfl
@[simp] theorem State.setFld_occ (s : State) (o : Nat) (f : Fld) (v : Nat) : (s.setFld o f v).occ = s.occ := rfl
@[simp] theorem State.setFld_fab (s : State) (o : Nat) (f : Fld) (v : Nat) : (s.setFld o f v).fab = s.fab := rfl
@[simp] theorem State.setFld_power (s : State) (o : Nat) (f : Fld) (v : Nat) : (s.setFld o f v).power = s.power := rfl
@[simp] theorem State.setFld_pins (s : State) (o : Nat) (f : Fld) (v : Nat) : (s.setFld o f v).pins = s.pins := rfl
@[simp] theorem State.setFld_host (s : State) (o : Nat) (f : Fld) (v : Nat) : (s.setFld o f v).host = s.host := rfl
@[simp] theorem State.setFld_bind (s : State) (o : Nat) (f : Fld) (v : Nat) : (s.setFld o f v).bind = s.bind := rfl
@[simp] theorem State.atTime_pending (s : State) (t : Nat) : (s.atTime t).pending = s.pending := rfl
@[simp] theorem State.atTime_drawn (s : State) (t : Nat) : (s.atTime t).drawn = s.drawn := rfl
@[simp] theorem State.atTime_readData (s : State) (t : Nat) : (s.atTime t).readData = s.readData := rfl
@[simp] theorem State.atTime_regs (s : State) (t : Nat) : (s.atTime t).regs = s.regs := rfl
@[simp] theorem State.atTime_faults (s : State) (t : Nat) : (s.atTime t).faults = s.faults := rfl
@[simp] theorem State.atTime_colo (s : State) (t : Nat) : (s.atTime t).colo = s.colo := rfl
@[simp] theorem State.atTime_span (s : State) (t : Nat) : (s.atTime t).span = s.span := rfl
@[simp] theorem State.atTime_mem (s : State) (t : Nat) : (s.atTime t).mem = s.mem := rfl
@[simp] theorem State.atTime_firn (s : State) (t : Nat) : (s.atTime t).firn = s.firn := rfl
@[simp] theorem State.atTime_sync (s : State) (t : Nat) : (s.atTime t).sync = s.sync := rfl
@[simp] theorem State.atTime_cxs (s : State) (t : Nat) : (s.atTime t).cxs = s.cxs := rfl
@[simp] theorem State.atTime_ac (s : State) (t : Nat) : (s.atTime t).ac = s.ac := rfl
@[simp] theorem State.atTime_acHist (s : State) (t : Nat) : (s.atTime t).acHist = s.acHist := rfl
@[simp] theorem State.atTime_cores (s : State) (t : Nat) : (s.atTime t).cores = s.cores := rfl
@[simp] theorem State.atTime_hostWin (s : State) (t : Nat) : (s.atTime t).hostWin = s.hostWin := rfl
@[simp] theorem State.atTime_hostAsked (s : State) (t : Nat) : (s.atTime t).hostAsked = s.hostAsked := rfl
@[simp] theorem State.atTime_imageRegs (s : State) (t : Nat) : (s.atTime t).imageRegs = s.imageRegs := rfl
@[simp] theorem State.atTime_arrays (s : State) (t : Nat) : (s.atTime t).arrays = s.arrays := rfl
@[simp] theorem State.atTime_eng (s : State) (t : Nat) : (s.atTime t).eng = s.eng := rfl
@[simp] theorem State.atTime_issues (s : State) (t : Nat) : (s.atTime t).issues = s.issues := rfl
@[simp] theorem State.atTime_tlb (s : State) (t : Nat) : (s.atTime t).tlb = s.tlb := rfl
@[simp] theorem State.atTime_inv (s : State) (t : Nat) : (s.atTime t).inv = s.inv := rfl
@[simp] theorem State.atTime_hs (s : State) (t : Nat) : (s.atTime t).hs = s.hs := rfl
@[simp] theorem State.atTime_pace (s : State) (t : Nat) : (s.atTime t).pace = s.pace := rfl
@[simp] theorem State.atTime_phase (s : State) (t : Nat) : (s.atTime t).phase = s.phase := rfl
@[simp] theorem State.atTime_occ (s : State) (t : Nat) : (s.atTime t).occ = s.occ := rfl
@[simp] theorem State.atTime_fab (s : State) (t : Nat) : (s.atTime t).fab = s.fab := rfl
@[simp] theorem State.atTime_power (s : State) (t : Nat) : (s.atTime t).power = s.power := rfl
@[simp] theorem State.atTime_pins (s : State) (t : Nat) : (s.atTime t).pins = s.pins := rfl
@[simp] theorem State.atTime_host (s : State) (t : Nat) : (s.atTime t).host = s.host := rfl
@[simp] theorem State.atTime_bind (s : State) (t : Nat) : (s.atTime t).bind = s.bind := rfl
@[simp] theorem State.raise_pending (s : State) (r : FaultRec) : (s.raise r).pending = s.pending := rfl
@[simp] theorem State.raise_now (s : State) (r : FaultRec) : (s.raise r).now = s.now := rfl
@[simp] theorem State.raise_drawn (s : State) (r : FaultRec) : (s.raise r).drawn = s.drawn := rfl
@[simp] theorem State.raise_readData (s : State) (r : FaultRec) : (s.raise r).readData = s.readData := rfl
@[simp] theorem State.raise_regs (s : State) (r : FaultRec) : (s.raise r).regs = s.regs := rfl
@[simp] theorem State.raise_colo (s : State) (r : FaultRec) : (s.raise r).colo = s.colo := rfl
@[simp] theorem State.raise_span (s : State) (r : FaultRec) : (s.raise r).span = s.span := rfl
@[simp] theorem State.raise_mem (s : State) (r : FaultRec) : (s.raise r).mem = s.mem := rfl
@[simp] theorem State.raise_firn (s : State) (r : FaultRec) : (s.raise r).firn = s.firn := rfl
@[simp] theorem State.raise_sync (s : State) (r : FaultRec) : (s.raise r).sync = s.sync := rfl
@[simp] theorem State.raise_cxs (s : State) (r : FaultRec) : (s.raise r).cxs = s.cxs := rfl
@[simp] theorem State.raise_ac (s : State) (r : FaultRec) : (s.raise r).ac = s.ac := rfl
@[simp] theorem State.raise_acHist (s : State) (r : FaultRec) : (s.raise r).acHist = s.acHist := rfl
@[simp] theorem State.raise_cores (s : State) (r : FaultRec) : (s.raise r).cores = s.cores := rfl
@[simp] theorem State.raise_hostWin (s : State) (r : FaultRec) : (s.raise r).hostWin = s.hostWin := rfl
@[simp] theorem State.raise_hostAsked (s : State) (r : FaultRec) : (s.raise r).hostAsked = s.hostAsked := rfl
@[simp] theorem State.raise_imageRegs (s : State) (r : FaultRec) : (s.raise r).imageRegs = s.imageRegs := rfl
@[simp] theorem State.raise_arrays (s : State) (r : FaultRec) : (s.raise r).arrays = s.arrays := rfl
@[simp] theorem State.raise_eng (s : State) (r : FaultRec) : (s.raise r).eng = s.eng := rfl
@[simp] theorem State.raise_issues (s : State) (r : FaultRec) : (s.raise r).issues = s.issues := rfl
@[simp] theorem State.raise_tlb (s : State) (r : FaultRec) : (s.raise r).tlb = s.tlb := rfl
@[simp] theorem State.raise_inv (s : State) (r : FaultRec) : (s.raise r).inv = s.inv := rfl
@[simp] theorem State.raise_hs (s : State) (r : FaultRec) : (s.raise r).hs = s.hs := rfl
@[simp] theorem State.raise_pace (s : State) (r : FaultRec) : (s.raise r).pace = s.pace := rfl
@[simp] theorem State.raise_phase (s : State) (r : FaultRec) : (s.raise r).phase = s.phase := rfl
@[simp] theorem State.raise_occ (s : State) (r : FaultRec) : (s.raise r).occ = s.occ := rfl
@[simp] theorem State.raise_fab (s : State) (r : FaultRec) : (s.raise r).fab = s.fab := rfl
@[simp] theorem State.raise_power (s : State) (r : FaultRec) : (s.raise r).power = s.power := rfl
@[simp] theorem State.raise_pins (s : State) (r : FaultRec) : (s.raise r).pins = s.pins := rfl
@[simp] theorem State.raise_host (s : State) (r : FaultRec) : (s.raise r).host = s.host := rfl
@[simp] theorem State.raise_bind (s : State) (r : FaultRec) : (s.raise r).bind = s.bind := rfl
@[simp] theorem State.raiseHub_pending (s : State) (sev status kind : Nat) : (s.raiseHub sev status kind).pending = s.pending := rfl
@[simp] theorem State.raiseHub_now (s : State) (sev status kind : Nat) : (s.raiseHub sev status kind).now = s.now := rfl
@[simp] theorem State.raiseHub_drawn (s : State) (sev status kind : Nat) : (s.raiseHub sev status kind).drawn = s.drawn := rfl
@[simp] theorem State.raiseHub_readData (s : State) (sev status kind : Nat) : (s.raiseHub sev status kind).readData = s.readData := rfl
@[simp] theorem State.raiseHub_regs (s : State) (sev status kind : Nat) : (s.raiseHub sev status kind).regs = s.regs := rfl
@[simp] theorem State.raiseHub_colo (s : State) (sev status kind : Nat) : (s.raiseHub sev status kind).colo = s.colo := rfl
@[simp] theorem State.raiseHub_span (s : State) (sev status kind : Nat) : (s.raiseHub sev status kind).span = s.span := rfl
@[simp] theorem State.raiseHub_mem (s : State) (sev status kind : Nat) : (s.raiseHub sev status kind).mem = s.mem := rfl
@[simp] theorem State.raiseHub_firn (s : State) (sev status kind : Nat) : (s.raiseHub sev status kind).firn = s.firn := rfl
@[simp] theorem State.raiseHub_sync (s : State) (sev status kind : Nat) : (s.raiseHub sev status kind).sync = s.sync := rfl
@[simp] theorem State.raiseHub_cxs (s : State) (sev status kind : Nat) : (s.raiseHub sev status kind).cxs = s.cxs := rfl
@[simp] theorem State.raiseHub_ac (s : State) (sev status kind : Nat) : (s.raiseHub sev status kind).ac = s.ac := rfl
@[simp] theorem State.raiseHub_acHist (s : State) (sev status kind : Nat) : (s.raiseHub sev status kind).acHist = s.acHist := rfl
@[simp] theorem State.raiseHub_cores (s : State) (sev status kind : Nat) : (s.raiseHub sev status kind).cores = s.cores := rfl
@[simp] theorem State.raiseHub_hostWin (s : State) (sev status kind : Nat) : (s.raiseHub sev status kind).hostWin = s.hostWin := rfl
@[simp] theorem State.raiseHub_hostAsked (s : State) (sev status kind : Nat) : (s.raiseHub sev status kind).hostAsked = s.hostAsked := rfl
@[simp] theorem State.raiseHub_imageRegs (s : State) (sev status kind : Nat) : (s.raiseHub sev status kind).imageRegs = s.imageRegs := rfl
@[simp] theorem State.raiseHub_arrays (s : State) (sev status kind : Nat) : (s.raiseHub sev status kind).arrays = s.arrays := rfl
@[simp] theorem State.raiseHub_eng (s : State) (sev status kind : Nat) : (s.raiseHub sev status kind).eng = s.eng := rfl
@[simp] theorem State.raiseHub_issues (s : State) (sev status kind : Nat) : (s.raiseHub sev status kind).issues = s.issues := rfl
@[simp] theorem State.raiseHub_tlb (s : State) (sev status kind : Nat) : (s.raiseHub sev status kind).tlb = s.tlb := rfl
@[simp] theorem State.raiseHub_inv (s : State) (sev status kind : Nat) : (s.raiseHub sev status kind).inv = s.inv := rfl
@[simp] theorem State.raiseHub_hs (s : State) (sev status kind : Nat) : (s.raiseHub sev status kind).hs = s.hs := rfl
@[simp] theorem State.raiseHub_pace (s : State) (sev status kind : Nat) : (s.raiseHub sev status kind).pace = s.pace := rfl
@[simp] theorem State.raiseHub_phase (s : State) (sev status kind : Nat) : (s.raiseHub sev status kind).phase = s.phase := rfl
@[simp] theorem State.raiseHub_occ (s : State) (sev status kind : Nat) : (s.raiseHub sev status kind).occ = s.occ := rfl
@[simp] theorem State.raiseHub_fab (s : State) (sev status kind : Nat) : (s.raiseHub sev status kind).fab = s.fab := rfl
@[simp] theorem State.raiseHub_power (s : State) (sev status kind : Nat) : (s.raiseHub sev status kind).power = s.power := rfl
@[simp] theorem State.raiseHub_pins (s : State) (sev status kind : Nat) : (s.raiseHub sev status kind).pins = s.pins := rfl
@[simp] theorem State.raiseHub_host (s : State) (sev status kind : Nat) : (s.raiseHub sev status kind).host = s.host := rfl
@[simp] theorem State.raiseHub_bind (s : State) (sev status kind : Nat) : (s.raiseHub sev status kind).bind = s.bind := rfl
@[simp] theorem State.raiseReg_pending (s : State) (status o : Nat) : (s.raiseReg status o).pending = s.pending := rfl
@[simp] theorem State.raiseReg_now (s : State) (status o : Nat) : (s.raiseReg status o).now = s.now := rfl
@[simp] theorem State.raiseReg_drawn (s : State) (status o : Nat) : (s.raiseReg status o).drawn = s.drawn := rfl
@[simp] theorem State.raiseReg_readData (s : State) (status o : Nat) : (s.raiseReg status o).readData = s.readData := rfl
@[simp] theorem State.raiseReg_regs (s : State) (status o : Nat) : (s.raiseReg status o).regs = s.regs := rfl
@[simp] theorem State.raiseReg_colo (s : State) (status o : Nat) : (s.raiseReg status o).colo = s.colo := rfl
@[simp] theorem State.raiseReg_span (s : State) (status o : Nat) : (s.raiseReg status o).span = s.span := rfl
@[simp] theorem State.raiseReg_mem (s : State) (status o : Nat) : (s.raiseReg status o).mem = s.mem := rfl
@[simp] theorem State.raiseReg_firn (s : State) (status o : Nat) : (s.raiseReg status o).firn = s.firn := rfl
@[simp] theorem State.raiseReg_sync (s : State) (status o : Nat) : (s.raiseReg status o).sync = s.sync := rfl
@[simp] theorem State.raiseReg_cxs (s : State) (status o : Nat) : (s.raiseReg status o).cxs = s.cxs := rfl
@[simp] theorem State.raiseReg_ac (s : State) (status o : Nat) : (s.raiseReg status o).ac = s.ac := rfl
@[simp] theorem State.raiseReg_acHist (s : State) (status o : Nat) : (s.raiseReg status o).acHist = s.acHist := rfl
@[simp] theorem State.raiseReg_cores (s : State) (status o : Nat) : (s.raiseReg status o).cores = s.cores := rfl
@[simp] theorem State.raiseReg_hostWin (s : State) (status o : Nat) : (s.raiseReg status o).hostWin = s.hostWin := rfl
@[simp] theorem State.raiseReg_hostAsked (s : State) (status o : Nat) : (s.raiseReg status o).hostAsked = s.hostAsked := rfl
@[simp] theorem State.raiseReg_imageRegs (s : State) (status o : Nat) : (s.raiseReg status o).imageRegs = s.imageRegs := rfl
@[simp] theorem State.raiseReg_arrays (s : State) (status o : Nat) : (s.raiseReg status o).arrays = s.arrays := rfl
@[simp] theorem State.raiseReg_eng (s : State) (status o : Nat) : (s.raiseReg status o).eng = s.eng := rfl
@[simp] theorem State.raiseReg_issues (s : State) (status o : Nat) : (s.raiseReg status o).issues = s.issues := rfl
@[simp] theorem State.raiseReg_tlb (s : State) (status o : Nat) : (s.raiseReg status o).tlb = s.tlb := rfl
@[simp] theorem State.raiseReg_inv (s : State) (status o : Nat) : (s.raiseReg status o).inv = s.inv := rfl
@[simp] theorem State.raiseReg_hs (s : State) (status o : Nat) : (s.raiseReg status o).hs = s.hs := rfl
@[simp] theorem State.raiseReg_pace (s : State) (status o : Nat) : (s.raiseReg status o).pace = s.pace := rfl
@[simp] theorem State.raiseReg_phase (s : State) (status o : Nat) : (s.raiseReg status o).phase = s.phase := rfl
@[simp] theorem State.raiseReg_occ (s : State) (status o : Nat) : (s.raiseReg status o).occ = s.occ := rfl
@[simp] theorem State.raiseReg_fab (s : State) (status o : Nat) : (s.raiseReg status o).fab = s.fab := rfl
@[simp] theorem State.raiseReg_power (s : State) (status o : Nat) : (s.raiseReg status o).power = s.power := rfl
@[simp] theorem State.raiseReg_pins (s : State) (status o : Nat) : (s.raiseReg status o).pins = s.pins := rfl
@[simp] theorem State.raiseReg_host (s : State) (status o : Nat) : (s.raiseReg status o).host = s.host := rfl
@[simp] theorem State.raiseReg_bind (s : State) (status o : Nat) : (s.raiseReg status o).bind = s.bind := rfl
@[simp] theorem State.setCx_pending (s : State) (d : Die) (c : Cx) (x : Ctx) : (s.setCx d c x).pending = s.pending := rfl
@[simp] theorem State.setCx_now (s : State) (d : Die) (c : Cx) (x : Ctx) : (s.setCx d c x).now = s.now := rfl
@[simp] theorem State.setCx_drawn (s : State) (d : Die) (c : Cx) (x : Ctx) : (s.setCx d c x).drawn = s.drawn := rfl
@[simp] theorem State.setCx_readData (s : State) (d : Die) (c : Cx) (x : Ctx) : (s.setCx d c x).readData = s.readData := rfl
@[simp] theorem State.setCx_regs (s : State) (d : Die) (c : Cx) (x : Ctx) : (s.setCx d c x).regs = s.regs := rfl
@[simp] theorem State.setCx_faults (s : State) (d : Die) (c : Cx) (x : Ctx) : (s.setCx d c x).faults = s.faults := rfl
@[simp] theorem State.setCx_colo (s : State) (d : Die) (c : Cx) (x : Ctx) : (s.setCx d c x).colo = s.colo := rfl
@[simp] theorem State.setCx_span (s : State) (d : Die) (c : Cx) (x : Ctx) : (s.setCx d c x).span = s.span := rfl
@[simp] theorem State.setCx_mem (s : State) (d : Die) (c : Cx) (x : Ctx) : (s.setCx d c x).mem = s.mem := rfl
@[simp] theorem State.setCx_firn (s : State) (d : Die) (c : Cx) (x : Ctx) : (s.setCx d c x).firn = s.firn := rfl
@[simp] theorem State.setCx_sync (s : State) (d : Die) (c : Cx) (x : Ctx) : (s.setCx d c x).sync = s.sync := rfl
@[simp] theorem State.setCx_ac (s : State) (d : Die) (c : Cx) (x : Ctx) : (s.setCx d c x).ac = s.ac := rfl
@[simp] theorem State.setCx_acHist (s : State) (d : Die) (c : Cx) (x : Ctx) : (s.setCx d c x).acHist = s.acHist := rfl
@[simp] theorem State.setCx_cores (s : State) (d : Die) (c : Cx) (x : Ctx) : (s.setCx d c x).cores = s.cores := rfl
@[simp] theorem State.setCx_hostWin (s : State) (d : Die) (c : Cx) (x : Ctx) : (s.setCx d c x).hostWin = s.hostWin := rfl
@[simp] theorem State.setCx_hostAsked (s : State) (d : Die) (c : Cx) (x : Ctx) : (s.setCx d c x).hostAsked = s.hostAsked := rfl
@[simp] theorem State.setCx_imageRegs (s : State) (d : Die) (c : Cx) (x : Ctx) : (s.setCx d c x).imageRegs = s.imageRegs := rfl
@[simp] theorem State.setCx_arrays (s : State) (d : Die) (c : Cx) (x : Ctx) : (s.setCx d c x).arrays = s.arrays := rfl
@[simp] theorem State.setCx_eng (s : State) (d : Die) (c : Cx) (x : Ctx) : (s.setCx d c x).eng = s.eng := rfl
@[simp] theorem State.setCx_issues (s : State) (d : Die) (c : Cx) (x : Ctx) : (s.setCx d c x).issues = s.issues := rfl
@[simp] theorem State.setCx_tlb (s : State) (d : Die) (c : Cx) (x : Ctx) : (s.setCx d c x).tlb = s.tlb := rfl
@[simp] theorem State.setCx_inv (s : State) (d : Die) (c : Cx) (x : Ctx) : (s.setCx d c x).inv = s.inv := rfl
@[simp] theorem State.setCx_hs (s : State) (d : Die) (c : Cx) (x : Ctx) : (s.setCx d c x).hs = s.hs := rfl
@[simp] theorem State.setCx_pace (s : State) (d : Die) (c : Cx) (x : Ctx) : (s.setCx d c x).pace = s.pace := rfl
@[simp] theorem State.setCx_phase (s : State) (d : Die) (c : Cx) (x : Ctx) : (s.setCx d c x).phase = s.phase := rfl
@[simp] theorem State.setCx_occ (s : State) (d : Die) (c : Cx) (x : Ctx) : (s.setCx d c x).occ = s.occ := rfl
@[simp] theorem State.setCx_fab (s : State) (d : Die) (c : Cx) (x : Ctx) : (s.setCx d c x).fab = s.fab := rfl
@[simp] theorem State.setCx_power (s : State) (d : Die) (c : Cx) (x : Ctx) : (s.setCx d c x).power = s.power := rfl
@[simp] theorem State.setCx_pins (s : State) (d : Die) (c : Cx) (x : Ctx) : (s.setCx d c x).pins = s.pins := rfl
@[simp] theorem State.setCx_host (s : State) (d : Die) (c : Cx) (x : Ctx) : (s.setCx d c x).host = s.host := rfl
@[simp] theorem State.setCx_bind (s : State) (d : Die) (c : Cx) (x : Ctx) : (s.setCx d c x).bind = s.bind := rfl
@[simp] theorem State.setCxState_pending (s : State) (d : Die) (c : Cx) (v : Nat) : (s.setCxState d c v).pending = s.pending := rfl
@[simp] theorem State.setCxState_now (s : State) (d : Die) (c : Cx) (v : Nat) : (s.setCxState d c v).now = s.now := rfl
@[simp] theorem State.setCxState_drawn (s : State) (d : Die) (c : Cx) (v : Nat) : (s.setCxState d c v).drawn = s.drawn := rfl
@[simp] theorem State.setCxState_readData (s : State) (d : Die) (c : Cx) (v : Nat) : (s.setCxState d c v).readData = s.readData := rfl
@[simp] theorem State.setCxState_faults (s : State) (d : Die) (c : Cx) (v : Nat) : (s.setCxState d c v).faults = s.faults := rfl
@[simp] theorem State.setCxState_colo (s : State) (d : Die) (c : Cx) (v : Nat) : (s.setCxState d c v).colo = s.colo := rfl
@[simp] theorem State.setCxState_span (s : State) (d : Die) (c : Cx) (v : Nat) : (s.setCxState d c v).span = s.span := rfl
@[simp] theorem State.setCxState_mem (s : State) (d : Die) (c : Cx) (v : Nat) : (s.setCxState d c v).mem = s.mem := rfl
@[simp] theorem State.setCxState_firn (s : State) (d : Die) (c : Cx) (v : Nat) : (s.setCxState d c v).firn = s.firn := rfl
@[simp] theorem State.setCxState_sync (s : State) (d : Die) (c : Cx) (v : Nat) : (s.setCxState d c v).sync = s.sync := rfl
@[simp] theorem State.setCxState_cxs (s : State) (d : Die) (c : Cx) (v : Nat) : (s.setCxState d c v).cxs = s.cxs := rfl
@[simp] theorem State.setCxState_ac (s : State) (d : Die) (c : Cx) (v : Nat) : (s.setCxState d c v).ac = s.ac := rfl
@[simp] theorem State.setCxState_acHist (s : State) (d : Die) (c : Cx) (v : Nat) : (s.setCxState d c v).acHist = s.acHist := rfl
@[simp] theorem State.setCxState_cores (s : State) (d : Die) (c : Cx) (v : Nat) : (s.setCxState d c v).cores = s.cores := rfl
@[simp] theorem State.setCxState_hostWin (s : State) (d : Die) (c : Cx) (v : Nat) : (s.setCxState d c v).hostWin = s.hostWin := rfl
@[simp] theorem State.setCxState_hostAsked (s : State) (d : Die) (c : Cx) (v : Nat) : (s.setCxState d c v).hostAsked = s.hostAsked := rfl
@[simp] theorem State.setCxState_imageRegs (s : State) (d : Die) (c : Cx) (v : Nat) : (s.setCxState d c v).imageRegs = s.imageRegs := rfl
@[simp] theorem State.setCxState_arrays (s : State) (d : Die) (c : Cx) (v : Nat) : (s.setCxState d c v).arrays = s.arrays := rfl
@[simp] theorem State.setCxState_eng (s : State) (d : Die) (c : Cx) (v : Nat) : (s.setCxState d c v).eng = s.eng := rfl
@[simp] theorem State.setCxState_issues (s : State) (d : Die) (c : Cx) (v : Nat) : (s.setCxState d c v).issues = s.issues := rfl
@[simp] theorem State.setCxState_tlb (s : State) (d : Die) (c : Cx) (v : Nat) : (s.setCxState d c v).tlb = s.tlb := rfl
@[simp] theorem State.setCxState_inv (s : State) (d : Die) (c : Cx) (v : Nat) : (s.setCxState d c v).inv = s.inv := rfl
@[simp] theorem State.setCxState_hs (s : State) (d : Die) (c : Cx) (v : Nat) : (s.setCxState d c v).hs = s.hs := rfl
@[simp] theorem State.setCxState_pace (s : State) (d : Die) (c : Cx) (v : Nat) : (s.setCxState d c v).pace = s.pace := rfl
@[simp] theorem State.setCxState_phase (s : State) (d : Die) (c : Cx) (v : Nat) : (s.setCxState d c v).phase = s.phase := rfl
@[simp] theorem State.setCxState_occ (s : State) (d : Die) (c : Cx) (v : Nat) : (s.setCxState d c v).occ = s.occ := rfl
@[simp] theorem State.setCxState_fab (s : State) (d : Die) (c : Cx) (v : Nat) : (s.setCxState d c v).fab = s.fab := rfl
@[simp] theorem State.setCxState_power (s : State) (d : Die) (c : Cx) (v : Nat) : (s.setCxState d c v).power = s.power := rfl
@[simp] theorem State.setCxState_pins (s : State) (d : Die) (c : Cx) (v : Nat) : (s.setCxState d c v).pins = s.pins := rfl
@[simp] theorem State.setCxState_host (s : State) (d : Die) (c : Cx) (v : Nat) : (s.setCxState d c v).host = s.host := rfl
@[simp] theorem State.setCxState_bind (s : State) (d : Die) (c : Cx) (v : Nat) : (s.setCxState d c v).bind = s.bind := rfl
@[simp] theorem State.setEng_pending (s : State) (d u : Nat) (e : EngSt) : (s.setEng d u e).pending = s.pending := rfl
@[simp] theorem State.setEng_now (s : State) (d u : Nat) (e : EngSt) : (s.setEng d u e).now = s.now := rfl
@[simp] theorem State.setEng_drawn (s : State) (d u : Nat) (e : EngSt) : (s.setEng d u e).drawn = s.drawn := rfl
@[simp] theorem State.setEng_readData (s : State) (d u : Nat) (e : EngSt) : (s.setEng d u e).readData = s.readData := rfl
@[simp] theorem State.setEng_regs (s : State) (d u : Nat) (e : EngSt) : (s.setEng d u e).regs = s.regs := rfl
@[simp] theorem State.setEng_faults (s : State) (d u : Nat) (e : EngSt) : (s.setEng d u e).faults = s.faults := rfl
@[simp] theorem State.setEng_colo (s : State) (d u : Nat) (e : EngSt) : (s.setEng d u e).colo = s.colo := rfl
@[simp] theorem State.setEng_span (s : State) (d u : Nat) (e : EngSt) : (s.setEng d u e).span = s.span := rfl
@[simp] theorem State.setEng_mem (s : State) (d u : Nat) (e : EngSt) : (s.setEng d u e).mem = s.mem := rfl
@[simp] theorem State.setEng_firn (s : State) (d u : Nat) (e : EngSt) : (s.setEng d u e).firn = s.firn := rfl
@[simp] theorem State.setEng_sync (s : State) (d u : Nat) (e : EngSt) : (s.setEng d u e).sync = s.sync := rfl
@[simp] theorem State.setEng_cxs (s : State) (d u : Nat) (e : EngSt) : (s.setEng d u e).cxs = s.cxs := rfl
@[simp] theorem State.setEng_ac (s : State) (d u : Nat) (e : EngSt) : (s.setEng d u e).ac = s.ac := rfl
@[simp] theorem State.setEng_acHist (s : State) (d u : Nat) (e : EngSt) : (s.setEng d u e).acHist = s.acHist := rfl
@[simp] theorem State.setEng_cores (s : State) (d u : Nat) (e : EngSt) : (s.setEng d u e).cores = s.cores := rfl
@[simp] theorem State.setEng_hostWin (s : State) (d u : Nat) (e : EngSt) : (s.setEng d u e).hostWin = s.hostWin := rfl
@[simp] theorem State.setEng_hostAsked (s : State) (d u : Nat) (e : EngSt) : (s.setEng d u e).hostAsked = s.hostAsked := rfl
@[simp] theorem State.setEng_imageRegs (s : State) (d u : Nat) (e : EngSt) : (s.setEng d u e).imageRegs = s.imageRegs := rfl
@[simp] theorem State.setEng_arrays (s : State) (d u : Nat) (e : EngSt) : (s.setEng d u e).arrays = s.arrays := rfl
@[simp] theorem State.setEng_issues (s : State) (d u : Nat) (e : EngSt) : (s.setEng d u e).issues = s.issues := rfl
@[simp] theorem State.setEng_tlb (s : State) (d u : Nat) (e : EngSt) : (s.setEng d u e).tlb = s.tlb := rfl
@[simp] theorem State.setEng_inv (s : State) (d u : Nat) (e : EngSt) : (s.setEng d u e).inv = s.inv := rfl
@[simp] theorem State.setEng_hs (s : State) (d u : Nat) (e : EngSt) : (s.setEng d u e).hs = s.hs := rfl
@[simp] theorem State.setEng_pace (s : State) (d u : Nat) (e : EngSt) : (s.setEng d u e).pace = s.pace := rfl
@[simp] theorem State.setEng_phase (s : State) (d u : Nat) (e : EngSt) : (s.setEng d u e).phase = s.phase := rfl
@[simp] theorem State.setEng_occ (s : State) (d u : Nat) (e : EngSt) : (s.setEng d u e).occ = s.occ := rfl
@[simp] theorem State.setEng_fab (s : State) (d u : Nat) (e : EngSt) : (s.setEng d u e).fab = s.fab := rfl
@[simp] theorem State.setEng_power (s : State) (d u : Nat) (e : EngSt) : (s.setEng d u e).power = s.power := rfl
@[simp] theorem State.setEng_pins (s : State) (d u : Nat) (e : EngSt) : (s.setEng d u e).pins = s.pins := rfl
@[simp] theorem State.setEng_host (s : State) (d u : Nat) (e : EngSt) : (s.setEng d u e).host = s.host := rfl
@[simp] theorem State.setEng_bind (s : State) (d u : Nat) (e : EngSt) : (s.setEng d u e).bind = s.bind := rfl
@[simp] theorem State.setArr_pending (s : State) (d m : Nat) (a : ArraySt) : (s.setArr d m a).pending = s.pending := rfl
@[simp] theorem State.setArr_now (s : State) (d m : Nat) (a : ArraySt) : (s.setArr d m a).now = s.now := rfl
@[simp] theorem State.setArr_drawn (s : State) (d m : Nat) (a : ArraySt) : (s.setArr d m a).drawn = s.drawn := rfl
@[simp] theorem State.setArr_readData (s : State) (d m : Nat) (a : ArraySt) : (s.setArr d m a).readData = s.readData := rfl
@[simp] theorem State.setArr_regs (s : State) (d m : Nat) (a : ArraySt) : (s.setArr d m a).regs = s.regs := rfl
@[simp] theorem State.setArr_faults (s : State) (d m : Nat) (a : ArraySt) : (s.setArr d m a).faults = s.faults := rfl
@[simp] theorem State.setArr_colo (s : State) (d m : Nat) (a : ArraySt) : (s.setArr d m a).colo = s.colo := rfl
@[simp] theorem State.setArr_span (s : State) (d m : Nat) (a : ArraySt) : (s.setArr d m a).span = s.span := rfl
@[simp] theorem State.setArr_mem (s : State) (d m : Nat) (a : ArraySt) : (s.setArr d m a).mem = s.mem := rfl
@[simp] theorem State.setArr_firn (s : State) (d m : Nat) (a : ArraySt) : (s.setArr d m a).firn = s.firn := rfl
@[simp] theorem State.setArr_sync (s : State) (d m : Nat) (a : ArraySt) : (s.setArr d m a).sync = s.sync := rfl
@[simp] theorem State.setArr_cxs (s : State) (d m : Nat) (a : ArraySt) : (s.setArr d m a).cxs = s.cxs := rfl
@[simp] theorem State.setArr_ac (s : State) (d m : Nat) (a : ArraySt) : (s.setArr d m a).ac = s.ac := rfl
@[simp] theorem State.setArr_acHist (s : State) (d m : Nat) (a : ArraySt) : (s.setArr d m a).acHist = s.acHist := rfl
@[simp] theorem State.setArr_cores (s : State) (d m : Nat) (a : ArraySt) : (s.setArr d m a).cores = s.cores := rfl
@[simp] theorem State.setArr_hostWin (s : State) (d m : Nat) (a : ArraySt) : (s.setArr d m a).hostWin = s.hostWin := rfl
@[simp] theorem State.setArr_hostAsked (s : State) (d m : Nat) (a : ArraySt) : (s.setArr d m a).hostAsked = s.hostAsked := rfl
@[simp] theorem State.setArr_imageRegs (s : State) (d m : Nat) (a : ArraySt) : (s.setArr d m a).imageRegs = s.imageRegs := rfl
@[simp] theorem State.setArr_eng (s : State) (d m : Nat) (a : ArraySt) : (s.setArr d m a).eng = s.eng := rfl
@[simp] theorem State.setArr_issues (s : State) (d m : Nat) (a : ArraySt) : (s.setArr d m a).issues = s.issues := rfl
@[simp] theorem State.setArr_tlb (s : State) (d m : Nat) (a : ArraySt) : (s.setArr d m a).tlb = s.tlb := rfl
@[simp] theorem State.setArr_inv (s : State) (d m : Nat) (a : ArraySt) : (s.setArr d m a).inv = s.inv := rfl
@[simp] theorem State.setArr_hs (s : State) (d m : Nat) (a : ArraySt) : (s.setArr d m a).hs = s.hs := rfl
@[simp] theorem State.setArr_pace (s : State) (d m : Nat) (a : ArraySt) : (s.setArr d m a).pace = s.pace := rfl
@[simp] theorem State.setArr_phase (s : State) (d m : Nat) (a : ArraySt) : (s.setArr d m a).phase = s.phase := rfl
@[simp] theorem State.setArr_occ (s : State) (d m : Nat) (a : ArraySt) : (s.setArr d m a).occ = s.occ := rfl
@[simp] theorem State.setArr_fab (s : State) (d m : Nat) (a : ArraySt) : (s.setArr d m a).fab = s.fab := rfl
@[simp] theorem State.setArr_power (s : State) (d m : Nat) (a : ArraySt) : (s.setArr d m a).power = s.power := rfl
@[simp] theorem State.setArr_pins (s : State) (d m : Nat) (a : ArraySt) : (s.setArr d m a).pins = s.pins := rfl
@[simp] theorem State.setArr_host (s : State) (d m : Nat) (a : ArraySt) : (s.setArr d m a).host = s.host := rfl
@[simp] theorem State.setArr_bind (s : State) (d m : Nat) (a : ArraySt) : (s.setArr d m a).bind = s.bind := rfl
@[simp] theorem State.setCells_pending (s : State) (m : List Host.Cell) : (s.setCells m).pending = s.pending := rfl
@[simp] theorem State.setCells_now (s : State) (m : List Host.Cell) : (s.setCells m).now = s.now := rfl
@[simp] theorem State.setCells_drawn (s : State) (m : List Host.Cell) : (s.setCells m).drawn = s.drawn := rfl
@[simp] theorem State.setCells_readData (s : State) (m : List Host.Cell) : (s.setCells m).readData = s.readData := rfl
@[simp] theorem State.setCells_regs (s : State) (m : List Host.Cell) : (s.setCells m).regs = s.regs := rfl
@[simp] theorem State.setCells_faults (s : State) (m : List Host.Cell) : (s.setCells m).faults = s.faults := rfl
@[simp] theorem State.setCells_colo (s : State) (m : List Host.Cell) : (s.setCells m).colo = s.colo := rfl
@[simp] theorem State.setCells_span (s : State) (m : List Host.Cell) : (s.setCells m).span = s.span := rfl
@[simp] theorem State.setCells_firn (s : State) (m : List Host.Cell) : (s.setCells m).firn = s.firn := rfl
@[simp] theorem State.setCells_sync (s : State) (m : List Host.Cell) : (s.setCells m).sync = s.sync := rfl
@[simp] theorem State.setCells_cxs (s : State) (m : List Host.Cell) : (s.setCells m).cxs = s.cxs := rfl
@[simp] theorem State.setCells_ac (s : State) (m : List Host.Cell) : (s.setCells m).ac = s.ac := rfl
@[simp] theorem State.setCells_acHist (s : State) (m : List Host.Cell) : (s.setCells m).acHist = s.acHist := rfl
@[simp] theorem State.setCells_cores (s : State) (m : List Host.Cell) : (s.setCells m).cores = s.cores := rfl
@[simp] theorem State.setCells_hostWin (s : State) (m : List Host.Cell) : (s.setCells m).hostWin = s.hostWin := rfl
@[simp] theorem State.setCells_hostAsked (s : State) (m : List Host.Cell) : (s.setCells m).hostAsked = s.hostAsked := rfl
@[simp] theorem State.setCells_imageRegs (s : State) (m : List Host.Cell) : (s.setCells m).imageRegs = s.imageRegs := rfl
@[simp] theorem State.setCells_arrays (s : State) (m : List Host.Cell) : (s.setCells m).arrays = s.arrays := rfl
@[simp] theorem State.setCells_eng (s : State) (m : List Host.Cell) : (s.setCells m).eng = s.eng := rfl
@[simp] theorem State.setCells_issues (s : State) (m : List Host.Cell) : (s.setCells m).issues = s.issues := rfl
@[simp] theorem State.setCells_tlb (s : State) (m : List Host.Cell) : (s.setCells m).tlb = s.tlb := rfl
@[simp] theorem State.setCells_inv (s : State) (m : List Host.Cell) : (s.setCells m).inv = s.inv := rfl
@[simp] theorem State.setCells_hs (s : State) (m : List Host.Cell) : (s.setCells m).hs = s.hs := rfl
@[simp] theorem State.setCells_pace (s : State) (m : List Host.Cell) : (s.setCells m).pace = s.pace := rfl
@[simp] theorem State.setCells_phase (s : State) (m : List Host.Cell) : (s.setCells m).phase = s.phase := rfl
@[simp] theorem State.setCells_occ (s : State) (m : List Host.Cell) : (s.setCells m).occ = s.occ := rfl
@[simp] theorem State.setCells_fab (s : State) (m : List Host.Cell) : (s.setCells m).fab = s.fab := rfl
@[simp] theorem State.setCells_power (s : State) (m : List Host.Cell) : (s.setCells m).power = s.power := rfl
@[simp] theorem State.setCells_pins (s : State) (m : List Host.Cell) : (s.setCells m).pins = s.pins := rfl
@[simp] theorem State.setCells_host (s : State) (m : List Host.Cell) : (s.setCells m).host = s.host := rfl
@[simp] theorem State.setCells_bind (s : State) (m : List Host.Cell) : (s.setCells m).bind = s.bind := rfl
@[simp] theorem State.setBlock_pending (s : State) (a : Nat) (b : BlockMeta) : (s.setBlock a b).pending = s.pending := rfl
@[simp] theorem State.setBlock_now (s : State) (a : Nat) (b : BlockMeta) : (s.setBlock a b).now = s.now := rfl
@[simp] theorem State.setBlock_drawn (s : State) (a : Nat) (b : BlockMeta) : (s.setBlock a b).drawn = s.drawn := rfl
@[simp] theorem State.setBlock_readData (s : State) (a : Nat) (b : BlockMeta) : (s.setBlock a b).readData = s.readData := rfl
@[simp] theorem State.setBlock_regs (s : State) (a : Nat) (b : BlockMeta) : (s.setBlock a b).regs = s.regs := rfl
@[simp] theorem State.setBlock_faults (s : State) (a : Nat) (b : BlockMeta) : (s.setBlock a b).faults = s.faults := rfl
@[simp] theorem State.setBlock_colo (s : State) (a : Nat) (b : BlockMeta) : (s.setBlock a b).colo = s.colo := rfl
@[simp] theorem State.setBlock_span (s : State) (a : Nat) (b : BlockMeta) : (s.setBlock a b).span = s.span := rfl
@[simp] theorem State.setBlock_firn (s : State) (a : Nat) (b : BlockMeta) : (s.setBlock a b).firn = s.firn := rfl
@[simp] theorem State.setBlock_sync (s : State) (a : Nat) (b : BlockMeta) : (s.setBlock a b).sync = s.sync := rfl
@[simp] theorem State.setBlock_cxs (s : State) (a : Nat) (b : BlockMeta) : (s.setBlock a b).cxs = s.cxs := rfl
@[simp] theorem State.setBlock_ac (s : State) (a : Nat) (b : BlockMeta) : (s.setBlock a b).ac = s.ac := rfl
@[simp] theorem State.setBlock_acHist (s : State) (a : Nat) (b : BlockMeta) : (s.setBlock a b).acHist = s.acHist := rfl
@[simp] theorem State.setBlock_cores (s : State) (a : Nat) (b : BlockMeta) : (s.setBlock a b).cores = s.cores := rfl
@[simp] theorem State.setBlock_hostWin (s : State) (a : Nat) (b : BlockMeta) : (s.setBlock a b).hostWin = s.hostWin := rfl
@[simp] theorem State.setBlock_hostAsked (s : State) (a : Nat) (b : BlockMeta) : (s.setBlock a b).hostAsked = s.hostAsked := rfl
@[simp] theorem State.setBlock_imageRegs (s : State) (a : Nat) (b : BlockMeta) : (s.setBlock a b).imageRegs = s.imageRegs := rfl
@[simp] theorem State.setBlock_arrays (s : State) (a : Nat) (b : BlockMeta) : (s.setBlock a b).arrays = s.arrays := rfl
@[simp] theorem State.setBlock_eng (s : State) (a : Nat) (b : BlockMeta) : (s.setBlock a b).eng = s.eng := rfl
@[simp] theorem State.setBlock_issues (s : State) (a : Nat) (b : BlockMeta) : (s.setBlock a b).issues = s.issues := rfl
@[simp] theorem State.setBlock_tlb (s : State) (a : Nat) (b : BlockMeta) : (s.setBlock a b).tlb = s.tlb := rfl
@[simp] theorem State.setBlock_inv (s : State) (a : Nat) (b : BlockMeta) : (s.setBlock a b).inv = s.inv := rfl
@[simp] theorem State.setBlock_hs (s : State) (a : Nat) (b : BlockMeta) : (s.setBlock a b).hs = s.hs := rfl
@[simp] theorem State.setBlock_pace (s : State) (a : Nat) (b : BlockMeta) : (s.setBlock a b).pace = s.pace := rfl
@[simp] theorem State.setBlock_phase (s : State) (a : Nat) (b : BlockMeta) : (s.setBlock a b).phase = s.phase := rfl
@[simp] theorem State.setBlock_occ (s : State) (a : Nat) (b : BlockMeta) : (s.setBlock a b).occ = s.occ := rfl
@[simp] theorem State.setBlock_fab (s : State) (a : Nat) (b : BlockMeta) : (s.setBlock a b).fab = s.fab := rfl
@[simp] theorem State.setBlock_power (s : State) (a : Nat) (b : BlockMeta) : (s.setBlock a b).power = s.power := rfl
@[simp] theorem State.setBlock_pins (s : State) (a : Nat) (b : BlockMeta) : (s.setBlock a b).pins = s.pins := rfl
@[simp] theorem State.setBlock_host (s : State) (a : Nat) (b : BlockMeta) : (s.setBlock a b).host = s.host := rfl
@[simp] theorem State.setBlock_bind (s : State) (a : Nat) (b : BlockMeta) : (s.setBlock a b).bind = s.bind := rfl
@[simp] theorem State.setRc_pending (s : State) (d : Nat) (r : RcSt) : (s.setRc d r).pending = s.pending := rfl
@[simp] theorem State.setRc_now (s : State) (d : Nat) (r : RcSt) : (s.setRc d r).now = s.now := rfl
@[simp] theorem State.setRc_drawn (s : State) (d : Nat) (r : RcSt) : (s.setRc d r).drawn = s.drawn := rfl
@[simp] theorem State.setRc_readData (s : State) (d : Nat) (r : RcSt) : (s.setRc d r).readData = s.readData := rfl
@[simp] theorem State.setRc_regs (s : State) (d : Nat) (r : RcSt) : (s.setRc d r).regs = s.regs := rfl
@[simp] theorem State.setRc_faults (s : State) (d : Nat) (r : RcSt) : (s.setRc d r).faults = s.faults := rfl
@[simp] theorem State.setRc_colo (s : State) (d : Nat) (r : RcSt) : (s.setRc d r).colo = s.colo := rfl
@[simp] theorem State.setRc_span (s : State) (d : Nat) (r : RcSt) : (s.setRc d r).span = s.span := rfl
@[simp] theorem State.setRc_firn (s : State) (d : Nat) (r : RcSt) : (s.setRc d r).firn = s.firn := rfl
@[simp] theorem State.setRc_sync (s : State) (d : Nat) (r : RcSt) : (s.setRc d r).sync = s.sync := rfl
@[simp] theorem State.setRc_cxs (s : State) (d : Nat) (r : RcSt) : (s.setRc d r).cxs = s.cxs := rfl
@[simp] theorem State.setRc_ac (s : State) (d : Nat) (r : RcSt) : (s.setRc d r).ac = s.ac := rfl
@[simp] theorem State.setRc_acHist (s : State) (d : Nat) (r : RcSt) : (s.setRc d r).acHist = s.acHist := rfl
@[simp] theorem State.setRc_cores (s : State) (d : Nat) (r : RcSt) : (s.setRc d r).cores = s.cores := rfl
@[simp] theorem State.setRc_hostWin (s : State) (d : Nat) (r : RcSt) : (s.setRc d r).hostWin = s.hostWin := rfl
@[simp] theorem State.setRc_hostAsked (s : State) (d : Nat) (r : RcSt) : (s.setRc d r).hostAsked = s.hostAsked := rfl
@[simp] theorem State.setRc_imageRegs (s : State) (d : Nat) (r : RcSt) : (s.setRc d r).imageRegs = s.imageRegs := rfl
@[simp] theorem State.setRc_arrays (s : State) (d : Nat) (r : RcSt) : (s.setRc d r).arrays = s.arrays := rfl
@[simp] theorem State.setRc_eng (s : State) (d : Nat) (r : RcSt) : (s.setRc d r).eng = s.eng := rfl
@[simp] theorem State.setRc_issues (s : State) (d : Nat) (r : RcSt) : (s.setRc d r).issues = s.issues := rfl
@[simp] theorem State.setRc_tlb (s : State) (d : Nat) (r : RcSt) : (s.setRc d r).tlb = s.tlb := rfl
@[simp] theorem State.setRc_inv (s : State) (d : Nat) (r : RcSt) : (s.setRc d r).inv = s.inv := rfl
@[simp] theorem State.setRc_hs (s : State) (d : Nat) (r : RcSt) : (s.setRc d r).hs = s.hs := rfl
@[simp] theorem State.setRc_pace (s : State) (d : Nat) (r : RcSt) : (s.setRc d r).pace = s.pace := rfl
@[simp] theorem State.setRc_phase (s : State) (d : Nat) (r : RcSt) : (s.setRc d r).phase = s.phase := rfl
@[simp] theorem State.setRc_occ (s : State) (d : Nat) (r : RcSt) : (s.setRc d r).occ = s.occ := rfl
@[simp] theorem State.setRc_fab (s : State) (d : Nat) (r : RcSt) : (s.setRc d r).fab = s.fab := rfl
@[simp] theorem State.setRc_power (s : State) (d : Nat) (r : RcSt) : (s.setRc d r).power = s.power := rfl
@[simp] theorem State.setRc_pins (s : State) (d : Nat) (r : RcSt) : (s.setRc d r).pins = s.pins := rfl
@[simp] theorem State.setRc_host (s : State) (d : Nat) (r : RcSt) : (s.setRc d r).host = s.host := rfl
@[simp] theorem State.setRc_bind (s : State) (d : Nat) (r : RcSt) : (s.setRc d r).bind = s.bind := rfl
@[simp] theorem State.setQuire_pending (s : State) (q : Nat) (r : QuireRec) : (s.setQuire q r).pending = s.pending := rfl
@[simp] theorem State.setQuire_now (s : State) (q : Nat) (r : QuireRec) : (s.setQuire q r).now = s.now := rfl
@[simp] theorem State.setQuire_drawn (s : State) (q : Nat) (r : QuireRec) : (s.setQuire q r).drawn = s.drawn := rfl
@[simp] theorem State.setQuire_readData (s : State) (q : Nat) (r : QuireRec) : (s.setQuire q r).readData = s.readData := rfl
@[simp] theorem State.setQuire_regs (s : State) (q : Nat) (r : QuireRec) : (s.setQuire q r).regs = s.regs := rfl
@[simp] theorem State.setQuire_faults (s : State) (q : Nat) (r : QuireRec) : (s.setQuire q r).faults = s.faults := rfl
@[simp] theorem State.setQuire_colo (s : State) (q : Nat) (r : QuireRec) : (s.setQuire q r).colo = s.colo := rfl
@[simp] theorem State.setQuire_span (s : State) (q : Nat) (r : QuireRec) : (s.setQuire q r).span = s.span := rfl
@[simp] theorem State.setQuire_mem (s : State) (q : Nat) (r : QuireRec) : (s.setQuire q r).mem = s.mem := rfl
@[simp] theorem State.setQuire_firn (s : State) (q : Nat) (r : QuireRec) : (s.setQuire q r).firn = s.firn := rfl
@[simp] theorem State.setQuire_cxs (s : State) (q : Nat) (r : QuireRec) : (s.setQuire q r).cxs = s.cxs := rfl
@[simp] theorem State.setQuire_ac (s : State) (q : Nat) (r : QuireRec) : (s.setQuire q r).ac = s.ac := rfl
@[simp] theorem State.setQuire_acHist (s : State) (q : Nat) (r : QuireRec) : (s.setQuire q r).acHist = s.acHist := rfl
@[simp] theorem State.setQuire_cores (s : State) (q : Nat) (r : QuireRec) : (s.setQuire q r).cores = s.cores := rfl
@[simp] theorem State.setQuire_hostWin (s : State) (q : Nat) (r : QuireRec) : (s.setQuire q r).hostWin = s.hostWin := rfl
@[simp] theorem State.setQuire_hostAsked (s : State) (q : Nat) (r : QuireRec) : (s.setQuire q r).hostAsked = s.hostAsked := rfl
@[simp] theorem State.setQuire_imageRegs (s : State) (q : Nat) (r : QuireRec) : (s.setQuire q r).imageRegs = s.imageRegs := rfl
@[simp] theorem State.setQuire_arrays (s : State) (q : Nat) (r : QuireRec) : (s.setQuire q r).arrays = s.arrays := rfl
@[simp] theorem State.setQuire_eng (s : State) (q : Nat) (r : QuireRec) : (s.setQuire q r).eng = s.eng := rfl
@[simp] theorem State.setQuire_issues (s : State) (q : Nat) (r : QuireRec) : (s.setQuire q r).issues = s.issues := rfl
@[simp] theorem State.setQuire_tlb (s : State) (q : Nat) (r : QuireRec) : (s.setQuire q r).tlb = s.tlb := rfl
@[simp] theorem State.setQuire_inv (s : State) (q : Nat) (r : QuireRec) : (s.setQuire q r).inv = s.inv := rfl
@[simp] theorem State.setQuire_hs (s : State) (q : Nat) (r : QuireRec) : (s.setQuire q r).hs = s.hs := rfl
@[simp] theorem State.setQuire_pace (s : State) (q : Nat) (r : QuireRec) : (s.setQuire q r).pace = s.pace := rfl
@[simp] theorem State.setQuire_phase (s : State) (q : Nat) (r : QuireRec) : (s.setQuire q r).phase = s.phase := rfl
@[simp] theorem State.setQuire_occ (s : State) (q : Nat) (r : QuireRec) : (s.setQuire q r).occ = s.occ := rfl
@[simp] theorem State.setQuire_fab (s : State) (q : Nat) (r : QuireRec) : (s.setQuire q r).fab = s.fab := rfl
@[simp] theorem State.setQuire_power (s : State) (q : Nat) (r : QuireRec) : (s.setQuire q r).power = s.power := rfl
@[simp] theorem State.setQuire_pins (s : State) (q : Nat) (r : QuireRec) : (s.setQuire q r).pins = s.pins := rfl
@[simp] theorem State.setQuire_host (s : State) (q : Nat) (r : QuireRec) : (s.setQuire q r).host = s.host := rfl
@[simp] theorem State.setQuire_bind (s : State) (q : Nat) (r : QuireRec) : (s.setQuire q r).bind = s.bind := rfl
@[simp] theorem State.setCore_pending (s : State) (n : Nat) (k : CoreSt) : (s.setCore n k).pending = s.pending := rfl
@[simp] theorem State.setCore_now (s : State) (n : Nat) (k : CoreSt) : (s.setCore n k).now = s.now := rfl
@[simp] theorem State.setCore_drawn (s : State) (n : Nat) (k : CoreSt) : (s.setCore n k).drawn = s.drawn := rfl
@[simp] theorem State.setCore_readData (s : State) (n : Nat) (k : CoreSt) : (s.setCore n k).readData = s.readData := rfl
@[simp] theorem State.setCore_regs (s : State) (n : Nat) (k : CoreSt) : (s.setCore n k).regs = s.regs := rfl
@[simp] theorem State.setCore_faults (s : State) (n : Nat) (k : CoreSt) : (s.setCore n k).faults = s.faults := rfl
@[simp] theorem State.setCore_colo (s : State) (n : Nat) (k : CoreSt) : (s.setCore n k).colo = s.colo := rfl
@[simp] theorem State.setCore_span (s : State) (n : Nat) (k : CoreSt) : (s.setCore n k).span = s.span := rfl
@[simp] theorem State.setCore_mem (s : State) (n : Nat) (k : CoreSt) : (s.setCore n k).mem = s.mem := rfl
@[simp] theorem State.setCore_firn (s : State) (n : Nat) (k : CoreSt) : (s.setCore n k).firn = s.firn := rfl
@[simp] theorem State.setCore_sync (s : State) (n : Nat) (k : CoreSt) : (s.setCore n k).sync = s.sync := rfl
@[simp] theorem State.setCore_cxs (s : State) (n : Nat) (k : CoreSt) : (s.setCore n k).cxs = s.cxs := rfl
@[simp] theorem State.setCore_ac (s : State) (n : Nat) (k : CoreSt) : (s.setCore n k).ac = s.ac := rfl
@[simp] theorem State.setCore_acHist (s : State) (n : Nat) (k : CoreSt) : (s.setCore n k).acHist = s.acHist := rfl
@[simp] theorem State.setCore_hostWin (s : State) (n : Nat) (k : CoreSt) : (s.setCore n k).hostWin = s.hostWin := rfl
@[simp] theorem State.setCore_hostAsked (s : State) (n : Nat) (k : CoreSt) : (s.setCore n k).hostAsked = s.hostAsked := rfl
@[simp] theorem State.setCore_imageRegs (s : State) (n : Nat) (k : CoreSt) : (s.setCore n k).imageRegs = s.imageRegs := rfl
@[simp] theorem State.setCore_arrays (s : State) (n : Nat) (k : CoreSt) : (s.setCore n k).arrays = s.arrays := rfl
@[simp] theorem State.setCore_eng (s : State) (n : Nat) (k : CoreSt) : (s.setCore n k).eng = s.eng := rfl
@[simp] theorem State.setCore_issues (s : State) (n : Nat) (k : CoreSt) : (s.setCore n k).issues = s.issues := rfl
@[simp] theorem State.setCore_tlb (s : State) (n : Nat) (k : CoreSt) : (s.setCore n k).tlb = s.tlb := rfl
@[simp] theorem State.setCore_inv (s : State) (n : Nat) (k : CoreSt) : (s.setCore n k).inv = s.inv := rfl
@[simp] theorem State.setCore_hs (s : State) (n : Nat) (k : CoreSt) : (s.setCore n k).hs = s.hs := rfl
@[simp] theorem State.setCore_pace (s : State) (n : Nat) (k : CoreSt) : (s.setCore n k).pace = s.pace := rfl
@[simp] theorem State.setCore_phase (s : State) (n : Nat) (k : CoreSt) : (s.setCore n k).phase = s.phase := rfl
@[simp] theorem State.setCore_occ (s : State) (n : Nat) (k : CoreSt) : (s.setCore n k).occ = s.occ := rfl
@[simp] theorem State.setCore_fab (s : State) (n : Nat) (k : CoreSt) : (s.setCore n k).fab = s.fab := rfl
@[simp] theorem State.setCore_power (s : State) (n : Nat) (k : CoreSt) : (s.setCore n k).power = s.power := rfl
@[simp] theorem State.setCore_pins (s : State) (n : Nat) (k : CoreSt) : (s.setCore n k).pins = s.pins := rfl
@[simp] theorem State.setCore_host (s : State) (n : Nat) (k : CoreSt) : (s.setCore n k).host = s.host := rfl
@[simp] theorem State.setCore_bind (s : State) (n : Nat) (k : CoreSt) : (s.setCore n k).bind = s.bind := rfl
@[simp] theorem State.setHsSt_pending (s : State) (j : Nat) (x : StackSt) : (s.setHsSt j x).pending = s.pending := rfl
@[simp] theorem State.setHsSt_now (s : State) (j : Nat) (x : StackSt) : (s.setHsSt j x).now = s.now := rfl
@[simp] theorem State.setHsSt_drawn (s : State) (j : Nat) (x : StackSt) : (s.setHsSt j x).drawn = s.drawn := rfl
@[simp] theorem State.setHsSt_readData (s : State) (j : Nat) (x : StackSt) : (s.setHsSt j x).readData = s.readData := rfl
@[simp] theorem State.setHsSt_regs (s : State) (j : Nat) (x : StackSt) : (s.setHsSt j x).regs = s.regs := rfl
@[simp] theorem State.setHsSt_faults (s : State) (j : Nat) (x : StackSt) : (s.setHsSt j x).faults = s.faults := rfl
@[simp] theorem State.setHsSt_colo (s : State) (j : Nat) (x : StackSt) : (s.setHsSt j x).colo = s.colo := rfl
@[simp] theorem State.setHsSt_span (s : State) (j : Nat) (x : StackSt) : (s.setHsSt j x).span = s.span := rfl
@[simp] theorem State.setHsSt_mem (s : State) (j : Nat) (x : StackSt) : (s.setHsSt j x).mem = s.mem := rfl
@[simp] theorem State.setHsSt_firn (s : State) (j : Nat) (x : StackSt) : (s.setHsSt j x).firn = s.firn := rfl
@[simp] theorem State.setHsSt_sync (s : State) (j : Nat) (x : StackSt) : (s.setHsSt j x).sync = s.sync := rfl
@[simp] theorem State.setHsSt_cxs (s : State) (j : Nat) (x : StackSt) : (s.setHsSt j x).cxs = s.cxs := rfl
@[simp] theorem State.setHsSt_ac (s : State) (j : Nat) (x : StackSt) : (s.setHsSt j x).ac = s.ac := rfl
@[simp] theorem State.setHsSt_acHist (s : State) (j : Nat) (x : StackSt) : (s.setHsSt j x).acHist = s.acHist := rfl
@[simp] theorem State.setHsSt_cores (s : State) (j : Nat) (x : StackSt) : (s.setHsSt j x).cores = s.cores := rfl
@[simp] theorem State.setHsSt_hostWin (s : State) (j : Nat) (x : StackSt) : (s.setHsSt j x).hostWin = s.hostWin := rfl
@[simp] theorem State.setHsSt_hostAsked (s : State) (j : Nat) (x : StackSt) : (s.setHsSt j x).hostAsked = s.hostAsked := rfl
@[simp] theorem State.setHsSt_imageRegs (s : State) (j : Nat) (x : StackSt) : (s.setHsSt j x).imageRegs = s.imageRegs := rfl
@[simp] theorem State.setHsSt_arrays (s : State) (j : Nat) (x : StackSt) : (s.setHsSt j x).arrays = s.arrays := rfl
@[simp] theorem State.setHsSt_eng (s : State) (j : Nat) (x : StackSt) : (s.setHsSt j x).eng = s.eng := rfl
@[simp] theorem State.setHsSt_issues (s : State) (j : Nat) (x : StackSt) : (s.setHsSt j x).issues = s.issues := rfl
@[simp] theorem State.setHsSt_tlb (s : State) (j : Nat) (x : StackSt) : (s.setHsSt j x).tlb = s.tlb := rfl
@[simp] theorem State.setHsSt_inv (s : State) (j : Nat) (x : StackSt) : (s.setHsSt j x).inv = s.inv := rfl
@[simp] theorem State.setHsSt_pace (s : State) (j : Nat) (x : StackSt) : (s.setHsSt j x).pace = s.pace := rfl
@[simp] theorem State.setHsSt_phase (s : State) (j : Nat) (x : StackSt) : (s.setHsSt j x).phase = s.phase := rfl
@[simp] theorem State.setHsSt_occ (s : State) (j : Nat) (x : StackSt) : (s.setHsSt j x).occ = s.occ := rfl
@[simp] theorem State.setHsSt_fab (s : State) (j : Nat) (x : StackSt) : (s.setHsSt j x).fab = s.fab := rfl
@[simp] theorem State.setHsSt_power (s : State) (j : Nat) (x : StackSt) : (s.setHsSt j x).power = s.power := rfl
@[simp] theorem State.setHsSt_pins (s : State) (j : Nat) (x : StackSt) : (s.setHsSt j x).pins = s.pins := rfl
@[simp] theorem State.setHsSt_host (s : State) (j : Nat) (x : StackSt) : (s.setHsSt j x).host = s.host := rfl
@[simp] theorem State.setHsSt_bind (s : State) (j : Nat) (x : StackSt) : (s.setHsSt j x).bind = s.bind := rfl
@[simp] theorem State.setPort_pending (s : State) (n : Nat) (x : PortSt) : (s.setPort n x).pending = s.pending := rfl
@[simp] theorem State.setPort_now (s : State) (n : Nat) (x : PortSt) : (s.setPort n x).now = s.now := rfl
@[simp] theorem State.setPort_drawn (s : State) (n : Nat) (x : PortSt) : (s.setPort n x).drawn = s.drawn := rfl
@[simp] theorem State.setPort_readData (s : State) (n : Nat) (x : PortSt) : (s.setPort n x).readData = s.readData := rfl
@[simp] theorem State.setPort_regs (s : State) (n : Nat) (x : PortSt) : (s.setPort n x).regs = s.regs := rfl
@[simp] theorem State.setPort_faults (s : State) (n : Nat) (x : PortSt) : (s.setPort n x).faults = s.faults := rfl
@[simp] theorem State.setPort_colo (s : State) (n : Nat) (x : PortSt) : (s.setPort n x).colo = s.colo := rfl
@[simp] theorem State.setPort_span (s : State) (n : Nat) (x : PortSt) : (s.setPort n x).span = s.span := rfl
@[simp] theorem State.setPort_mem (s : State) (n : Nat) (x : PortSt) : (s.setPort n x).mem = s.mem := rfl
@[simp] theorem State.setPort_firn (s : State) (n : Nat) (x : PortSt) : (s.setPort n x).firn = s.firn := rfl
@[simp] theorem State.setPort_sync (s : State) (n : Nat) (x : PortSt) : (s.setPort n x).sync = s.sync := rfl
@[simp] theorem State.setPort_cxs (s : State) (n : Nat) (x : PortSt) : (s.setPort n x).cxs = s.cxs := rfl
@[simp] theorem State.setPort_ac (s : State) (n : Nat) (x : PortSt) : (s.setPort n x).ac = s.ac := rfl
@[simp] theorem State.setPort_acHist (s : State) (n : Nat) (x : PortSt) : (s.setPort n x).acHist = s.acHist := rfl
@[simp] theorem State.setPort_cores (s : State) (n : Nat) (x : PortSt) : (s.setPort n x).cores = s.cores := rfl
@[simp] theorem State.setPort_hostWin (s : State) (n : Nat) (x : PortSt) : (s.setPort n x).hostWin = s.hostWin := rfl
@[simp] theorem State.setPort_hostAsked (s : State) (n : Nat) (x : PortSt) : (s.setPort n x).hostAsked = s.hostAsked := rfl
@[simp] theorem State.setPort_imageRegs (s : State) (n : Nat) (x : PortSt) : (s.setPort n x).imageRegs = s.imageRegs := rfl
@[simp] theorem State.setPort_arrays (s : State) (n : Nat) (x : PortSt) : (s.setPort n x).arrays = s.arrays := rfl
@[simp] theorem State.setPort_eng (s : State) (n : Nat) (x : PortSt) : (s.setPort n x).eng = s.eng := rfl
@[simp] theorem State.setPort_issues (s : State) (n : Nat) (x : PortSt) : (s.setPort n x).issues = s.issues := rfl
@[simp] theorem State.setPort_tlb (s : State) (n : Nat) (x : PortSt) : (s.setPort n x).tlb = s.tlb := rfl
@[simp] theorem State.setPort_inv (s : State) (n : Nat) (x : PortSt) : (s.setPort n x).inv = s.inv := rfl
@[simp] theorem State.setPort_hs (s : State) (n : Nat) (x : PortSt) : (s.setPort n x).hs = s.hs := rfl
@[simp] theorem State.setPort_pace (s : State) (n : Nat) (x : PortSt) : (s.setPort n x).pace = s.pace := rfl
@[simp] theorem State.setPort_phase (s : State) (n : Nat) (x : PortSt) : (s.setPort n x).phase = s.phase := rfl
@[simp] theorem State.setPort_occ (s : State) (n : Nat) (x : PortSt) : (s.setPort n x).occ = s.occ := rfl
@[simp] theorem State.setPort_power (s : State) (n : Nat) (x : PortSt) : (s.setPort n x).power = s.power := rfl
@[simp] theorem State.setPort_pins (s : State) (n : Nat) (x : PortSt) : (s.setPort n x).pins = s.pins := rfl
@[simp] theorem State.setPort_host (s : State) (n : Nat) (x : PortSt) : (s.setPort n x).host = s.host := rfl
@[simp] theorem State.setPort_bind (s : State) (n : Nat) (x : PortSt) : (s.setPort n x).bind = s.bind := rfl
@[simp] theorem State.setPace_pending (s : State) (n : Nat) (x : PaceSt) : (s.setPace n x).pending = s.pending := rfl
@[simp] theorem State.setPace_now (s : State) (n : Nat) (x : PaceSt) : (s.setPace n x).now = s.now := rfl
@[simp] theorem State.setPace_drawn (s : State) (n : Nat) (x : PaceSt) : (s.setPace n x).drawn = s.drawn := rfl
@[simp] theorem State.setPace_readData (s : State) (n : Nat) (x : PaceSt) : (s.setPace n x).readData = s.readData := rfl
@[simp] theorem State.setPace_regs (s : State) (n : Nat) (x : PaceSt) : (s.setPace n x).regs = s.regs := rfl
@[simp] theorem State.setPace_faults (s : State) (n : Nat) (x : PaceSt) : (s.setPace n x).faults = s.faults := rfl
@[simp] theorem State.setPace_colo (s : State) (n : Nat) (x : PaceSt) : (s.setPace n x).colo = s.colo := rfl
@[simp] theorem State.setPace_span (s : State) (n : Nat) (x : PaceSt) : (s.setPace n x).span = s.span := rfl
@[simp] theorem State.setPace_mem (s : State) (n : Nat) (x : PaceSt) : (s.setPace n x).mem = s.mem := rfl
@[simp] theorem State.setPace_firn (s : State) (n : Nat) (x : PaceSt) : (s.setPace n x).firn = s.firn := rfl
@[simp] theorem State.setPace_sync (s : State) (n : Nat) (x : PaceSt) : (s.setPace n x).sync = s.sync := rfl
@[simp] theorem State.setPace_cxs (s : State) (n : Nat) (x : PaceSt) : (s.setPace n x).cxs = s.cxs := rfl
@[simp] theorem State.setPace_ac (s : State) (n : Nat) (x : PaceSt) : (s.setPace n x).ac = s.ac := rfl
@[simp] theorem State.setPace_acHist (s : State) (n : Nat) (x : PaceSt) : (s.setPace n x).acHist = s.acHist := rfl
@[simp] theorem State.setPace_cores (s : State) (n : Nat) (x : PaceSt) : (s.setPace n x).cores = s.cores := rfl
@[simp] theorem State.setPace_hostWin (s : State) (n : Nat) (x : PaceSt) : (s.setPace n x).hostWin = s.hostWin := rfl
@[simp] theorem State.setPace_hostAsked (s : State) (n : Nat) (x : PaceSt) : (s.setPace n x).hostAsked = s.hostAsked := rfl
@[simp] theorem State.setPace_imageRegs (s : State) (n : Nat) (x : PaceSt) : (s.setPace n x).imageRegs = s.imageRegs := rfl
@[simp] theorem State.setPace_arrays (s : State) (n : Nat) (x : PaceSt) : (s.setPace n x).arrays = s.arrays := rfl
@[simp] theorem State.setPace_eng (s : State) (n : Nat) (x : PaceSt) : (s.setPace n x).eng = s.eng := rfl
@[simp] theorem State.setPace_issues (s : State) (n : Nat) (x : PaceSt) : (s.setPace n x).issues = s.issues := rfl
@[simp] theorem State.setPace_tlb (s : State) (n : Nat) (x : PaceSt) : (s.setPace n x).tlb = s.tlb := rfl
@[simp] theorem State.setPace_inv (s : State) (n : Nat) (x : PaceSt) : (s.setPace n x).inv = s.inv := rfl
@[simp] theorem State.setPace_hs (s : State) (n : Nat) (x : PaceSt) : (s.setPace n x).hs = s.hs := rfl
@[simp] theorem State.setPace_phase (s : State) (n : Nat) (x : PaceSt) : (s.setPace n x).phase = s.phase := rfl
@[simp] theorem State.setPace_occ (s : State) (n : Nat) (x : PaceSt) : (s.setPace n x).occ = s.occ := rfl
@[simp] theorem State.setPace_fab (s : State) (n : Nat) (x : PaceSt) : (s.setPace n x).fab = s.fab := rfl
@[simp] theorem State.setPace_power (s : State) (n : Nat) (x : PaceSt) : (s.setPace n x).power = s.power := rfl
@[simp] theorem State.setPace_pins (s : State) (n : Nat) (x : PaceSt) : (s.setPace n x).pins = s.pins := rfl
@[simp] theorem State.setPace_host (s : State) (n : Nat) (x : PaceSt) : (s.setPace n x).host = s.host := rfl
@[simp] theorem State.setPace_bind (s : State) (n : Nat) (x : PaceSt) : (s.setPace n x).bind = s.bind := rfl
@[simp] theorem State.mboxDone_pending (s : State) (c : MboxCode) (o : MboxOut) : (s.mboxDone c o).pending = s.pending := rfl
@[simp] theorem State.mboxDone_now (s : State) (c : MboxCode) (o : MboxOut) : (s.mboxDone c o).now = s.now := rfl
@[simp] theorem State.mboxDone_drawn (s : State) (c : MboxCode) (o : MboxOut) : (s.mboxDone c o).drawn = s.drawn := rfl
@[simp] theorem State.mboxDone_readData (s : State) (c : MboxCode) (o : MboxOut) : (s.mboxDone c o).readData = s.readData := rfl
@[simp] theorem State.mboxDone_regs (s : State) (c : MboxCode) (o : MboxOut) : (s.mboxDone c o).regs = s.regs := rfl
@[simp] theorem State.mboxDone_faults (s : State) (c : MboxCode) (o : MboxOut) : (s.mboxDone c o).faults = s.faults := rfl
@[simp] theorem State.mboxDone_colo (s : State) (c : MboxCode) (o : MboxOut) : (s.mboxDone c o).colo = s.colo := rfl
@[simp] theorem State.mboxDone_span (s : State) (c : MboxCode) (o : MboxOut) : (s.mboxDone c o).span = s.span := rfl
@[simp] theorem State.mboxDone_mem (s : State) (c : MboxCode) (o : MboxOut) : (s.mboxDone c o).mem = s.mem := rfl
@[simp] theorem State.mboxDone_firn (s : State) (c : MboxCode) (o : MboxOut) : (s.mboxDone c o).firn = s.firn := rfl
@[simp] theorem State.mboxDone_sync (s : State) (c : MboxCode) (o : MboxOut) : (s.mboxDone c o).sync = s.sync := rfl
@[simp] theorem State.mboxDone_cxs (s : State) (c : MboxCode) (o : MboxOut) : (s.mboxDone c o).cxs = s.cxs := rfl
@[simp] theorem State.mboxDone_ac (s : State) (c : MboxCode) (o : MboxOut) : (s.mboxDone c o).ac = s.ac := rfl
@[simp] theorem State.mboxDone_acHist (s : State) (c : MboxCode) (o : MboxOut) : (s.mboxDone c o).acHist = s.acHist := rfl
@[simp] theorem State.mboxDone_cores (s : State) (c : MboxCode) (o : MboxOut) : (s.mboxDone c o).cores = s.cores := rfl
@[simp] theorem State.mboxDone_hostWin (s : State) (c : MboxCode) (o : MboxOut) : (s.mboxDone c o).hostWin = s.hostWin := rfl
@[simp] theorem State.mboxDone_hostAsked (s : State) (c : MboxCode) (o : MboxOut) : (s.mboxDone c o).hostAsked = s.hostAsked := rfl
@[simp] theorem State.mboxDone_imageRegs (s : State) (c : MboxCode) (o : MboxOut) : (s.mboxDone c o).imageRegs = s.imageRegs := rfl
@[simp] theorem State.mboxDone_arrays (s : State) (c : MboxCode) (o : MboxOut) : (s.mboxDone c o).arrays = s.arrays := rfl
@[simp] theorem State.mboxDone_eng (s : State) (c : MboxCode) (o : MboxOut) : (s.mboxDone c o).eng = s.eng := rfl
@[simp] theorem State.mboxDone_issues (s : State) (c : MboxCode) (o : MboxOut) : (s.mboxDone c o).issues = s.issues := rfl
@[simp] theorem State.mboxDone_tlb (s : State) (c : MboxCode) (o : MboxOut) : (s.mboxDone c o).tlb = s.tlb := rfl
@[simp] theorem State.mboxDone_inv (s : State) (c : MboxCode) (o : MboxOut) : (s.mboxDone c o).inv = s.inv := rfl
@[simp] theorem State.mboxDone_hs (s : State) (c : MboxCode) (o : MboxOut) : (s.mboxDone c o).hs = s.hs := rfl
@[simp] theorem State.mboxDone_pace (s : State) (c : MboxCode) (o : MboxOut) : (s.mboxDone c o).pace = s.pace := rfl
@[simp] theorem State.mboxDone_phase (s : State) (c : MboxCode) (o : MboxOut) : (s.mboxDone c o).phase = s.phase := rfl
@[simp] theorem State.mboxDone_occ (s : State) (c : MboxCode) (o : MboxOut) : (s.mboxDone c o).occ = s.occ := rfl
@[simp] theorem State.mboxDone_fab (s : State) (c : MboxCode) (o : MboxOut) : (s.mboxDone c o).fab = s.fab := rfl
@[simp] theorem State.mboxDone_power (s : State) (c : MboxCode) (o : MboxOut) : (s.mboxDone c o).power = s.power := rfl
@[simp] theorem State.mboxDone_pins (s : State) (c : MboxCode) (o : MboxOut) : (s.mboxDone c o).pins = s.pins := rfl
@[simp] theorem State.mboxDone_bind (s : State) (c : MboxCode) (o : MboxOut) : (s.mboxDone c o).bind = s.bind := rfl

end Sys2Proof.Machine
end

