-- ==== Sys2Proof/Laws/Rows.lean ====
section
/-!
SUPPORT. What every row's meaning shares: its effect while the part runs, a register write by a source with the right, and how to show
that a command answers a next state.
-/

namespace Sys2Proof.Machine

theorem State.whileOn_on {s : State} (t : State) (h : s.On) : s.whileOn t = .next t := by
  have h' : s.off = false := h
  simp [State.whileOn, h']

theorem State.whileOn_off {s : State} (t : State) (h : s.off = true) : s.whileOn t = .next s := by
  simp [State.whileOn, h]

theorem State.onWrite_of {s : State} {w : RegW} {o : Nat} {v : Word} (act : Word → State → State) (h : s.Writes w o v) :
    s.onWrite w o act = act v s := by
  simp [State.onWrite, h.1, h.2]

theorem State.whileOn_write {s : State} {w : RegW} {o : Nat} {v : Word} (act : Word → State → State) (hon : s.On) (h : s.Writes w o v) :
    s.whileOn (s.onWrite w o act) = .next (act v s) := by
  rw [State.whileOn_on _ hon, State.onWrite_of act h]

theorem Answers.of {i : Instr} {s t : State} {P : State → Prop} (h : exec i s = .next t) (hp : P t) : Answers i s P := ⟨t, h, hp⟩

@[simp] theorem State.atTime_self (s : State) : s.atTime s.now = s := by
  simp [State.atTime]

theorem State.on_atTime {s : State} (t : Nat) (h : s.On) : (s.atTime t).On := h

@[simp] theorem State.reg_atTime (s : State) (t o : Nat) : (s.atTime t).reg o = s.reg o := rfl

@[simp] theorem State.fld_atTime (s : State) (t o : Nat) (f : Fld) : (s.atTime t).fld o f = s.fld o f := rfl

@[simp] theorem State.reg_raise (s : State) (r : FaultRec) (o : Nat) : (s.raise r).reg o = s.reg o := rfl

@[simp] theorem State.fld_raise (s : State) (r : FaultRec) (o : Nat) (f : Fld) : (s.raise r).fld o f = s.fld o f := rfl

@[simp] theorem State.lastRaised_raise (s : State) (r : FaultRec) :
    (s.raise r).lastRaised = some { r with stamp := s.spanNow, raisedAt := s.now } := by
  simp [State.lastRaised, State.raise]

theorem RegsBut.refl (l : List Nat) (s : State) : RegsBut l s s := fun _ _ => rfl

theorem RegsBut.of_regs_eq (l : List Nat) {s t : State} (h : t.regs = s.regs) : RegsBut l s t := fun o _ => by
  simp [State.reg, h]

theorem RegsBut.setReg {l : List Nat} {s t : State} {o : Nat} (w : Word) (h : RegsBut l s t) (ho : o ∈ l) : RegsBut l s (t.setReg o w) :=
  fun i hi => by
    have hne : i ≠ o := fun e => hi (e ▸ ho)
    rw [State.reg_setReg_of_ne t w hne, h i hi]

theorem RegsBut.setFld {l : List Nat} {s t : State} {o : Nat} (f : Fld) (v : Nat) (h : RegsBut l s t) (ho : o ∈ l) :
    RegsBut l s (t.setFld o f v) := RegsBut.setReg _ h ho

theorem RegsBut.raise {l : List Nat} {s t : State} (r : FaultRec) (h : RegsBut l s t) : RegsBut l s (t.raise r) := fun i hi => h i hi

theorem RegsBut.mono {l m : List Nat} {s t : State} (h : RegsBut l s t) (hm : ∀ o ∈ l, o ∈ m) : RegsBut m s t :=
  fun i hi => h i (fun hl => hi (hm i hl))

end Sys2Proof.Machine
end

section
/-!
Registers and the MMIO region (00_scope.md, O6 and O7), and the loss of REFCLK (O60).
-/

namespace Sys2Proof

/-! ## Bits of a word -/

theorem Word.bit_and (a b : Word) (i : Nat) : Word.bit (a &&& b) i = (a.bit i && b.bit i) := BitVec.getLsbD_and

theorem Word.bit_or (a b : Word) (i : Nat) : Word.bit (a ||| b) i = (a.bit i || b.bit i) := BitVec.getLsbD_or

/-- Clearing the bits of `b` in `a`. -/
theorem Word.bit_and_not (a b : Word) (i : Nat) : Word.bit (a &&& ~~~b) i = (a.bit i && !b.bit i) := by
  change BitVec.getLsbD _ i = (BitVec.getLsbD a i && !BitVec.getLsbD b i)
  rw [BitVec.getLsbD_and, BitVec.getLsbD_not]
  by_cases h : i < 64
  · simp [h]
  · simp [BitVec.getLsbD_of_ge a i (by omega)]

/-- Words that agree on the bits of a field agree on the field. -/
theorem Word.get_eq_of_bit {a b : Word} {hi lo : Nat} (h : ∀ i, lo ≤ i → i ≤ hi → a.bit i = b.bit i) : a.get hi lo = b.get hi lo :=
  bitsOf_eq_of_testBit h

end Sys2Proof

namespace Sys2Proof.Machine

/-! ## A write by the field types (R6) -/

/-- Is bit `i` one of the field's? -/
def Fld.has (f : Fld) (i : Nat) : Bool := decide (f.lo ≤ i) && decide (i ≤ f.hi)

/-- A mask has the bits of its field. -/
theorem Fld.bit_mask (f : Fld) (i : Nat) (hf : f.hi < 64) : (Word.mask f.hi f.lo).bit i = f.has i :=
  Word.testBit_mask f.hi f.lo i hf

theorem Fld.has_of_le {f : Fld} {i : Nat} (hl : f.lo ≤ i) (hh : i ≤ f.hi) : f.has i = true := by
  simp [Fld.has, hl, hh]

/-- A bit of a field is none of a field apart from it. -/
theorem Fld.has_eq_false_of_apart {f g : Fld} {i : Nat} (hi : f.has i = true) (h : f.hi < g.lo ∨ g.hi < f.lo) : g.has i = false := by
  simp only [Fld.has, Bool.and_eq_true, Bool.and_eq_false_iff, decide_eq_true_eq, decide_eq_false_iff_not] at hi ⊢
  omega

/-- What a write of the bit `v` makes of a bit of the field that holds `old` (R6). -/
def Fld.writeBit (f : Fld) (old v : Bool) : Bool :=
  match f.ty with
  | .rw => v
  | .w1c => old && !v
  | .w1s => old || v
  | .ro | .wo => old

/-- The fields of a register lie in its word and share no bit. -/
def FieldsApart (fs : List Fld) : Prop := (∀ f ∈ fs, f.hi < 64) ∧ fs.Pairwise fun f g => f.hi < g.lo ∨ g.hi < f.lo

theorem Fld.bit_write (f : Fld) (old v : Word) (i : Nat) (hf : f.hi < 64) :
    (f.write old v).bit i = if f.has i then f.writeBit (old.bit i) (v.bit i) else old.bit i := by
  have hm := f.bit_mask i hf
  unfold Fld.write Fld.writeBit
  cases f.ty with
  | rw => cases h : f.has i <;> rw [Word.bit_or, Word.bit_and_not, Word.bit_and, hm, h] <;> simp
  | w1c => cases h : f.has i <;> rw [Word.bit_and_not, Word.bit_and, hm, h] <;> simp
  | w1s => cases h : f.has i <;> rw [Word.bit_or, Word.bit_and, hm, h] <;> simp
  | ro => simp
  | wo => simp

/-- A bit of no field stays. -/
theorem bit_writeFields_of_outside {fs : List Fld} (h64 : ∀ f ∈ fs, f.hi < 64) (old v : Word) {i : Nat} (hi : ∀ f ∈ fs, f.has i = false) :
    (writeFields fs old v).bit i = old.bit i := by
  induction fs generalizing old with
  | nil => rfl
  | cons g fs ih =>
    rw [List.forall_mem_cons] at h64 hi
    calc (writeFields fs (g.write old v) v).bit i
      _ = (g.write old v).bit i := ih h64.2 _ hi.2
      _ = old.bit i := by simp [g.bit_write old v i h64.1, hi.1]

/-- A bit of a field becomes what the field's type makes of it, whatever the other fields are. -/
theorem bit_writeFields_of_mem {fs : List Fld} (ha : FieldsApart fs) (old v : Word) {f : Fld} (hf : f ∈ fs) {i : Nat} (hi : f.has i = true) :
    (writeFields fs old v).bit i = f.writeBit (old.bit i) (v.bit i) := by
  obtain ⟨h64, hapart⟩ := ha
  induction fs generalizing old with
  | nil => cases hf
  | cons g fs ih =>
    rw [List.forall_mem_cons] at h64
    rw [List.pairwise_cons] at hapart
    rcases List.mem_cons.mp hf with rfl | hfs
    · calc (writeFields fs (f.write old v) v).bit i
        _ = (f.write old v).bit i := bit_writeFields_of_outside h64.2 _ v fun y hy => Fld.has_eq_false_of_apart hi (hapart.1 y hy)
        _ = f.writeBit (old.bit i) (v.bit i) := by simp [f.bit_write old v i h64.1, hi]
    · have hg : g.has i = false := Fld.has_eq_false_of_apart hi (hapart.1 f hfs).symm
      calc (writeFields fs (g.write old v) v).bit i
        _ = f.writeBit ((g.write old v).bit i) (v.bit i) := ih _ hfs h64.2 hapart.2
        _ = f.writeBit (old.bit i) (v.bit i) := by simp [g.bit_write old v i h64.1, hg]

section
variable {fs : List Fld} (ha : FieldsApart fs) (old v : Word) {f : Fld} (hf : f ∈ fs)
include ha hf

theorem get_writeFields_of_rw (hty : f.ty = .rw) : (writeFields fs old v).get f.hi f.lo = v.get f.hi f.lo :=
  Word.get_eq_of_bit fun i hl hh => by
    simp [bit_writeFields_of_mem ha old v hf (Fld.has_of_le hl hh), Fld.writeBit, hty]

theorem get_writeFields_of_ro (hty : f.ty = .ro) : (writeFields fs old v).get f.hi f.lo = old.get f.hi f.lo :=
  Word.get_eq_of_bit fun i hl hh => by
    simp [bit_writeFields_of_mem ha old v hf (Fld.has_of_le hl hh), Fld.writeBit, hty]

theorem bit_writeFields_of_w1c (hty : f.ty = .w1c) {i : Nat} (hl : f.lo ≤ i) (hh : i ≤ f.hi) :
    (writeFields fs old v).bit i = (old.bit i && !v.bit i) := by
  simp [bit_writeFields_of_mem ha old v hf (Fld.has_of_le hl hh), Fld.writeBit, hty]

end

theorem State.reg_plainWrite (s : State) (o : Nat) (v : Word) :
    (s.plainWrite o v).reg o = writeFields ((regFields o).getD []) (s.reg o) v := by
  simp [State.plainWrite]

/-! ## A write that keeps a field -/

theorem State.reg_plainWriteBut (s : State) (o : Nat) (v : Word) (f : Fld) :
    (s.plainWriteBut o v [f]).reg o =
      ((writeFields ((regFields o).getD []) (s.reg o) v &&& ~~~(Word.mask f.hi f.lo)) ||| (s.reg o &&& Word.mask f.hi f.lo)) := by
  simp [State.plainWriteBut]

/-- The field that is kept reads as before. -/
theorem State.fld_plainWriteBut_kept (s : State) (o : Nat) (v : Word) (f : Fld) (hf : f.hi < 64) :
    (s.plainWriteBut o v [f]).fld o f = s.fld o f :=
  Word.get_eq_of_bit fun i hl hh => by
    rw [State.reg_plainWriteBut, Word.bit_or, Word.bit_and_not, Word.bit_and, f.bit_mask i hf, Fld.has_of_le hl hh]
    simp

/-- A field apart from the one kept is written by its type. -/
theorem State.fld_plainWriteBut_other (s : State) (o : Nat) (v : Word) (f g : Fld) (hf : f.hi < 64) (h : g.hi < f.lo ∨ f.hi < g.lo) :
    (s.plainWriteBut o v [f]).fld o g = (s.plainWrite o v).fld o g :=
  Word.get_eq_of_bit fun i hl hh => by
    have hout : f.has i = false := Fld.has_eq_false_of_apart (Fld.has_of_le hl hh) h
    rw [State.reg_plainWriteBut, State.reg_plainWrite, Word.bit_or, Word.bit_and_not, Word.bit_and, f.bit_mask i hf, hout]
    simp

/-! ## Registers with no row of their own -/

/-- The single HUB registers with a row of their own. -/
def hubRowRegs : List Nat :=
  [R.SPAN_CFG, R.SPAN_LEN, R.SPAN_CTL, R.FIRN_CTL, R.FIRN_DDR, R.FQ_POP, R.CNT_SNAP_CTL, R.PWR_LIMIT, R.LS_BAND, R.PWR_CTL,
    R.PWR_REST_CTL, R.XL_INV_CTL, R.FAB_CFG, R.FAB_CTL, R.HL_WIN, R.BIND_CTL, R.SVC_CTL, R.COLO_CTL]

/-- The runs of HUB registers with a row of their own: base, stride and count. -/
def hubRowRuns : List (Nat × Nat × Nat) :=
  [(R.FIRN_EPOCH 0, 8, 256), (R.HUB_CD_CTL 0, 0x20, 4), (R.FAB_EXPORT 0, 8, 4096), (R.HS_CTL 0, 0x100, 20), (R.HS_META_ADDR 0, 0x100, 20),
    (R.C_CTL 0, 0x1000, 96)]

/-- Does a run of registers hold the offset? -/
def inRun (o : Nat) (p : Nat × Nat × Nat) : Bool :=
  decide (p.1 ≤ o) && decide ((o - p.1) % p.2.1 = 0) && decide ((o - p.1) / p.2.1 < p.2.2)

/-- The offset is of a HUB register that has no row of its own. -/
def PlainHub (o : Nat) : Prop :=
  o < 0x1000000 ∧ o % 8 = 0 ∧ (regFields o).isSome ∧ (∀ b ∈ hubRowRegs, o ≠ b) ∧ ∀ p ∈ hubRowRuns, inRun o p = false

theorem State.hubRow_eq_none (s : State) (w : RegW) {o : Nat} (h : PlainHub o) : s.hubRow w o = none := by
  obtain ⟨-, -, -, hregs, hruns⟩ := h
  simp only [hubRowRegs, List.forall_mem_cons, ne_eq] at hregs
  simp only [hubRowRuns, List.forall_mem_cons, inRun] at hruns
  simp only [State.hubRow, hregs, hruns, Bool.false_eq_true, if_false]

/-- No register of a die's scratchpad block (R283) has a row of its own. -/
theorem State.dieRow_eq_none (s : State) (w : RegW) {o : Nat} (h : o % 0x1000000 / 0x10000 = 4) : s.dieRow w o = none := by
  have hcx : ¬ o % 0x1000000 / 0x10000 = 0 := by omega
  have hma (d : Die) (u : Fin 8) : ¬ o = R.MA_CTL d u := by unfold R.MA_CTL R.dieBase; omega
  have hve (d : Die) (u : Fin 8) : ¬ o = R.VE_CTL d u := by unfold R.VE_CTL R.dieBase; omega
  have hdm (d : Die) (e : Fin 16) : ¬ o = R.DM_CTL d e := by unfold R.DM_CTL R.dieBase; omega
  have hcfg (d : Die) : ¬ o = R.RC_CFG d := by unfold R.RC_CFG R.dieBase; omega
  have hctl (d : Die) : ¬ o = R.RC_CTL d := by unfold R.RC_CTL R.dieBase; omega
  simp only [State.dieRow, hcx, hma, hve, hdm, hcfg, hctl, if_false]

theorem exec_regWrite_of_rowless {s : State} {w : RegW} {o : Nat} {v : Word} (hon : s.On) (hw : s.Writes w o v) (ho : o % 8 = 0)
    (hf : (regFields o).isSome) (hrow : (if o < 0x1000000 then s.hubRow w o else s.dieRow w o) = none) :
    exec (.regWrite w o) s = .next (s.plainAct o v) := by
  change s.whileOn (regWrite w o s) = _
  rw [State.whileOn_on _ hon]
  simp only [regWrite, ho, hf, State.writeReg, hrow, State.onWrite_of _ hw, true_and, if_true]

theorem exec_regWrite_of_plainHub {s : State} {w : RegW} {o : Nat} {v : Word} (hon : s.On) (hw : s.Writes w o v) (h : PlainHub o) :
    exec (.regWrite w o) s = .next (s.plainAct o v) := by
  have hrow := s.hubRow_eq_none w h
  obtain ⟨hhub, halign, hfields, -, -⟩ := h
  exact exec_regWrite_of_rowless hon hw halign hfields (by rw [if_pos hhub, hrow])

/-! ## Writes by the field types (O6) -/

/-- The registers O6 names: none has a row or a check of its own. -/
def plainRegs : List Nat :=
  [R.SPAN_LIMITS, R.SPAN_LATE, R.SPAN_LATE_MAX, R.FIRN_CFG, R.FIRN_STATUS, R.PWR_CFG, R.HL_CFG, R.XL_INV_VA, R.XL_INV_STATUS,
    R.SYNC_STATUS, R.BIND_SRC, R.BIND_LEN, R.COLO_WALL]

theorem plainHub_of_plainRegs : ∀ o ∈ plainRegs, PlainHub o := by
  unfold PlainHub
  decide

theorem fieldsApart_of_plainRegs : ∀ o ∈ plainRegs, FieldsApart ((regFields o).getD []) := by
  unfold FieldsApart
  decide

theorem plainAct_of_plainRegs (s : State) (v : Word) {o : Nat} (ho : o ∈ plainRegs) : s.plainAct o v = s.plainWrite o v := by
  revert o
  simp only [plainRegs, List.forall_mem_cons]
  exact ⟨rfl, rfl, rfl, rfl, rfl, rfl, rfl, rfl, rfl, rfl, rfl, rfl, rfl, by simp⟩

theorem plainHub_FQ_CFG : PlainHub R.FQ_CFG := by unfold PlainHub; decide
theorem plainHub_COLO_HIST_SEL : PlainHub R.COLO_HIST_SEL := by unfold PlainHub; decide
theorem plainHub_SYNC_RANGE : ∀ n : Fin 16, PlainHub (R.SYNC_RANGE n) := by unfold PlainHub; decide
theorem regFields_SCR_WIN : ∀ (d : Die) (n : Fin 16), (regFields (R.SCR_WIN d n)).isSome := by decide

theorem fieldsApart_FQ_CFG : FieldsApart ((regFields R.FQ_CFG).getD []) := by unfold FieldsApart; decide

/-- A register of O6's list after its write: every field by its type, nothing else changed (R6). -/
theorem plainWrite_by_types (s : State) (v : Word) {o : Nat} (ha : FieldsApart ((regFields o).getD [])) :
    let t := s.plainWrite o v
    t.reg o = writeFields ((regFields o).getD []) (s.reg o) v ∧
      (∀ f ∈ (regFields o).getD [], (f.ty = .rw → t.fld o f = v.get f.hi f.lo) ∧ (f.ty = .ro → t.fld o f = s.fld o f) ∧
        (f.ty = .w1c → ∀ i, f.lo ≤ i → i ≤ f.hi → (t.reg o).bit i = ((s.reg o).bit i && !v.bit i))) ∧
      t = { s with regs := t.regs } ∧ RegsBut [o] s t := by
  intro t
  have hreg : t.reg o = writeFields ((regFields o).getD []) (s.reg o) v := s.reg_plainWrite o v
  refine ⟨hreg, fun f hf => ⟨fun hty => ?_, fun hty => ?_, fun hty i hl hh => ?_⟩, rfl, (RegsBut.refl [o] s).setReg _ (by simp)⟩
  · rw [State.fld, hreg, get_writeFields_of_rw ha _ v hf hty]
  · rw [State.fld, hreg, get_writeFields_of_ro ha _ v hf hty, State.fld]
  · rw [hreg, bit_writeFields_of_w1c ha _ v hf hty hl hh]

/-- A quire range that reaches past the last quire is refused (R394). -/
theorem plainAct_SYNC_RANGE (s : State) (v : Word) (n : Fin 16) (hv : 16384 < v.get 13 0 + v.get 29 15) :
    s.plainAct (R.SYNC_RANGE n) v = s := by
  have hfq : R.SYNC_RANGE n ≠ R.FQ_CFG := by unfold R.SYNC_RANGE R.FQ_CFG; omega
  have hcolo : R.SYNC_RANGE n ≠ R.COLO_HIST_SEL := by unfold R.SYNC_RANGE R.COLO_HIST_SEL; omega
  have hin : R.SYNC_RANGE 0 ≤ R.SYNC_RANGE n ∧ R.SYNC_RANGE n < R.SYNC_RANGE 16 := by unfold R.SYNC_RANGE; omega
  rw [State.plainAct, if_neg hfq, if_neg hcolo, if_pos hin, if_pos hv]

theorem SCR_WIN_eq (d : Die) (n : Fin 16) : R.SCR_WIN d n = 0x1000000 * (d.val + 1) + (0x40040 + 8 * n.val) := by
  unfold R.SCR_WIN R.dieBase
  omega

/-- A window that reaches past the scratchpad is refused (R198). -/
theorem plainAct_SCR_WIN (s : State) (v : Word) (d : Die) (n : Fin 16) (hv : 256 < v.get 8 0 + v.get 24 16) :
    s.plainAct (R.SCR_WIN d n) v = s := by
  have ho := SCR_WIN_eq d n
  have hfq : R.SCR_WIN d n ≠ R.FQ_CFG := by unfold R.FQ_CFG; omega
  have hcolo : R.SCR_WIN d n ≠ R.COLO_HIST_SEL := by unfold R.COLO_HIST_SEL; omega
  have hsync : ¬ (R.SYNC_RANGE 0 ≤ R.SCR_WIN d n ∧ R.SCR_WIN d n < R.SYNC_RANGE 16) := by unfold R.SYNC_RANGE; omega
  have hdpa : ¬ (R.HL_HDM_DPA 0 ≤ R.SCR_WIN d n ∧ R.SCR_WIN d n < R.HL_HDM_DPA 4) := by unfold R.HL_HDM_DPA; omega
  have hcore : ¬ (0x100000 ≤ R.SCR_WIN d n ∧ R.SCR_WIN d n < 0x160000) := by omega
  have hdie : 0x1000000 ≤ R.SCR_WIN d n := by omega
  have hd : R.SCR_WIN d n / 0x1000000 - 1 = d.val := by omega
  have hin : R.SCR_WIN d 0 ≤ R.SCR_WIN d n ∧ R.SCR_WIN d n < R.SCR_WIN d 16 := by unfold R.SCR_WIN; omega
  simp only [State.plainAct, hd]
  rw [if_neg hfq, if_neg hcolo, if_neg hsync, if_neg hdpa, if_neg hcore, if_pos hdie, if_pos hin, if_pos hv]

theorem exec_regWrite_SCR_WIN {s : State} {w : RegW} {v : Word} (d : Die) (n : Fin 16) (hon : s.On) (hw : s.Writes w (R.SCR_WIN d n) v) :
    exec (.regWrite w (R.SCR_WIN d n)) s = .next (s.plainAct (R.SCR_WIN d n) v) := by
  have ho := SCR_WIN_eq d n
  refine exec_regWrite_of_rowless hon hw (by omega) (regFields_SCR_WIN d n) ?_
  rw [if_neg (by omega), s.dieRow_eq_none w (by omega)]

theorem plainAct_FQ_CFG (s : State) (v : Word) (hv : 95 < v.get 7 1) :
    s.plainAct R.FQ_CFG v = s.plainWriteBut R.FQ_CFG v [F.FQ_CFG.IRQ_CORE] := by
  rw [State.plainAct, if_pos rfl, if_pos hv]

theorem plainAct_COLO_HIST_SEL (s : State) (v : Word) (hv : 29 < v.get 4 0) :
    s.plainAct R.COLO_HIST_SEL v = s.plainWriteBut R.COLO_HIST_SEL v [F.COLO_HIST_SEL.HIST] := by
  rw [State.plainAct, if_neg (by decide), if_pos rfl, if_pos hv]

/-- An interrupt core that does not exist is refused, and the register's other fields are written (R523). -/
theorem fld_FQ_CFG_of_bad_core (s : State) (v : Word) :
    let t := s.plainWriteBut R.FQ_CFG v [F.FQ_CFG.IRQ_CORE]
    t.fld R.FQ_CFG F.FQ_CFG.IRQ_CORE = s.fld R.FQ_CFG F.FQ_CFG.IRQ_CORE ∧ t.fld R.FQ_CFG F.FQ_CFG.IRQ_MIN_SEV = v.get 10 8 := by
  refine ⟨s.fld_plainWriteBut_kept _ v _ (by decide), ?_⟩
  rw [s.fld_plainWriteBut_other _ v _ _ (by decide) (by decide), State.fld, State.reg_plainWrite]
  exact get_writeFields_of_rw fieldsApart_FQ_CFG _ v (f := F.FQ_CFG.IRQ_MIN_SEV) (by decide) rfl

/-- Settles O6: the registers of the list have no row of their own, so a write goes by their fields' types; the four with a check keep what
the check refuses. -/
theorem regWriteByType : Obligations.RegWriteByType := by
  unfold Obligations.RegWriteByType
  refine ⟨fun s w v o hon hw ho => ?_, fun s w v hon => ⟨fun n hw hv => ?_, fun d n hw hv => ?_, fun hw hv => ?_, fun hw hv => ?_⟩⟩
  · have hexec := exec_regWrite_of_plainHub hon hw (plainHub_of_plainRegs o ho)
    rw [plainAct_of_plainRegs s v ho] at hexec
    exact .of hexec (plainWrite_by_types s v (fieldsApart_of_plainRegs o ho))
  · rw [exec_regWrite_of_plainHub hon hw (plainHub_SYNC_RANGE n), plainAct_SYNC_RANGE s v n hv]
  · rw [exec_regWrite_SCR_WIN d n hon hw, plainAct_SCR_WIN s v d n hv]
  · have hexec := exec_regWrite_of_plainHub hon hw plainHub_FQ_CFG
    rw [plainAct_FQ_CFG s v hv] at hexec
    obtain ⟨hcore, hsev⟩ := fld_FQ_CFG_of_bad_core s v
    exact .of hexec ⟨hcore, hsev, rfl⟩
  · have hexec := exec_regWrite_of_plainHub hon hw plainHub_COLO_HIST_SEL
    rw [plainAct_COLO_HIST_SEL s v hv] at hexec
    exact .of hexec ⟨s.fld_plainWriteBut_kept _ v _ (by decide), rfl⟩

/-! ## Accesses of the MMIO region (O7) -/

/-- A write access the region does not take is ignored, with its record (R10). -/
theorem exec_mmioAccess_bad_write {s : State} (a : Agent) {off size : Nat} (v : Word) (hon : s.On) (h : mmioOk off size = false) :
    exec (.mmioAccess a off size true v) s = .next (s.badAccess off) := by
  change s.whileOn (s.mmioStore a off size v) = _
  rw [State.whileOn_on _ hon, State.mmioStore, h]
  rfl

theorem exec_mmioAccess_read {s : State} (a : Agent) (off size : Nat) (v : Word) (hon : s.On) :
    exec (.mmioAccess a off size false v) s = .next { (s.mmioRead a off size).2 with readData := (s.mmioRead a off size).1 } :=
  State.whileOn_on _ hon

/-- A read access the region does not take returns zero, with its record (R10). -/
theorem State.mmioRead_of_bad (s : State) (a : Agent) {off size : Nat} (h : mmioOk off size = false) :
    s.mmioRead a off size = (0, s.badAccess off) := by
  simp [State.mmioRead, h]

/-- A read access the region takes returns the register, or the half it names, and leaves the state (R10). -/
theorem State.mmioRead_of_ok {s : State} {a : Agent} {off size : Nat} (h : mmioOk off size = true) (hr : s.mayRead a (off / 8 * 8) = true) :
    s.mmioRead a off size =
      (if size = 8 then s.readReg (off / 8 * 8)
        else if off % 8 = 0 then s.readReg (off / 8 * 8) &&& 0xFFFFFFFF#64 else s.readReg (off / 8 * 8) >>> 32, s) := by
  simp only [State.mmioRead, h, hr, if_true]

/-- An access of 8 bytes the region takes is aligned to them. -/
theorem mmioOk_aligned {off : Nat} (h : mmioOk off 8 = true) : off / 8 * 8 = off := by
  obtain ⟨h8, -⟩ : off % 8 = 0 ∧ (regFields (off / 8 * 8)).isSome = true := by simpa [mmioOk] using h
  omega

/-- The record of a core's write without the right (R409). -/
theorem lastRaised_denyWrite (s : State) (n : Fin 96) (o : Nat) :
    (s.denyWrite (.core n) o).lastRaised.map (·.status) = some St.CORE_REG_DENIED ∧
      (s.denyWrite (.core n) o).lastRaised.map (·.sev) = some Sev.INFO ∧
      (s.denyWrite (.core n) o).lastRaised.map (·.index) = some n.val := by
  simp [State.denyWrite]

section
variable {s : State} {w : RegW} {n : Fin 96} (hon : s.On) (hw : w.agent = .core n) (hp : s.corePart n ≠ 0)
include hon hw hp

/-- A core outside the management partition may write its own C_FENCE alone (R409). -/
theorem whileOn_onWrite_denied {o : Nat} (ho : o ≠ R.C_FENCE n) (act : Word → State → State) :
    s.whileOn (s.onWrite w o act) = .next (s.denyWrite (.core n) o) := by
  have hno : s.mayWrite (.core n) o = false := by simp [State.mayWrite, hp, ho]
  rw [State.whileOn_on _ hon]
  simp [State.onWrite, hw, hno]

theorem answers_denied {o : Nat} (ho : o ≠ R.C_FENCE n) {i : Instr} {act : Word → State → State}
    (hi : exec i s = s.whileOn (s.onWrite w o act)) :
    Answers i s fun t => t = { s with faults := t.faults } ∧ t.lastRaised.map (·.status) = some St.CORE_REG_DENIED ∧
      t.lastRaised.map (·.sev) = some Sev.INFO ∧ t.lastRaised.map (·.index) = some n.val :=
  .of (hi.trans (whileOn_onWrite_denied hon hw hp ho act)) ⟨rfl, lastRaised_denyWrite s n o⟩

end

/-- A register below the cores' blocks is no C_FENCE. -/
theorem ne_C_FENCE_of_lt {o : Nat} (n : Fin 96) (h : o < 0x100000) : o ≠ R.C_FENCE n := by
  unfold R.C_FENCE
  omega

theorem C_CTL_ne_C_FENCE (m n : Fin 96) : R.C_CTL m ≠ R.C_FENCE n := by
  unfold R.C_CTL R.C_FENCE
  omega

theorem HUB_CD_CTL_lt (d : Die) : R.HUB_CD_CTL d < 0x100000 := by
  unfold R.HUB_CD_CTL
  omega

theorem CX_CFG_ne_C_FENCE (d : Die) (c : Cx) (n : Fin 96) : R.CX_CFG d c ≠ R.C_FENCE n := by
  unfold R.CX_CFG R.dieBase R.C_FENCE
  omega

/-- Settles O7: the region's answer to an access it does not take and to a read, and the one denial every register command shares. -/
theorem mmioAccess : Obligations.MmioAccess := by
  unfold Obligations.MmioAccess
  refine ⟨fun s a off size v hon => ⟨fun h => ⟨?_, ?_⟩, fun h hr => ?_, fun h hr => ?_⟩, fun s w n hon hw hp => ?_⟩
  · have hread := exec_mmioAccess_read a off size v hon
    rw [s.mmioRead_of_bad a h] at hread
    exact .of hread ⟨rfl, rfl, by simp [State.lastRaised, State.badAccess, State.raise]⟩
  · exact .of (exec_mmioAccess_bad_write a v hon h) ⟨rfl, by simp [State.badAccess]⟩
  · have ho := mmioOk_aligned h
    rw [exec_mmioAccess_read a off 8 v hon, State.mmioRead_of_ok h (ho.symm ▸ hr), if_pos rfl, ho]
  · rw [exec_mmioAccess_read a off 4 v hon, State.mmioRead_of_ok h hr, if_neg (by decide)]
  · have den {o : Nat} (ho : o ≠ R.C_FENCE n) {i : Instr} {act : Word → State → State} (hi : exec i s = s.whileOn (s.onWrite w o act)) :=
      answers_denied hon hw hp ho hi
    have low {o : Nat} (ho : o < 0x100000) : o ≠ R.C_FENCE n := ne_C_FENCE_of_lt n ho
    exact ⟨den (low (by decide)) rfl, den (low (by decide)) rfl, den (low (by decide)) rfl, den (low (by decide)) rfl,
      den (low (by decide)) rfl, den (low (by decide)) rfl, fun m => den (C_CTL_ne_C_FENCE m n) rfl,
      fun d => den (low (HUB_CD_CTL_lt d)) rfl, fun d c => den (CX_CFG_ne_C_FENCE d c n) rfl⟩

/-! ## The loss of REFCLK and settled firn (O60) -/

/-- The part is bound, CD0 and its stack 0 are in service, the host link is up and the host shares line 0. A controller of CD1 writes
that line: the home has sent the host SNP_INV and waits for its answer. The log of stack 0 holds a settled entry of the line that is not
merged yet. A host read of the settled line and then the controller's write lead to such a state. -/
def snoopedSettledLine : State where
  regs := [(R.HUB_CD_STATUS 0, 8), (R.HS_STATUS 0, 8), (R.HL_STATUS, 1), (R.BIND_STATUS, 2)]
  firn := { entries := [{ log := 0, sector := 0, epoch := 0, inst := 0, mask := 1, data := [7], settled := true }] }
  mem := {
    dir := [(0, .sharers [.host])]
    hostLines := [(0, { data := 7 :: List.replicate 63 0 })]
    wrs := [{ id := 1, src := .dctl 1 0, dst := .cd 0, addr := 0, mask := 2, data := [1, 2] }]
    txns := [{ id := 2, home := .cd 0, line := 0, req := .agent (.cd 1), kind := .wr, write := 1, waitInv := [.host], begun := true }]
    msgs := [{ id := 3, kind := .snpInv, agent := .agent .host, home := .cd 0, line := 0, txn := 2 }]
    nextId := 4 }

/-- The host link is up in the state. -/
theorem snoopedSettledLine_linkUp : snoopedSettledLine.fld R.HL_STATUS F.HL_STATUS.LINK_UP = 1 := by decide

/-- With the host gone, the home's transaction goes on: the write is accepted, and the settled entry of its sector is merged and leaves
its log (R237, R468). -/
theorem refclkLoss_merges_settled : (refclkLoss [] (snoopedSettledLine.atTime 0)).firn.entries = [] := by decide

/-- Refutes O60: the loss of REFCLK does not always leave firn as it was. Where a home waits for the host to give up a line, the link's
loss lets the waiting write be accepted, and that merges a settled firn entry of the line. -/
theorem not_pinsAndTest : ¬ Obligations.PinsAndTest := by
  unfold Obligations.PinsAndTest
  rintro ⟨hpins, -, -⟩
  obtain ⟨-, -, -, -, -, -, hrefclk⟩ := hpins snoopedSettledLine 0 (Nat.le_refl 0)
  obtain ⟨-, hup⟩ := hrefclk []
  obtain ⟨t, ht, -, -, -, -, hfirn, -⟩ := hup snoopedSettledLine_linkUp
  have htr : t = refclkLoss [] (snoopedSettledLine.atTime 0) := (Host.Outcome.next.inj ht).symm
  have hnone : t.firn.entries = [] := by rw [htr]; exact refclkLoss_merges_settled
  have hone : t.firn.entries.length = 1 := by rw [hfirn]; rfl
  simp [hnone] at hone

end Sys2Proof.Machine
end

section
/-!
Span time: the unit's registers and value, its timeouts and boundaries (02_span_time.md, O10), its configuration (O8), its reference
events (O9), and what waits at a stamp or at a polled gate (O17).
-/

namespace Sys2Proof

/-! ## Bits of a word -/

/-- A field of one bit is that bit. -/
theorem Word.get_bit (w : Word) (i : Nat) : w.get i i = (w.bit i).toNat := by
  rw [Word.get, bitsOf, Word.bit, Nat.toNat_testBit, Nat.shiftRight_eq_div_pow, Nat.add_sub_cancel_left, pow_one]

/-- A put of bits below leaves a bit as it is. -/
theorem Word.bit_put_of_lt (w : Word) {hi lo i : Nat} (v : Nat) (hh : hi < 64) (h : hi < i) : (w.put hi lo v).bit i = w.bit i := by
  rw [Word.bit, Word.testBit_put w hi lo v i hh, if_neg (by omega)]
  rfl

end Sys2Proof

namespace Sys2Proof.Machine

/-! ## Time and registers -/

theorem State.now_atTime_of_le {s : State} {m : Nat} (h : s.now ≤ m) : (s.atTime m).now = m := Nat.max_eq_right h

theorem State.reg_of_regs_eq {s t : State} (h : t.regs = s.regs) (o : Nat) : t.reg o = s.reg o := by
  rw [State.reg, State.reg, h]

theorem State.fld_of_regs_eq {s t : State} (h : t.regs = s.regs) (o : Nat) (f : Fld) : t.fld o f = s.fld o f := by
  rw [State.fld, State.fld, State.reg_of_regs_eq h]

/-- A field that fits its bits reads as it was written. -/
theorem State.fld_setFld_of_le (s : State) (o : Nat) (f : Fld) {v : Nat} (hf : f.hi < 64) (hv : v ≤ f.top) :
    (s.setFld o f v).fld o f = v := by
  rw [State.fld_setFld s o f v hf]
  exact Nat.mod_eq_of_lt (by unfold Fld.top at hv; have := Nat.two_pow_pos (f.hi + 1 - f.lo); omega)

theorem State.fld_le_top (s : State) (o : Nat) (f : Fld) : s.fld o f ≤ f.top :=
  Nat.le_sub_one_of_lt (Nat.mod_lt _ (Nat.two_pow_pos _))

theorem RegsBut.of_regs {l : List Nat} {s t u : State} (h : RegsBut l s t) (hr : u.regs = t.regs) : RegsBut l s u := fun o ho => by
  rw [State.reg_of_regs_eq hr, h o ho]

theorem RegsBut.trans {l : List Nat} {s t u : State} (h : RegsBut l s t) (h' : RegsBut l t u) : RegsBut l s u := fun o ho => by
  rw [h' o ho, h o ho]

theorem RegsBut.fld {l : List Nat} {s t : State} (h : RegsBut l s t) {o : Nat} (ho : o ∉ l) (f : Fld) : t.fld o f = s.fld o f := by
  rw [State.fld, State.fld, h o ho]

/-! ## The span-time value (R28) -/

/-- At the moment of its base, the unit has the value of its base. -/
@[simp] theorem SpanSt.valueAt_baseAt (p : SpanSt) : p.valueAt p.baseAt = p.base := by
  simp [SpanSt.valueAt, SpanSt.slewed, SpanSt.units]

/-! ## Records leave the unit as it is -/

@[simp] theorem State.spanState_raiseHub (s : State) (sev status kind : Nat) : (s.raiseHub sev status kind).spanState = s.spanState := rfl
@[simp] theorem State.spanValid_raiseHub (s : State) (sev status kind : Nat) : (s.raiseHub sev status kind).spanValid = s.spanValid := rfl
@[simp] theorem State.spanNow_raiseHub (s : State) (sev status kind : Nat) : (s.raiseHub sev status kind).spanNow = s.spanNow := rfl

@[simp] theorem State.lastRaised_raiseHub (s : State) (sev status kind : Nat) : (s.raiseHub sev status kind).lastRaised =
    some { status := status, sev := sev, kind := kind, stamp := s.spanNow, raisedAt := s.now } :=
  s.lastRaised_raise _

/-! ## Entry to a lock state (R37, R39) -/

/-- Entry to FREE other than by a write of ENABLE is the same entry with its record SPAN_UNLOCKED (R39). -/
theorem State.spanToFree_false {s : State} (h : s.spanState ≠ SpanS.FREE) :
    s.spanToFree false = (s.spanToFree true).raiseHub Sev.DEFERRED St.SPAN_UNLOCKED Uk.SPAN := by
  simp [State.spanToFree, h]

/-- What the entry to FREE writes. -/
theorem State.regs_spanToFree (s : State) : (s.spanToFree true).regs =
    (((s.setSpanState SpanS.FREE).setFld R.SPAN_STATUS F.SPAN_STATUS.VALID 0).setFld R.SPAN_STATUS F.SPAN_STATUS.HOLD_SPANS 0).regs :=
  rfl

theorem State.spanState_spanToFree (s : State) : (s.spanToFree true).spanState = SpanS.FREE := by
  simp (disch := decide) only [State.spanState, State.setSpanState, State.fld_of_regs_eq s.regs_spanToFree, State.fld_setFld_of_disjoint,
    State.fld_setFld_of_le]

theorem State.spanValid_spanToFree (s : State) : (s.spanToFree true).spanValid = false := by
  simp (disch := decide) only [State.spanValid, State.flag, State.fld_of_regs_eq s.regs_spanToFree, State.fld_setFld_of_disjoint,
    State.fld_setFld_of_le, bne_self_eq_false]

/-- The value goes on over the entry to FREE (R30). -/
theorem State.spanNow_spanToFree (s : State) : (s.spanToFree true).spanNow = s.spanNow :=
  SpanSt.valueAt_baseAt _

theorem State.regsBut_spanToFree (s : State) : RegsBut [R.SPAN_STATUS] s (s.spanToFree true) :=
  RegsBut.of_regs ((((RegsBut.refl _ s).setFld _ _ (by simp)).setFld _ _ (by simp)).setFld _ _ (by simp)) s.regs_spanToFree

/-- What the entry to HOLDOVER writes. -/
theorem State.regs_spanToHoldover (s : State) : s.spanToHoldover.regs =
    (((s.setSpanState SpanS.HOLDOVER).setFld R.SPAN_STATUS F.SPAN_STATUS.REF_LOST 1).setFld R.SPAN_STATUS F.SPAN_STATUS.HOLD_SPANS 0).regs :=
  rfl

theorem State.spanState_spanToHoldover (s : State) : s.spanToHoldover.spanState = SpanS.HOLDOVER := by
  simp (disch := decide) only [State.spanState, State.setSpanState, State.fld_of_regs_eq s.regs_spanToHoldover, State.fld_setFld_of_disjoint,
    State.fld_setFld_of_le]

theorem State.refLost_spanToHoldover (s : State) : s.spanToHoldover.fld R.SPAN_STATUS F.SPAN_STATUS.REF_LOST = 1 := by
  simp (disch := decide) only [State.fld_of_regs_eq s.regs_spanToHoldover, State.fld_setFld_of_disjoint, State.fld_setFld_of_le]

theorem State.spanValid_spanToHoldover (s : State) : s.spanToHoldover.spanValid = s.spanValid := by
  simp (disch := decide) only [State.spanValid, State.flag, State.setSpanState, State.fld_of_regs_eq s.regs_spanToHoldover,
    State.fld_setFld_of_disjoint]

theorem State.regsBut_spanToHoldover (s : State) : RegsBut [R.SPAN_STATUS] s s.spanToHoldover :=
  RegsBut.of_regs ((((RegsBut.refl _ s).setFld _ _ (by simp)).setFld _ _ (by simp)).setFld _ _ (by simp)) s.regs_spanToHoldover

theorem State.lastRaised_spanToHoldover (s : State) : s.spanToHoldover.lastRaised.map (·.status) = some St.SPAN_REF_LOST := by
  simp [State.spanToHoldover]

/-- What the entry to ACQUIRING writes. -/
theorem State.regs_spanToAcquiring (s : State) :
    s.spanToAcquiring.regs = ((s.setSpanState SpanS.ACQUIRING).setFld R.SPAN_STATUS F.SPAN_STATUS.HOLD_SPANS 0).regs :=
  rfl

theorem State.spanState_spanToAcquiring (s : State) : s.spanToAcquiring.spanState = SpanS.ACQUIRING := by
  simp (disch := decide) only [State.spanState, State.setSpanState, State.fld_of_regs_eq s.regs_spanToAcquiring, State.fld_setFld_of_disjoint,
    State.fld_setFld_of_le]

theorem State.regsBut_spanToAcquiring (s : State) : RegsBut [R.SPAN_STATUS] s s.spanToAcquiring :=
  RegsBut.of_regs (((RegsBut.refl _ s).setFld _ _ (by simp)).setFld _ _ (by simp)) s.regs_spanToAcquiring

/-! ## Timeouts (R37, R39) -/

theorem refTimeout_of_locked {s : State} {a : Nat} (ha : s.span.refAcceptedAt = some a) (hen : s.spanEnabled = true)
    (hsrc : s.spanSource ≠ 0) (hlim : a + s.refLimit ≤ s.now) (hst : s.spanState = SpanS.LOCKED) : refTimeout s = s.spanToHoldover := by
  simp [refTimeout, ha, hen, hsrc, hlim, hst]

/-- HOLD_SPANS brought up to now: the whole spans since the entry to HOLDOVER, sticking at the largest value (R51). -/
theorem State.fld_spanHold {s : State} (hst : s.spanState = SpanS.HOLDOVER) :
    s.spanHold.fld R.SPAN_STATUS F.SPAN_STATUS.HOLD_SPANS = min 0xFFFFFFFF ((s.spanNow - s.span.holdBase).toNat / 16777216) := by
  rw [State.spanHold, if_pos hst]
  exact State.fld_setFld_of_le _ _ _ (by decide) (Nat.min_le_left _ _)

theorem State.spanHold_frame (s : State) : s.spanHold = { s with regs := s.spanHold.regs } ∧ RegsBut [R.SPAN_STATUS] s s.spanHold := by
  unfold State.spanHold
  split
  · exact ⟨rfl, (RegsBut.refl _ s).setFld _ _ (by simp)⟩
  · exact ⟨rfl, RegsBut.refl _ s⟩

theorem State.spanState_spanHold (s : State) : s.spanHold.spanState = s.spanState := by
  unfold State.spanHold
  split
  · exact State.fld_setFld_of_disjoint _ _ _ _ _ (by decide) (by decide)
  · rfl

theorem holdoverExpiry_of_reached {s : State} (hst : s.spanState = SpanS.HOLDOVER)
    (hmax : s.fld R.SPAN_LIMITS F.SPAN_LIMITS.HOLDOVER_MAX ≠ 0)
    (hle : s.fld R.SPAN_LIMITS F.SPAN_LIMITS.HOLDOVER_MAX ≤ (s.spanNow - s.span.holdBase).toNat / 16777216) :
    holdoverExpiry s = s.spanHold.spanToFree false := by
  have hwidth : s.fld R.SPAN_LIMITS F.SPAN_LIMITS.HOLDOVER_MAX ≤ 0xFFFF := s.fld_le_top R.SPAN_LIMITS F.SPAN_LIMITS.HOLDOVER_MAX
  have hreach : s.fld R.SPAN_LIMITS F.SPAN_LIMITS.HOLDOVER_MAX ≤ s.spanHold.fld R.SPAN_STATUS F.SPAN_STATUS.HOLD_SPANS := by
    rw [State.fld_spanHold hst]
    exact Nat.le_min.mpr ⟨by omega, hle⟩
  exact if_pos ⟨by rw [State.spanState_spanHold, hst], hmax, hreach⟩

theorem State.spanNow_spanHold (s : State) : s.spanHold.spanNow = s.spanNow := by
  rw [s.spanHold_frame.1]
  rfl

/-! ## Steps of the power controller (R488, R489) -/

/-- The registers `TrBut` says nothing of: those of `l` and those that show the throttle reasons. -/
def ThrottleOr (l : List Nat) (o : Nat) : Prop :=
  o ∈ l ∨ o = R.PWR_STATUS ∨ ∃ r < 7, o = R.TR_DUR r ∨ o = R.TR_LAST r ∨ o = R.TR_LAST_AT r

theorem trBut_iff {l : List Nat} {s t : State} : TrBut l s t ↔ ∀ o, ¬ ThrottleOr l o → t.reg o = s.reg o := by
  simp only [TrBut, ThrottleOr, not_or, not_exists, not_and, and_imp, ne_eq]

theorem throttleOr_of_mem {l : List Nat} {o : Nat} (h : o ∈ l) : ThrottleOr l o := .inl h

theorem throttleOr_TR_DUR (l : List Nat) {r : Nat} (h : r ∈ List.range 7) : ThrottleOr l (R.TR_DUR r) :=
  .inr (.inr ⟨r, List.mem_range.mp h, .inl rfl⟩)

theorem throttleOr_TR_LAST (l : List Nat) {r : Nat} (h : r ∈ List.range 7) : ThrottleOr l (R.TR_LAST r) :=
  .inr (.inr ⟨r, List.mem_range.mp h, .inr (.inl rfl)⟩)

theorem throttleOr_TR_LAST_AT (l : List Nat) {r : Nat} (h : r ∈ List.range 7) : ThrottleOr l (R.TR_LAST_AT r) :=
  .inr (.inr ⟨r, List.mem_range.mp h, .inr (.inr rfl)⟩)

/-- The throttle reasons' registers lie between TR_DUR of the first and the end of the last. -/
theorem not_throttleOr {l : List Nat} {o : Nat} (hl : o ∉ l) (hpwr : o ≠ R.PWR_STATUS) (hout : o < R.TR_DUR 0 ∨ R.TR_DUR 7 ≤ o) :
    ¬ ThrottleOr l o := by
  rintro (h | h | ⟨r, hr, h⟩)
  · exact hl h
  · exact hpwr h
  · simp only [R.TR_DUR, R.TR_LAST, R.TR_LAST_AT] at h hout
    omega

theorem PowerOnly.refl (l : List Nat) (s : State) : PowerOnly l s s := ⟨fun _ _ _ _ => rfl, List.prefix_refl _, rfl⟩

theorem PowerOnly.setReg {l : List Nat} {s t : State} {o : Nat} (w : Word) (h : PowerOnly l s t) (ho : ThrottleOr l o) :
    PowerOnly l s (t.setReg o w) := by
  obtain ⟨hregs, hraised, hframe⟩ := h
  refine ⟨trBut_iff.mpr fun i hi => ?_, hraised, ?_⟩
  · have hne : i ≠ o := fun e => hi (e ▸ ho)
    rw [State.reg_setReg_of_ne t w hne, trBut_iff.mp hregs i hi]
  · rw [hframe]
    rfl

theorem PowerOnly.setFld {l : List Nat} {s t : State} {o : Nat} (f : Fld) (v : Nat) (h : PowerOnly l s t) (ho : ThrottleOr l o) :
    PowerOnly l s (t.setFld o f v) := h.setReg _ ho

theorem PowerOnly.raise {l : List Nat} {s t : State} (r : FaultRec) (h : PowerOnly l s t) : PowerOnly l s (t.raise r) := by
  obtain ⟨hregs, hraised, hframe⟩ := h
  refine ⟨hregs, hraised.trans (List.prefix_append _ _), ?_⟩
  rw [hframe]
  rfl

theorem PowerOnly.withPower {l : List Nat} {s t : State} (p : PowerSt) (h : PowerOnly l s t) : PowerOnly l s { t with power := p } := by
  obtain ⟨hregs, hraised, hframe⟩ := h
  refine ⟨hregs, hraised, ?_⟩
  rw [hframe]

theorem PowerOnly.count {l : List Nat} {s t : State} {o : Nat} (n : Nat) (h : PowerOnly l s t) (ho : ThrottleOr l o) :
    PowerOnly l s (t.count o n) := by
  have hc := h.setFld F.CTR.COUNT (t.fld o F.CTR.COUNT + n) ho
  have hovf := hc.setFld F.CTR.OVF 1 ho
  unfold State.count
  extract_lets c s1 s2
  split_ifs
  · exact hc
  · exact hovf.raise _
  · exact hovf

/-- A register that is none of the throttle reasons' reads as before. -/
theorem PowerOnly.fld {l : List Nat} {s t : State} (h : PowerOnly l s t) {o : Nat} (ho : ¬ ThrottleOr l o) (f : Fld) :
    t.fld o f = s.fld o f := by
  rw [State.fld, State.fld, trBut_iff.mp h.1 o ho]

section
variable {l : List Nat} {s t : State} (h : PowerOnly l s t)
include h

theorem PowerOnly.frame :
    t = { s with regs := t.regs, faults := { s.faults with raised := t.faults.raised }, power := t.power, ac := t.ac, acHist := t.acHist } :=
  h.2.2

theorem PowerOnly.span : t.span = s.span := by rw [h.frame]
theorem PowerOnly.spanNow : t.spanNow = s.spanNow := by rw [h.frame]; rfl
theorem PowerOnly.colo : t.colo = s.colo := by rw [h.frame]
theorem PowerOnly.mem : t.mem = s.mem := by rw [h.frame]
theorem PowerOnly.sync : t.sync = s.sync := by rw [h.frame]
theorem PowerOnly.cxs : t.cxs = s.cxs := by rw [h.frame]

end

/-- Accrual counts in the throttle reasons' registers alone. -/
theorem State.trAccrue_powerOnly (s : State) : PowerOnly [] s s.trAccrue := by
  unfold State.trAccrue
  refine PowerOnly.withPower _ (List.foldlRecOn _ _ (PowerOnly.refl _ s) fun t ht i hi => ?_)
  split
  · exact (ht.count _ (throttleOr_TR_DUR _ hi)).setFld _ _ (throttleOr_TR_LAST _ hi)
  · exact ht

/-- Events that begin and end are shown in the throttle reasons' registers alone. -/
theorem State.trShow_powerOnly (s : State) : PowerOnly [] s s.trShow := by
  unfold State.trShow
  refine PowerOnly.setFld _ _ (List.foldlRecOn _ _ (PowerOnly.refl _ s) fun t ht i hi => ?_) (.inr (.inl rfl))
  have hlast := throttleOr_TR_LAST [] hi
  have hat := throttleOr_TR_LAST_AT [] hi
  dsimp only
  split
  · split
    · exact ht.setFld _ _ hlast
    · exact ht
  · split
    · exact ht
    · exact (((ht.setReg _ hat).setReg _ hlast).setFld _ _ hlast).setFld _ _ hlast

/-! ## The boundary (R28, R483) -/

/-- The registers a boundary writes beside those of the throttle reasons. -/
def boundaryRegs : List Nat := [R.SPAN_STATUS, R.LS_STATUS]

/-- The span that ended is noted: what is said once a span may be said again. -/
def State.noteBoundary (s : State) : State :=
  { s with span := { s.span with lastBoundary := s.spanNow.toNat / 16777216, exportNoted := [], ceNoted := [] },
           arrays := s.arrays.map fun p => (p.1, { p.2 with ceNoted := [] }) }

theorem State.noteBoundary_mem (s : State) : s.noteBoundary.mem = s.mem := rfl
theorem State.noteBoundary_sync (s : State) : s.noteBoundary.sync = s.sync := rfl
theorem State.noteBoundary_cxs (s : State) : s.noteBoundary.cxs = s.cxs := rfl

theorem throttleOr_LS_STATUS : ThrottleOr boundaryRegs R.LS_STATUS := throttleOr_of_mem (by decide)

theorem State.spanHold_powerOnly (s : State) : PowerOnly boundaryRegs s s.spanHold := by
  unfold State.spanHold
  split
  · exact (PowerOnly.refl _ s).setFld _ _ (throttleOr_of_mem (by decide))
  · exact PowerOnly.refl _ s

/-- LS_STATUS after some steps of a boundary: the average of the span that ended is in LAST_AVG_W. -/
def BoundaryAvg (s : State) (avg : Nat) (t : State) : Prop :=
  PowerOnly boundaryRegs s t ∧ t.fld R.LS_STATUS F.LS_STATUS.LAST_AVG_W = min 65535 avg

/-- The fields of LS_STATUS above the average are written beside it. -/
theorem BoundaryAvg.setFld {s t : State} {avg : Nat} (h : BoundaryAvg s avg t) (f : Fld) (v : Nat) (hf : f.hi < 64) (hlo : 15 < f.lo) :
    BoundaryAvg s avg (t.setFld R.LS_STATUS f v) := by
  obtain ⟨honly, havg⟩ := h
  exact ⟨honly.setFld f v throttleOr_LS_STATUS, by rw [State.fld_setFld_of_disjoint _ _ _ _ _ hf (.inl hlo), havg]⟩

theorem BoundaryAvg.withPower {s t : State} {avg : Nat} (p : PowerSt) (h : BoundaryAvg s avg t) : BoundaryAvg s avg { t with power := p } :=
  ⟨h.1.withPower p, h.2⟩

/-- The judgement of the span that ended (R483). -/
theorem State.bandEnd_avg {s t : State} (avg : Nat) (h : PowerOnly boundaryRegs s t) : BoundaryAvg s avg (t.bandEnd avg) := by
  have h1 : BoundaryAvg s avg (t.setFld R.LS_STATUS F.LS_STATUS.LAST_AVG_W (min 65535 avg)) :=
    ⟨h.setFld _ _ throttleOr_LS_STATUS, State.fld_setFld_of_le _ _ _ (by decide) (Nat.min_le_left _ _)⟩
  unfold State.bandEnd
  extract_lets s1 above below s2 s3
  have h2 : BoundaryAvg s avg s2 := by
    simp only [s2]
    split
    · exact h1.setFld _ _ (by decide) (by decide)
    · exact h1
  have h3 : BoundaryAvg s avg s3 := by
    simp only [s3]
    split
    · exact h2.setFld _ _ (by decide) (by decide)
    · exact h2
  split_ifs
  · exact ⟨h3.1.raise _, h3.2⟩
  · exact h3
  · exact h1

/-- The band of the span that begins is written above the average. -/
theorem State.bandBegin_avg {s t : State} {avg : Nat} (n : Nat) (h : BoundaryAvg s avg t) : BoundaryAvg s avg (t.bandBegin n) := by
  unfold State.bandBegin
  extract_lets en hi lo s1
  have h1 : BoundaryAvg s avg s1 := (h.setFld _ _ (by decide) (by decide)).setFld _ _ (by decide) (by decide)
  exact h1.withPower _

theorem State.histograms_of_not_loaded {s : State} (h : s.colo.loaded = false) (x : SpanSample) : s.histograms x = s := by
  simp [State.histograms, h]

theorem State.fabBoundary_of_off {s : State} (h : s.fabState = FabS.OFF) (reason : Nat → Nat) : s.fabBoundary reason = s := if_pos h

/-- The power tables of the span are counted once. -/
def State.countTables (s : State) : State :=
  if s.power.tablesDue then { s with power := { s.power with tables := s.power.tables + 1, tablesDue := false } } else s

/-- The throttle reasons' durations at the boundary are kept for the next (R440). -/
def State.noteDurations (s : State) : State :=
  { s with power := { s.power with durAt := (List.range 7).map fun i => BitVec.ofNat 64 (s.fld (R.TR_DUR i) F.CTR.COUNT) } }

/-- A boundary's steps in their order, when the span count has risen. -/
theorem spanBoundary_of_new {s : State} (x : SpanSample) (h : s.spanNow.toNat / 16777216 ≠ s.span.lastBoundary) :
    spanBoundary x s =
      let t := (((s.noteBoundary.spanHold.bandEnd x.avgW).bandBegin x.avgW).histograms x).countTables
      t.noteDurations.fabBoundary fun _ => t.paceReason :=
  if_neg h

theorem State.countTables_avg {s t : State} {avg : Nat} (h : BoundaryAvg s avg t) : BoundaryAvg s avg t.countTables := by
  unfold State.countTables
  split
  · exact h.withPower _
  · exact h

theorem State.noteDurations_avg {s t : State} {avg : Nat} (h : BoundaryAvg s avg t) : BoundaryAvg s avg t.noteDurations :=
  h.withPower _

/-- A boundary of a part that is in no fabric and whose colophon is not loaded. -/
theorem spanBoundary_avg {s : State} (x : SpanSample) (hnew : s.spanNow.toNat / 16777216 ≠ s.span.lastBoundary) (hfab : s.fabState = FabS.OFF)
    (hcolo : s.colo.loaded = false) : BoundaryAvg s.noteBoundary x.avgW (spanBoundary x s) := by
  have hband : BoundaryAvg s.noteBoundary x.avgW ((s.noteBoundary.spanHold.bandEnd x.avgW).bandBegin x.avgW) :=
    State.bandBegin_avg _ (State.bandEnd_avg _ s.noteBoundary.spanHold_powerOnly)
  have hloaded : ((s.noteBoundary.spanHold.bandEnd x.avgW).bandBegin x.avgW).colo.loaded = false :=
    (congrArg ColoSt.loaded hband.1.colo).trans hcolo
  have hdone := State.noteDurations_avg (State.countTables_avg hband)
  have hoff := (hdone.1.fld (not_throttleOr (by decide) (by decide) (by decide)) F.FAB_STATUS.STATE).trans hfab
  rw [spanBoundary_of_new x hnew, State.histograms_of_not_loaded hloaded]
  dsimp only
  rwa [State.fabBoundary_of_off hoff]

theorem exec_refTimeout_of_locked {s : State} {m a : Nat} (hon : s.On) (hm : s.now ≤ m) (ha : s.span.refAcceptedAt = some a)
    (hen : s.spanEnabled = true) (hsrc : s.spanSource ≠ 0) (hlim : a + s.refLimit ≤ m) (hst : s.spanState = SpanS.LOCKED) :
    exec (.refTimeout m) s = .next (s.atTime m).spanToHoldover := by
  have hlim' : a + (s.atTime m).refLimit ≤ (s.atTime m).now := by rwa [State.now_atTime_of_le hm]
  rw [← refTimeout_of_locked (s := s.atTime m) ha hen hsrc hlim' hst]
  exact State.whileOn_on _ hon

theorem exec_holdoverExpiry_of_reached {s : State} {m : Nat} (hon : s.On) (hst : s.spanState = SpanS.HOLDOVER)
    (hmax : s.fld R.SPAN_LIMITS F.SPAN_LIMITS.HOLDOVER_MAX ≠ 0)
    (hle : s.fld R.SPAN_LIMITS F.SPAN_LIMITS.HOLDOVER_MAX ≤ ((s.atTime m).spanNow - s.span.holdBase).toNat / 16777216) :
    exec (.holdoverExpiry m) s =
      .next (((s.atTime m).spanHold.spanToFree true).raiseHub Sev.DEFERRED St.SPAN_UNLOCKED Uk.SPAN) := by
  have hheld : (s.atTime m).spanHold.spanState ≠ SpanS.FREE := by
    rw [State.spanState_spanHold, show (s.atTime m).spanState = SpanS.HOLDOVER from hst]
    decide
  rw [← State.spanToFree_false hheld, ← holdoverExpiry_of_reached (s := s.atTime m) hst hmax hle]
  exact State.whileOn_on _ hon

theorem exec_spanBoundary {s : State} (m : Moment) (x : SpanSample) (hon : s.On) :
    exec (.spanBoundary m x) s = .next (spanBoundary x (s.atTime m).trAccrue).trShow :=
  State.whileOn_on _ hon

/-- The boundary stands between the two halves of its power step, which leave the span unit and LS_STATUS alone. -/
theorem trShow_spanBoundary_trAccrue {s : State} (x : SpanSample) (hnew : s.spanNow.toNat / 16777216 ≠ s.span.lastBoundary)
    (hfab : s.fabState = FabS.OFF) (hcolo : s.colo.loaded = false) :
    let t := (spanBoundary x s.trAccrue).trShow
    t.span = s.noteBoundary.span ∧ t.fld R.LS_STATUS F.LS_STATUS.LAST_AVG_W = min 65535 x.avgW ∧ t.mem = s.mem ∧ t.sync = s.sync ∧ t.cxs = s.cxs := by
  have hacc := s.trAccrue_powerOnly
  have hfab' : s.trAccrue.fabState = FabS.OFF := (hacc.fld (not_throttleOr (by decide) (by decide) (by decide)) _).trans hfab
  obtain ⟨hb, hlast⟩ : BoundaryAvg s.trAccrue.noteBoundary x.avgW (spanBoundary x s.trAccrue) :=
    spanBoundary_avg x (by rwa [hacc.spanNow, hacc.span]) hfab' (by rwa [hacc.colo])
  have hshow := (spanBoundary x s.trAccrue).trShow_powerOnly
  refine ⟨?_, ?_, ?_, ?_, ?_⟩
  · rw [hshow.span, hb.span, State.noteBoundary, State.noteBoundary, hacc.span, hacc.spanNow]
  · rw [hshow.fld (not_throttleOr (by decide) (by decide) (by decide)), hlast]
  · rw [hshow.mem, hb.mem, State.noteBoundary_mem, hacc.mem]
  · rw [hshow.sync, hb.sync, State.noteBoundary_sync, hacc.sync]
  · rw [hshow.cxs, hb.cxs, State.noteBoundary_cxs, hacc.cxs]

/-- Settles O10: the entries to HOLDOVER and to FREE, and the boundary of a span. -/
theorem spanTimeouts : Obligations.SpanTimeouts := by
  unfold Obligations.SpanTimeouts
  refine fun s m hon hm => ⟨fun a ha hen hsrc hlim hst => ?_, fun hst hmax hle => ?_, fun x hnew hfab hcolo havg => ?_⟩
  · exact .of (exec_refTimeout_of_locked hon hm ha hen hsrc hlim hst) ⟨State.spanState_spanToHoldover _, State.refLost_spanToHoldover _,
      State.spanValid_spanToHoldover _, rfl, State.lastRaised_spanToHoldover _, rfl, State.regsBut_spanToHoldover _⟩
  · exact .of (exec_holdoverExpiry_of_reached hon hst hmax hle) ⟨by rw [State.spanState_raiseHub, State.spanState_spanToFree],
      by rw [State.spanValid_raiseHub, State.spanValid_spanToFree],
      by rw [State.spanNow_raiseHub, State.spanNow_spanToFree, State.spanNow_spanHold], by simp, by simp,
      ((State.spanHold_frame _).2.trans (State.regsBut_spanToFree _)).raise _⟩
  · obtain ⟨hspan, hlast, hmem, hsync, hcxs⟩ := trShow_spanBoundary_trAccrue (s := s.atTime m) x hnew hfab hcolo
    exact .of (exec_spanBoundary m x hon) ⟨congrArg SpanSt.lastBoundary hspan, congrArg SpanSt.exportNoted hspan,
      hlast.trans (by omega), hmem, hsync, hcxs⟩

/-! ## Words of the span unit's registers -/

theorem State.spanEnabled_eq (s : State) : s.spanEnabled = (s.reg R.SPAN_CFG).bit 4 := by
  have h : s.fld R.SPAN_CFG F.SPAN_CFG.ENABLE = ((s.reg R.SPAN_CFG).bit 4).toNat := Word.get_bit _ 4
  rw [State.spanEnabled, State.flag, h]
  cases (s.reg R.SPAN_CFG).bit 4 <;> rfl

theorem fieldsApart_SPAN_CFG : FieldsApart ((regFields R.SPAN_CFG).getD []) := by unfold FieldsApart; decide
theorem fieldsApart_SPAN_LEN : FieldsApart ((regFields R.SPAN_LEN).getD []) := by unfold FieldsApart; decide

/-- The bits of SPAN_CFG below FREE_RUN are each of a field that is written. -/
theorem writable_SPAN_CFG : ∀ i ≤ 4, ∃ f ∈ (regFields R.SPAN_CFG).getD [], f.ty = .rw ∧ f.has i = true := by decide

/-- A formed write of SPAN_CFG sets SOURCE, SPAN_IN_SEL, ANCHOR and ENABLE as written. -/
theorem State.bit_plainWrite_SPAN_CFG (s : State) (v : Word) {i : Nat} (hi : i ≤ 4) :
    ((s.plainWrite R.SPAN_CFG v).reg R.SPAN_CFG).bit i = v.bit i := by
  obtain ⟨f, hf, hty, hhas⟩ := writable_SPAN_CFG i hi
  rw [State.reg_plainWrite, bit_writeFields_of_mem fieldsApart_SPAN_CFG _ v hf hhas, Fld.writeBit, hty]

/-! ## SPAN_LEN (R49) -/

theorem spanLenAct_of_bad (s : State) {v : Word} (h : v.get 31 0 < 100000 ∨ 100000000 < v.get 31 0) :
    spanLenAct v s = s.setFld R.SPAN_STATUS F.SPAN_STATUS.CFG_REFUSED 1 := if_pos h

/-- A length in range is written, and is the estimate at once where no measurement stands against it (R578). -/
theorem spanLenAct_of_ok (s : State) {v : Word} (hlo : 100000 ≤ v.get 31 0) (hhi : v.get 31 0 ≤ 100000000) :
    let t := spanLenAct v s
    t.regs = (s.plainWrite R.SPAN_LEN v).regs ∧ t = { s with regs := t.regs, span := t.span } := by
  have hok : ¬ (v.get 31 0 < 100000 ∨ 100000000 < v.get 31 0) := by omega
  simp only [spanLenAct, if_neg hok]
  split <;> exact ⟨rfl, rfl⟩

theorem State.fld_plainWrite_SPAN_LEN (s : State) (v : Word) :
    (s.plainWrite R.SPAN_LEN v).fld R.SPAN_LEN F.SPAN_LEN.LOCAL_LEN_NS = v.get 31 0 := by
  rw [State.fld, State.reg_plainWrite]
  exact get_writeFields_of_rw fieldsApart_SPAN_LEN _ v (f := F.SPAN_LEN.LOCAL_LEN_NS) (by decide) rfl

/-! ## SPAN_CFG (R37, R47, R48) -/

/-- The value a write of SPAN_CFG forms: SOURCE 3 leaves SOURCE as it is (R48). -/
def State.spanCfgFormed (s : State) (v : Word) : Word :=
  if v.get 1 0 = 3 then v.put 1 0 ((s.reg R.SPAN_CFG).get 1 0) else v

theorem State.bit_spanCfgFormed (s : State) (v : Word) : (s.spanCfgFormed v).bit 4 = v.bit 4 := by
  unfold State.spanCfgFormed
  split
  · exact Word.bit_put_of_lt v _ (by decide) (by decide)
  · rfl

/-- ENABLE written 0 writes the fields and enters FREE. -/
theorem spanCfgAct_of_disable (s : State) {v : Word} (h : v.bit 4 = false) :
    spanCfgAct v s = (s.plainWrite R.SPAN_CFG (s.spanCfgFormed v)).spanToFree true := by
  have hv : (s.spanCfgFormed v).bit 4 = false := (s.bit_spanCfgFormed v).trans h
  unfold State.spanCfgFormed at hv ⊢
  simp [spanCfgAct, hv]

/-- The source fields stay as they are while ENABLE stays 1: the write's other fields are taken, and it is refused (R47). -/
theorem spanCfgAct_of_busy (s : State) {v : Word} (hen : s.spanEnabled = true) (hv : v.bit 4 = true) (hsrc : v.get 1 0 ≠ 3)
    (hne : v.get 3 0 ≠ (s.reg R.SPAN_CFG).get 3 0) :
    spanCfgAct v s = ((s.plainWrite R.SPAN_CFG (v.put 3 0 ((s.reg R.SPAN_CFG).get 3 0))).setFld R.SPAN_STATUS F.SPAN_STATUS.CFG_REFUSED 1).raiseHub
      Sev.INFO St.SPAN_CFG_BUSY Uk.SPAN := by
  have hold : (s.reg R.SPAN_CFG).bit 4 = true := s.spanEnabled_eq ▸ hen
  have hput : (v.put 3 0 ((s.reg R.SPAN_CFG).get 3 0)).bit 4 = true := (Word.bit_put_of_lt v _ (by decide) (by decide)).trans hv
  simp [spanCfgAct, hold, hv, hsrc, hne, hput]

/-- After the refusal SOURCE, SPAN_IN_SEL and ANCHOR read as before. -/
theorem State.get_plainWrite_SPAN_CFG_kept (s : State) (v : Word) :
    ((s.plainWrite R.SPAN_CFG (v.put 3 0 ((s.reg R.SPAN_CFG).get 3 0))).reg R.SPAN_CFG).get 3 0 = (s.reg R.SPAN_CFG).get 3 0 := by
  calc ((s.plainWrite R.SPAN_CFG (v.put 3 0 ((s.reg R.SPAN_CFG).get 3 0))).reg R.SPAN_CFG).get 3 0
    _ = (v.put 3 0 ((s.reg R.SPAN_CFG).get 3 0)).get 3 0 :=
      Word.get_eq_of_bit fun i _ hi => s.bit_plainWrite_SPAN_CFG _ (by omega)
    _ = (s.reg R.SPAN_CFG).get 3 0 % 2 ^ 4 := Word.get_put v 3 0 _ (by decide)
    _ = (s.reg R.SPAN_CFG).get 3 0 := Nat.mod_eq_of_lt (Nat.mod_lt _ (by decide))

/-! ## SPAN_CTL (R57) -/

theorem relockAct_of_following {s : State} {v : Word} (hv : v.bit 0 = true) (hen : s.spanEnabled = true) (hsrc : s.spanSource ≠ 0)
    (hst : s.spanState ≠ SpanS.FREE) : relockAct v s = s.spanToAcquiring := by
  simp [relockAct, hv, hen, hsrc, hst]

theorem restartAct_of_enabled {s : State} {v : Word} (hv : v.bit 1 = true) (hen : s.spanEnabled = true) :
    restartAct v s = s.setFld R.SPAN_STATUS F.SPAN_STATUS.CFG_REFUSED 1 := by
  simp [restartAct, hv, hen]

theorem restartAct_of_disabled {s : State} {v : Word} (hv : v.bit 1 = true) (hen : s.spanEnabled = false) :
    restartAct v s = s.spanStepTo 0 := by
  simp [restartAct, hv, hen]

/-- After a step the unit has the value it stepped to (R30). -/
theorem State.spanNow_spanStepTo (s : State) (v : Word) : (s.spanStepTo v).spanNow = v := SpanSt.valueAt_baseAt _

/-- A refused configuration write sets CFG_REFUSED and nothing else (R49, R57). -/
theorem State.refuse_frame (s : State) :
    let t := s.setFld R.SPAN_STATUS F.SPAN_STATUS.CFG_REFUSED 1
    t.fld R.SPAN_STATUS F.SPAN_STATUS.CFG_REFUSED = 1 ∧ t = { s with regs := t.regs } ∧ RegsBut [R.SPAN_STATUS] s t :=
  ⟨State.fld_setFld_of_le _ _ _ (by decide) (by decide), rfl, (RegsBut.refl _ s).setFld _ _ (by simp)⟩

/-- Settles O8: each register's write goes through one effect, taken in the case of the value written and of ENABLE. -/
theorem spanConfiguration : Obligations.SpanConfiguration := by
  unfold Obligations.SpanConfiguration
  intro s w v hon
  obtain ⟨hrefused, hframe, hregs⟩ := s.refuse_frame
  refine ⟨fun hw => ⟨fun hbad => ?_, fun ⟨hlo, hhi⟩ => ?_⟩, fun hw hdis => ?_, fun hw hen hv hsrc hne => ?_, fun hw hv hen hsrc hst => ?_,
    fun hw hv hen => ?_, fun hw hv hen => ?_⟩
  · have hexec : exec (.spanLenWrite w) s = .next (spanLenAct v s) := State.whileOn_write _ hon hw
    rw [spanLenAct_of_bad s hbad] at hexec
    exact .of hexec ⟨State.reg_setFld_of_ne _ _ _ (by decide), hrefused, hframe, hregs⟩
  · have hexec : exec (.spanLenWrite w) s = .next (spanLenAct v s) := State.whileOn_write _ hon hw
    obtain ⟨hwrite, hsame⟩ := spanLenAct_of_ok s hlo hhi
    refine .of hexec ⟨?_, hsame, ((RegsBut.refl _ s).setReg _ (by simp)).of_regs hwrite⟩
    rw [State.fld_of_regs_eq hwrite, State.fld_plainWrite_SPAN_LEN]
  · have hexec : exec (.spanCfgWrite w) s = .next (spanCfgAct v s) := State.whileOn_write _ hon hw
    rw [spanCfgAct_of_disable s hdis] at hexec
    have hfree := (s.plainWrite R.SPAN_CFG (s.spanCfgFormed v)).regsBut_spanToFree
    refine .of hexec ⟨State.spanState_spanToFree _, State.spanValid_spanToFree _, ?_, rfl, ?_⟩
    · rw [State.spanEnabled_eq, hfree R.SPAN_CFG (by decide), s.bit_plainWrite_SPAN_CFG _ (by decide), s.bit_spanCfgFormed, hdis]
    · exact ((RegsBut.refl _ s).setReg _ (by simp)).trans (hfree.mono (by simp))
  · have hexec : exec (.spanCfgWrite w) s = .next (spanCfgAct v s) := State.whileOn_write _ hon hw
    rw [spanCfgAct_of_busy s hen hv hsrc hne] at hexec
    refine .of hexec ⟨?_, State.fld_setFld_of_le _ _ _ (by decide) (by decide), by simp, rfl,
      (((RegsBut.refl _ s).setReg _ (by simp)).setFld _ _ (by simp)).raise _⟩
    rw [State.raiseHub, State.reg_raise, State.reg_setFld_of_ne _ _ _ (by decide), s.get_plainWrite_SPAN_CFG_kept]
  · have hexec : exec (.relock w) s = .next (relockAct v s) := State.whileOn_write _ hon hw
    rw [relockAct_of_following hv hen hsrc hst] at hexec
    exact .of hexec ⟨s.spanState_spanToAcquiring, rfl, rfl, s.regsBut_spanToAcquiring⟩
  · have hexec : exec (.restart w) s = .next (restartAct v s) := State.whileOn_write _ hon hw
    rw [restartAct_of_enabled hv hen] at hexec
    exact .of hexec ⟨rfl, hrefused, hframe, hregs⟩
  · have hexec : exec (.restart w) s = .next (restartAct v s) := State.whileOn_write _ hon hw
    rw [restartAct_of_disabled hv hen] at hexec
    exact .of hexec ⟨s.spanNow_spanStepTo 0, by simp [State.spanStepTo], rfl⟩

/-! ## One context's record and state -/

/-- A context's key is its die's and its own number. -/
theorem cxKey_inj {d e : Die} {c b : Cx} (h : 128 * e.val + b.val = 128 * d.val + c.val) : (e, b) = (d, c) := by
  have hc := c.isLt
  have hb := b.isLt
  have hdie : e = d := Fin.ext (by omega)
  have hcx : b = c := Fin.ext (by omega)
  rw [hdie, hcx]

theorem State.cx_setCx_of_ne (s : State) {d e : Die} {c b : Cx} (x : Ctx) (h : (e, b) ≠ (d, c)) : (s.setCx d c x).cx e b = s.cx e b :=
  Sparse.get_set_of_ne _ x s.cxs fun he => h (cxKey_inj he)

theorem CxBut.refl (d : Die) (c : Cx) (s : State) : CxBut d c s s := fun _ _ _ => rfl

theorem CxBut.setCx {d : Die} {c : Cx} {s t : State} (x : Ctx) (h : CxBut d c s t) : CxBut d c s (t.setCx d c x) :=
  fun e b hne => (t.cx_setCx_of_ne x hne).trans (h e b hne)

@[simp] theorem State.cxState_setCx (s : State) (d : Die) (c : Cx) (x : Ctx) (e : Die) (b : Cx) : (s.setCx d c x).cxState e b = s.cxState e b :=
  rfl

@[simp] theorem State.cx_setCxState (s : State) (d : Die) (c : Cx) (v : Nat) (e : Die) (b : Cx) : (s.setCxState d c v).cx e b = s.cx e b := rfl

theorem State.cxState_setCxState (s : State) (d : Die) (c : Cx) {v : Nat} (hv : v ≤ 15) : (s.setCxState d c v).cxState d c = v :=
  State.fld_setFld_of_le _ _ _ (by decide) hv

/-! ## Stamps (R41, R42) -/

/-- A partition that is not paced takes its commands' stamps as they are (R441). -/
theorem State.effStamp_of_unpaced {s : State} {k : Cmd} (h : s.flag (R.FAB_PACE k.part) F.FAB_PACE.EN = false) : s.effStamp k = k.x1 := by
  simp [State.effStamp, h]

theorem State.stampOk_of_unpaced {s : State} {k : Cmd} (hen : k.stampEn = true) (h : s.flag (R.FAB_PACE k.part) F.FAB_PACE.EN = false) :
    s.stampOk k = (stampReached k.x1 s.spanNow && s.spanUsable && !s.frozen k.part) := by
  simp [State.stampOk, hen, State.effStamp_of_unpaced h]

/-- A context in WAIT_STAMP waits for its stamp alone. -/
theorem stampReachedStep_of_waiting {s : State} {d : Die} {c : Cx} {k : Cmd} (hcur : (s.cx d c).cur = some k)
    (hst : s.cxState d c = CxS.WAIT_STAMP) :
    stampReachedStep d c s = if s.stampOk k then s.setCxState d c CxS.READY else s := by
  simp [stampReachedStep, hcur, hst]

/-- What is left to the stamp, in 1/16 ns at the estimated span length. -/
def State.stampLeft (s : State) (stamp : Word) : Nat := (stamp - s.spanNow).toInt.toNat * s.span.len / 16777216

theorem prearmReached_of_waiting {s : State} {d : Die} {c : Cx} {k : Cmd} (hcur : (s.cx d c).cur = some k)
    (hst : s.cxState d c = CxS.WAIT_STAMP) (hen : k.stampEn = true) (h : s.flag (R.FAB_PACE k.part) F.FAB_PACE.EN = false) :
    prearmReached d c s = if k.kind ≠ 3 ∧ s.stampLeft k.x1 ≤ s.fld R.SPAN_LIMITS F.SPAN_LIMITS.PREARM * 160 then
      s.setCx d c { s.cx d c with reserved := true } else s := by
  simp [prearmReached, State.stampLeft, hcur, hst, hen, State.effStamp_of_unpaced h]

/-! ## Polled gates (R72) -/

/-- With no polled gate run ahead of the one at ISSUE, rereading the flights' gates finds them as they are. -/
theorem State.pollFlights_of_none {s : State} {d : Die} {c : Cx} (h : ∀ f ∈ (s.cx d c).flights, f.polledAt = none) :
    s.pollFlights d c = s.setCx d c (s.cx d c) := by
  rw [State.pollFlights, List.map_congr_left (g := id) fun f hf => by simp [h f hf], List.map_id]

/-- The context at ISSUE polls its gate 1 µs after it last read it. -/
theorem gatePoll_of_due {s : State} {d : Die} {c : Cx} {k : Cmd} (hcur : (s.cx d c).cur = some k) (hst : s.cxState d c = CxS.WAIT_GATE)
    (hpol : (s.cx d c).polled = true) (hdue : (s.cx d c).waitSince + 16000 ≤ s.now) (hfl : ∀ f ∈ (s.cx d c).flights, f.polledAt = none) :
    gatePoll d c s = (s.setCx d c (s.cx d c)).pollGate d c k := by
  simp [gatePoll, State.pollFlights_of_none hfl, hpol, hdue, hst, hcur]

/-- A gate other than CONSUME found true (R72). -/
theorem State.pollGate_of_true {s : State} {d : Die} {c : Cx} {k : Cmd} (hk : k.gateCond < 2)
    (h : (s.quire k.gateQ).gateTrue k.gateCond k.gateVal = true) :
    s.pollGate d c k =
      (s.setCx d c { s.cx d c with gateHeld := true, consumeHeld := false, polled := false, waitSince := s.now }).setCxState d c CxS.READY := by
  have hk' : k.gateCond ≠ 2 := by omega
  simp [State.pollGate, hk', h]

theorem State.pollGate_of_false {s : State} {d : Die} {c : Cx} {k : Cmd} (hk : k.gateCond < 2)
    (h : (s.quire k.gateQ).gateTrue k.gateCond k.gateVal = false) :
    s.pollGate d c k = s.setCx d c { s.cx d c with waitSince := s.now } := by
  have hk' : k.gateCond ≠ 2 := by omega
  simp [State.pollGate, hk', h]

section
variable {s : State} {m : Nat} {d : Die} {c : Cx} {k : Cmd} (hon : s.On) (hcur : (s.cx d c).cur = some k)
include hon hcur

theorem exec_stampReached_of_waiting (hst : s.cxState d c = CxS.WAIT_STAMP) (hen : k.stampEn = true)
    (hpace : s.flag (R.FAB_PACE k.part) F.FAB_PACE.EN = false) :
    exec (.stampReached m d c) s = .next (if stampReached k.x1 (s.atTime m).spanNow && s.spanUsable && !s.frozen k.part then
      (s.atTime m).setCxState d c CxS.READY else s.atTime m) := by
  have hok : (s.atTime m).stampOk k = (stampReached k.x1 (s.atTime m).spanNow && s.spanUsable && !s.frozen k.part) :=
    State.stampOk_of_unpaced (s := s.atTime m) hen hpace
  rw [← hok, ← stampReachedStep_of_waiting (s := s.atTime m) hcur hst]
  exact State.whileOn_on _ hon

theorem exec_prearmReached_of_waiting (hst : s.cxState d c = CxS.WAIT_STAMP) (hen : k.stampEn = true)
    (hpace : s.flag (R.FAB_PACE k.part) F.FAB_PACE.EN = false) :
    exec (.prearmReached m d c) s =
      .next (if k.kind ≠ 3 ∧ (s.atTime m).stampLeft k.x1 ≤ s.fld R.SPAN_LIMITS F.SPAN_LIMITS.PREARM * 160 then
        (s.atTime m).setCx d c { s.cx d c with reserved := true } else s.atTime m) := by
  have hstep := prearmReached_of_waiting (s := s.atTime m) hcur hst hen hpace
  exact (State.whileOn_on _ hon).trans (congrArg Host.Outcome.next hstep)

theorem exec_gatePoll_of_due (hm : s.now ≤ m) (hst : s.cxState d c = CxS.WAIT_GATE) (hpol : (s.cx d c).polled = true)
    (hdue : (s.cx d c).waitSince + 16000 ≤ m) (hfl : ∀ f ∈ (s.cx d c).flights, f.polledAt = none) :
    exec (.gatePoll m d c) s = .next (((s.atTime m).setCx d c (s.cx d c)).pollGate d c k) := by
  have hdue' : (s.cx d c).waitSince + 16000 ≤ (s.atTime m).now := by rwa [State.now_atTime_of_le hm]
  have hstep := gatePoll_of_due (s := s.atTime m) hcur hst hpol hdue' hfl
  exact (State.whileOn_on _ hon).trans (congrArg Host.Outcome.next hstep)

end

/-- Settles O17: the waiting context's command decides at its stamp, at its prearm point, and at each reading of its gate. -/
theorem stampsAndPolls : Obligations.StampsAndPolls := by
  unfold Obligations.StampsAndPolls
  intro s m d c k hon hm hcur
  refine ⟨fun hst hen hpace => ⟨fun hreach huse hfro => ?_, fun hnot => ?_, fun hkind hle => ?_, fun hlt => ?_⟩,
    fun hst hpol hdue hk hfl => ⟨fun htrue => ?_, fun hfalse => ?_⟩⟩
  · have hexec := exec_stampReached_of_waiting (m := m) hon hcur hst hen hpace
    rw [if_pos (by simp [hreach, huse, hfro])] at hexec
    exact .of hexec ⟨State.cxState_setCxState _ d c (by decide), rfl, (RegsBut.refl _ s).setFld _ _ (by simp)⟩
  · rw [exec_stampReached_of_waiting (m := m) hon hcur hst hen hpace, if_neg]
    rcases hnot with h | h | h <;> simp [h]
  · rw [exec_prearmReached_of_waiting (m := m) hon hcur hst hen hpace, if_pos ⟨hkind, hle⟩]
  · rw [exec_prearmReached_of_waiting (m := m) hon hcur hst hen hpace, if_neg fun h => Nat.not_le.mpr hlt h.2]
  · have hexec := exec_gatePoll_of_due hon hcur hm hst hpol hdue hfl
    rw [State.pollGate_of_true (s := (s.atTime m).setCx d c (s.cx d c)) hk htrue] at hexec
    refine .of hexec ⟨State.cxState_setCxState _ d c (by decide), by simp, by simp, by simp, rfl, ?_, (RegsBut.refl _ s).setFld _ _ (by simp)⟩
    exact ((CxBut.refl d c s).setCx _).setCx _
  · have hexec := exec_gatePoll_of_due hon hcur hm hst hpol hdue hfl
    rw [State.pollGate_of_false (s := (s.atTime m).setCx d c (s.cx d c)) hk hfalse] at hexec
    refine .of hexec ⟨?_, rfl, ((CxBut.refl d c s).setCx _).setCx _⟩
    rw [State.cx_setCx, State.cx_setCx, State.setCx_now, State.now_atTime_of_le hm]

/-! ## Reference events on SPAN_IN (R34, R37) -/

/-- An event within the threshold leaves a LOCKED unit LOCKED: it is captured, and its phase error shown. -/
theorem State.refEvent_of_locked {s : State} {e : Int} (hst : s.spanState = SpanS.LOCKED) (hin : s.withinLock e = true) :
    s.refEvent e = { (s.setReg R.SPAN_CAP_REF s.spanNow).setFld R.SPAN_STATUS F.SPAN_STATUS.PHASE_ERR (s.phaseErr e) with
      span := { s.span with refAcceptedAt := some s.now } } := by
  simp [State.refEvent, hst, hin, SpanS.LOCKED, SpanS.FREE, SpanS.HOLDOVER]

theorem spanInPulse_of_locked {s : State} (hon : s.onSpanIn = true) (hst : s.spanState = SpanS.LOCKED)
    (hin : s.withinLock (fracOffset (s.spanNow.get 23 0) 0) = true) :
    spanInPulse s =
      { (s.setReg R.SPAN_CAP_REF s.spanNow).setFld R.SPAN_STATUS F.SPAN_STATUS.PHASE_ERR (s.phaseErr (fracOffset (s.spanNow.get 23 0) 0)) with
        span := { s.span with refAcceptedAt := some s.now, pulseAt := some s.now, wordSeen := false } } := by
  simp [spanInPulse, hon, State.refEvent_of_locked hst hin]

/-! ## Measurements (R578) -/

/-- A measurement changes SPAN_MEAS, the PLL's estimate, and the count of free values drawn. -/
theorem State.spanMeasure_frame (s : State) (at_ : Nat) (c : Option Nat) :
    s.spanMeasure at_ c = { s with regs := (s.spanMeasure at_ c).regs, span := (s.spanMeasure at_ c).span, drawn := (s.spanMeasure at_ c).drawn } ∧
      RegsBut [R.SPAN_MEAS] s (s.spanMeasure at_ c) ∧ (s.spanMeasure at_ c).span.refCount = s.span.refCount ∧
      (s.spanMeasure at_ c).span.wordSeen = s.span.wordSeen := by
  rcases h : s.span.lastRefAt with _ | a
  · simp only [State.spanMeasure, h]
    exact ⟨trivial, RegsBut.refl _ s, trivial, trivial⟩
  · simp only [State.spanMeasure, h]
    refine ⟨rfl, ?_, rfl, rfl⟩
    exact (RegsBut.refl [R.SPAN_MEAS] s).setFld F.SPAN_MEAS.LAST_LEN _ (by simp)

/-! ## Span words (R35) -/

/-- The unit with a word of count `c` taken as its reference. -/
def State.tookWord (s : State) (c : Nat) : State :=
  { s with span := { s.span with wordSeen := true, refCount := some c, runLast := none, runLen := 0 } }

/-- A valid word whose count follows the reference: the count becomes the reference and the pulse is measured; a LOCKED unit steps by no
offset. -/
theorem spanWordTaken_of_inSequence {s : State} {w : Word} {r : Nat} (p : Nat) (hv : spanWordValid w = true) (hr : s.span.refCount = some r)
    (hseq : w.get 47 8 = (r + 1) % 0x10000000000) (hst : s.spanState = SpanS.LOCKED) :
    spanWordTaken w p s = (s.tookWord (w.get 47 8)).spanMeasure p (some (w.get 47 8)) := by
  have hkept : ((s.tookWord (w.get 47 8)).spanMeasure p (some (w.get 47 8))).spanState = SpanS.LOCKED :=
    (((s.tookWord (w.get 47 8)).spanMeasure_frame p _).2.1.fld (by decide) _).trans hst
  have hnot : ¬ ((s.tookWord (w.get 47 8)).spanMeasure p (some (w.get 47 8))).spanState = SpanS.ACQUIRING := by rw [hkept]; decide
  have hin : (w.get 47 8 == (r + 1) % 0x10000000000) = true := beq_iff_eq.mpr hseq
  simp only [spanWordTaken, hv, hr, hin, if_true]
  exact if_neg fun h => hnot h.1

theorem spanWordAct_of_inTime {s : State} {w : Word} {p : Nat} (hp : s.span.pulseAt = some p) (hseen : s.span.wordSeen = false)
    (hin : s.now ≤ p + 160000) : spanWordAct w s = spanWordTaken w p s := by
  simp [spanWordAct, hp, hseen, hin]

/-- The unit with the word of its last pulse given up. -/
def State.missedWord (s : State) : State :=
  { s with span := { s.span with wordSeen := true, runLast := none, runLen := 0 } }

/-- No word within 10 µs of the pulse. -/
theorem spanWordTimeout_of_due {s : State} {p : Nat} (hp : s.span.pulseAt = some p) (hseen : s.span.wordSeen = false)
    (hdue : p + 160000 ≤ s.now) :
    spanWordTimeout s = s.missedWord.spanWordErr.spanMeasure p none := by
  simp [spanWordTimeout, hp, hseen, hdue, State.missedWord]

/-! ## Mains edges (R36, R486) -/

/-- A change of level is timed at its crossing (R563). -/
theorem mainsEdge_of_change {s : State} {l : Level} {m : Nat} (hl : s.span.mainsLevel ≠ l) (hnow : s.now = m) :
    mainsEdge l s = { s with span := { s.span with mainsLevel := l, mainsEdgeAt := some (m, s.spanNow) } } := by
  rw [mainsEdge, if_neg hl, hnow]

/-- The unit with the edge at moment `e` and span time `v` accepted (R54, R563). -/
def State.tookEdge (s : State) (e : Nat) (v : Word) : State :=
  { s with span := { s.span with mainsEdgeAt := none, mainsLastAt := some e } }.setReg R.SPAN_CAP_MAINS v

/-- The first edge to pass the filter is accepted, with no interval to check. -/
theorem mainsAccept_of_first {s : State} {e : Nat} {v : Word} (he : s.span.mainsEdgeAt = some (e, v)) (hdue : s.mainsDue = true)
    (hfirst : s.span.mainsLastAt = none) (hoff : s.onMains = false) :
    mainsAccept s = s.tookEdge e v := by
  have hjudge : s.mainsJudge e = .accept := by simp [State.mainsJudge, hfirst]
  simp [mainsAccept, he, hdue, mainsTake, hjudge, hoff, State.tookEdge]

/-- An accepted edge is taken into LS_MAINS and the controller's record of the last edges alone. -/
theorem State.mainsNote_frame (s : State) :
    s.mainsNote = { s with regs := s.mainsNote.regs, power := s.mainsNote.power } ∧ RegsBut [R.LS_MAINS] s s.mainsNote := by
  unfold State.mainsNote
  extract_lets l s1
  split
  · split
    · exact ⟨rfl, ((RegsBut.refl _ s).setFld _ _ (by simp)).setFld _ _ (by simp)⟩
    · exact ⟨rfl, RegsBut.refl _ s⟩
  · exact ⟨rfl, RegsBut.refl _ s⟩

/-- An edge that is accepted is noted for LS_MAINS. -/
theorem mainsEdgeAccepted_of_first {s : State} {e : Nat} {v : Word} (he : s.span.mainsEdgeAt = some (e, v)) (hdue : s.mainsDue = true)
    (hfirst : s.span.mainsLastAt = none) (hoff : s.onMains = false) :
    mainsEdgeAccepted s = (s.tookEdge e v).mainsNote := by
  have hnew : ((s.tookEdge e v).span.mainsLastAt != s.span.mainsLastAt) = true := by rw [hfirst]; rfl
  simp only [mainsEdgeAccepted, mainsAccept_of_first he hdue hfirst hoff, hnew, if_true]

/-- Settles O9: a LOCKED unit at a pulse, at its word and at a missing word; MAINS_REF at a change of level and at its first edge. -/
theorem spanReferenceEvents : Obligations.SpanReferenceEvents := by
  unfold Obligations.SpanReferenceEvents
  intro s m hon hm
  have hnow : (s.atTime m).now = m := State.now_atTime_of_le hm
  refine ⟨fun hfollow hst hin => ?_, fun p w r hp hseen hle hv hr hseq hst => ?_, fun p hp hseen hdue => ?_, fun l hl => ?_,
    fun e v he hdue hfirst hoff => ?_⟩
  · have hexec : exec (.spanInPulse m) s = .next (spanInPulse (s.atTime m)) := State.whileOn_on _ hon
    rw [spanInPulse_of_locked (s := s.atTime m) hfollow hst hin] at hexec
    refine .of hexec ⟨?_, rfl, ?_, congrArg some hnow, rfl, ?_⟩
    · exact (State.reg_setFld_of_ne _ _ _ (by decide)).trans (State.reg_setReg _ _ _)
    · exact ((State.fld_setFld_of_disjoint _ _ _ _ _ (by decide) (by decide)).trans (State.fld_setReg_of_ne _ _ _ (by decide))).trans hst
    · exact ((RegsBut.refl [R.SPAN_CAP_REF, R.SPAN_STATUS] s).setReg _ (by simp)).setFld F.SPAN_STATUS.PHASE_ERR _ (by simp)
  · have hexec : exec (.spanWord m w) s = .next (spanWordAct w (s.atTime m)) := State.whileOn_on _ hon
    rw [spanWordAct_of_inTime (s := s.atTime m) hp hseen (hnow.trans_le hle),
      spanWordTaken_of_inSequence (s := s.atTime m) p hv hr hseq hst] at hexec
    obtain ⟨hframe, hregs, hcount, hword⟩ := ((s.atTime m).tookWord (w.get 47 8)).spanMeasure_frame p (some (w.get 47 8))
    exact .of hexec ⟨hcount, hword, (hregs.fld (by decide) _).trans hst, hframe, hregs⟩
  · have hexec : exec (.spanWordTimeout m) s = .next (spanWordTimeout (s.atTime m)) := State.whileOn_on _ hon
    rw [spanWordTimeout_of_due (s := s.atTime m) hp hseen (hdue.trans_eq hnow.symm)] at hexec
    obtain ⟨hframe, hregs, -, -⟩ := (s.atTime m).missedWord.spanWordErr.spanMeasure_frame p none
    have hfaults : ((s.atTime m).missedWord.spanWordErr.spanMeasure p none).faults = (s.atTime m).missedWord.spanWordErr.faults := by rw [hframe]
    refine .of hexec ⟨?_, ?_, ?_, ?_⟩
    · rw [hregs.fld (by decide)]
      exact State.fld_setFld_of_le _ _ _ (by decide) (by decide)
    · rw [State.lastRaised, hfaults, ← State.lastRaised, State.spanWordErr, State.lastRaised_raiseHub]
      rfl
    · rw [hframe]
      rfl
    · have herr : RegsBut [R.SPAN_MEAS, R.SPAN_STATUS] s (s.atTime m).missedWord.spanWordErr :=
        (RegsBut.refl [R.SPAN_MEAS, R.SPAN_STATUS] s).setFld F.SPAN_STATUS.WORD_ERR 1 (by simp)
      exact herr.trans (hregs.mono (by simp))
  · rw [← mainsEdge_of_change (s := s.atTime m) hl hnow]
    exact State.whileOn_on _ hon
  · have hexec : exec (.mainsEdgeAccept m) s = .next (mainsEdgeAccepted (s.atTime m)) := State.whileOn_on _ hon
    rw [mainsEdgeAccepted_of_first (s := s.atTime m) he hdue hfirst hoff] at hexec
    obtain ⟨hframe, hregs⟩ := ((s.atTime m).tookEdge e v).mainsNote_frame
    refine .of hexec ⟨?_, ?_, ?_, ?_, ?_⟩
    · rw [hregs R.SPAN_CAP_MAINS (by decide), State.tookEdge, State.reg_setReg]
    all_goals
      rw [hframe]
      rfl

end Sys2Proof.Machine
end

section
/-!
Contexts and launch queues (03_launch.md): a context starts (O14), reads its slots (O15), completes, retires and stops at its commands
(O18); the plain control commands end (O20); and the two statements of the family that fail (O16, O19).
-/

namespace Sys2Proof.Machine

/-! ## A context's registers -/

/-- Two registers of a context's set at different places are different registers (R87 to R95). -/
theorem cxReg_ne (d c : Nat) {i j : Nat} (h : i ≠ j) : R.dieBase d + i + 0x80 * c ≠ R.dieBase d + j + 0x80 * c := by omega

theorem CX_FAULT_ne_CX_STATE (d c : Nat) : R.CX_FAULT d c ≠ R.CX_STATE d c := cxReg_ne d c (by decide)
theorem CX_FAULT_ne_CX_FAULT_ADDR (d c : Nat) : R.CX_FAULT d c ≠ R.CX_FAULT_ADDR d c := cxReg_ne d c (by decide)
theorem CX_FAULT_ADDR_ne_CX_STATE (d c : Nat) : R.CX_FAULT_ADDR d c ≠ R.CX_STATE d c := cxReg_ne d c (by decide)

theorem State.issueAt_setIssue (s : State) (d : Die) (c : Cx) {v : Nat} (hv : v < 65536) : (s.setIssue d c v).issueAt d c = v :=
  State.fld_setFld_of_le _ _ _ (by decide) (Nat.le_of_lt_succ hv)

theorem State.headAt_setIssue (s : State) (d : Die) (c : Cx) (v : Nat) : (s.setIssue d c v).headAt d c = s.headAt d c :=
  State.fld_setFld_of_disjoint _ _ _ _ _ (by decide) (by decide)

theorem State.qsize_pos (s : State) (d : Die) (c : Cx) : 0 < s.qsize d c := Nat.two_pow_pos _

/-- ISSUE moves on in the ring. -/
theorem State.issueAt_advance {s : State} {d : Die} {c : Cx} (n : Nat) (hq : s.qsize d c ≤ 65536) :
    (s.advance d c n).issueAt d c = (s.issueAt d c + n) % s.qsize d c :=
  State.issueAt_setIssue s d c ((Nat.mod_lt _ (s.qsize_pos d c)).trans_le hq)

/-- An advance of ISSUE is shown in CX_HEAD and in the context, whose flights stay. -/
theorem State.advance_frame (s : State) (d : Die) (c : Cx) (n : Nat) :
    ((s.advance d c n).cx d c).flights = (s.cx d c).flights ∧ s.advance d c n = { s with regs := (s.advance d c n).regs, cxs := (s.advance d c n).cxs } ∧
      CxBut d c s (s.advance d c n) ∧ RegsBut [R.CX_HEAD d c] s (s.advance d c n) := by
  refine ⟨?_, rfl, (CxBut.refl d c s).setCx _, (RegsBut.refl _ s).setFld F.CX_HEAD.ISSUE _ (by simp)⟩
  rw [State.advance, State.cx_setCx]

/-! ## A context stops (R83, R94) -/

/-- The word of CX_FAULT (R94). -/
def cxFaultWord (status slot kind unit : Nat) (abandoned done : Bool) : Word :=
  ((((((0 : Word).put 7 0 status).put 23 8 slot).put 25 24 kind).put 29 26 unit).put 30 30 (if abandoned then 1 else 0)).put 31 31
    (if done then 1 else 0)

section
variable (status slot kind unit : Nat) (abandoned done : Bool)

theorem cxFaultWord_status (h : status < 256) : (cxFaultWord status slot kind unit abandoned done).get 7 0 = status := by
  simp (disch := decide) only [cxFaultWord, Word.get_put_of_disjoint, Word.get_put]
  exact Nat.mod_eq_of_lt h

theorem cxFaultWord_slot (h : slot < 65536) : (cxFaultWord status slot kind unit abandoned done).get 23 8 = slot := by
  simp (disch := decide) only [cxFaultWord, Word.get_put_of_disjoint, Word.get_put]
  exact Nat.mod_eq_of_lt h

theorem cxFaultWord_kind (h : kind < 4) : (cxFaultWord status slot kind unit abandoned done).get 25 24 = kind := by
  simp (disch := decide) only [cxFaultWord, Word.get_put_of_disjoint, Word.get_put]
  exact Nat.mod_eq_of_lt h

theorem cxFaultWord_unit (h : unit < 16) : (cxFaultWord status slot kind unit abandoned done).get 29 26 = unit := by
  simp (disch := decide) only [cxFaultWord, Word.get_put_of_disjoint, Word.get_put]
  exact Nat.mod_eq_of_lt h

theorem cxFaultWord_abandoned : (cxFaultWord status slot kind unit abandoned done).get 30 30 = if abandoned then 1 else 0 := by
  simp (disch := decide) only [cxFaultWord, Word.get_put_of_disjoint, Word.get_put]
  cases abandoned <;> rfl

theorem cxFaultWord_done : (cxFaultWord status slot kind unit abandoned done).get 31 31 = if done then 1 else 0 := by
  simp (disch := decide) only [cxFaultWord, Word.get_put]
  cases done <;> rfl

variable (s : State) (d : Die) (c : Cx) (addr code : Nat)

theorem State.reg_cxStop_fault : (s.cxStop d c status slot kind unit addr code abandoned done).reg (R.CX_FAULT d c) =
    cxFaultWord status slot kind unit abandoned done := by
  rw [State.cxStop, State.cxRecord, State.reg_raise, State.setCxState, State.reg_setFld_of_ne _ _ _ (CX_FAULT_ne_CX_STATE d c),
    State.reg_setReg_of_ne _ _ (CX_FAULT_ne_CX_FAULT_ADDR d c), State.reg_setReg]
  rfl

theorem State.faultAddr_cxStop (h : addr < 2 ^ 64) :
    ((s.cxStop d c status slot kind unit addr code abandoned done).reg (R.CX_FAULT_ADDR d c)).toNat = addr := by
  rw [State.cxStop, State.cxRecord, State.reg_raise, State.setCxState, State.reg_setFld_of_ne _ _ _ (CX_FAULT_ADDR_ne_CX_STATE d c),
    State.reg_setReg]
  exact Nat.mod_eq_of_lt h

theorem State.cxState_cxStop : (s.cxStop d c status slot kind unit addr code abandoned done).cxState d c =
    if isXlate status then CxS.WAIT_FAULT else CxS.STALLED :=
  State.cxState_setCxState _ d c (by split <;> decide)

theorem State.cxStopped_cxStop : (s.cxStop d c status slot kind unit addr code abandoned done).cxStopped d c = true := by
  rw [State.cxStopped, State.cxState_cxStop]
  split <;> rfl

/-- The record of the stop (R83). -/
theorem State.lastRaised_cxStop : (s.cxStop d c status slot kind unit addr code abandoned done).lastRaised.map
      (fun r => (r.status, r.sev, r.detail, r.cx, r.cxDie)) =
    some (status, if isXlate status then Sev.DEFERRED else Sev.FATAL_UNIT, code, c.val, d.val) := by
  rw [State.cxStop, State.cxRecord, State.lastRaised_raise]
  rfl

theorem State.cxStop_frame : s.cxStop d c status slot kind unit addr code abandoned done =
      { s with regs := (s.cxStop d c status slot kind unit addr code abandoned done).regs,
               faults := (s.cxStop d c status slot kind unit addr code abandoned done).faults } ∧
    RegsBut [R.CX_STATE d c, R.CX_FAULT d c, R.CX_FAULT_ADDR d c] s (s.cxStop d c status slot kind unit addr code abandoned done) :=
  ⟨rfl, ((((RegsBut.refl _ s).setReg _ (by simp)).setReg _ (by simp)).setFld F.CX_STATE.STATE _ (by simp)).raise _⟩

end

/-! ## SLOT_READ (R59, R68, R86, R580) -/

/-- May the context read at ISSUE? -/
def State.readsSlot (s : State) (d : Die) (c : Cx) : Prop :=
  s.cxState d c = CxS.READY ∧ (s.cx d c).cur = none ∧ (s.cx d c).resetting = none ∧ (s.cx d c).inFe = false

theorem State.not_readsSlot_iff {s : State} {d : Die} {c : Cx} : ¬ s.readsSlot d c ↔
    s.cxState d c ≠ CxS.READY ∨ (s.cx d c).cur ≠ none ∨ (s.cx d c).resetting ≠ none ∨ (s.cx d c).inFe = true := by
  simp only [State.readsSlot, not_and_or, Bool.not_eq_false, ne_eq]

theorem slotRead_of_not_ready {s : State} {d : Die} {c : Cx} (h : ¬ s.readsSlot d c) : slotRead d c s = s :=
  if_pos (State.not_readsSlot_iff.mp h)

section
variable {s u : State} {d : Die} {c : Cx} (h : s.readsSlot d c)
include h

theorem slotRead_of_free (hf : (s.cx d c).flight (s.issueAt d c) = none) : slotRead d c s = s.fetchSlot d c := by
  rw [slotRead, if_neg fun hn => State.not_readsSlot_iff.mpr hn h, hf]

/-- ISSUE passes over a command issued before it returned (R580). -/
theorem slotRead_of_back {f : Flight} (hf : (s.cx d c).flight (s.issueAt d c) = some f) (hb : 0 < (s.cx d c).back)
    (hh : f.cmd.isCtl Op.HALT = false) : slotRead d c s = s.advance d c f.cmd.slots := by
  rw [slotRead, if_neg fun hn => State.not_readsSlot_iff.mpr hn h, hf]
  simp [hb, hh]

end

section
variable {s u : State} {d : Die} {c : Cx} {w0 w1 w2 w3 : Word}

theorem State.fetchSlot_of_empty (h : s.readSlot d c (s.issueAt d c) = (.words w0 w1 w2 w3, u)) (hv : w0.get 3 0 = 0) :
    s.fetchSlot d c = u.goEmpty d c := by
  simp [State.fetchSlot, h, hv]

/-- A command with no extension is taken and waits at ISSUE. -/
theorem State.fetchSlot_of_full (h : s.readSlot d c (s.issueAt d c) = (.words w0 w1 w2 w3, u)) (hv : w0.get 3 0 ≠ 0)
    (hext : w0.bit 18 = false) (hskip : (u.cx d c).skipGroup = false) :
    s.fetchSlot d c = u.setCx d c { u.cx d c with cur := some ⟨w0, w1, w2, w3, 0, 0, 0, 0⟩, waitSince := u.now } := by
  simp [State.fetchSlot, h, hv, hext, State.takeSlot, hskip]

theorem State.fetchSlot_of_fault {st va : Nat} (h : s.readSlot d c (s.issueAt d c) = (.fault st va, u)) :
    s.fetchSlot d c = u.cxStop d c st (s.issueAt d c) 0 0 va 0 false false := by
  simp [State.fetchSlot, h]

end

/-- Settles O15: a context that may not read leaves the state; one that may passes over an issued command, or reads the slot. -/
theorem Launch.slotRead : Obligations.SlotRead := by
  unfold Obligations.SlotRead
  intro s u d c w0 w1 w2 w3 hon ready slot
  have hexec : exec (.slotRead d c) s = .next (Machine.slotRead d c s) := State.whileOn_on _ hon
  refine ⟨fun hr hf hread => ⟨fun hv => ?_, fun hv hext hskip => ?_⟩, fun st va hr hf hread hst hslot hva => ?_,
    fun f hr hf hb hh hq => ?_, fun hr => ?_⟩
  · rw [slotRead_of_free hr hf, State.fetchSlot_of_empty hread hv] at hexec
    refine .of hexec ⟨State.cxState_setCxState u d c (by decide), State.cx_setCx _ d c _, rfl, ?_, ?_⟩
    · exact (CxBut.refl d c u).setCx _
    · exact (RegsBut.refl _ u).setFld F.CX_STATE.STATE _ (by simp)
  · rw [hexec, slotRead_of_free hr hf, State.fetchSlot_of_full hread hv hext hskip]
  · rw [slotRead_of_free hr hf, State.fetchSlot_of_fault hread] at hexec
    obtain ⟨hframe, hregs⟩ := State.cxStop_frame st slot 0 0 false false u d c va 0
    refine .of hexec ⟨?_, ?_, ?_, State.faultAddr_cxStop _ _ _ _ _ _ u d c va 0 hva, State.cxStopped_cxStop _ _ _ _ _ _ u d c va 0, ?_,
      hframe, hregs⟩
    · rw [State.fld, State.reg_cxStop_fault]
      exact cxFaultWord_status _ _ _ _ _ _ hst
    · rw [State.fld, State.reg_cxStop_fault]
      exact cxFaultWord_slot _ _ _ _ _ _ hslot
    · rw [State.fld, State.reg_cxStop_fault]
      exact cxFaultWord_done _ _ _ _ _ _
    · rw [State.cxStop, State.cxRecord, State.lastRaised_raise]
      rfl
  · rw [slotRead_of_back hr hf hb hh] at hexec
    obtain ⟨hfl, hframe, hbut, hregs⟩ := s.advance_frame d c f.cmd.slots
    exact .of hexec ⟨State.issueAt_advance _ hq, hfl, hframe, hbut, hregs⟩
  · rw [hexec, slotRead_of_not_ready hr]

theorem regFields_die {d : Nat} (hd : d < 4) {r : Nat} (hr : r < 0x1000000) :
    regFields (R.dieBase d + r) = (dieRegs.find? (·.holds r)).map (·.fields) := by
  have hlo : 0x1000000 ≤ R.dieBase d + r := by unfold R.dieBase; omega
  have hhi : R.dieBase d + r < 0x5000000 := by unfold R.dieBase; omega
  have hmod : (R.dieBase d + r) % 0x1000000 = r := by unfold R.dieBase; omega
  rw [regFields, if_pos hlo, if_pos hhi, hmod]

theorem dieRegs_find_CX_CFG : ∀ c : Cx, (dieRegs.find? (·.holds (0x0 + 0x80 * c.val))).map (·.fields) = some F.CX_CFG.all := by decide
theorem dieRegs_find_CX_ATP : ∀ c : Cx, (dieRegs.find? (·.holds (0x8 + 0x80 * c.val))).map (·.fields) = some F.CX_ATP.all := by decide

theorem regFields_CX_CFG (d : Die) (c : Cx) : regFields (R.CX_CFG d c) = some F.CX_CFG.all := by
  rw [← dieRegs_find_CX_CFG c, ← regFields_die d.isLt (by omega), R.CX_CFG, Nat.add_assoc]
theorem regFields_CX_ATP (d : Die) (c : Cx) : regFields (R.CX_ATP d c) = some F.CX_ATP.all := by
  rw [← dieRegs_find_CX_ATP c, ← regFields_die d.isLt (by omega), R.CX_ATP, Nat.add_assoc]

theorem CX_CFG_ne_CX_STATE (d c : Nat) : R.CX_CFG d c ≠ R.CX_STATE d c := cxReg_ne d c (by decide)
theorem CX_CFG_ne_CX_HEAD (d c : Nat) : R.CX_CFG d c ≠ R.CX_HEAD d c := cxReg_ne d c (by decide)
theorem CX_HEAD_ne_CX_STATE (d c : Nat) : R.CX_HEAD d c ≠ R.CX_STATE d c := cxReg_ne d c (by decide)
theorem CX_ATP_ne_CX_CFG (d c : Nat) : R.CX_ATP d c ≠ R.CX_CFG d c := cxReg_ne d c (by decide)

/-! ## A write that keeps some fields -/

/-- A write of the fields by their types with some of them kept (R87), bit by bit. -/
theorem bit_foldl_keep {keep : List Fld} (h64 : ∀ f ∈ keep, f.hi < 64) (old new : Word) (i : Nat) :
    (keep.foldl (fun w f => (w &&& ~~~(Word.mask f.hi f.lo)) ||| (old &&& Word.mask f.hi f.lo)) new).bit i =
      if keep.any (·.has i) then old.bit i else new.bit i := by
  induction keep generalizing new with
  | nil => simp
  | cons g fs ih =>
    rw [List.forall_mem_cons] at h64
    rw [List.foldl_cons, ih h64.2, Word.bit_or, Word.bit_and_not, Word.bit_and, g.bit_mask i h64.1]
    cases hg : g.has i <;> simp [hg]

section
variable (s : State) (o : Nat) (v : Word) {keep : List Fld} (h64 : ∀ f ∈ keep, f.hi < 64) {f : Fld}
include h64

theorem State.bit_plainWriteBut (i : Nat) : ((s.plainWriteBut o v keep).reg o).bit i =
    if keep.any (·.has i) then (s.reg o).bit i else (writeFields ((regFields o).getD []) (s.reg o) v).bit i := by
  rw [State.plainWriteBut, State.reg_setReg, bit_foldl_keep h64]

theorem State.fld_plainWriteBut_of_mem (hf : f ∈ keep) : (s.plainWriteBut o v keep).fld o f = s.fld o f :=
  Word.get_eq_of_bit fun i hl hh => by
    rw [State.bit_plainWriteBut s o v h64, if_pos (List.any_eq_true.mpr ⟨f, hf, Fld.has_of_le hl hh⟩)]

/-- A writable field apart from those kept takes the value written. -/
theorem State.fld_plainWriteBut_of_rw (ha : FieldsApart ((regFields o).getD [])) (hf : f ∈ (regFields o).getD []) (hty : f.ty = .rw)
    (hap : ∀ k ∈ keep, f.hi < k.lo ∨ k.hi < f.lo) : (s.plainWriteBut o v keep).fld o f = v.get f.hi f.lo := by
  rw [← get_writeFields_of_rw ha (s.reg o) v hf hty]
  refine Word.get_eq_of_bit fun i hl hh => ?_
  rw [State.bit_plainWriteBut s o v h64, if_neg]
  rw [List.any_eq_true, not_exists]
  rintro k ⟨hk, hhas⟩
  have hno := Fld.has_eq_false_of_apart (Fld.has_of_le hl hh) (hap k hk)
  simp [hno] at hhas

end

theorem State.plainWriteBut_frame (s : State) (o : Nat) (v : Word) (keep : List Fld) :
    s.plainWriteBut o v keep = { s with regs := (s.plainWriteBut o v keep).regs } ∧ RegsBut [o] s (s.plainWriteBut o v keep) :=
  ⟨rfl, (RegsBut.refl _ s).setReg _ (by simp)⟩

theorem fieldsApart_CX_CFG : FieldsApart F.CX_CFG.all := by unfold FieldsApart; decide

/-- A field of CX_CFG apart from those kept takes the value written (R87). -/
theorem State.fld_CX_CFG_written (s : State) (d : Die) (c : Cx) (v : Word) {keep : List Fld} (h64 : ∀ f ∈ keep, f.hi < 64) {f : Fld}
    (hf : f ∈ F.CX_CFG.all) (hap : ∀ k ∈ keep, f.hi < k.lo ∨ k.hi < f.lo) :
    (s.plainWriteBut (R.CX_CFG d c) v keep).fld (R.CX_CFG d c) f = v.get f.hi f.lo := by
  have hfields : (regFields (R.CX_CFG d c)).getD [] = F.CX_CFG.all := by rw [regFields_CX_CFG, Option.getD_some]
  refine State.fld_plainWriteBut_of_rw s _ v h64 (hfields ▸ fieldsApart_CX_CFG) (hfields ▸ hf) ?_ hap
  have hrw : ∀ f ∈ F.CX_CFG.all, f.ty = .rw := by decide
  exact hrw f hf

/-- The fields of CX_ATP take the whole word. -/
theorem writeFields_CX_ATP (old v : Word) : writeFields F.CX_ATP.all old v = v := by
  have ha : FieldsApart F.CX_ATP.all := by unfold FieldsApart; decide
  have hall : ∀ i < 64, ∃ f ∈ F.CX_ATP.all, f.ty = .rw ∧ f.has i = true := by decide
  refine BitVec.eq_of_getLsbD_eq fun i hi => ?_
  obtain ⟨f, hf, hty, hhas⟩ := hall i hi
  change (writeFields F.CX_ATP.all old v).bit i = v.bit i
  rw [bit_writeFields_of_mem ha old v hf hhas, Fld.writeBit, hty]

theorem State.plainWrite_CX_ATP (s : State) (d : Die) (c : Cx) (v : Word) : s.plainWrite (R.CX_ATP d c) v = s.setReg (R.CX_ATP d c) v := by
  rw [State.plainWrite, regFields_CX_ATP, Option.getD_some, writeFields_CX_ATP]

/-! ## What a context's updates leave of the registers -/

theorem RegsBut.setCx {l : List Nat} {s t : State} (d : Die) (c : Cx) (x : Ctx) (h : RegsBut l s t) : RegsBut l s (t.setCx d c x) :=
  h.of_regs rfl

theorem RegsBut.setCxState {s t : State} (d : Die) (c : Cx) (v : Nat) (h : RegsBut [R.CX_STATE d c] s t) :
    RegsBut [R.CX_STATE d c] s (t.setCxState d c v) := h.setFld F.CX_STATE.STATE v (by simp)

theorem RegsBut.cxShow {s t : State} (d : Die) (c : Cx) (h : RegsBut [R.CX_STATE d c] s t) : RegsBut [R.CX_STATE d c] s (t.cxShow d c) :=
  (h.setFld F.CX_STATE.INFLIGHT _ (by simp)).setFld F.CX_STATE.IN_GROUP _ (by simp)

/-! ## Updates of registers and contexts alone -/

/-- Nothing but registers, and what contexts keep beside them, differs in `t` from `s`. -/
def RegsCxsOnly (s t : State) : Prop := t = { s with regs := t.regs, cxs := t.cxs }

theorem RegsCxsOnly.refl (s : State) : RegsCxsOnly s s := rfl

section
variable {s t : State} (h : RegsCxsOnly s t)
include h

theorem RegsCxsOnly.setReg (o : Nat) (w : Word) : RegsCxsOnly s (t.setReg o w) := by
  rw [h]
  rfl

theorem RegsCxsOnly.setFld (o : Nat) (f : Fld) (v : Nat) : RegsCxsOnly s (t.setFld o f v) := h.setReg _ _

theorem RegsCxsOnly.setCx (d : Die) (c : Cx) (x : Ctx) : RegsCxsOnly s (t.setCx d c x) := by
  rw [h]
  rfl

theorem RegsCxsOnly.setIssue (d : Die) (c : Cx) (v : Nat) : RegsCxsOnly s (t.setIssue d c v) := h.setFld _ _ _

theorem RegsCxsOnly.setCxState (d : Die) (c : Cx) (v : Nat) : RegsCxsOnly s (t.setCxState d c v) := h.setFld _ _ _

theorem RegsCxsOnly.cxShow (d : Die) (c : Cx) : RegsCxsOnly s (t.cxShow d c) := (h.setFld _ _ _).setFld _ _ _

end

section
variable {d : Die} {c : Cx} {s t : State} (h : CxBut d c s t)
include h

theorem CxBut.setFld (o : Nat) (f : Fld) (v : Nat) : CxBut d c s (t.setFld o f v) := h

theorem CxBut.setIssue (e : Die) (b : Cx) (v : Nat) : CxBut d c s (t.setIssue e b v) := h

theorem CxBut.setCxState (e : Die) (b : Cx) (v : Nat) : CxBut d c s (t.setCxState e b v) := h

theorem CxBut.cxShow (e : Die) (b : Cx) : CxBut d c s (t.cxShow e b) := h

end

/-! ## A context starts (R87) -/

/-- CX_STATE's counts are brought up to date beside its STATE. -/
theorem State.cxShow_frame (s : State) (d : Die) (c : Cx) : (s.cxShow d c).cxState d c = s.cxState d c ∧
    s.cxShow d c = { s with regs := (s.cxShow d c).regs } ∧ RegsBut [R.CX_STATE d c] s (s.cxShow d c) := by
  refine ⟨?_, rfl, (RegsBut.refl _ s).cxShow d c⟩
  simp (disch := decide) only [State.cxShow, State.cxState, State.fld_setFld_of_disjoint]

@[simp] theorem State.cx_atTime (s : State) (m : Nat) (d : Die) (c : Cx) : (s.atTime m).cx d c = s.cx d c := rfl

@[simp] theorem State.cx_cxShow (s : State) (d : Die) (c : Cx) (e : Die) (b : Cx) : (s.cxShow d c).cx e b = s.cx e b := rfl

section
variable (s : State) (d : Die) (c : Cx)

/-- The two places of the queue at its start. -/
def State.placeAtStart : State :=
  (s.setFld (R.CX_HEAD d c) F.CX_HEAD.HEAD (s.fld (R.CX_CFG d c) F.CX_CFG.START_SLOT)).setIssue d c (s.fld (R.CX_CFG d c) F.CX_CFG.START_SLOT)

theorem State.startSlot_lt : s.fld (R.CX_CFG d c) F.CX_CFG.START_SLOT < 65536 := Nat.mod_lt _ (by decide)

theorem State.headAt_placeAtStart : (s.placeAtStart d c).headAt d c = s.fld (R.CX_CFG d c) F.CX_CFG.START_SLOT := by
  rw [State.placeAtStart, State.headAt_setIssue]
  exact State.fld_setFld_of_le _ _ _ (by decide) (Nat.le_of_lt_succ (s.startSlot_lt d c))

theorem State.issueAt_placeAtStart : (s.placeAtStart d c).issueAt d c = s.fld (R.CX_CFG d c) F.CX_CFG.START_SLOT :=
  State.issueAt_setIssue _ d c (s.startSlot_lt d c)

theorem State.regsBut_placeAtStart : RegsBut [R.CX_HEAD d c] s (s.placeAtStart d c) :=
  ((RegsBut.refl _ s).setFld F.CX_HEAD.HEAD _ (by simp)).setFld F.CX_HEAD.ISSUE _ (by simp)

/-- The context as it starts, with its place and ENABLE written. -/
def State.enabledAtStart : State := (s.placeAtStart d c).setFld (R.CX_CFG d c) F.CX_CFG.ENABLE 1

theorem State.start_eq : s.start d c =
    (((s.enabledAtStart d c).setCx d c { ({} : Ctx) with loss := (s.cx d c).loss, waitSince := s.now }).setCxState d c CxS.READY).cxShow d c :=
  rfl

theorem State.regsBut_start_enabled : RegsBut [R.CX_STATE d c] (s.enabledAtStart d c) (s.start d c) := by
  rw [State.start_eq]
  exact (((RegsBut.refl _ _).setCx d c _).setCxState d c _).cxShow d c

theorem State.regsBut_start : RegsBut [R.CX_CFG d c, R.CX_STATE d c] (s.placeAtStart d c) (s.start d c) :=
  ((RegsBut.refl _ _).setFld F.CX_CFG.ENABLE 1 (by simp)).trans ((s.regsBut_start_enabled d c).mono (by simp))

theorem State.cxState_start : (s.start d c).cxState d c = CxS.READY :=
  (State.cxShow_frame _ d c).1.trans (State.cxState_setCxState _ d c (by decide))

theorem State.headAt_start : (s.start d c).headAt d c = s.fld (R.CX_CFG d c) F.CX_CFG.START_SLOT :=
  ((s.regsBut_start d c).fld (by simp [(CX_CFG_ne_CX_HEAD d c).symm, CX_HEAD_ne_CX_STATE]) _).trans (s.headAt_placeAtStart d c)

theorem State.issueAt_start : (s.start d c).issueAt d c = s.fld (R.CX_CFG d c) F.CX_CFG.START_SLOT :=
  ((s.regsBut_start d c).fld (by simp [(CX_CFG_ne_CX_HEAD d c).symm, CX_HEAD_ne_CX_STATE]) _).trans (s.issueAt_placeAtStart d c)

/-- What the start writes of CX_CFG. -/
theorem State.reg_CX_CFG_start : (s.start d c).reg (R.CX_CFG d c) = (s.reg (R.CX_CFG d c)).put 0 0 1 := by
  rw [s.regsBut_start_enabled d c _ (by simp [CX_CFG_ne_CX_STATE]), State.enabledAtStart, State.reg_setFld,
    s.regsBut_placeAtStart d c _ (by simp [CX_CFG_ne_CX_HEAD])]
  rfl

theorem State.enabledAtStart_frame : RegsCxsOnly s (s.enabledAtStart d c) ∧ CxBut d c s (s.enabledAtStart d c) := by
  unfold State.enabledAtStart State.placeAtStart
  exact ⟨(((RegsCxsOnly.refl s).setFld _ _ _).setIssue d c _).setFld _ _ _, (((CxBut.refl d c s).setFld _ _ _).setIssue d c _).setFld _ _ _⟩

/-- A start changes registers and its own context. -/
theorem State.start_frame : RegsCxsOnly s (s.start d c) ∧ CxBut d c s (s.start d c) ∧
    (s.start d c).cx d c = { ({} : Ctx) with loss := (s.cx d c).loss, waitSince := s.now } := by
  obtain ⟨honly, hbut⟩ := s.enabledAtStart_frame d c
  rw [State.start_eq]
  exact ⟨((honly.setCx d c _).setCxState d c _).cxShow d c, ((hbut.setCx _).setCxState d c _).cxShow d c,
    by rw [State.cx_cxShow, State.cx_setCxState, State.cx_setCx]⟩

/-- The other fields of CX_CFG stay over a start. -/
theorem State.fld_CX_CFG_start {f : Fld} (h : 0 < f.lo) : (s.start d c).fld (R.CX_CFG d c) f = s.fld (R.CX_CFG d c) f := by
  rw [State.fld, State.reg_CX_CFG_start, Word.get_put_of_disjoint _ _ _ _ _ _ (by decide) (.inr h), State.fld]

theorem State.enable_start : (s.start d c).fld (R.CX_CFG d c) F.CX_CFG.ENABLE = 1 := by
  rw [State.fld, State.reg_CX_CFG_start]
  exact Word.get_put _ _ _ _ (by decide)

end

/-! ## CX_CFG (R87) -/

/-- The context with CX_CFG written but for ENABLE. -/
def State.cfgWritten (s : State) (d : Die) (c : Cx) (v : Word) : State := s.plainWriteBut (R.CX_CFG d c) v [F.CX_CFG.ENABLE]

section
variable {s : State} {d : Die} {c : Cx} {v : Word}

theorem State.fld_cfgWritten {f : Fld} (hf : f ∈ F.CX_CFG.all) (hlo : 0 < f.lo) :
    (s.cfgWritten d c v).fld (R.CX_CFG d c) f = v.get f.hi f.lo :=
  s.fld_CX_CFG_written d c v (by decide) hf fun _ hk => List.mem_singleton.mp hk ▸ .inr hlo

theorem State.enable_cfgWritten : (s.cfgWritten d c v).fld (R.CX_CFG d c) F.CX_CFG.ENABLE = s.fld (R.CX_CFG d c) F.CX_CFG.ENABLE :=
  s.fld_plainWriteBut_of_mem _ v (by decide) (List.mem_singleton_self _)

theorem State.qsize_cfgWritten : (s.cfgWritten d c v).qsize d c = 2 ^ v.get 28 24 :=
  congrArg (2 ^ ·) (State.fld_cfgWritten (f := F.CX_CFG.QSIZE_LOG2) (by decide) (by decide))

theorem State.mode_cfgWritten : (s.cfgWritten d c v).fld (R.CX_ATP d c) F.CX_ATP.MODE = s.fld (R.CX_ATP d c) F.CX_ATP.MODE :=
  (s.plainWriteBut_frame _ v _).2.fld (by simp [CX_ATP_ne_CX_CFG]) _

theorem State.dbCheck_of_disabled {old : Word} (h : s.flag (R.CX_CFG d c) F.CX_CFG.DB_EN = false) : s.dbCheck d c old = s := by
  simp [State.dbCheck, h]

/-- A write with ENABLE to a context in OFF, with a queue size in range and no doorbell quire. -/
theorem cxCfgAct_of_off (hst : s.cxState d c = CxS.OFF) (hen : v.bit 0 = true) (hlo : 6 ≤ v.get 28 24) (hhi : v.get 28 24 ≤ 16)
    (hdb : v.bit 22 = false) : cxCfgAct d c v s =
      if s.fld (R.CX_ATP d c) F.CX_ATP.MODE = 10 ∧ v.get 47 32 < 2 ^ v.get 28 24 then (s.cfgWritten d c v).start d c
      else (s.cfgWritten d c v).raiseReg St.CX_START_REFUSED (R.CX_CFG d c) := by
  have hsize : ¬ (v.get 28 24 < 6 ∨ 16 < v.get 28 24) := by omega
  have hflag : (s.cfgWritten d c v).flag (R.CX_CFG d c) F.CX_CFG.DB_EN = false := by
    rw [State.flag, State.fld_cfgWritten (by decide) (by decide)]
    change (v.get 22 22 != 0) = false
    rw [Word.get_bit, hdb]
    rfl
  have hslot : (s.cfgWritten d c v).fld (R.CX_CFG d c) F.CX_CFG.START_SLOT = v.get 47 32 := State.fld_cfgWritten (by decide) (by decide)
  simp only [cxCfgAct, hst, if_neg hsize, List.append_nil, hen, if_true]
  rw [← State.cfgWritten, State.dbCheck_of_disabled hflag, State.mode_cfgWritten, hslot, State.qsize_cfgWritten]

/-- The fields a write to a context outside OFF leaves (R87). -/
def cfgHeld : List Fld :=
  [F.CX_CFG.ENABLE, F.CX_CFG.PART, F.CX_CFG.DB_Q, F.CX_CFG.DB_EN, F.CX_CFG.QSIZE_LOG2, F.CX_CFG.START_SLOT]

/-- Outside OFF a write takes FENCE_STALL and PRIO, with a record where it would change another field. -/
theorem cxCfgAct_of_on (hst : s.cxState d c ≠ CxS.OFF) :
    cxCfgAct d c v s = s.plainWriteBut (R.CX_CFG d c) v cfgHeld ∨
      cxCfgAct d c v s = (s.plainWriteBut (R.CX_CFG d c) v cfgHeld).raiseReg St.CX_CFG_BUSY (R.CX_CFG d c) := by
  simp only [cxCfgAct, if_neg hst]
  exact ite_eq_or_eq _ _ _

/-- A write that would change PART is reported. -/
theorem cxCfgAct_of_part (hst : s.cxState d c ≠ CxS.OFF) (hpart : v.get 7 4 ≠ s.cxPart d c) :
    cxCfgAct d c v s = (s.plainWriteBut (R.CX_CFG d c) v cfgHeld).raiseReg St.CX_CFG_BUSY (R.CX_CFG d c) := by
  simp only [cxCfgAct, if_neg hst]
  refine if_neg fun hsame => hpart ?_
  have hkeep64 : ∀ f ∈ [F.CX_CFG.ENABLE] ++ (if v.get 28 24 < 6 ∨ 16 < v.get 28 24 then [F.CX_CFG.QSIZE_LOG2] else []), f.hi < 64 := by
    split <;> decide
  have hkeepPart : ∀ f ∈ [F.CX_CFG.ENABLE] ++ (if v.get 28 24 < 6 ∨ 16 < v.get 28 24 then [F.CX_CFG.QSIZE_LOG2] else []),
      F.CX_CFG.PART.hi < f.lo ∨ f.hi < F.CX_CFG.PART.lo := by
    split <;> decide
  have hheld : (s.plainWriteBut (R.CX_CFG d c) v cfgHeld).fld (R.CX_CFG d c) F.CX_CFG.PART = s.cxPart d c :=
    s.fld_plainWriteBut_of_mem _ v (by decide) (by decide)
  exact (s.fld_CX_CFG_written d c v hkeep64 (f := F.CX_CFG.PART) (by decide) hkeepPart).symm.trans ((congrArg (Word.get · 7 4) hsame).trans hheld)

end

theorem State.status_raiseReg (s : State) (st o : Nat) : (s.raiseReg st o).lastRaised.map (·.status) = some st := by
  rw [State.raiseReg, State.lastRaised_raise]
  rfl

@[simp] theorem State.fld_raiseReg (s : State) (st o i : Nat) (f : Fld) : (s.raiseReg st o).fld i f = s.fld i f := rfl

theorem RegsBut.raiseReg {l : List Nat} {s t : State} (st o : Nat) (h : RegsBut l s t) : RegsBut l s (t.raiseReg st o) := h.raise _

/-- What every write to a context outside OFF leaves of CX_CFG and takes. -/
theorem cxCfgAct_fields {s t : State} {d : Die} {c : Cx} {v : Word} (ht : t.regs = (s.plainWriteBut (R.CX_CFG d c) v cfgHeld).regs) :
    t.fld (R.CX_CFG d c) F.CX_CFG.ENABLE = s.fld (R.CX_CFG d c) F.CX_CFG.ENABLE ∧ t.cxPart d c = s.cxPart d c ∧
      t.fld (R.CX_CFG d c) F.CX_CFG.DB_Q = s.fld (R.CX_CFG d c) F.CX_CFG.DB_Q ∧
      t.fld (R.CX_CFG d c) F.CX_CFG.DB_EN = s.fld (R.CX_CFG d c) F.CX_CFG.DB_EN ∧ t.qsize d c = s.qsize d c ∧
      t.fld (R.CX_CFG d c) F.CX_CFG.START_SLOT = s.fld (R.CX_CFG d c) F.CX_CFG.START_SLOT ∧
      t.fld (R.CX_CFG d c) F.CX_CFG.PRIO = v.get 3 2 ∧ t.fld (R.CX_CFG d c) F.CX_CFG.FENCE_STALL = v.get 1 1 := by
  have hheld {f : Fld} (hf : f ∈ cfgHeld) : t.fld (R.CX_CFG d c) f = s.fld (R.CX_CFG d c) f :=
    (State.fld_of_regs_eq ht _ f).trans (s.fld_plainWriteBut_of_mem _ v (by decide) hf)
  have hwritten {f : Fld} (hf : f ∈ F.CX_CFG.all) (hap : ∀ k ∈ cfgHeld, f.hi < k.lo ∨ k.hi < f.lo) :
      t.fld (R.CX_CFG d c) f = v.get f.hi f.lo :=
    (State.fld_of_regs_eq ht _ f).trans (s.fld_CX_CFG_written d c v (by decide) hf hap)
  exact ⟨hheld (by decide), hheld (by decide), hheld (by decide), hheld (by decide), congrArg (2 ^ ·) (hheld (by decide)), hheld (by decide),
    hwritten (by decide) (by decide), hwritten (by decide) (by decide)⟩

/-! ## An EMPTY context wakes (R62) -/

theorem State.cxWake_of_not_empty {s : State} {d : Die} {c : Cx} (h : s.cxState d c ≠ CxS.EMPTY) : s.cxWake d c = s := if_neg h

/-- A context woken is READY with nothing read. -/
theorem State.cxWake_of_empty {s : State} {d : Die} {c : Cx} (h : s.cxState d c = CxS.EMPTY) :
    (s.cxWake d c).cxState d c = CxS.READY ∧ (s.cxWake d c).cx d c = { s.cx d c with cur := none, waitSince := s.now } ∧
      s.cxWake d c = { s with regs := (s.cxWake d c).regs, cxs := (s.cxWake d c).cxs } ∧ CxBut d c s (s.cxWake d c) ∧
      RegsBut [R.CX_STATE d c] s (s.cxWake d c) := by
  rw [State.cxWake, if_pos h]
  exact ⟨State.cxState_setCxState s d c (by decide), State.cx_setCx _ d c _, rfl, (CxBut.refl d c s).setCx _,
    ((RegsBut.refl _ s).setCxState d c _).setCx d c _⟩

/-- Settles O14: CX_CFG in OFF and outside it, CX_ATP, and the two events that wake an EMPTY context. -/
theorem contextStart : Obligations.ContextStart := by
  unfold Obligations.ContextStart
  intro s w v d c hon o
  refine ⟨fun hw hst hen hlo hhi hdb => ⟨fun hmode hslot => ?_, fun hbad => ?_⟩, fun hw hst => ?_, fun hw => ⟨fun hmode => ?_, fun hmode => ?_⟩,
    fun hw => ⟨fun hring hst => ?_, fun hno => ?_⟩, fun m hm hst => ⟨fun hdue => ?_, fun hearly => ?_⟩⟩
  · have hexec : exec (.cxCfgWrite w d c) s = .next (cxCfgAct d c v s) := State.whileOn_write _ hon hw
    rw [cxCfgAct_of_off hst hen hlo hhi hdb, if_pos ⟨hmode, hslot⟩] at hexec
    have hstart : (s.cfgWritten d c v).fld (R.CX_CFG d c) F.CX_CFG.START_SLOT = v.get 47 32 := State.fld_cfgWritten (by decide) (by decide)
    obtain ⟨hframe, hbut, hcx⟩ := (s.cfgWritten d c v).start_frame d c
    refine .of hexec ⟨State.cxState_start _ d c, State.enable_start _ d c, ?_, ?_, ?_, ?_, hcx, hframe, hbut, ?_⟩
    · exact (State.fld_CX_CFG_start _ d c (by decide)).trans (State.fld_cfgWritten (f := F.CX_CFG.PART) (by decide) (by decide))
    · exact (congrArg (2 ^ ·) (State.fld_CX_CFG_start _ d c (by decide))).trans State.qsize_cfgWritten
    · rw [State.headAt_start, hstart]
    · rw [State.issueAt_start, hstart]
    · exact (((s.plainWriteBut_frame o v _).2.mono (by simp)).trans
        (((s.cfgWritten d c v).regsBut_placeAtStart d c).mono (by simp))).trans (((s.cfgWritten d c v).regsBut_start d c).mono (by simp [o]))
  · have hexec : exec (.cxCfgWrite w d c) s = .next (cxCfgAct d c v s) := State.whileOn_write _ hon hw
    rw [cxCfgAct_of_off hst hen hlo hhi hdb, if_neg (by omega)] at hexec
    have hregs := (s.plainWriteBut_frame o v [F.CX_CFG.ENABLE]).2
    refine .of hexec ⟨?_, ?_, State.status_raiseReg _ _ _, rfl, hregs.raiseReg _ _⟩
    · rw [State.cxState, State.fld_raiseReg]
      exact (hregs.fld (by simp [o, (CX_CFG_ne_CX_STATE d c).symm]) _).trans hst
    · rw [State.fld_raiseReg, State.enable_cfgWritten]
  · have hexec : exec (.cxCfgWrite w d c) s = .next (cxCfgAct d c v s) := State.whileOn_write _ hon hw
    have hregs := (s.plainWriteBut_frame o v cfgHeld).2
    have hbusy : v.get 7 4 ≠ s.cxPart d c → (cxCfgAct d c v s).lastRaised.map (·.status) = some St.CX_CFG_BUSY := fun hpart => by
      rw [cxCfgAct_of_part hst hpart, State.status_raiseReg]
    have hcases : (cxCfgAct d c v s).regs = (s.plainWriteBut o v cfgHeld).regs ∧
        cxCfgAct d c v s = { s with regs := (cxCfgAct d c v s).regs, faults := (cxCfgAct d c v s).faults } := by
      rcases cxCfgAct_of_on (v := v) hst with h | h <;> rw [h] <;> exact ⟨rfl, rfl⟩
    obtain ⟨hwrote, hframe⟩ := hcases
    obtain ⟨hen, hpart, hdbq, hdben, hq, hslot, hprio, hstall⟩ := cxCfgAct_fields hwrote
    exact .of hexec ⟨hen, hpart, hdbq, hdben, hq, hslot, hprio, hstall, hbusy, hframe, hregs.of_regs hwrote⟩
  · have hexec : exec (.cxAtpWrite w d c) s = .next (cxAtpAct d c v s) := State.whileOn_write _ hon hw
    rw [hexec, cxAtpAct, if_pos hmode, State.plainWrite_CX_ATP]
  · have hexec : exec (.cxAtpWrite w d c) s = .next (cxAtpAct d c v s) := State.whileOn_write _ hon hw
    rw [hexec, cxAtpAct, if_neg hmode]
  · have hexec : exec (.cxDoorbell w d c) s = .next (if v.bit 0 then s.cxWake d c else s) := State.whileOn_write _ hon hw
    rw [if_pos hring] at hexec
    exact .of hexec (State.cxWake_of_empty hst)
  · have hexec : exec (.cxDoorbell w d c) s = .next (if v.bit 0 then s.cxWake d c else s) := State.whileOn_write _ hon hw
    rw [hexec]
    rcases hno with hring | hst
    · simp [hring]
    · simp [State.cxWake_of_not_empty hst]
  · have hexec : exec (.emptyReread m d c) s = .next (emptyReread d c (s.atTime m)) := State.whileOn_on _ hon
    rw [emptyReread, State.now_atTime_of_le hm, State.cx_atTime, if_pos hdue] at hexec
    obtain ⟨hready, hcx, hframe, hbut, hregs⟩ := State.cxWake_of_empty (s := s.atTime m) hst
    rw [State.now_atTime_of_le hm] at hcx
    exact .of hexec ⟨hready, hcx, hframe, hbut, hregs⟩
  · have hexec : exec (.emptyReread m d c) s = .next (emptyReread d c (s.atTime m)) := State.whileOn_on _ hon
    rw [hexec, emptyReread, State.now_atTime_of_le hm, State.cx_atTime, if_neg (Nat.not_le.mpr hearly)]

/-! ## Flights of a context -/

theorem Ctx.slot_of_flight {x : Ctx} {n : Nat} {f : Flight} (h : x.flight n = some f) : f.slot = n := by
  have hslot := List.find?_some h
  simpa using hslot

theorem Ctx.mem_of_flight {x : Ctx} {n : Nat} {f : Flight} (h : x.flight n = some f) : f ∈ x.flights := List.mem_of_find?_eq_some h

/-- A change of the flight at a slot that leaves it there is read back. -/
theorem Ctx.flight_mapFlight {x : Ctx} {n : Nat} {f : Flight} {g : Flight → Flight} (hg : ∀ f, (g f).slot = f.slot) (h : x.flight n = some f) :
    (x.mapFlight n g).flight n = some (g f) := by
  have hkeep : ((fun e : Flight => e.slot == n) ∘ fun e => if e.slot = n then g e else e) = fun e => e.slot == n := by
    funext e
    by_cases he : e.slot = n <;> simp [he, hg]
  change ((x.flights.map fun e => if e.slot = n then g e else e).find? fun e => e.slot == n) = some (g f)
  rw [List.find?_map, hkeep, show x.flights.find? (fun e => e.slot == n) = some f from h]
  simp [Ctx.slot_of_flight h]

@[simp] theorem State.cx_setFlight (s : State) (d : Die) (c : Cx) (n : Nat) (g : Flight → Flight) :
    (s.setFlight d c n g).cx d c = (s.cx d c).mapFlight n g := s.cx_setCx d c _

theorem CxBut.setFlight {d : Die} {c : Cx} {s t : State} (n : Nat) (g : Flight → Flight) (h : CxBut d c s t) : CxBut d c s (t.setFlight d c n g) :=
  h.setCx _

theorem CxBut.of_cxs {d : Die} {c : Cx} {s t u : State} (h : CxBut d c s t) (hu : u.cxs = t.cxs) : CxBut d c s u := fun e b hne => by
  rw [← h e b hne, State.cx, State.cx, hu]

/-! ## Control commands end (R69) -/

section
variable {s : State} {d : Die} {c : Cx} {n : Nat} {f : Flight} (hf : (s.cx d c).flight n = some f) (hk : f.cmd.kind = 3)
include hf hk

/-- A control command runs on no engine. -/
theorem State.engRan_of_control : s.engRan d c n = s := by
  simp [State.engRan, hf, hk]

theorem State.workDone_of_control : s.workDone d c n = s.setFlight d c n fun g => { g with phase := .worked, held := none } := by
  rw [State.workDone, State.engRan_of_control hf hk]

theorem State.flightFault_of_control (st va code : Nat) : s.flightFault d c n st va code =
    s.setFlight d c n fun g => { g with phase := .faulted, fault := st, faultAddr := va, code := code, held := none } := by
  rw [State.flightFault, State.engRan_of_control hf hk]

/-- The end of a control command's work is shown in its flight alone. -/
theorem State.workDone_ended : ((s.workDone d c n).cx d c).flights =
      (s.cx d c).flights.map (fun g => if g.slot = n then { g with phase := .worked, held := none } else g) ∧
    CxBut d c s (s.workDone d c n) ∧ s.workDone d c n = { s with cxs := (s.workDone d c n).cxs } := by
  rw [State.workDone_of_control hf hk, State.cx_setFlight]
  exact ⟨rfl, (CxBut.refl d c s).setFlight _ _, rfl⟩

end

/-- Has every write and signal of the list been receipted or lost? -/
theorem dfence_waits_iff {s : State} {ids : List Nat} :
    (s.allReceipted ids && !(s.sync.qsigs.any fun g => ids.contains g.id)) = true ↔
      ∀ i ∈ ids, s.wr i = none ∧ ∀ g ∈ s.sync.qsigs, g.id ≠ i := by
  simp only [State.allReceipted, Bool.and_eq_true, List.all_eq_true, Option.isNone_iff_eq_none, Bool.not_eq_true', List.any_eq_false,
    List.contains_iff_mem]
  constructor
  · rintro ⟨hwr, hsig⟩ i hi
    exact ⟨hwr i hi, fun g hg he => hsig g hg (he ▸ hi)⟩
  · intro h
    exact ⟨fun i hi => (h i hi).1, fun g hg hi => (h g.id hi).2 g hg rfl⟩

section
variable {s : State} {d : Die} {c : Cx} {f : Flight}

theorem execNop_of_front (h : s.ctlFront d c Op.NOP = some f) (hon : s.On) : exec (.nop d c) s = .next (s.workDone d c f.slot) := by
  have hexec : exec (.nop d c) s = _ := State.whileOn_on _ hon
  simpa only [h] using hexec

theorem halt_of_front (h : s.ctlFront d c Op.HALT = some f) : halt d c s =
    if ((s.cx d c).flights.takeWhile fun g => g.slot != f.slot).all (fun g => g.phase == .complete) then s.workDone d c f.slot else s := by
  simp only [halt, h]

theorem dfence_of_front (h : s.ctlFront d c Op.DFENCE = some f) : dfence d c s =
    if s.allReceipted f.waitIds && !(s.sync.qsigs.any fun g => f.waitIds.contains g.id) then s.workDone d c f.slot else s := by
  simp only [dfence, h]

/-! ## Commands over a range (R349, R351) -/

variable {op : Nat} {act : Flight → List (Nat × Nat) → State → State} {u : State} (h : s.ctlFront d c op = some f)
include h

theorem State.onRange_of_ok {l : List (Nat × Nat)}
    (hmap : State.mapRange d c 1026 (f.cmd.w2.get 56 0) (f.cmd.w3.get 39 0) s = (.ok l, u)) : s.onRange d c op act = act f l u := by
  simp only [State.onRange, h, hmap]

theorem State.onRange_of_fault {st va : Nat}
    (hmap : State.mapRange d c 1026 (f.cmd.w2.get 56 0) (f.cmd.w3.get 39 0) s = (.fault st va, u)) :
    s.onRange d c op act = u.flightFault d c f.slot st va 0 := by
  simp only [State.onRange, h, hmap]

end

@[simp] theorem State.rc_setRc (s : State) (d : Nat) (r : RcSt) : (s.setRc d r).rc d = r := Sparse.get_set_same _ _ _ _

/-- The sectors that ACQ over a range drops: all, for a range longer than RC_CFG.ACQ_ALL_MIB, else those of its pieces (R326). -/
def State.acqDrops (s : State) (d : Die) (len : Nat) (l : List (Nat × Nat)) (a : Nat) : Bool :=
  decide (s.fld (R.RC_CFG d) F.RC_CFG.ACQ_ALL_MIB * 0x100000 < len) || inPieces a l

/-- ACQ changes its die's remote cache and the reads under way, and nothing else (R349). -/
theorem State.acquire_frame (s : State) (d : Die) (len : Nat) (l : List (Nat × Nat)) :
    (s.acquire d len l).rc d = (s.rc d).dropBulk (s.acqDrops d len l) ∧ (s.acquire d len l).mem.cells = s.mem.cells ∧
      (s.acquire d len l).regs = s.regs ∧ (s.acquire d len l).cxs = s.cxs :=
  ⟨s.rc_setRc d.val ((s.rc d.val).dropBulk (s.acqDrops d len l)), rfl, rfl, rfl⟩

theorem RcSt.mem_dropBulk {r : RcSt} {p : Nat → Bool} {tag : RcTag} : tag ∈ (r.dropBulk p).tags ↔
    ∃ t ∈ r.tags, { t with sectors := t.sectors.filter fun x => !(x.2.bulk && p (t.addr + 64 * x.1)) } = tag := List.mem_map

/-- No bulk sector that satisfies `p` is left. -/
theorem RcSt.dropBulk_bulk {r : RcSt} {p : Nat → Bool} {tag : RcTag} (ht : tag ∈ (r.dropBulk p).tags) {x : Nat × RcSector}
    (hx : x ∈ tag.sectors) (hb : x.2.bulk = true) : p (tag.addr + 64 * x.1) = false := by
  obtain ⟨t, -, rfl⟩ := RcSt.mem_dropBulk.mp ht
  obtain ⟨-, hkeep⟩ := List.mem_filter.mp hx
  simpa [hb] using hkeep

/-- Every coherent sector stays. -/
theorem RcSt.dropBulk_coherent {r : RcSt} (p : Nat → Bool) {tag : RcTag} (ht : tag ∈ r.tags) {x : Nat × RcSector} (hx : x ∈ tag.sectors)
    (hb : x.2.bulk = false) : ∃ tag' ∈ (r.dropBulk p).tags, tag'.addr = tag.addr ∧ x ∈ tag'.sectors :=
  ⟨_, RcSt.mem_dropBulk.mpr ⟨tag, ht, rfl⟩, rfl, List.mem_filter.mpr ⟨hx, by simp [hb]⟩⟩

/-- Nothing the flush waits for is still on its way into its range. -/
theorem flushWith_of_clear {s : State} {d : Die} {c : Cx} {f : Flight} {l : List (Nat × Nat)}
    (h : ∀ i ∈ f.waitIds, ∀ w, s.wr i = some w → w.stage = .accepted ∨ inPieces w.addr l = false) :
    flushWith d c f l s = s.workDone d c f.slot := by
  refine if_pos (List.all_eq_true.mpr fun i hi => ?_)
  have hw := h i hi
  cases hwr : s.wr i with
  | none => rfl
  | some w => simpa using hw w hwr

/-- A write into the range that is still on its way holds the flush. -/
theorem flushWith_of_sent {s : State} {d : Die} {c : Cx} {f : Flight} {l : List (Nat × Nat)} {i : Nat} {w : Wr} (hi : i ∈ f.waitIds)
    (hw : s.wr i = some w) (hsent : w.stage = .sent) (hin : inPieces w.addr l = true) : flushWith d c f l s = s := by
  refine if_neg fun hall => ?_
  have hclear := List.all_eq_true.mp hall i hi
  simp [hw, hsent, hin] at hclear

/-- What an ACQ that ends leaves: its flight ended, the rest of its context and every other as they were, the memory as the drop of the
sectors left it. -/
theorem State.acquire_workDone {s : State} {d : Die} {c : Cx} {n : Nat} {f : Flight} (hf : (s.cx d c).flight n = some f)
    (hk : f.cmd.kind = 3) (len : Nat) (l : List (Nat × Nat)) :
    let t := (s.acquire d len l).workDone d c n
    (t.cx d c).flights = (s.cx d c).flights.map (fun g => if g.slot = n then { g with phase := .worked, held := none } else g) ∧
      CxBut d c s t ∧ t.mem.cells = s.mem.cells ∧ t.regs = s.regs ∧ t.rc d = (s.rc d).dropBulk (s.acqDrops d len l) := by
  obtain ⟨hrc, hcells, hregs, hcxs⟩ := s.acquire_frame d len l
  have hcx (e : Die) (b : Cx) : (s.acquire d len l).cx e b = s.cx e b := by rw [State.cx, State.cx, hcxs]
  have hf' : ((s.acquire d len l).cx d c).flight n = some f := by rwa [hcx]
  rw [State.workDone_of_control hf' hk]
  refine ⟨?_, ((CxBut.refl d c s).of_cxs hcxs).setFlight _ _, hcells, hregs, hrc⟩
  rw [State.cx_setFlight, hcx]
  rfl

/-- Settles O20: each control command that ends leaves its flight worked and no other context changed; one that waits leaves the state, and a
range that faults faults the command. -/
theorem controlCommands : Obligations.ControlCommands := by
  unfold Obligations.ControlCommands
  intro s d c f hon hf hk ended
  obtain ⟨hflights, hbut, hframe⟩ := State.workDone_ended hf hk
  have hended : ended s (s.workDone d c f.slot) := ⟨hflights, hbut⟩
  refine ⟨fun h => ?_, fun h => ⟨fun hall => ?_, fun hnot => ?_⟩, fun h => ⟨fun hall => ?_, fun hnot => ?_⟩, fun u l h hfu hmap => ?_,
    fun u l h hfu hmap => ⟨fun hall => ?_, fun hnot => ?_⟩, fun u st va h hfu hmap => ?_⟩
  · exact .of (execNop_of_front h hon) ⟨hended, hframe⟩
  · have hexec : exec (.halt d c) s = .next (halt d c s) := State.whileOn_on _ hon
    rw [halt_of_front h, if_pos (by simpa using hall)] at hexec
    exact .of hexec ⟨hended, hframe⟩
  · have hexec : exec (.halt d c) s = .next (halt d c s) := State.whileOn_on _ hon
    rwa [halt_of_front h, if_neg (by simpa using hnot)] at hexec
  · have hexec : exec (.dfence d c) s = .next (dfence d c s) := State.whileOn_on _ hon
    rw [dfence_of_front h, if_pos (dfence_waits_iff.mpr hall)] at hexec
    exact .of hexec ⟨hended, hframe⟩
  · have hexec : exec (.dfence d c) s = .next (dfence d c s) := State.whileOn_on _ hon
    rwa [dfence_of_front h, if_neg fun hall => ?_] at hexec
    obtain ⟨i, hi, hout⟩ := hnot
    obtain ⟨hwr, hsig⟩ := dfence_waits_iff.mp hall i hi
    rcases hout with hsome | ⟨g, hg, he⟩
    · exact hsome hwr
    · exact hsig g hg he
  · have hexec : exec (.acq d c) s = .next _ := State.whileOn_on _ hon
    rw [State.onRange_of_ok h hmap] at hexec
    obtain ⟨hfl, hb, hcells, hregs, hrc⟩ := State.acquire_workDone hfu hk (f.cmd.w3.get 39 0) l
    refine .of hexec ⟨⟨hfl, hb⟩, hcells, hregs, fun tag ht x hx hbulk => ?_, fun tag ht x hx hcoh => ?_⟩
    · rw [hrc] at ht
      exact (Bool.or_eq_false_iff.mp (RcSt.dropBulk_bulk ht hx hbulk)).2
    · rw [hrc]
      exact RcSt.dropBulk_coherent _ ht hx hcoh
  · have hexec : exec (.flush d c) s = .next (s.onRange d c Op.FLUSH (flushWith d c)) := State.whileOn_on _ hon
    obtain ⟨hfl, hb, hfr⟩ := State.workDone_ended hfu hk
    rw [State.onRange_of_ok h hmap, flushWith_of_clear hall] at hexec
    exact .of hexec ⟨⟨hfl, hb⟩, hfr⟩
  · have hexec : exec (.flush d c) s = .next (s.onRange d c Op.FLUSH (flushWith d c)) := State.whileOn_on _ hon
    obtain ⟨i, hi, w, hw, hsent, hin⟩ := hnot
    rwa [State.onRange_of_ok h hmap, flushWith_of_sent hi hw hsent hin] at hexec
  · have hexec : exec (.flush d c) s = .next (s.onRange d c Op.FLUSH (flushWith d c)) := State.whileOn_on _ hon
    rw [State.onRange_of_fault h hmap, State.flightFault_of_control hfu hk] at hexec
    refine .of hexec ⟨?_, rfl, (CxBut.refl d c u).setFlight _ _⟩
    rw [State.cx_setFlight]
    exact Ctx.flight_mapFlight (fun _ => rfl) hfu

/-! ## Operations at quires leave memory as it is (R374) -/

theorem State.count_frame (s : State) (o n : Nat) : s.count o n = { s with regs := (s.count o n).regs, faults := (s.count o n).faults } := by
  unfold State.count
  extract_lets c s1 s2
  split_ifs <;> rfl

@[simp] theorem State.count_mem (s : State) (o n : Nat) : (s.count o n).mem = s.mem := by rw [State.count_frame]
@[simp] theorem State.count_cxs (s : State) (o n : Nat) : (s.count o n).cxs = s.cxs := by rw [State.count_frame]

@[simp] theorem State.raiseFld_mem (s : State) (o : Nat) (f : Fld) (v : Nat) : (s.raiseFld o f v).mem = s.mem := by
  unfold State.raiseFld
  split <;> rfl

@[simp] theorem State.syncShow_mem (s : State) : s.syncShow.mem = s.mem := State.raiseFld_mem ..

@[simp] theorem State.wakeWaiter_mem (s : State) (w : Waiter) (g : Bool) : (s.wakeWaiter w g).mem = s.mem := by
  unfold State.wakeWaiter
  extract_lets x s1
  split
  · rfl
  · split <;> rfl

theorem State.foldl_wakeWaiter_mem (l : List Waiter) (s : State) : (l.foldl (fun t w => t.wakeWaiter w false) s).mem = s.mem :=
  List.foldlRecOn (motive := fun t : State => t.mem = s.mem) l _ rfl fun t ht w _ => by rw [State.wakeWaiter_mem, ht]

theorem State.evalWaiters_mem (q fuel : Nat) (s : State) : (State.evalWaiters q fuel s).mem = s.mem := by
  induction fuel generalizing s with
  | zero => rfl
  | succ n ih =>
    unfold State.evalWaiters
    dsimp only
    split
    · exact State.foldl_wakeWaiter_mem ..
    · split
      · exact State.foldl_wakeWaiter_mem ..
      · rw [ih, State.wakeWaiter_mem]
        exact (State.count_mem _ _ _).trans (State.foldl_wakeWaiter_mem ..)

@[simp] theorem State.cxWake_mem (s : State) (d : Die) (c : Cx) : (s.cxWake d c).mem = s.mem := by
  unfold State.cxWake
  split <;> rfl

@[simp] theorem State.ringDoorbells_mem (s : State) (q : Nat) : (s.ringDoorbells q).mem = s.mem :=
  List.foldlRecOn (motive := fun t : State => t.mem = s.mem) s.cxKeys _ rfl fun t ht p _ => by
    split
    · rw [State.cxWake_mem, ht]
    · exact ht

@[simp] theorem State.effective_mem (s : State) (x : QSource) (op arg q : Nat) (r : QuireRec) : (s.effective x op arg q r).mem = s.mem := by
  simp [State.effective, State.afterOp, State.evalWaiters_mem]

@[simp] theorem State.cxStop_mem (s : State) (d : Die) (c : Cx) (st slot kind unit addr code : Nat) (ab dn : Bool) :
    (s.cxStop d c st slot kind unit addr code ab dn).mem = s.mem := rfl

@[simp] theorem State.cxStallDone_mem (s : State) (d : Die) (c : Cx) (st slot : Nat) : (s.cxStallDone d c st slot).mem = s.mem := by
  unfold State.cxStallDone
  split_ifs <;> rfl

@[simp] theorem State.quireRecord_mem (s : State) (x : QSource) (st sev q op arg : Nat) : (s.quireRecord x st sev q op arg).mem = s.mem := by
  unfold State.quireRecord
  dsimp only
  split <;> rfl

@[simp] theorem State.quireRefuse_mem (s : State) (x : QSource) (flag st q op arg slot : Nat) :
    (s.quireRefuse x flag st q op arg slot).mem = s.mem := by
  unfold State.quireRefuse
  dsimp only
  split
  · split <;> simp
  · simp

@[simp] theorem State.quireAdd_mem (s : State) (x : QSource) (q v slot : Nat) : (s.quireAdd x q v slot).mem = s.mem := by
  unfold State.quireAdd
  dsimp only
  split_ifs <;> simp

@[simp] theorem State.freeWaiterOf_mem (s : State) (d : Die) (c : Cx) (slot : Nat) (b : Bool) : (s.freeWaiterOf d c slot b).mem = s.mem := by
  unfold State.freeWaiterOf
  dsimp only
  rw [State.syncShow_mem]
  split
  · refine List.foldlRecOn (motive := fun t : State => t.mem = s.mem) _ _ rfl fun t ht w _ => ?_
    split
    · split
      · rw [State.quireAdd_mem, ht]
      · exact ht
    · exact ht
  · rfl

/-- What a command at ISSUE holds of its gate is given up without a write of memory (R378). -/
theorem State.returnGate_mem (s : State) (d : Die) (c : Cx) : (s.returnGate d c).mem = s.mem := by
  unfold State.returnGate
  extract_lets x slot had s1 s2
  have hfreed : s1.mem = s.mem := by
    simp only [s1]
    split
    · rfl
    · exact State.freeWaiterOf_mem ..
  change s2.mem = s.mem
  simp only [s2]
  split
  · split
    · rw [State.quireAdd_mem, hfreed]
    · exact hfreed
  · exact hfreed

/-! ## Translation and writes leave the contexts as they are, but for a lost write (R291, R341, R353) -/

@[simp] theorem State.setDir_cxs (s : State) (line : Nat) (x : Option DirSt) : (s.setDir line x).cxs = s.cxs := rfl

@[simp] theorem State.setHeld_cxs (s : State) (a : CAgent) (line : Nat) (x : CLine) : (s.setHeld a line x).cxs = s.cxs := by
  cases a <;> rfl

@[simp] theorem State.homeShare_cxs (s : State) (line : Nat) : (s.homeShare line).cxs = s.cxs := by
  have hcount (a : CAgent) : (if a = .host then s.count R.HL_BISNP 1 else s).cxs = s.cxs := by
    split
    · exact State.count_cxs ..
    · rfl
  unfold State.homeShare
  split
  · dsimp only
    split
    · rw [State.setDir_cxs, State.setHeld_cxs]
      split
      · exact hcount _
      · exact hcount _
    · exact hcount _
  · rfl

theorem State.walkFrom_cxs (va : Nat) (write : Bool) (fuel level base : Nat) (s : State) :
    (State.walkFrom va write fuel level base s).2.cxs = s.cxs := by
  induction fuel generalizing level base s with
  | zero => rfl
  | succ n ih =>
    unfold State.walkFrom
    dsimp only
    split
    · rfl
    split
    · rfl
    split
    · rfl
    split
    · rfl
    have hread := State.homeShare_cxs s ((s.region (base + va / 2 ^ (12 + 9 * level) % 512 * 8)).key (base + va / 2 ^ (12 + 9 * level) % 512 * 8) / 64 * 64)
    split
    · exact hread
    split
    · exact hread
    split
    · split <;> exact hread
    split
    · exact hread
    · rw [ih]
      exact hread

theorem State.walk_cxs (s : State) (d : Die) (c : Cx) (va : Nat) (write : Bool) : (s.walk d c va write).2.cxs = s.cxs :=
  (State.walkFrom_cxs ..).trans (State.count_cxs ..)

theorem State.walkFill_cxs (s : State) (d : Die) (c : Cx) (n va : Nat) (write : Bool) : (s.walkFill d c n va write).2.cxs = s.cxs := by
  have hwalk := s.walk_cxs d c va write
  unfold State.walkFill
  split <;> rename_i h <;> rw [h] at hwalk <;> exact hwalk

/-- A translation changes no context. -/
theorem State.translate_cxs (s : State) (d : Die) (c : Cx) (n va : Nat) (write : Bool) : (s.translate d c n va write).2.cxs = s.cxs := by
  unfold State.translate
  dsimp only
  split
  · split
    · rfl
    · exact State.walkFill_cxs ..
  · split
    · split
      · exact State.count_cxs ..
      · exact (State.walkFill_cxs ..).trans (State.count_cxs ..)
    · exact (State.walkFill_cxs ..).trans (State.count_cxs ..)

@[simp] theorem State.dropCopy_cxs (s : State) (a : CAgent) (line : Nat) : (s.dropCopy a line).cxs = s.cxs := by
  cases a <;> rfl

@[simp] theorem State.homeInval_cxs (s : State) (line : Nat) (keep : Option CAgent) : (s.homeInval line keep).cxs = s.cxs := by
  unfold State.homeInval
  dsimp only
  refine List.foldlRecOn (motive := fun t : State => t.cxs = s.cxs) _ _ ?_ fun t ht a _ => by rw [State.dropCopy_cxs, ht]
  split
  · rw [State.count_cxs, State.homeShare_cxs]
  · exact State.homeShare_cxs ..

@[simp] theorem State.writeIce_cxs (s : State) (a mask : Nat) (data : List Byte) (whole : Bool) (cmd : Nat) (poison : Bool) :
    (s.writeIce a mask data whole cmd poison).cxs = s.cxs := by
  unfold State.writeIce
  dsimp only
  split
  · rfl
  · split <;> rfl

@[simp] theorem State.acceptAt_cxs (s : State) (line mask : Nat) (data : List Byte) (whole : Bool) (cmd : Nat) (poison : Bool) :
    (s.acceptAt line mask data whole cmd poison).cxs = s.cxs := by
  unfold State.acceptAt
  split
  · exact (State.writeIce_cxs ..).trans (State.homeInval_cxs ..)
  · exact (State.writeIce_cxs ..).trans (State.homeInval_cxs ..)
  · dsimp only
    split
    · rfl
    · split <;> rfl
  · rfl

@[simp] theorem State.rcPass_cxs (s : State) (d : Die) (line mask : Nat) (data : List Byte) : (s.rcPass d line mask data).cxs = s.cxs := by
  unfold State.rcPass
  split
  · rfl
  · split <;> rfl

/-- A context's write that is lost sets its loss latch and marks the command; nothing else of a context changes. -/
theorem State.loseWrite_resetting (s : State) (d e : Die) (c b : Cx) (cmd : Nat) (p : Pkg) :
    ((s.loseWrite (.cx d c) cmd p).cx e b).resetting = (s.cx e b).resetting := by
  by_cases h : (e, b) = (d, c)
  · cases h
    rw [State.loseWrite, State.cx_setCx]
  · rw [State.loseWrite, State.cx_setCx_of_ne _ _ h]

/-- A context's sector write to memory in service changes no context. -/
theorem State.sendWrite_cxs {s : State} {w : Wr} {d : Die} {c : Cx} (hsrc : w.src = .cx d c) (hcrc : w.crc = none)
    (hin : s.absent (s.region w.addr) = false) : (s.sendWrite w).cxs = s.cxs := by
  unfold State.sendWrite
  simp only [hsrc, hcrc, hin, Bool.false_eq_true, if_false]
  refine iteInduction (motive := fun t : State => t.cxs = s.cxs) (fun _ => ?_) fun _ => ?_
  · rw [State.acceptAt_cxs, State.rcPass_cxs]
  · cases (s.region w.addr).dst <;> exact State.rcPass_cxs ..

/-- A context's sector write leaves every RESET under way. -/
theorem State.sendWrite_resetting (s : State) {w : Wr} {d : Die} {c : Cx} (hsrc : w.src = .cx d c) (hcrc : w.crc = none) (e : Die) (b : Cx) :
    ((s.sendWrite w).cx e b).resetting = (s.cx e b).resetting := by
  cases hin : s.absent (s.region w.addr) with
  | true =>
    unfold State.sendWrite
    simp only [hsrc, hin, if_true]
    exact s.loseWrite_resetting ..
  | false => rw [State.cx, State.sendWrite_cxs hsrc hcrc hin, ← State.cx]

/-- Clearing a slot leaves every RESET under way. -/
theorem State.clearSlot_resetting (s : State) (d : Die) (c : Cx) (slot : Nat) (e : Die) (b : Cx) :
    ((s.clearSlot d c slot).2.cx e b).resetting = (s.cx e b).resetting := by
  have htrans := s.translate_cxs d c (queueStream c) (s.slotVa d c slot) true
  unfold State.clearSlot
  split
  · rename_i pa s1 h
    rw [h] at htrans
    rw [State.sendWrite_resetting (d := d) (c := c) _ rfl rfl, State.cx, htrans, ← State.cx]
  · rw [State.cx, htrans, ← State.cx]

/-! ## An engine shows that it idles (R132, R191, R220) -/

/-- Beside the engines and their registers, which lie after the contexts' on their die, nothing has changed. -/
structure EngsOnly (d : Die) (s t : State) : Prop where
  frame : t = { s with regs := t.regs, eng := t.eng }
  reg : ∀ o < R.dieBase d + 0x10000, t.reg o = s.reg o

theorem EngsOnly.refl (d : Die) (s : State) : EngsOnly d s s := ⟨rfl, fun _ _ => rfl⟩

section
variable {d : Die} {s t : State} (h : EngsOnly d s t)
include h

theorem EngsOnly.setFld {o : Nat} (ho : R.dieBase d + 0x10000 ≤ o) (f : Fld) (v : Nat) : EngsOnly d s (t.setFld o f v) where
  frame := by
    rw [h.frame]
    rfl
  reg i hi := by rw [State.reg_setFld_of_ne _ _ _ (by omega), h.reg i hi]

theorem EngsOnly.setEng (u : Nat) (e : EngSt) : EngsOnly d s (t.setEng d u e) where
  frame := by
    rw [h.frame]
    rfl
  reg := h.reg

theorem EngsOnly.fld {o : Nat} (ho : o < R.dieBase d + 0x10000) (f : Fld) : t.fld o f = s.fld o f :=
  congrArg (fun w : Word => w.get f.hi f.lo) (h.reg o ho)

theorem EngsOnly.cxs : t.cxs = s.cxs := by rw [h.frame]
theorem EngsOnly.mem : t.mem = s.mem := by rw [h.frame]
theorem EngsOnly.faults : t.faults = s.faults := by rw [h.frame]

theorem EngsOnly.cx (e : Die) (b : Cx) : t.cx e b = s.cx e b := by rw [State.cx, h.cxs, State.cx]

end

theorem State.engShow_only (s : State) (d : Die) (u : Nat) : EngsOnly d s (s.engShow d u) := by
  have hve : R.dieBase d + 0x10000 ≤ R.VE_STATUS d (u - 8) := by unfold R.VE_STATUS; omega
  have hdm : R.dieBase d + 0x10000 ≤ R.DM_STATUS d (u - 16) := by unfold R.DM_STATUS; omega
  unfold State.engShow
  split_ifs
  · exact .refl d s
  · cases (s.dieFlights d).find? _ with
    | none => exact (EngsOnly.refl d s).setFld hve _ _
    | some p => exact (((EngsOnly.refl d s).setFld hve _ _).setFld hve _ _).setFld hve _ _
  · cases (s.dieFlights d).find? _ with
    | none => exact (EngsOnly.refl d s).setFld hdm _ _
    | some p => exact (((EngsOnly.refl d s).setFld hdm _ _).setFld hdm _ _).setFld hdm _ _

theorem EngsOnly.setEngIn {d : Die} {s t : State} (h : EngsOnly d s t) (u : Nat) (on : Bool) : EngsOnly d s (t.setEngIn d u on) := by
  unfold State.setEngIn
  extract_lets v
  split_ifs
  · exact h.setFld (by unfold R.MA_STATUS; omega) _ _
  · exact h.setFld (by unfold R.VE_STATUS; omega) _ _
  · exact h.setFld (by unfold R.DM_STATUS; omega) _ _

theorem State.leaveIfIdle_only (s : State) (d : Die) (u : Nat) : EngsOnly d s (s.leaveIfIdle d u) := by
  unfold State.leaveIfIdle
  extract_lets s1
  split
  · exact ((s.engShow_only d u).setEngIn u false).setEng u _
  · exact s.engShow_only d u

/-- The end of a command is shown at its engine; a control command has none. -/
theorem State.engineLeft_only (s : State) (d : Die) (k : Cmd) : EngsOnly d s (if k.kind = 3 then s else s.leaveIfIdle d k.engine) := by
  split
  · exact .refl d s
  · exact s.leaveIfIdle_only d k.engine

/-- A context's registers lie before its die's engines'. -/
theorem cxReg_lt (d : Die) (c : Cx) {i : Nat} (h : i < 0x80) : R.dieBase d + i + 0x80 * c < R.dieBase d + 0x10000 := by
  have hc := c.isLt
  omega

/-! ## A context with nothing left (R69, R84) -/

section
variable {s : State} {d : Die} {c : Cx} (hr : (s.cx d c).resetting = none)
include hr

/-- Out of a RESET a context with a flight stays as it is. -/
theorem State.settleCtx_of_flight (hf : (s.cx d c).flights ≠ []) : s.settleCtx d c = s := by
  simp [State.settleCtx, hr, hf]

/-- Out of a RESET a context keeps its flights and its place in the ring, and memory and firn stay. -/
theorem State.settleCtx_frame : ((s.settleCtx d c).cx d c).flights = (s.cx d c).flights ∧ (s.settleCtx d c).headAt d c = s.headAt d c ∧
    (s.settleCtx d c).mem = s.mem ∧ (s.settleCtx d c).firn = s.firn := by
  have hsettle : s.settleCtx d c =
      if s.cxState d c = CxS.DRAINING ∧ (s.cx d c).flights = [] then (s.setCx d c { s.cx d c with cur := none, back := 0 }).enterOff d c else s := by
    simp only [State.settleCtx, hr]
  rw [hsettle]
  split
  · refine ⟨?_, ?_, rfl, rfl⟩
    · rw [State.enterOff, State.cx, State.setFld_cxs, ← State.cx, State.cx_setCxState, State.cx_setCx]
    · rw [State.enterOff, State.headAt, State.fld_setFld_of_ne _ _ _ _ (CX_CFG_ne_CX_HEAD d c).symm, State.setCxState,
        State.fld_setFld_of_ne _ _ _ _ (CX_HEAD_ne_CX_STATE d c)]
      rfl
  · exact ⟨rfl, rfl, rfl, rfl⟩

end

/-! ## COMMAND_COMPLETE (R74) -/

/-- The flight at a slot marked complete. -/
def State.markComplete (s : State) (d : Die) (c : Cx) (slot : Nat) : State :=
  s.setFlight d c slot fun g => { g with phase := .complete, sigSent := true, tile := none }

/-- A context that waited for a place in flight goes on (R70). -/
def State.roomFreed (s : State) (d : Die) (c : Cx) : State :=
  if s.cxState d c = CxS.WAIT_FLIGHT then (s.setCxState d c CxS.READY).setCx d c { s.cx d c with waitSince := s.now } else s

theorem State.roomFreed_frame (s : State) (d : Die) (c : Cx) : ((s.roomFreed d c).cx d c).flights = (s.cx d c).flights ∧
    ((s.roomFreed d c).cx d c).resetting = (s.cx d c).resetting ∧ RegsCxsOnly s (s.roomFreed d c) := by
  unfold State.roomFreed
  split
  · rw [State.cx_setCx]
    exact ⟨rfl, rfl, ((RegsCxsOnly.refl s).setCxState d c _).setCx d c _⟩
  · exact ⟨rfl, rfl, .refl s⟩

theorem CxBut.roomFreed {d : Die} {c : Cx} {s t : State} (h : CxBut d c s t) : CxBut d c s (t.roomFreed d c) := by
  unfold State.roomFreed
  split
  · exact (h.setCxState d c _).setCx _
  · exact h

/-- A command of its own, no SEAL and no DFENCE, completes: its signal leaves, its flight is marked, its context and engine go on. -/
theorem State.completeFlight_eq (s : State) (d : Die) (c : Cx) {f : Flight} (hseal : f.cmd.isSeal = false) (hdf : f.cmd.isCtl Op.DFENCE = false) :
    s.completeFlight d c f =
      let u := ((s.sendSignal d c f).markComplete d c f.slot).roomFreed d c
      ((if f.cmd.kind = 3 then u else u.leaveIfIdle d f.cmd.engine).settleCtx d c).cxShow d c := by
  simp only [State.completeFlight, hseal, hdf, Bool.false_eq_true, if_false]
  rfl

/-- What the completion of a command of its own leaves, beside its signal. -/
theorem State.completeFlight_frame {s u : State} {d : Die} {c : Cx} {f : Flight} (hseal : f.cmd.isSeal = false)
    (hdf : f.cmd.isCtl Op.DFENCE = false) (hu : s.sendSignal d c f = u) (hf : (u.cx d c).flight f.slot = some f)
    (hr : (u.cx d c).resetting = none) :
    ((s.completeFlight d c f).cx d c).flight f.slot = some { f with phase := .complete, sigSent := true, tile := none } ∧
      s.completeFlight d c f = { u with regs := (s.completeFlight d c f).regs, cxs := (s.completeFlight d c f).cxs, eng := (s.completeFlight d c f).eng } ∧
      CxBut d c u (s.completeFlight d c f) := by
  have heq := s.completeFlight_eq d c hseal hdf
  rw [hu] at heq
  dsimp only at heq
  have hmark : (u.markComplete d c f.slot).cx d c = (u.cx d c).mapFlight f.slot _ := u.cx_setFlight d c f.slot _
  have hflight := Ctx.flight_mapFlight (g := fun g => { g with phase := .complete, sigSent := true, tile := none }) (fun _ => rfl) hf
  obtain ⟨hroom, hroomReset, hroomFrame⟩ := (u.markComplete d c f.slot).roomFreed_frame d c
  have hbut : CxBut d c u _ := ((CxBut.refl d c u).setFlight f.slot fun g => { g with phase := .complete, sigSent := true, tile := none }).roomFreed
  set v := (u.markComplete d c f.slot).roomFreed d c
  have hleft := v.engineLeft_only d f.cmd
  set w := if f.cmd.kind = 3 then v else v.leaveIfIdle d f.cmd.engine
  have hflights : (w.cx d c).flights = ((u.cx d c).mapFlight f.slot fun g => { g with phase := .complete, sigSent := true, tile := none }).flights := by
    rw [hleft.cx, hroom, hmark]
  have hflightW : (w.cx d c).flight f.slot = some { f with phase := .complete, sigSent := true, tile := none } := by
    rw [Ctx.flight, hflights, ← Ctx.flight, hflight]
  have hreset : (w.cx d c).resetting = none := by
    rw [hleft.cx, hroomReset, hmark]
    exact hr
  rw [State.settleCtx_of_flight hreset (List.ne_nil_of_mem (Ctx.mem_of_flight hflightW))] at heq
  rw [heq]
  refine ⟨by rw [State.cx_cxShow, hflightW], ?_, ?_⟩
  · rw [(RegsCxsOnly.refl w).cxShow d c, hleft.frame, hroomFrame]
    rfl
  · exact (hbut.of_cxs hleft.cxs).cxShow d c

theorem State.sendSignal_of_none (s : State) (d : Die) (c : Cx) {f : Flight} (h : f.cmd.signalEn = false) : s.sendSignal d c f = s := by
  simp [State.sendSignal, h]

theorem State.noteArrive_frame (s : State) (part q pkg round : Nat) :
    s.noteArrive part q pkg round = { s with pace := (s.noteArrive part q pkg round).pace } := by
  unfold State.noteArrive
  dsimp only
  split <;> rfl

/-- A signal to this package's sync unit leaves with the writes that go before it (R317, R343). -/
theorem State.sendQsig_local (s : State) (src : Src) (q : Nat) (op : QOp) (arg slot part : Nat) :
    ∃ pace, s.sendQsig src none q op arg slot part =
      { s with sync := { s.sync with qsigs := s.sync.qsigs ++
          [{ id := s.mem.nextId, src := src, q := q, op := op, arg := arg, slot := slot, part := part, before := s.unaccepted src }] },
               mem := { s.mem with nextId := s.mem.nextId + 1 }, pace := pace } := by
  simp only [State.sendQsig, Bool.false_eq_true, if_false]
  split
  · exact ⟨_, State.noteArrive_frame ..⟩
  · exact ⟨_, rfl⟩

theorem State.sendSignal_local (s : State) (d : Die) (c : Cx) {f : Flight} (hen : f.cmd.signalEn = true) (hsent : f.sigSent = false)
    (hloc : f.cmd.signalRemote = false) : s.sendSignal d c f =
      s.sendQsig (.cx d c) none f.cmd.signalQ (QOp.ofCode f.cmd.signalOp) f.cmd.signalVal f.slot f.cmd.part := by
  simp [State.sendSignal, hen, hsent, hloc]

/-- A worked command that nothing holds completes. -/
theorem commandComplete_of_worked {s : State} {d : Die} {c : Cx} {slot : Nat} {f : Flight} (hf : (s.cx d c).flight slot = some f)
    (hp : f.phase = .worked) (hk : f.cmd.kind ≠ 2) (hg : (s.cx d c).gateDone f = true) (hfirn : s.cmdFirnHeld f = false)
    (hw : f.cmd.fenced = false ∨ (s.cmdWrites f = false ∧ f.lostWrite = false)) :
    commandComplete d c slot s = s.completeFlight d c f := by
  have hheld : (f.cmd.fenced && s.cmdWrites f) = false := by rcases hw with h | ⟨h, -⟩ <;> simp [h]
  have hlost : (f.cmd.fenced && f.lostWrite) = false := by rcases hw with h | ⟨-, h⟩ <;> simp [h]
  simp [commandComplete, hf, hp, hk, hg, hfirn, hheld, hlost]

theorem commandComplete_of_writes {s : State} {d : Die} {c : Cx} {slot : Nat} {f : Flight} (hf : (s.cx d c).flight slot = some f)
    (hfen : f.cmd.fenced = true) (hw : s.cmdWrites f = true) : commandComplete d c slot s = s := by
  simp [commandComplete, hf, hfen, hw]

theorem commandComplete_of_unended {s : State} {d : Die} {c : Cx} {slot : Nat} {f : Flight} (hf : (s.cx d c).flight slot = some f)
    (hp : f.phase ≠ .worked) : commandComplete d c slot s = s := by
  simp [commandComplete, hf, hp]

/-! ## COMMAND_RETIRE (R63, R75) -/

theorem commandRetire_of_head {s : State} {d : Die} {c : Cx} {f : Flight} (hf : (s.cx d c).flight (s.headAt d c) = some f) :
    commandRetire d c s =
      if f.phase = .complete ∧ !f.inGroup ∧ !s.signalOut d c f.slot ∧ s.cxState d c ≠ CxS.OFF then s.retireHead d c f else s := by
  simp only [commandRetire, hf]

/-- HEAD moved past a one-slot command, whose flight is gone. -/
def State.headPast (s : State) (d : Die) (c : Cx) (slot n : Nat) : State :=
  (s.setFld (R.CX_HEAD d c) F.CX_HEAD.HEAD ((slot + 1) % n)).setCx d c { s.cx d c with flights := (s.cx d c).flights.filter fun g => g.slot != slot }

theorem State.retireHead_of_cleared {s u : State} {d : Die} {c : Cx} {f : Flight} {pa : Nat} (hext : f.ext = false)
    (h : s.clearSlot d c f.slot = (.ok pa, u)) :
    s.retireHead d c f = ((u.headPast d c f.slot (s.qsize d c)).settleCtx d c).cxShow d c := by
  simp only [State.retireHead, h, hext, Bool.false_eq_true, if_false]
  rfl

theorem State.headAt_headPast (s : State) (d : Die) (c : Cx) (slot : Nat) {n : Nat} (hn : 0 < n) (hle : n ≤ 65536) :
    (s.headPast d c slot n).headAt d c = (slot + 1) % n :=
  State.fld_setFld_of_le _ _ _ (by decide) (Nat.le_of_lt_succ ((Nat.mod_lt _ hn).trans_le hle))

theorem State.headAt_cxShow (s : State) (d : Die) (c : Cx) : (s.cxShow d c).headAt d c = s.headAt d c := by
  obtain ⟨-, -, hregs⟩ := s.cxShow_frame d c
  exact hregs.fld (by simpa using CX_HEAD_ne_CX_STATE d c) _

/-- The retirement of a one-slot command whose slot is cleared. -/
theorem State.retireHead_frame {s u : State} {d : Die} {c : Cx} {f : Flight} {pa : Nat} (hext : f.ext = false) (hr : (s.cx d c).resetting = none)
    (hq : s.qsize d c ≤ 65536) (h : s.clearSlot d c f.slot = (.ok pa, u)) :
    (s.retireHead d c f).headAt d c = (f.slot + 1) % s.qsize d c ∧ ((s.retireHead d c f).cx d c).flight f.slot = none ∧
      (s.retireHead d c f).mem = u.mem ∧ (s.retireHead d c f).firn = u.firn := by
  have hru := s.clearSlot_resetting d c f.slot d c
  rw [h, hr] at hru
  have hpast : (u.headPast d c f.slot (s.qsize d c)).cx d c =
      { u.cx d c with flights := (u.cx d c).flights.filter fun g => g.slot != f.slot } := State.cx_setCx ..
  obtain ⟨hflights, hhead, hmem, hfirn⟩ := State.settleCtx_frame (s := u.headPast d c f.slot (s.qsize d c)) (d := d) (c := c) (by rw [hpast]; exact hru)
  rw [State.retireHead_of_cleared hext h]
  refine ⟨?_, ?_, hmem, hfirn⟩
  · rw [State.headAt_cxShow, hhead, State.headAt_headPast _ d c _ (s.qsize_pos d c) hq]
  · rw [State.cx_cxShow, Ctx.flight, hflights, hpast]
    simp [List.find?_eq_none]

/-! ## COMMAND_FAULT (R83, R580) -/

/-- A context that drains drains on once its fault is dealt with (R84). -/
def State.drainNoted (s : State) (d : Die) (c : Cx) : State :=
  if s.cxState d c = CxS.DRAINING then s.setCx d c { s.cx d c with drainLater := true } else s

/-- ISSUE returned to a faulted command, whose gate is given up. -/
def State.backTo (s : State) (d : Die) (c : Cx) (slot : Nat) : State := ((s.returnGate d c).drainNoted d c).rewind d c slot

theorem State.backTo_frame (s : State) (d : Die) (c : Cx) {slot : Nat} (hslot : slot < 65536) : (s.backTo d c slot).issueAt d c = slot ∧
    ((s.backTo d c slot).cx d c).cur = none ∧ (s.backTo d c slot).mem = s.mem := by
  have hmem : ((s.returnGate d c).drainNoted d c).mem = s.mem := by
    rw [← s.returnGate_mem d c, State.drainNoted]
    split <;> rfl
  refine ⟨State.issueAt_setIssue _ d c hslot, ?_, hmem⟩
  rw [State.backTo, State.rewind, State.cx_setCx]

/-- A faulted command outside a group stops its context. -/
theorem commandFault_of_faulted {s : State} {d : Die} {c : Cx} {slot : Nat} {f : Flight} (hf : (s.cx d c).flight slot = some f)
    (hp : f.phase = .faulted) (hstop : s.cxStopped d c = false) (hoff : s.cxState d c ≠ CxS.OFF) (hr : (s.cx d c).resetting = none)
    (hgrp : f.inGroup = false) : commandFault d c slot s =
      let u := (s.backTo d c slot).cxStop d c f.fault slot f.cmd.kind f.cmd.unit f.faultAddr f.code false false
      (if f.cmd.kind = 3 then u else u.leaveIfIdle d f.cmd.engine).cxShow d c := by
  simp only [commandFault, hf, hp, hstop, hoff, hr, hgrp, ne_eq, not_true_eq_false, Bool.false_eq_true, or_self, if_false]
  rfl

theorem isXlate_iff (n : Nat) : isXlate n = true ↔ n = St.PAGE_MISSING ∨ n = St.PAGE_DENIED ∨ n = St.PAGE_TOO_SMALL := by
  simp [isXlate, or_assoc]

/-- What the engine that is left and the context's own view do not touch. -/
theorem EngsOnly.shown {d : Die} {c : Cx} {u w : State} (h : EngsOnly d u w) :
    (w.cxShow d c).cxState d c = u.cxState d c ∧ (w.cxShow d c).reg (R.CX_FAULT d c) = u.reg (R.CX_FAULT d c) ∧
      (w.cxShow d c).reg (R.CX_FAULT_ADDR d c) = u.reg (R.CX_FAULT_ADDR d c) ∧ (w.cxShow d c).issueAt d c = u.issueAt d c ∧
      (w.cxShow d c).cx d c = u.cx d c ∧ (w.cxShow d c).mem = u.mem ∧ (w.cxShow d c).faults = u.faults := by
  obtain ⟨hstate, hframe, hregs⟩ := w.cxShow_frame d c
  refine ⟨?_, ?_, ?_, ?_, ?_, ?_, ?_⟩
  · rw [hstate]
    exact h.fld (cxReg_lt d c (by decide)) _
  · rw [hregs _ (by simpa using CX_FAULT_ne_CX_STATE d c)]
    exact h.reg _ (cxReg_lt d c (by decide))
  · rw [hregs _ (by simpa using CX_FAULT_ADDR_ne_CX_STATE d c)]
    exact h.reg _ (cxReg_lt d c (by decide))
  · exact (hregs.fld (by simpa using CX_HEAD_ne_CX_STATE d c) _).trans (h.fld (cxReg_lt d c (by decide)) _)
  · rw [State.cx_cxShow, h.cx]
  · rw [hframe]
    exact h.mem
  · rw [hframe]
    exact h.faults

theorem CX_HEAD_ne_CX_FAULT (d c : Nat) : R.CX_HEAD d c ≠ R.CX_FAULT d c := cxReg_ne d c (by decide)
theorem CX_HEAD_ne_CX_FAULT_ADDR (d c : Nat) : R.CX_HEAD d c ≠ R.CX_FAULT_ADDR d c := cxReg_ne d c (by decide)

theorem State.issueAt_cxStop (s : State) (d : Die) (c : Cx) (status slot kind unit addr code : Nat) (abandoned done : Bool) :
    (s.cxStop d c status slot kind unit addr code abandoned done).issueAt d c = s.issueAt d c :=
  (State.cxStop_frame ..).2.fld (by simp [CX_HEAD_ne_CX_STATE, CX_HEAD_ne_CX_FAULT, CX_HEAD_ne_CX_FAULT_ADDR]) _

theorem State.cx_cxStop (s : State) (d e : Die) (c b : Cx) (status slot kind unit addr code : Nat) (abandoned done : Bool) :
    (s.cxStop d c status slot kind unit addr code abandoned done).cx e b = s.cx e b := by
  rw [(State.cxStop_frame ..).1]
  rfl

theorem State.recordOf_cxStop (s : State) (d : Die) (c : Cx) (status slot kind unit addr code : Nat) (abandoned done : Bool) :
    (s.cxStop d c status slot kind unit addr code abandoned done).lastRaised.map (fun r => (r.status, r.detail, r.cx, r.cxDie)) =
      some (status, code, c.val, d.val) := by
  have hlast := State.lastRaised_cxStop status slot kind unit abandoned done s d c addr code
  obtain ⟨r, hr, hfields⟩ := Option.map_eq_some_iff.mp hlast
  obtain ⟨hstatus, -, hdetail, hcx, hdie⟩ := by simpa only [Prod.mk.injEq] using hfields
  rw [hr, Option.map_some, hstatus, hdetail, hcx, hdie]

/-- Settles O18: a worked command completes or is held, the completed head retires, a faulted command stops its context. -/
theorem commandCompletes : Obligations.CommandCompletes := by
  unfold Obligations.CommandCompletes
  intro s d c slot f hon hf hr
  obtain rfl := Ctx.slot_of_flight hf
  have hcomplete : exec (.commandComplete d c f.slot) s = .next (commandComplete d c f.slot s) := State.whileOn_on _ hon
  have hretire : exec (.commandRetire d c) s = .next (commandRetire d c s) := State.whileOn_on _ hon
  refine ⟨fun hp hk hg hfirn hseal hdf => ⟨fun hw => ⟨fun hen => ?_, fun hen hsent hloc _ => ?_⟩, fun hfen hw => ?_⟩, fun hp => ?_,
    fun u pa hhead hp hgrp hext hsig hst hq hclear => ?_, fun hno hhead => ?_,
    fun hp hstop hst hgrp hfault hslot haddr hkind hunit => ?_⟩
  · rw [commandComplete_of_worked hf hp hk hg hfirn hw] at hcomplete
    obtain ⟨hflight, hframe, hbut⟩ := State.completeFlight_frame hseal hdf (s.sendSignal_of_none d c hen) hf hr
    exact .of hcomplete ⟨hflight, by rw [hframe], by rw [hframe], hframe, hbut⟩
  · rw [commandComplete_of_worked hf hp hk hg hfirn hw] at hcomplete
    obtain ⟨pace, hsend⟩ := s.sendQsig_local (.cx d c) f.cmd.signalQ (QOp.ofCode f.cmd.signalOp) f.cmd.signalVal f.slot f.cmd.part
    rw [← s.sendSignal_local d c hen hsent hloc] at hsend
    obtain ⟨hflight, hframe, hbut⟩ := State.completeFlight_frame hseal hdf hsend hf hr
    exact .of hcomplete ⟨hflight, by rw [hframe], by rw [hframe], hbut⟩
  · rw [hcomplete, commandComplete_of_writes hf hfen hw]
  · rw [hcomplete, commandComplete_of_unended hf hp]
  · rw [hhead] at hf
    rw [commandRetire_of_head hf, if_pos ⟨hp, by simp [hgrp], by simp [hsig], hst⟩] at hretire
    exact .of hretire (State.retireHead_frame hext hr hq hclear)
  · rw [hhead] at hf
    rw [hretire, commandRetire_of_head hf, if_neg]
    rintro ⟨hp, hgrp, -⟩
    exact hno.elim (· hp) fun h => by simp [h] at hgrp
  · have hexec : exec (.commandFault d c f.slot) s = .next (commandFault d c f.slot s) := State.whileOn_on _ hon
    rw [commandFault_of_faulted hf hp hstop hst hr hgrp] at hexec
    obtain ⟨hissue, hcur, hmem⟩ := s.backTo_frame d c hslot
    obtain ⟨hstate, hreg, hregAddr, hissueAt, hcx, hmemAt, hfaults⟩ := (State.engineLeft_only
      ((s.backTo d c f.slot).cxStop d c f.fault f.slot f.cmd.kind f.cmd.unit f.faultAddr f.code false false) d f.cmd).shown (c := c)
    rw [State.reg_cxStop_fault] at hreg
    refine .of hexec ⟨?_, ?_, ?_, ?_, ?_, ?_, ?_, ?_, ?_, ?_, ?_, ?_⟩
    · simp only [hstate, State.cxState_cxStop, isXlate_iff]
    · rw [State.fld, hreg]
      exact cxFaultWord_status _ _ _ _ _ _ hfault
    · rw [State.fld, hreg]
      exact cxFaultWord_slot _ _ _ _ _ _ hslot
    · rw [State.fld, hreg]
      exact cxFaultWord_kind _ _ _ _ _ _ hkind
    · rw [State.fld, hreg]
      exact cxFaultWord_unit _ _ _ _ _ _ hunit
    · rw [State.fld, hreg]
      exact cxFaultWord_abandoned ..
    · rw [State.fld, hreg]
      exact cxFaultWord_done ..
    · rw [hregAddr, State.faultAddr_cxStop _ _ _ _ _ _ _ _ _ _ _ haddr]
    · rw [hissueAt, State.issueAt_cxStop, hissue]
    · rw [hcx, State.cx_cxStop, hcur]
    · rw [State.lastRaised, hfaults, ← State.lastRaised, State.recordOf_cxStop]
    · rw [hmemAt, State.cxStop_mem, hmem]

/-- An OPEN of one slot of MA0, in partition 0, with no gate, stamp, epoch or signal (R64, R115). -/
def openOneSlot : Cmd where
  w0 := ((0 : Word).put 3 0 1).put 17 10 1
  w2 := (0 : Word).put 10 5 1

/-- CD0.CX0 is READY with an OPEN at ISSUE. The phase table says that CD0 runs tag 0x1F3F83, which no command can carry (tags end at 255,
R64): the entry of the power table for that tag would lie at CX_HEAD of CD0.CX0. Its occurrence has lasted 2 µs, and learning is on. -/
def phaseOutOfRange : State where
  now := 32000
  regs := [(R.PKG_ID, (0 : Word).put 19 16 1), (R.PWR_CFG, 1), (R.CX_STATE 0 0, 2)]
  phase := [(0, 0x1F3F83)]
  occ := [(0x1F3F83, 0, false)]
  cxs := [(0, { cur := some openOneSlot })]

theorem kind_openOneSlot : openOneSlot.kind = 0 := rfl

theorem openOneSlot_wins :
    (phaseOutOfRange.setCx 0 0 { phaseOutOfRange.cx 0 0 with inArb := true }).wins 0 0 openOneSlot = true := by decide

theorem malformed_openOneSlot : phaseOutOfRange.malformed 0 0 openOneSlot = none := by decide

/-- The OPEN's issue ends the old tag's occurrence, and its count (R476) is written into HEAD. -/
theorem headAt_commandIssue_phaseOutOfRange : (commandIssue 0 0 phaseOutOfRange).headAt 0 0 = 1 := by decide

/-- Refutes O16: the statement takes every state, also one whose phase table holds a tag above 255. The issue of a command of another tag
then counts the old tag's occurrence (R476) at an offset that is the context's own CX_HEAD, and HEAD moves. -/
theorem not_commandIssue : ¬ Obligations.CommandIssue := by
  unfold Obligations.CommandIssue
  intro h
  obtain ⟨hissues, -⟩ := h phaseOutOfRange 0 0 openOneSlot rfl rfl (by decide) rfl
  obtain ⟨-, hengine⟩ := hissues malformed_openOneSlot (by decide) (by decide) (by decide) (by decide) (by decide) (by decide)
    (by decide)
  have hin : phaseOutOfRange.engIn 0 openOneSlot.engine = true := by decide
  obtain ⟨t, ht, -, -, -, hhead, -⟩ := hengine (by rw [kind_openOneSlot]; decide) hin rfl openOneSlot_wins
  have hexec : exec (.commandIssue 0 0) phaseOutOfRange = .next (commandIssue 0 0 phaseOutOfRange) := State.whileOn_on _ rfl
  have htd : t = commandIssue 0 0 phaseOutOfRange := Host.Outcome.next.inj (ht.symm.trans hexec)
  have hzero : phaseOutOfRange.headAt 0 0 = 0 := by decide
  rw [htd, headAt_commandIssue_phaseOutOfRange, hzero] at hhead
  exact absurd hhead (by decide)

/-- CD0.CX0 is READY with one command issued, at slot 1. At its ISSUE, slot 0, the pool holds a waiter of it that was granted a unit of
quire 0, though the context does not note a unit held. CD0.CX1 waits in WAIT_GATE for quire 0 to equal 1. -/
def grantedUnitUnnoted : State where
  regs := [(R.CX_STATE 0 0, 2), (R.CX_STATE 0 1, 3)]
  sync := { waiters := [{ index := 0, die := 0, cx := 0, slot := 0, kind := .gate 0 2 0, granted := true },
    { index := 1, die := 0, cx := 1, slot := 0, kind := .gate 0 0 1 }] }
  cxs := [(0, { flights := [{ slot := 1, ext := false, cmd := {}, id := 1 }] })]

/-- The host's write of CX_CTL with DRAIN alone. -/
def drainWrite : RegW := { agent := .host, half := .full, value := 4 }

theorem writes_drainWrite : grantedUnitUnnoted.Writes drainWrite (R.CX_CTL 0 0) 4 := ⟨rfl, rfl⟩

theorem cxState_grantedUnitUnnoted : grantedUnitUnnoted.cxState 0 0 = CxS.READY := by decide

/-- The drain frees the waiter and returns its unit, which satisfies the other context's gate (R377, R378). -/
theorem drainAct_wakes_other : ((drainAct 0 0 grantedUnitUnnoted).cx 0 1).gateHeld = true := by decide

/-- Refutes O19: a DRAIN of a context with a command issued may change another context. Where the pool holds a waiter of the command at
ISSUE that was granted a unit, the drain returns the unit to its quire (R378), and the quire then satisfies another context's gate. -/
theorem not_contextControl : ¬ Obligations.ContextControl := by
  unfold Obligations.ContextControl
  intro h
  obtain ⟨-, -, -, hdrain, -, -⟩ := h grantedUnitUnnoted drainWrite 4 0 0 rfl
  obtain ⟨-, hgo⟩ := hdrain writes_drainWrite (by decide)
  obtain ⟨-, hflights⟩ := hgo (by rw [cxState_grantedUnitUnnoted]; decide) rfl rfl rfl
  obtain ⟨t, ht, -, -, -, hbut⟩ := hflights (by decide)
  have htd : t = drainAct 0 0 grantedUnitUnnoted := (Host.Outcome.next.inj ht).symm
  have hsame : (t.cx 0 1).gateHeld = false := congrArg Ctx.gateHeld (hbut 0 1 (by decide))
  simp [htd, drainAct_wakes_other] at hsame

end Sys2Proof.Machine
end

section
/-!
What engines and their commands change, beside the state's own laws: a flight that ends or stops (R74, R83), and a fault in its engine's
register (R131, R190, R218).
-/

namespace Sys2Proof

/-- The two low bits of a word. -/
theorem Word.get_one_zero (w : Word) : w.get 1 0 = (w.bit 0).toNat + 2 * (w.bit 1).toNat := by
  simp only [Word.get, bitsOf, Word.bit, Nat.toNat_testBit, Nat.shiftRight_zero]
  omega

end Sys2Proof

namespace Sys2Proof.Machine

/-! ## What engines and their commands change -/

/-- Beside registers, records, contexts, arrays, engines, and when the dies last ran, nothing differs in `t` from `s`. -/
def EnginesOnly (s t : State) : Prop :=
  t = { s with regs := t.regs, faults := t.faults, cxs := t.cxs, arrays := t.arrays, eng := t.eng,
               power := { s.power with ranAt := t.power.ranAt } }

theorem EnginesOnly.refl (s : State) : EnginesOnly s s := rfl

section
variable {s t : State} (h : EnginesOnly s t)
include h

theorem EnginesOnly.setReg (o : Nat) (w : Word) : EnginesOnly s (t.setReg o w) := by
  rw [h]
  rfl

theorem EnginesOnly.setFld (o : Nat) (f : Fld) (v : Nat) : EnginesOnly s (t.setFld o f v) := h.setReg _ _

theorem EnginesOnly.raise (r : FaultRec) : EnginesOnly s (t.raise r) := by
  rw [h]
  rfl

theorem EnginesOnly.setCx (d : Die) (c : Cx) (x : Ctx) : EnginesOnly s (t.setCx d c x) := by
  rw [h]
  rfl

theorem EnginesOnly.setFlight (d : Die) (c : Cx) (n : Nat) (g : Flight → Flight) : EnginesOnly s (t.setFlight d c n g) := h.setCx _ _ _

theorem EnginesOnly.setArr (d m : Nat) (a : ArraySt) : EnginesOnly s (t.setArr d m a) := by
  rw [h]
  rfl

theorem EnginesOnly.setEng (d u : Nat) (e : EngSt) : EnginesOnly s (t.setEng d u e) := by
  rw [h]
  rfl

theorem EnginesOnly.withRanAt (l : List (Nat × Nat)) : EnginesOnly s { t with power := { t.power with ranAt := l } } := by
  rw [h]
  rfl

theorem EnginesOnly.count (o n : Nat) : EnginesOnly s (t.count o n) := by
  unfold State.count
  extract_lets c s1 s2 u
  have h1 : EnginesOnly s s1 := h.setFld _ _ _
  split_ifs
  · exact h1
  · exact (h1.setFld _ _ _).raise _
  · exact h1.setFld _ _ _

theorem EnginesOnly.engRan (d : Die) (c : Cx) (n : Nat) : EnginesOnly s (t.engRan d c n) := by
  unfold State.engRan
  split
  · split
    · exact h.withRanAt _
    · exact h
  · exact h

theorem EnginesOnly.workDone (d : Die) (c : Cx) (n : Nat) : EnginesOnly s (t.workDone d c n) := (h.engRan d c n).setFlight d c n _

theorem EnginesOnly.flightFault (d : Die) (c : Cx) (n st addr code : Nat) : EnginesOnly s (t.flightFault d c n st addr code) :=
  (h.engRan d c n).setFlight d c n _

theorem EnginesOnly.engNote (d u code c n addr : Nat) : EnginesOnly s (t.engNote d u code c n addr) := by
  unfold State.engNote
  split
  split
  · exact h.setFld _ _ _
  · exact ((((h.setFld _ _ _).setFld _ _ _).setFld _ _ _).setFld _ _ _).setReg _ _

theorem EnginesOnly.engFault (d : Die) (c : Cx) (f : Flight) (code addr : Nat) : EnginesOnly s (t.engFault d c f code addr) :=
  (h.engNote _ _ _ _ _ _).flightFault d c _ _ _ _

end

/-! ## A flight in its context -/

theorem Ctx.mapFlight_mapFlight (x : Ctx) (n : Nat) {g : Flight → Flight} (h : Flight → Flight) (hg : ∀ f, (g f).slot = f.slot) :
    (x.mapFlight n g).mapFlight n h = x.mapFlight n (h ∘ g) := by
  simp only [Ctx.mapFlight, List.map_map]
  congr 2
  funext f
  by_cases hf : f.slot = n <;> simp [hf, hg]

theorem State.flightBy_setFlight (s : State) (d : Die) (c : Cx) (n : Nat) (g : Flight → Flight) : FlightBy d c n g s (s.setFlight d c n g) :=
  ⟨s.cx_setFlight d c n g, (CxBut.refl d c s).setFlight n g⟩

section
variable {d : Die} {c : Cx} {n : Nat} {g : Flight → Flight} {s t u : State} (h : FlightBy d c n g s t)
include h

theorem FlightBy.of_cxs (hu : u.cxs = t.cxs) : FlightBy d c n g s u := ⟨by rw [← h.1, State.cx, State.cx, hu], h.2.of_cxs hu⟩

/-- The flight's context is changed from any state that has the same contexts. -/
theorem FlightBy.from_cxs (hu : u.cxs = s.cxs) : FlightBy d c n g u t := by
  unfold FlightBy CxBut State.cx at h ⊢
  rwa [hu]

/-- Two changes of one flight, in their order. -/
theorem FlightBy.setFlight (hg : ∀ f, (g f).slot = f.slot) (k : Flight → Flight) : FlightBy d c n (k ∘ g) s (t.setFlight d c n k) :=
  ⟨by rw [State.cx_setFlight, h.1, Ctx.mapFlight_mapFlight _ n k hg], h.2.setFlight n k⟩

end

@[simp] theorem State.engRan_cxs (s : State) (d : Die) (c : Cx) (n : Nat) : (s.engRan d c n).cxs = s.cxs := by
  unfold State.engRan
  split
  · split <;> rfl
  · rfl

@[simp] theorem State.engRan_regs (s : State) (d : Die) (c : Cx) (n : Nat) : (s.engRan d c n).regs = s.regs := by
  unfold State.engRan
  split
  · split <;> rfl
  · rfl

@[simp] theorem State.engRan_faults (s : State) (d : Die) (c : Cx) (n : Nat) : (s.engRan d c n).faults = s.faults := by
  unfold State.engRan
  split
  · split <;> rfl
  · rfl

@[simp] theorem State.engRan_arrays (s : State) (d : Die) (c : Cx) (n : Nat) : (s.engRan d c n).arrays = s.arrays := by
  unfold State.engRan
  split
  · split <;> rfl
  · rfl

@[simp] theorem State.engRan_eng (s : State) (d : Die) (c : Cx) (n : Nat) : (s.engRan d c n).eng = s.eng := by
  unfold State.engRan
  split
  · split <;> rfl
  · rfl

/-- The work of a flight ends (R74). -/
theorem State.flightBy_workDone (s : State) (d : Die) (c : Cx) (n : Nat) : FlightBy d c n ended s (s.workDone d c n) :=
  (State.flightBy_setFlight _ d c n _).from_cxs (s.engRan_cxs d c n).symm

/-- A flight stops with a fault of its engine (R83). -/
theorem State.flightBy_flightFault (s : State) (d : Die) (c : Cx) (n addr code : Nat) :
    FlightBy d c n (stopped code addr) s (s.flightFault d c n St.ENGINE_FAULT addr code) :=
  (State.flightBy_setFlight _ d c n _).from_cxs (s.engRan_cxs d c n).symm

/-! ## A fault in its engine's register (R131, R190, R218) -/

theorem faultRegs_ne (d u : Nat) : (faultRegs d u).1 ≠ (faultRegs d u).2 := by
  unfold faultRegs
  split_ifs
  · unfold R.MA_FAULT R.MA_FAULT_ADDR; omega
  · unfold R.VE_FAULT R.VE_FAULT_ADDR; omega
  · unfold R.DM_FAULT R.DM_FAULT_ADDR; omega

/-- The fault register told an engine's first fault. -/
def State.noteFirst (s : State) (o code c slot : Nat) : State :=
  (((s.setFld o F.MA_FAULT.CODE code).setFld o F.MA_FAULT.CX c).setFld o F.MA_FAULT.SLOT slot).setFld o F.MA_FAULT.VALID 1

theorem State.engNote_eq (s : State) (d u code c slot addr : Nat) : s.engNote d u code c slot addr =
    if s.flag (faultRegs d u).1 F.MA_FAULT.VALID then s.setFld (faultRegs d u).1 F.MA_FAULT.MORE 1
    else (s.noteFirst (faultRegs d u).1 code c slot).setReg (faultRegs d u).2 (BitVec.ofNat 64 addr) := by
  by_cases h8 : u < 8
  · simp only [State.engNote, faultRegs, h8, if_true]
    rfl
  · by_cases h16 : u < 16
    · simp only [State.engNote, faultRegs, h8, h16, if_true, if_false]
      rfl
    · simp only [State.engNote, faultRegs, h8, h16, if_false]
      rfl

theorem State.regsBut_noteFirst (s : State) (o code c slot : Nat) : RegsBut [o] s (s.noteFirst o code c slot) :=
  ((((RegsBut.refl [o] s).setFld F.MA_FAULT.CODE code (by simp)).setFld F.MA_FAULT.CX c (by simp)).setFld F.MA_FAULT.SLOT slot
    (by simp)).setFld F.MA_FAULT.VALID 1 (by simp)

theorem State.regsBut_engNote (s : State) (d u code c slot addr : Nat) :
    RegsBut [(faultRegs d u).1, (faultRegs d u).2] s (s.engNote d u code c slot addr) := by
  rw [State.engNote_eq]
  split_ifs
  · exact (RegsBut.refl _ s).setFld F.MA_FAULT.MORE 1 (by simp)
  · exact ((s.regsBut_noteFirst _ code c slot).mono (by simp)).setReg _ (by simp)

/-- A first fault is told by its code, its context and its slot. -/
theorem State.fld_noteFirst (s : State) (o : Nat) {code c : Nat} (slot : Nat) (hcode : code < 256) (hc : c < 128) :
    (s.noteFirst o code c slot).fld o F.MA_FAULT.CODE = code ∧ (s.noteFirst o code c slot).fld o F.MA_FAULT.CX = c ∧
      (s.noteFirst o code c slot).fld o F.MA_FAULT.SLOT = slot % 65536 ∧ (s.noteFirst o code c slot).fld o F.MA_FAULT.VALID = 1 ∧
      (s.noteFirst o code c slot).fld o F.MA_FAULT.MORE = s.fld o F.MA_FAULT.MORE := by
  have hcode' : code ≤ F.MA_FAULT.CODE.top := Nat.le_of_lt_succ hcode
  have hc' : c ≤ F.MA_FAULT.CX.top := Nat.le_of_lt_succ hc
  unfold State.noteFirst
  refine ⟨?_, ?_, ?_, ?_, ?_⟩
  · simp (disch := decide) only [State.fld_setFld_of_disjoint, State.fld_setFld_of_le _ _ _ (by decide) hcode']
  · simp (disch := decide) only [State.fld_setFld_of_disjoint, State.fld_setFld_of_le _ _ _ (by decide) hc']
  · simp (disch := decide) only [State.fld_setFld_of_disjoint]
    exact State.fld_setFld _ _ _ _ (by decide)
  · exact State.fld_setFld_of_le _ _ _ (by decide) (by decide)
  · simp (disch := decide) only [State.fld_setFld_of_disjoint]

/-- The register tells the engine's first fault; of a later one it tells that there was one. -/
theorem State.faultTold_engNote (s : State) (d u : Nat) {code c : Nat} (slot addr : Nat) (hcode : code < 256) (hc : c < 128) :
    FaultTold d u c slot code addr s (s.engNote d u code c slot addr) := by
  have hne := faultRegs_ne d u
  rw [State.engNote_eq]
  refine ⟨fun hv => ?_, fun hv => ?_⟩
  · obtain ⟨hCODE, hCX, hSLOT, hVALID, hMORE⟩ := s.fld_noteFirst (faultRegs d u).1 slot hcode hc
    rw [if_neg (by rw [hv]; decide)]
    refine ⟨?_, ?_, ?_, ?_, ?_, State.reg_setReg _ _ _⟩
    · rw [State.fld_setReg_of_ne _ _ _ hne, hCODE]
    · rw [State.fld_setReg_of_ne _ _ _ hne, hCX]
    · rw [State.fld_setReg_of_ne _ _ _ hne, hSLOT]
    · rw [State.flag, State.fld_setReg_of_ne _ _ _ hne, hVALID]
      decide
    · rw [State.fld_setReg_of_ne _ _ _ hne, hMORE]
  · rw [if_pos hv]
    refine ⟨?_, State.fld_setFld_of_disjoint _ _ _ _ _ (by decide) (by decide), State.reg_setFld_of_ne _ _ _ hne.symm⟩
    rw [State.flag, State.fld_setFld_of_le _ _ _ (by decide) (by decide)]
    decide

theorem FaultTold.of_reg {d u c slot code addr : Nat} {s t w : State} (h : FaultTold d u c slot code addr s t)
    (ho : w.reg (faultRegs d u).1 = t.reg (faultRegs d u).1) (ha : w.reg (faultRegs d u).2 = t.reg (faultRegs d u).2) :
    FaultTold d u c slot code addr s w := by
  dsimp only [FaultTold, State.flag, State.fld] at h ⊢
  rwa [ho, ha]

@[simp] theorem State.engNote_cxs (s : State) (d u code c slot addr : Nat) : (s.engNote d u code c slot addr).cxs = s.cxs := by
  rw [State.engNote_eq]
  split_ifs <;> rfl

@[simp] theorem State.engNote_faults (s : State) (d u code c slot addr : Nat) : (s.engNote d u code c slot addr).faults = s.faults := by
  rw [State.engNote_eq]
  split_ifs <;> rfl

@[simp] theorem State.engNote_arrays (s : State) (d u code c slot addr : Nat) : (s.engNote d u code c slot addr).arrays = s.arrays := by
  rw [State.engNote_eq]
  split_ifs <;> rfl

@[simp] theorem State.engNote_eng (s : State) (d u code c slot addr : Nat) : (s.engNote d u code c slot addr).eng = s.eng := by
  rw [State.engNote_eq]
  split_ifs <;> rfl

section
variable (s : State) (d : Die) (c : Cx) (f : Flight) (code addr : Nat)

@[simp] theorem State.engFault_regs :
    (s.engFault d c f code addr).regs = (s.engNote d f.cmd.engine code c.val f.slot addr).regs := by
  simp [State.engFault, State.flightFault, State.setFlight]

@[simp] theorem State.engFault_faults : (s.engFault d c f code addr).faults = s.faults := by
  simp [State.engFault, State.flightFault, State.setFlight]

@[simp] theorem State.engFault_arrays : (s.engFault d c f code addr).arrays = s.arrays := by
  simp [State.engFault, State.flightFault, State.setFlight]

@[simp] theorem State.engFault_eng : (s.engFault d c f code addr).eng = s.eng := by
  simp [State.engFault, State.flightFault, State.setFlight]

/-- A command that meets a fault of its engine stops, and the engine's register tells it. -/
theorem State.engFault_told {u : Nat} (hu : f.cmd.engine = u) (hcode : code < 256) :
    FlightBy d c f.slot (stopped code addr) s (s.engFault d c f code addr) ∧
      FaultTold d u c.val f.slot code addr s (s.engFault d c f code addr) ∧
      RegsBut [(faultRegs d u).1, (faultRegs d u).2] s (s.engFault d c f code addr) := by
  subst hu
  have hregs := s.engFault_regs d c f code addr
  refine ⟨(State.flightBy_flightFault _ d c f.slot addr code).from_cxs (by simp), ?_, RegsBut.of_regs (s.regsBut_engNote d.val f.cmd.engine code c.val f.slot addr) hregs⟩
  exact (s.faultTold_engNote d _ f.slot addr hcode c.isLt).of_reg (State.reg_of_regs_eq hregs _) (State.reg_of_regs_eq hregs _)

end

end Sys2Proof.Machine
end

section
/-!
Engines leave service, return to it and fail (04_arrays.md, 06_spine_vector.md, 07_dma.md): O44.
-/

namespace Sys2Proof.Machine

/-! ## An engine in service (R132, R191, R220) -/

/-- The status register of a die's engine. -/
def engStatus (d u : Nat) : Nat :=
  if u < 8 then R.MA_STATUS d u else if u < 16 then R.VE_STATUS d (u - 8) else R.DM_STATUS d (u - 16)

theorem engStatus_array (d : Nat) (m : Fin 8) : engStatus d m = R.MA_STATUS d m := if_pos m.isLt

theorem engStatus_vector (d : Nat) (x : Fin 8) : engStatus d (8 + x) = R.VE_STATUS d x := by
  rw [engStatus, if_neg (by omega), if_pos (by omega), Nat.add_sub_cancel_left]

theorem engStatus_dma (d : Nat) (e : Fin 16) : engStatus d (16 + e) = R.DM_STATUS d e := by
  rw [engStatus, if_neg (by omega), if_neg (by omega), Nat.add_sub_cancel_left]

/-- No engine's fault registers are its status register. -/
theorem engStatus_notMem_faultRegs (d u : Nat) : engStatus d u ≠ (faultRegs d u).1 ∧ engStatus d u ≠ (faultRegs d u).2 := by
  unfold engStatus faultRegs
  split_ifs
  · unfold R.MA_STATUS R.MA_FAULT R.MA_FAULT_ADDR; omega
  · unfold R.VE_STATUS R.VE_FAULT R.VE_FAULT_ADDR; omega
  · unfold R.DM_STATUS R.DM_FAULT R.DM_FAULT_ADDR; omega

theorem State.engIn_of_regs {s t : State} (h : t.regs = s.regs) (d u : Nat) : t.engIn d u = s.engIn d u := by
  simp only [State.engIn, State.flag, State.fld_of_regs_eq h]

/-- A flag reads as it was set. -/
theorem State.flag_setFld (s : State) (o : Nat) (f : Fld) (on : Bool) (hf : f.hi < 64) (ht : 1 ≤ f.top) :
    (s.setFld o f (if on then 1 else 0)).flag o f = on := by
  rw [State.flag, State.fld_setFld_of_le _ _ _ hf (by split <;> omega)]
  cases on <;> rfl

theorem State.engIn_setEngIn (s : State) (d u : Nat) (on : Bool) : (s.setEngIn d u on).engIn d u = on := by
  by_cases h8 : u < 8
  · simp only [State.engIn, State.setEngIn, h8, if_true]
    exact State.flag_setFld _ _ _ on (by decide) (by decide)
  · by_cases h16 : u < 16
    · simp only [State.engIn, State.setEngIn, h8, h16, if_true, if_false]
      exact State.flag_setFld _ _ _ on (by decide) (by decide)
    · simp only [State.engIn, State.setEngIn, h8, h16, if_false]
      exact State.flag_setFld _ _ _ on (by decide) (by decide)

theorem RegsBut.setEngIn {l : List Nat} {s t : State} {d u : Nat} (on : Bool) (h : RegsBut l s t) (hl : engStatus d u ∈ l) :
    RegsBut l s (t.setEngIn d u on) := by
  unfold engStatus at hl
  unfold State.setEngIn
  extract_lets v
  split_ifs at hl ⊢
  · exact h.setFld _ _ hl
  · exact h.setFld _ _ hl
  · exact h.setFld _ _ hl

/-- What the engine runs is shown in its status register, beside whether it is in service. -/
theorem State.engShow_status (s : State) (d : Die) (u : Nat) :
    RegsBut [engStatus d u] s (s.engShow d u) ∧ (s.engShow d u).engIn d u = s.engIn d u := by
  unfold State.engShow engStatus State.engIn
  split_ifs
  · exact ⟨RegsBut.refl _ s, rfl⟩
  · cases (s.dieFlights d).find? _ with
    | none =>
      exact ⟨(RegsBut.refl [R.VE_STATUS d (u - 8)] s).setFld F.VE_STATUS.BUSY 0 (by simp),
        by simp (disch := decide) only [State.flag, State.fld_setFld_of_disjoint]⟩
    | some p =>
      refine ⟨(((RegsBut.refl [R.VE_STATUS d (u - 8)] s).setFld F.VE_STATUS.BUSY 1 (by simp)).setFld F.VE_STATUS.CX p.1.val (by simp)).setFld
        F.VE_STATUS.OPCODE p.2.cmd.op (by simp), ?_⟩
      simp (disch := decide) only [State.flag, State.fld_setFld_of_disjoint]
  · cases (s.dieFlights d).find? _ with
    | none =>
      exact ⟨(RegsBut.refl [R.DM_STATUS d (u - 16)] s).setFld F.DM_STATUS.BUSY 0 (by simp),
        by simp (disch := decide) only [State.flag, State.fld_setFld_of_disjoint]⟩
    | some p =>
      refine ⟨(((RegsBut.refl [R.DM_STATUS d (u - 16)] s).setFld F.DM_STATUS.BUSY 1 (by simp)).setFld F.DM_STATUS.CX p.1.val (by simp)).setFld
        F.DM_STATUS.OPCODE p.2.cmd.op (by simp), ?_⟩
      simp (disch := decide) only [State.flag, State.fld_setFld_of_disjoint]

/-- Every engine but engine `u` of die `d` is in `t` what it was in `s`. -/
def EngsBut (d u : Nat) (s t : State) : Prop := ∀ k, k ≠ 32 * d + u → Sparse.get {} k t.eng = Sparse.get {} k s.eng

theorem EngsBut.of_eng {d u : Nat} {s t : State} (h : t.eng = s.eng) : EngsBut d u s t := fun k _ => by rw [h]

theorem EngsBut.setEng {d u : Nat} {s t : State} (h : EngsBut d u s t) (e : EngSt) : EngsBut d u s (t.setEng d u e) := fun k hk =>
  (Sparse.get_set_of_ne _ _ _ hk).trans (h k hk)

@[simp] theorem State.setEngIn_eng (s : State) (d u : Nat) (on : Bool) : (s.setEngIn d u on).eng = s.eng := by
  unfold State.setEngIn
  extract_lets v
  split_ifs <;> rfl

@[simp] theorem State.engShow_eng (s : State) (d : Die) (u : Nat) : (s.engShow d u).eng = s.eng := by
  unfold State.engShow
  split_ifs
  · rfl
  · cases (s.dieFlights d).find? _ <;> rfl
  · cases (s.dieFlights d).find? _ <;> rfl

theorem State.dieFlights_of_cxs {s t : State} (h : t.cxs = s.cxs) (d : Die) : t.dieFlights d = s.dieFlights d := by
  simp only [State.dieFlights, State.cxKeys, State.cx, h]

/-- The engine has no command, and is an array in no group. -/
def State.Idle (s : State) (d : Die) (u : Nat) : Prop :=
  ∀ p ∈ s.dieFlights d, p.2.cmd.kind ≠ 3 → p.2.cmd.engine = u → p.2.busy = false ∧ (u < 8 → p.2.inGroup = false)

theorem State.idle_iff (s : State) (d : Die) (u : Nat) : s.Idle d u ↔
    ((s.dieFlights d).any fun p => p.2.cmd.kind != 3 && p.2.cmd.engine == u && (p.2.busy || (decide (u < 8) && p.2.inGroup))) = false := by
  simp [State.Idle, List.any_eq_false]

theorem State.eng1_of_eng {s t : State} (h : t.eng = s.eng) (d u : Nat) : t.eng1 d u = s.eng1 d u := by rw [State.eng1, h, State.eng1]

open Classical in
/-- An engine asked to leave service leaves where it idles. -/
theorem State.leaveIfIdle_of_asked {s : State} {d : Die} {u : Nat} (h : (s.eng1 d u).offReq = true) : s.leaveIfIdle d u =
    if s.Idle d u then ((s.engShow d u).setEngIn d u false).setEng d u { s.eng1 d u with offReq := false } else s.engShow d u := by
  have hcxs : (s.engShow d u).cxs = s.cxs := (s.engShow_only d u).cxs
  have heng : (s.engShow d u).eng1 d u = s.eng1 d u := State.eng1_of_eng (s.engShow_eng d u) d u
  have hidle := s.idle_iff d u
  simp only [State.leaveIfIdle, State.dieFlights_of_cxs hcxs, heng, h, Bool.true_and]
  by_cases hi : s.Idle d u
  · rw [if_pos hi, hidle.mp hi]
    rfl
  · rw [if_neg hi, Bool.eq_true_of_not_eq_false fun hb => hi (hidle.mpr hb)]
    rfl

/-- The engine asked to leave service. -/
def State.askOff (s : State) (d : Die) (u : Nat) : State := s.setEng d u { s.eng1 d u with offReq := true }

theorem State.eng1_askOff (s : State) (d : Die) (u : Nat) : (s.askOff d u).eng1 d u = { s.eng1 d u with offReq := true } := s.eng1_setEng d u _

open Classical in
theorem State.engOffline_eq (s : State) (d : Die) (u : Nat) : s.engOffline d u =
    if s.Idle d u then (((s.askOff d u).engShow d u).setEngIn d u false).setEng d u { s.eng1 d u with offReq := false }
    else (s.askOff d u).engShow d u := by
  have h := State.leaveIfIdle_of_asked (s := s.askOff d u) (d := d) (u := u) (by rw [State.eng1_askOff])
  rw [State.eng1_askOff] at h
  exact h

/-- A request to leave service (R132, R191, R220). -/
theorem State.engOffline_leaves (s : State) (d : Die) (u : Nat) :
    let t := s.engOffline d u
    (s.Idle d u → t.engIn d u = false ∧ (t.eng1 d u).offReq = false) ∧ (¬ s.Idle d u → t.engIn d u = s.engIn d u ∧ (t.eng1 d u).offReq = true) ∧
      (t.eng1 d u).last = (s.eng1 d u).last ∧ EngsBut d u s t ∧ RegsBut [engStatus d u] s t ∧ t = { s with regs := t.regs, eng := t.eng } := by
  have hframe : s.engOffline d u = { s with regs := (s.engOffline d u).regs, eng := (s.engOffline d u).eng } :=
    (State.leaveIfIdle_only _ d u).frame
  obtain ⟨hregs, hin⟩ := (s.askOff d u).engShow_status d u
  have heng : ((s.askOff d u).engShow d u).eng1 d u = { s.eng1 d u with offReq := true } :=
    (State.eng1_of_eng (State.engShow_eng _ d u) d u).trans (s.eng1_askOff d u)
  have hbut : EngsBut d u s ((s.askOff d u).engShow d u) := fun k hk => by
    rw [State.engShow_eng]
    exact (EngsBut.of_eng rfl).setEng _ k hk
  refine ⟨fun h => ?_, fun h => ?_, ?_, ?_, ?_, hframe⟩
  · rw [State.engOffline_eq, if_pos h]
    exact ⟨(State.engIn_of_regs rfl d u).trans (State.engIn_setEngIn _ d u false), by rw [State.eng1_setEng]⟩
  · rw [State.engOffline_eq, if_neg h]
    exact ⟨hin, by rw [heng]⟩
  · rw [State.engOffline_eq]
    split
    · rw [State.eng1_setEng]
    · rw [heng]
  · rw [State.engOffline_eq]
    split
    · exact EngsBut.setEng (fun k hk => by rw [State.setEngIn_eng, hbut k hk]) _
    · exact hbut
  · rw [State.engOffline_eq]
    split
    · exact (RegsBut.setEngIn false hregs (by simp)).of_regs rfl
    · exact hregs

/-! ## The service registers' writes (R132, R191, R220) -/

section
variable {o st : Nat} {act : State → State} {v : Word} {s : State}

theorem engCtl_both (b : Nat) (h : v.get 1 0 = 3) : engCtl o st b act v s = s.raiseReg st o := if_pos h

theorem engCtl_offline (h : v.get 1 0 = 1) : engCtl o st 0 act v s = act s := by
  have hbits := v.get_one_zero
  have hb : v.bit 0 = true := by
    cases h0 : v.bit 0 <;> cases h1 : v.bit 1 <;> simp_all
  rw [engCtl, if_neg (by omega), if_pos hb]

theorem engCtl_online (h : v.get 1 0 = 2) : engCtl o st 1 act v s = act s := by
  have hbits := v.get_one_zero
  have hb : v.bit 1 = true := by
    cases h0 : v.bit 0 <;> cases h1 : v.bit 1 <;> simp_all
  rw [engCtl, if_neg (by omega), if_pos hb]

/-- With its bit clear a write asks nothing of the engine. -/
theorem engCtl_clear {b : Nat} (hb : b = 0 ∨ b = 1) (h : v.bit b = false) : engCtl o st b act v s = s := by
  have hbits := v.get_one_zero
  have hne : v.get 1 0 ≠ 3 := by
    rcases hb with rfl | rfl
    · rw [hbits, h]; cases v.bit 1 <;> decide
    · rw [hbits, h]; cases v.bit 0 <;> decide
  rw [engCtl, if_neg hne, h]
  rfl

end

/-- A write of a service register was refused: one INFO record of its kind, and nothing else (R132, R191, R220). -/
def ServiceRefused (st : Nat) (s t : State) : Prop :=
  t.lastRaised.map (fun z => (z.status, z.sev)) = some (st, Sev.INFO) ∧ t = { s with faults := t.faults }

theorem State.raiseReg_refused (s : State) (st o : Nat) : ServiceRefused st s (s.raiseReg st o) := by
  refine ⟨?_, rfl⟩
  rw [State.raiseReg, State.lastRaised_raise]
  rfl

/-- An OFFLINE, of an engine whose command takes its service register's write. -/
theorem offline_answers {s : State} {w : RegW} {v : Word} {d : Die} {i : Instr} {u ctl status st : Nat} (hon : s.On)
    (hexec : exec i s = s.whileOn (s.onWrite w ctl (engCtl ctl st 0 fun t => t.engOffline d u))) (hstatus : engStatus d u = status)
    (hw : s.Writes w ctl v) :
    (v.get 1 0 = 1 → Answers i s fun t => (s.Idle d u → t.engIn d u = false ∧ (t.eng1 d u).offReq = false) ∧
      (¬ s.Idle d u → t.engIn d u = s.engIn d u ∧ (t.eng1 d u).offReq = true) ∧ (t.eng1 d u).last = (s.eng1 d u).last ∧ EngsBut d u s t ∧
      RegsBut [status] s t ∧ t = { s with regs := t.regs, eng := t.eng }) ∧
    (v.get 1 0 = 3 → Answers i s (ServiceRefused st s)) ∧ (v.bit 0 = false → exec i s = .next s) := by
  rw [State.whileOn_write _ hon hw] at hexec
  subst hstatus
  refine ⟨fun hv => ?_, fun hv => ?_, fun hv => ?_⟩
  · rw [engCtl_offline hv] at hexec
    exact .of hexec (s.engOffline_leaves d u)
  · rw [engCtl_both 0 hv] at hexec
    exact .of hexec (s.raiseReg_refused st ctl)
  · rw [hexec, engCtl_clear (.inl rfl) hv]

/-- An engine's fault register holds its hardware failure. -/
def State.Broken (s : State) (o code : Nat) : Prop := s.flag o F.MA_FAULT.VALID = true ∧ s.fld o F.MA_FAULT.CODE = code

theorem State.engBroken_iff (s : State) (o code : Nat) : s.engBroken o code = true ↔ s.Broken o code := by
  simp [State.engBroken, State.Broken]

/-- The engine is in service again, with the context it last served. -/
def EngineReturned (d u : Nat) (s t : State) : Prop :=
  t.engIn d u = true ∧ (t.eng1 d u).offReq = false ∧ (t.eng1 d u).last = (s.eng1 d u).last ∧ EngsBut d u s t

/-- An ONLINE, of an engine that returns by `act` unless its fault register holds a hardware failure. -/
theorem online_answers {s : State} {w : RegW} {v : Word} {d : Die} {i : Instr} {u ctl fault code st : Nat} {P : State → Prop} {act : State → State}
    (hon : s.On) (hexec : exec i s = s.whileOn (s.onWrite w ctl (engCtl ctl st 1 act)))
    (hbroken : s.Broken fault code → act s = s.raiseReg st ctl) (hsound : ¬ s.Broken fault code → EngineReturned d u s (act s) ∧ P (act s))
    (hw : s.Writes w ctl v) :
    (v.get 1 0 = 2 → s.Broken fault code → Answers i s (ServiceRefused st s)) ∧
    (v.get 1 0 = 2 → ¬ s.Broken fault code → Answers i s fun t => t.engIn d u = true ∧ (t.eng1 d u).offReq = false ∧
      (t.eng1 d u).last = (s.eng1 d u).last ∧ EngsBut d u s t ∧ P t) ∧
    (v.get 1 0 = 3 → Answers i s (ServiceRefused st s)) ∧ (v.bit 1 = false → exec i s = .next s) := by
  rw [State.whileOn_write _ hon hw] at hexec
  refine ⟨fun hv hb => ?_, fun hv hb => ?_, fun hv => ?_, fun hv => ?_⟩
  · rw [engCtl_online hv, hbroken hb] at hexec
    exact .of hexec (s.raiseReg_refused st ctl)
  · rw [engCtl_online hv] at hexec
    obtain ⟨⟨hin, hreq, hlast, hbut⟩, hp⟩ := hsound hb
    exact .of hexec ⟨hin, hreq, hlast, hbut, hp⟩
  · rw [engCtl_both 1 hv] at hexec
    exact .of hexec (s.raiseReg_refused st ctl)
  · rw [hexec, engCtl_clear (.inr rfl) hv]

theorem EngineReturned.of_setEng {s t : State} {d u : Nat} (hin : t.engIn d u = true) (heng : t.eng = (s.setEng d u { s.eng1 d u with offReq := false }).eng) :
    EngineReturned d u s t := by
  have h1 : t.eng1 d u = { s.eng1 d u with offReq := false } := (State.eng1_of_eng heng d u).trans (s.eng1_setEng d u _)
  refine ⟨hin, by rw [h1], by rw [h1], fun k hk => ?_⟩
  rw [heng]
  exact (EngsBut.of_eng rfl).setEng _ k hk

section
variable {s : State} {d : Die} {u o code status ctl : Nat}

theorem State.engReturn_of_broken (h : s.Broken o code) : s.engReturn d u o code status ctl = s.raiseReg status ctl :=
  if_pos ((s.engBroken_iff o code).mpr h)

/-- A vector or DMA engine returns with nothing of its own to clear (R191, R220). -/
theorem State.engReturn_of_sound (h : ¬ s.Broken o code) :
    let t := s.engReturn d u o code status ctl
    EngineReturned d u s t ∧ RegsBut [engStatus d u] s t ∧ t = { s with regs := t.regs, eng := t.eng } := by
  rw [State.engReturn, if_neg fun hb => h ((s.engBroken_iff o code).mp hb)]
  refine ⟨.of_setEng (State.engIn_setEngIn _ d u true) (State.setEngIn_eng _ d u true), ?_, ?_⟩
  · exact RegsBut.setEngIn (t := s.setEng d u { s.eng1 d u with offReq := false }) true (.of_regs_eq _ rfl) (List.mem_singleton_self _)
  · exact (((EngsOnly.refl d s).setEng u _).setEngIn u true).frame

end

/-! ## Registers alone -/

/-- Nothing but registers differs in `t` from `s`. -/
def RegsOnly (s t : State) : Prop := t = { s with regs := t.regs }

theorem RegsOnly.refl (s : State) : RegsOnly s s := rfl

theorem RegsOnly.setFld {s t : State} (h : RegsOnly s t) (o : Nat) (f : Fld) (v : Nat) : RegsOnly s (t.setFld o f v) := by
  rw [h]
  rfl

theorem RegsOnly.trans {s t u : State} (h : RegsOnly s t) (h' : RegsOnly t u) : RegsOnly s u := by
  unfold RegsOnly at h'
  rw [h', h]
  rfl

theorem RegsOnly.arrays {s t : State} (h : RegsOnly s t) : t.arrays = s.arrays := by rw [h]
theorem RegsOnly.eng {s t : State} (h : RegsOnly s t) : t.eng = s.eng := by rw [h]

/-! ## MA_STATUS and SPN_STATUS (R133, R195) -/

/-- The fields of MA_STATUS that show the array. -/
def maShown : List Fld :=
  [F.MA_STATUS.P0_VALID, F.MA_STATUS.P1_VALID, F.MA_STATUS.SFMT, F.MA_STATUS.GROUP_OPEN, F.MA_STATUS.OWNER, F.MA_STATUS.SLOT_BASE,
    F.MA_STATUS.SLOT_COUNT]

section
variable (s : State) (d m : Nat)

/-- MA_STATUS with the planes shown. -/
def State.planesShown : State :=
  ((s.setFld (R.MA_STATUS d m) F.MA_STATUS.P0_VALID (if (s.arr d m).p0.valid then 1 else 0)).setFld (R.MA_STATUS d m) F.MA_STATUS.P1_VALID
    (if (s.arr d m).p1.valid then 1 else 0)).setFld (R.MA_STATUS d m) F.MA_STATUS.SFMT ((s.arr d m).plane (s.maActive d m)).fmt

theorem State.maShow_of_none (h : (s.arr d m).group = none) : s.maShow d m = (s.planesShown d m).setFld (R.MA_STATUS d m) F.MA_STATUS.GROUP_OPEN 0 := by
  simp only [State.maShow, h]
  rfl

theorem State.maShow_of_group {g : Group} (h : (s.arr d m).group = some g) : s.maShow d m =
    ((((s.planesShown d m).setFld (R.MA_STATUS d m) F.MA_STATUS.GROUP_OPEN 1).setFld (R.MA_STATUS d m) F.MA_STATUS.OWNER g.cx).setFld
      (R.MA_STATUS d m) F.MA_STATUS.SLOT_BASE g.base).setFld (R.MA_STATUS d m) F.MA_STATUS.SLOT_COUNT g.count := by
  simp only [State.maShow, h]
  rfl

theorem State.regsBut_planesShown : RegsBut [R.MA_STATUS d m] s (s.planesShown d m) :=
  (((RegsBut.refl _ s).setFld F.MA_STATUS.P0_VALID _ (by simp)).setFld F.MA_STATUS.P1_VALID _ (by simp)).setFld F.MA_STATUS.SFMT _ (by simp)

theorem State.regsOnly_maShow : RegsOnly s (s.maShow d m) := by
  have h : RegsOnly s (s.planesShown d m) := (((RegsOnly.refl s).setFld _ _ _).setFld _ _ _).setFld _ _ _
  cases hg : (s.arr d m).group with
  | none =>
    rw [s.maShow_of_none d m hg]
    exact h.setFld _ _ _
  | some g =>
    rw [s.maShow_of_group d m hg]
    exact (((h.setFld _ _ _).setFld _ _ _).setFld _ _ _).setFld _ _ _

theorem State.regsBut_maShow : RegsBut [R.MA_STATUS d m] s (s.maShow d m) := by
  have h := s.regsBut_planesShown d m
  cases hg : (s.arr d m).group with
  | none =>
    rw [s.maShow_of_none d m hg]
    exact h.setFld _ _ (by simp)
  | some g =>
    rw [s.maShow_of_group d m hg]
    exact (((h.setFld _ _ (by simp)).setFld _ _ (by simp)).setFld _ _ (by simp)).setFld _ _ (by simp)

/-- A field that shows nothing of the array stays. -/
theorem State.fld_maShow_of_apart {f : Fld} (h : ∀ g ∈ maShown, g.hi < 64 ∧ (f.hi < g.lo ∨ g.hi < f.lo)) :
    (s.maShow d m).fld (R.MA_STATUS d m) f = s.fld (R.MA_STATUS d m) f := by
  simp only [maShown, List.forall_mem_cons] at h
  obtain ⟨⟨h0, h0'⟩, ⟨h1, h1'⟩, ⟨hf, hf'⟩, ⟨hg, hg'⟩, ⟨ho, ho'⟩, ⟨hb, hb'⟩, ⟨hc, hc'⟩, -⟩ := h
  have hplanes : (s.planesShown d m).fld (R.MA_STATUS d m) f = s.fld (R.MA_STATUS d m) f := by
    rw [State.planesShown, State.fld_setFld_of_disjoint _ _ _ _ _ hf hf', State.fld_setFld_of_disjoint _ _ _ _ _ h1 h1',
      State.fld_setFld_of_disjoint _ _ _ _ _ h0 h0']
  cases hgr : (s.arr d m).group with
  | none => rw [s.maShow_of_none d m hgr, State.fld_setFld_of_disjoint _ _ _ _ _ hg hg', hplanes]
  | some g =>
    rw [s.maShow_of_group d m hgr, State.fld_setFld_of_disjoint _ _ _ _ _ hc hc', State.fld_setFld_of_disjoint _ _ _ _ _ hb hb',
      State.fld_setFld_of_disjoint _ _ _ _ _ ho ho', State.fld_setFld_of_disjoint _ _ _ _ _ hg hg', hplanes]

/-- The planes' valid bits are shown. -/
theorem State.valid_maShow :
    (s.maShow d m).fld (R.MA_STATUS d m) F.MA_STATUS.P0_VALID = (if (s.arr d m).p0.valid then 1 else 0) ∧
      (s.maShow d m).fld (R.MA_STATUS d m) F.MA_STATUS.P1_VALID = (if (s.arr d m).p1.valid then 1 else 0) := by
  have h0 : (if (s.arr d m).p0.valid then 1 else 0) ≤ F.MA_STATUS.P0_VALID.top := by split <;> decide
  have h1 : (if (s.arr d m).p1.valid then 1 else 0) ≤ F.MA_STATUS.P1_VALID.top := by split <;> decide
  have hplanes : (s.planesShown d m).fld (R.MA_STATUS d m) F.MA_STATUS.P0_VALID = (if (s.arr d m).p0.valid then 1 else 0) ∧
      (s.planesShown d m).fld (R.MA_STATUS d m) F.MA_STATUS.P1_VALID = (if (s.arr d m).p1.valid then 1 else 0) := by
    unfold State.planesShown
    simp (disch := decide) only [State.fld_setFld_of_disjoint, State.fld_setFld_of_le _ _ _ (by decide) h0,
      State.fld_setFld_of_le _ _ _ (by decide) h1, and_self]
  cases hg : (s.arr d m).group with
  | none =>
    rw [s.maShow_of_none d m hg]
    simp (disch := decide) only [State.fld_setFld_of_disjoint, hplanes, and_self]
  | some g =>
    rw [s.maShow_of_group d m hg]
    simp (disch := decide) only [State.fld_setFld_of_disjoint, hplanes, and_self]

/-- No open group is shown as none. -/
theorem State.groupOpen_maShow_of_none (h : (s.arr d m).group = none) :
    (s.maShow d m).fld (R.MA_STATUS d m) F.MA_STATUS.GROUP_OPEN = 0 := by
  rw [s.maShow_of_none d m h]
  exact State.fld_setFld_of_le _ _ _ (by decide) (by decide)

theorem State.regsOnly_spnShow : RegsOnly s (s.spnShow d m) := (((RegsOnly.refl s).setFld _ _ _).setFld _ _ _).setFld _ _ _

theorem State.regsBut_spnShow : RegsBut [R.SPN_STATUS d m] s (s.spnShow d m) :=
  (((RegsBut.refl [R.SPN_STATUS d m] s).setFld F.SPN_STATUS.COUNT _ (by simp)).setFld F.SPN_STATUS.FULL _ (by simp)).setFld F.SPN_STATUS.HEAD _
    (by simp)

end

theorem MA_STATUS_ne_SPN_STATUS (d m : Nat) : R.MA_STATUS d m ≠ R.SPN_STATUS d m := by
  unfold R.MA_STATUS R.SPN_STATUS
  omega

/-! ## An array returns (R132) -/

theorem ArrBut.of_arrays {d m : Nat} {s t : State} (h : t.arrays = s.arrays) : ArrBut d m s t := fun k _ => by rw [h]

theorem ArrBut.setArr {d m : Nat} {s t : State} (h : ArrBut d m s t) (a : ArraySt) : ArrBut d m s (t.setArr d m a) := fun k hk =>
  (Sparse.get_set_of_ne _ _ _ hk).trans (h k hk)

/-- What an array keeps over its return: the markers on its spine, and what was recorded this span. -/
def ArraySt.emptied (a : ArraySt) : ArraySt :=
  { ({} : ArraySt) with spine := a.spine.filter (·.marker), nextPlace := a.nextPlace, ceNoted := a.ceNoted }

/-- The array emptied and in service, before its registers show it. -/
def State.maEmptied (s : State) (d : Die) (m : Fin 8) : State :=
  (((s.setArr d m (s.arr d m).emptied).setFld (R.MA_STATUS d m) F.MA_STATUS.SLOT_LOCKED 0).setFld (R.MA_STATUS d m) F.MA_STATUS.ACTIVE 0).setEngIn
    d m true

section
variable (s : State) (d : Die) (m : Fin 8)

theorem State.maEmptied_eq : s.maEmptied d m =
    (((s.setArr d m (s.arr d m).emptied).setFld (R.MA_STATUS d m) F.MA_STATUS.SLOT_LOCKED 0).setFld (R.MA_STATUS d m) F.MA_STATUS.ACTIVE 0).setFld
      (R.MA_STATUS d m) F.MA_STATUS.IN_SERVICE 1 := if_pos m.isLt

theorem State.arr_maEmptied : (s.maEmptied d m).arr d m = (s.arr d m).emptied := by
  rw [State.maEmptied_eq]
  exact s.arr_setArr d m _

theorem State.regsOnly_maReturn : RegsOnly (s.setArr d m (s.arr d m).emptied) (s.maReturn d m) := by
  have hempty : RegsOnly (s.setArr d m (s.arr d m).emptied) (s.maEmptied d m) := by
    rw [State.maEmptied_eq]
    exact (((RegsOnly.refl _).setFld _ _ _).setFld _ _ _).setFld _ _ _
  exact (hempty.trans (State.regsOnly_maShow _ d m)).trans (State.regsOnly_spnShow _ d m)

theorem State.regsBut_maReturn : RegsBut [R.MA_STATUS d m, R.SPN_STATUS d m] s (s.maReturn d m) := by
  have hempty : RegsBut [R.MA_STATUS d m] s (s.maEmptied d m) := by
    rw [State.maEmptied_eq]
    exact ((((RegsBut.refl _ s).of_regs rfl).setFld _ _ (by simp)).setFld _ _ (by simp)).setFld _ _ (by simp)
  exact (((hempty.trans ((s.maEmptied d m).regsBut_maShow d m)).mono (by simp)).trans ((State.regsBut_spnShow _ d m).mono (by simp)))

/-- A field of MA_STATUS after the return is as it was shown. -/
theorem State.fld_maReturn (f : Fld) : (s.maReturn d m).fld (R.MA_STATUS d m) f = ((s.maEmptied d m).maShow d m).fld (R.MA_STATUS d m) f :=
  (State.regsBut_spnShow _ d m).fld (by simpa using MA_STATUS_ne_SPN_STATUS d m) f

/-- The array is in service, and each of its slots is free (R132). -/
theorem State.status_maReturn : (s.maReturn d m).fld (R.MA_STATUS d m) F.MA_STATUS.IN_SERVICE = 1 ∧
    (s.maReturn d m).fld (R.MA_STATUS d m) F.MA_STATUS.SLOT_LOCKED = 0 := by
  rw [s.fld_maReturn d m, s.fld_maReturn d m, State.fld_maShow_of_apart _ d m (by decide), State.fld_maShow_of_apart _ d m (by decide),
    State.maEmptied_eq]
  refine ⟨State.fld_setFld_of_le _ _ _ (by decide) (by decide), ?_⟩
  rw [State.fld_setFld_of_disjoint _ _ _ _ _ (by decide) (by decide), State.fld_setFld_of_disjoint _ _ _ _ _ (by decide) (by decide)]
  exact State.fld_setFld_of_le _ _ _ (by decide) (by decide)

/-- The registers show an array that holds nothing. -/
theorem State.shown_maReturn : (s.maReturn d m).fld (R.MA_STATUS d m) F.MA_STATUS.P0_VALID = 0 ∧
    (s.maReturn d m).fld (R.MA_STATUS d m) F.MA_STATUS.P1_VALID = 0 ∧ (s.maReturn d m).fld (R.MA_STATUS d m) F.MA_STATUS.GROUP_OPEN = 0 := by
  have harr := s.arr_maEmptied d m
  obtain ⟨h0, h1⟩ := (s.maEmptied d m).valid_maShow d m
  rw [harr] at h0 h1
  rw [s.fld_maReturn d m, s.fld_maReturn d m, s.fld_maReturn d m]
  exact ⟨h0, h1, State.groupOpen_maShow_of_none _ d m (by rw [harr]; rfl)⟩

theorem maOnline_of_broken (h : s.Broken (R.MA_FAULT d m) Ma.ARRAY_HW) : maOnline d m s = s.raiseReg St.MA_CTL_REFUSED (R.MA_CTL d m) :=
  if_pos ((s.engBroken_iff _ _).mpr h)

theorem maOnline_of_in (h : ¬ s.Broken (R.MA_FAULT d m) Ma.ARRAY_HW) (hin : s.engIn d m = true) :
    maOnline d m s = s.setEng d m { s.eng1 d m with offReq := false } := by
  rw [maOnline, if_neg fun hb => h ((s.engBroken_iff _ _).mp hb)]
  exact if_pos hin

theorem maOnline_of_out (h : ¬ s.Broken (R.MA_FAULT d m) Ma.ARRAY_HW) (hin : s.engIn d m = false) :
    maOnline d m s = (s.setEng d m { s.eng1 d m with offReq := false }).maReturn d m := by
  rw [maOnline, if_neg fun hb => h ((s.engBroken_iff _ _).mp hb)]
  exact if_neg (ne_true_of_eq_false hin)

theorem State.engIn_maReturn : (s.maReturn d m).engIn d m = true := by
  rw [State.engIn, if_pos m.isLt, State.flag, (s.status_maReturn d m).1]
  rfl

theorem maOnline_returns (h : ¬ s.Broken (R.MA_FAULT d m) Ma.ARRAY_HW) : EngineReturned d m s (maOnline d m s) := by
  cases hin : s.engIn d m with
  | true =>
    rw [maOnline_of_in s d m h hin]
    exact .of_setEng hin rfl
  | false =>
    rw [maOnline_of_out s d m h hin]
    exact .of_setEng (State.engIn_maReturn _ d m) (State.regsOnly_maReturn _ d m).eng

/-- An array out of service returns with its planes empty and its slots free (R132). -/
theorem maOnline_empties (h : ¬ s.Broken (R.MA_FAULT d m) Ma.ARRAY_HW) (hin : s.engIn d m = false) :
    let t := maOnline d m s
    let a := t.arr d m
    a.p0.valid = false ∧ a.p1.valid = false ∧ a.acc = [] ∧ a.group = none ∧ (∀ i < 32, t.slotLocked d m i = false) ∧
      t.fld (R.MA_STATUS d m) F.MA_STATUS.P0_VALID = 0 ∧ t.fld (R.MA_STATUS d m) F.MA_STATUS.P1_VALID = 0 ∧
      t.fld (R.MA_STATUS d m) F.MA_STATUS.GROUP_OPEN = 0 ∧ ArrBut d m s t ∧ RegsBut [R.MA_STATUS d m, R.SPN_STATUS d m] s t ∧
      t = { s with regs := t.regs, eng := t.eng, arrays := t.arrays } := by
  rw [maOnline_of_out s d m h hin]
  intro t a
  have harrays : t.arrays = (s.setArr d m (s.arr d m).emptied).arrays := (State.regsOnly_maReturn _ d m).arrays
  have ha : a = (s.arr d m).emptied := by
    rw [show a = t.arr d m from rfl, State.arr, harrays]
    exact s.arr_setArr d m _
  obtain ⟨-, hlocked⟩ := State.status_maReturn (s.setEng d m { s.eng1 d m with offReq := false }) d m
  obtain ⟨h0, h1, hopen⟩ := State.shown_maReturn (s.setEng d m { s.eng1 d m with offReq := false }) d m
  refine ⟨by rw [ha]; rfl, by rw [ha]; rfl, by rw [ha]; rfl, by rw [ha]; rfl, fun i _ => ?_, h0, h1, hopen, fun k hk => ?_, ?_, ?_⟩
  · rw [State.slotLocked, hlocked, Nat.zero_testBit]
  · rw [harrays]
    exact (ArrBut.of_arrays rfl).setArr _ k hk
  · exact ((RegsBut.refl _ s).of_regs rfl).trans (State.regsBut_maReturn _ d m)
  · have honly : RegsOnly _ t := State.regsOnly_maReturn _ d m
    rw [honly]
    rfl

end

/-! ## An engine fails (R131, R190, R218) -/

/-- The command an engine runs is of that engine. -/
theorem State.engine_of_front {s : State} {d : Die} {u : Nat} {p : Cx × Flight} (h : s.front d u = some p) : p.2.cmd.engine = u := by
  let l := (s.live d).filter fun p => p.2.cmd.kind != 3 && p.2.cmd.engine == u
  have hmem : p ∈ l := by
    refine List.foldlRecOn (motive := fun b => ∀ p, b = some p → p ∈ l) l _ (fun _ hp => by cases hp) (fun b hb q hq p hp => ?_) p h
    cases b with
    | none => exact Option.some.inj hp ▸ hq
    | some r =>
      dsimp only at hp
      split at hp
      · exact Option.some.inj hp ▸ hq
      · exact hb p hp
  obtain ⟨-, hk⟩ := List.mem_filter.mp hmem
  simp only [Bool.and_eq_true, beq_iff_eq] at hk
  exact hk.2

/-- The engine's fault told, and its command ended, where it has one. -/
def State.hwEnd (s : State) (d : Die) (u code : Nat) : State :=
  match s.front d u with
  | some (c, f) => s.engFault d c f code 0
  | none => s.engNote d u code 0 0 0

/-- The engine out of service, with what it runs shown. -/
def State.hwOut (s : State) (d : Die) (u : Nat) : State :=
  ((s.setEngIn d u false).setEng d u { s.eng1 d u with offReq := false }).engShow d u

theorem State.engHw_eq (s : State) (d : Die) (u code kind index : Nat) : s.engHw d u code kind index = ((s.hwEnd d u code).hwOut d u).raise
    { status := St.ENGINE_FAULT, sev := Sev.FATAL_UNIT, detail := code, kind := kind, die := d.val, index := index } := rfl

theorem State.hwOut_frame (s : State) (d : Die) (u : Nat) : EngsOnly d s (s.hwOut d u) ∧ RegsBut [engStatus d u] s (s.hwOut d u) ∧
    (s.hwOut d u).engIn d u = false ∧ EngsBut d u s (s.hwOut d u) := by
  have hin := s.engIn_setEngIn d u false
  have hregs : RegsBut [engStatus d u] s (s.setEngIn d u false) := (RegsBut.refl _ s).setEngIn false (List.mem_singleton_self _)
  let t := (s.setEngIn d u false).setEng d u { s.eng1 d u with offReq := false }
  obtain ⟨hshown, hkept⟩ := t.engShow_status d u
  have hengs : EngsOnly d s t := ((EngsOnly.refl d s).setEngIn u false).setEng u _
  refine ⟨⟨?_, fun o ho => ?_⟩, (hregs.of_regs rfl).trans hshown, hkept.trans hin, fun k hk => ?_⟩
  · rw [State.hwOut, (t.engShow_only d u).frame, hengs.frame]
  · rw [State.hwOut, (t.engShow_only d u).reg o ho, hengs.reg o ho]
  · rw [State.hwOut, State.engShow_eng]
    exact (EngsBut.of_eng (s.setEngIn_eng d u false)).setEng _ k hk

theorem EnginesOnly.of_engsOnly {d : Die} {s t u : State} (h : EnginesOnly s t) (h' : EngsOnly d t u) : EnginesOnly s u := by
  rw [h'.frame, h]
  rfl

section
variable (s : State) (d : Die) (u : Nat) {code : Nat}

theorem State.hwEnd_frame : EnginesOnly s (s.hwEnd d u code) ∧ (s.hwEnd d u code).arrays = s.arrays ∧ (s.hwEnd d u code).eng = s.eng := by
  unfold State.hwEnd
  split
  · exact ⟨(EnginesOnly.refl s).engFault d _ _ code 0, by simp, by simp⟩
  · exact ⟨(EnginesOnly.refl s).engNote d u code 0 0 0, by simp, by simp⟩

theorem State.regsBut_hwEnd (hcode : code < 256) : RegsBut [(faultRegs d u).1, (faultRegs d u).2] s (s.hwEnd d u code) := by
  unfold State.hwEnd
  split
  case h_1 c f h =>
    obtain ⟨-, -, hregs⟩ := s.engFault_told d c f code 0 (State.engine_of_front h) hcode
    exact hregs
  case h_2 => exact s.regsBut_engNote d u code 0 0 0

/-- The command of an engine that fails is stopped, and the fault register tells it (R131, R190, R218). -/
theorem State.hwEnd_of_front {p : Cx × Flight} (h : s.front d u = some p) (hcode : code < 256) :
    FlightBy d p.1 p.2.slot (stopped code 0) s (s.hwEnd d u code) ∧ FaultTold d u p.1 p.2.slot code 0 s (s.hwEnd d u code) := by
  obtain ⟨c, f⟩ := p
  obtain ⟨hflight, htold, -⟩ := s.engFault_told d c f code 0 (State.engine_of_front h) hcode
  rw [State.hwEnd, h]
  exact ⟨hflight, htold⟩

/-- An engine that fails with no command tells its fault with no command's place. -/
theorem State.hwEnd_of_none (h : s.front d u = none) (hcode : code < 256) :
    (s.hwEnd d u code).cxs = s.cxs ∧ FaultTold d u 0 0 code 0 s (s.hwEnd d u code) := by
  rw [State.hwEnd, h]
  exact ⟨s.engNote_cxs d u code 0 0 0, s.faultTold_engNote d u 0 0 hcode (by decide)⟩

end

theorem FaultTold.of_status {d u c slot code addr : Nat} {s t w : State} (h : FaultTold d u c slot code addr s t) (hw : RegsBut [engStatus d u] t w) :
    FaultTold d u c slot code addr s w := by
  obtain ⟨h1, h2⟩ := engStatus_notMem_faultRegs d u
  exact h.of_reg (hw _ (by simpa using h1.symm)) (hw _ (by simpa using h2.symm))

/-- A hardware failure, of an engine whose command is `engHw` while the engine is in service. -/
theorem failure_answers {s : State} {d : Die} {i : Instr} {u code kind index status : Nat} (hon : s.On)
    (hexec : exec i s = s.whileOn (if s.engIn d u then s.engHw d u code kind index else s)) (hstatus : engStatus d u = status) (hcode : code < 256) :
    (s.engIn d u = true → Answers i s fun t => t.engIn d u = false ∧
      t.lastRaised.map (fun z => (z.status, z.sev, z.detail, z.kind, z.die, z.index)) =
        some (St.ENGINE_FAULT, Sev.FATAL_UNIT, code, kind, d.val, index) ∧
      (∀ p ∈ s.front d u, p.2.cmd.engine = u → FlightBy d p.1 p.2.slot (stopped code 0) s t ∧ FaultTold d u p.1 p.2.slot code 0 s t) ∧
      (s.front d u = none → t.cxs = s.cxs ∧ FaultTold d u 0 0 code 0 s t) ∧ EngsBut d u s t ∧
      RegsBut [status, (faultRegs d u).1, (faultRegs d u).2] s t ∧
      t = { s with regs := t.regs, faults := t.faults, cxs := t.cxs, eng := t.eng, power := { s.power with ranAt := t.power.ranAt } }) ∧
    (s.engIn d u = false → exec i s = .next s) := by
  subst hstatus
  rw [State.whileOn_on _ hon] at hexec
  refine ⟨fun hin => ?_, fun hin => ?_⟩
  · rw [if_pos hin, State.engHw_eq] at hexec
    obtain ⟨honly, harrays, heng⟩ := s.hwEnd_frame d u (code := code)
    obtain ⟨hengs, hregs, hout, hbut⟩ := (s.hwEnd d u code).hwOut_frame d u
    refine .of hexec ⟨hout, by rw [State.lastRaised_raise]; rfl, fun p hp _ => ?_, fun hnone => ?_, fun k hk => ?_, ?_, ?_⟩
    · obtain ⟨hflight, htold⟩ := s.hwEnd_of_front d u hp hcode
      exact ⟨hflight.of_cxs hengs.cxs, htold.of_status (hregs.raise _)⟩
    · obtain ⟨hcxs, htold⟩ := s.hwEnd_of_none d u hnone hcode
      exact ⟨hengs.cxs.trans hcxs, htold.of_status (hregs.raise _)⟩
    · exact (hbut k hk).trans (by rw [heng])
    · exact (((s.regsBut_hwEnd d u hcode).mono (by simp)).trans (hregs.mono (by simp))).raise _
    · have hall : EnginesOnly s _ := (honly.of_engsOnly hengs).raise
        { status := St.ENGINE_FAULT, sev := Sev.FATAL_UNIT, detail := code, kind := kind, die := d.val, index := index }
      have hsame : ((s.hwEnd d u code).hwOut d u).arrays = s.arrays := by rw [hengs.frame, ← harrays]
      unfold EnginesOnly at hall
      rwa [State.raise_arrays, hsame] at hall
  · rw [hexec, if_neg (ne_true_of_eq_false hin)]

/-- Settles O44: the three kinds of engine share their service register's write, their return and their failure; an array that returns is
emptied besides. -/
theorem engineService : Obligations.EngineService := by
  unfold Obligations.EngineService
  intro s w v d hon
  refine ⟨fun m => ⟨fun hw => ?_, fun hw => ?_, fun hw hv hin hb => ?_, ?_⟩, fun x => ⟨fun hw => ?_, fun hw => ?_, ?_⟩,
    fun e => ⟨fun hw => ?_, fun hw => ?_, ?_⟩⟩
  · exact offline_answers hon rfl (engStatus_array d m) hw
  · exact online_answers hon rfl (maOnline_of_broken s d m) (fun hb => ⟨maOnline_returns s d m hb, fun h8 => absurd m.isLt (Nat.not_lt.mpr h8)⟩) hw
  · have hexec : exec (.maOnline w d m) s = _ := State.whileOn_write _ hon hw
    rw [engCtl_online hv] at hexec
    exact .of hexec (maOnline_empties s d m hb hin)
  · exact failure_answers hon rfl (engStatus_array d m) (by decide)
  · exact offline_answers hon rfl (engStatus_vector d x) hw
  · exact online_answers hon rfl State.engReturn_of_broken (fun hb => ⟨(State.engReturn_of_sound hb).1, fun _ => engStatus_vector d x ▸ (State.engReturn_of_sound hb).2⟩) hw
  · exact failure_answers hon rfl (engStatus_vector d x) (by decide)
  · exact offline_answers hon rfl (engStatus_dma d e) hw
  · exact online_answers hon rfl State.engReturn_of_broken (fun hb => ⟨(State.engReturn_of_sound hb).1, fun _ => engStatus_dma d e ▸ (State.engReturn_of_sound hb).2⟩) hw
  · exact failure_answers hon rfl (engStatus_dma d e) (by decide)

end Sys2Proof.Machine
end

section
/-!
The matrix arrays (04_arrays.md): groups, loads and streams, where a LOAD with scales refutes O42.
-/

namespace Sys2Proof.Machine

/-! ## The scales of a LOAD and the row stream's cache (O42) -/

/-- A LOAD of one E4M3 row with its scales, the row at virtual address 0 and the scales 1 GiB above it. -/
def scaledLoad : Cmd where
  w0 := ((0 : Word).put 3 0 1).put 17 10 2
  w3 := (((0 : Word).put 10 7 Fmt.E4M3).put 11 11 1).put 63 32 0x40000000

/-- The flight of the LOAD, issued to array 0. -/
def scaledLoadFlight : Flight := { slot := 0, ext := false, cmd := scaledLoad, id := 1 }

/-- The readable leaf of the GiB at a physical address (R291). -/
def gibLeaf (pa : Nat) : Word := (0x53 : Word).put 53 10 (pa / 4096)

/-- Compute die 0 is in service and array 0 has a LOAD with scales to run. The row's stream and the scales' stream find the row and the
scales in the scratchpad of the die; the row's stream also holds a leaf of the scales' GiB, to the MMIO region, as it stays in a cache
that missed an invalidation (R295). -/
def staleRowStream : State where
  regs := [(R.HUB_CD_STATUS 0, 8)]
  cxs := [(0, { flights := [scaledLoadFlight] })]
  tlb := [{ die := 0, stream := arrayStream 0 0, asid := 0, level := 2, vpn := 0, pte := gibLeaf 0x7D000000000000 },
    { die := 0, stream := arrayStream 0 0, asid := 0, level := 2, vpn := 1, pte := gibLeaf 0x7F000000000000 },
    { die := 0, stream := arrayStream 0 2, asid := 0, level := 2, vpn := 1, pte := gibLeaf 0x7D000000000000 }]

theorem front_staleRowStream : staleRowStream.front 0 0 = some (0, scaledLoadFlight) := by decide

/-- The check of R130 takes every run of the LOAD through the row's stream. -/
theorem badRegion_staleRowStream : staleRowStream.badRegion 0 0 (loadPort 0) false scaledLoad.loadRuns = some 0x40000000 := by decide

theorem loadRows_scaledLoad : scaledLoad.loadRows = 1 := by decide

theorem rowFound_staleRowStream :
    (staleRowStream.nearRun 0 0 none (arrayStream 0 0) (scaledLoad.loadRow 0) (rowBytes scaledLoad.loadFmt)).isSome = true := by decide

theorem scaleFound_staleRowStream : (staleRowStream.nearRun 0 0 none (arrayStream 0 2) (scaledLoad.loadScale 0) 4).isSome = true := by decide

/-- Refutes O42: of a LOAD with scales the statement says that it ends when each stream finds its bytes at once, and also that it stops with
SRC_REGION when the row's stream maps an address of its runs outside the regions. Where the two streams' caches disagree about the scales'
page both hold, and a command that has ended has not stopped. -/
theorem not_arrayGroups : ¬ Obligations.ArrayGroups := by
  unfold Obligations.ArrayGroups
  intro h
  obtain ⟨-, hload, -⟩ := h.1 staleRowStream 0 0 0 scaledLoadFlight rfl front_staleRowStream
  obtain ⟨-, hstop, hend⟩ := hload rfl rfl
  have hplain : ¬ (scaledLoad.loadScaled = true ∧ isIntFmt scaledLoad.loadFmt = true) := by decide
  have only {r : Nat} (hr : r < scaledLoad.loadRows) : r = 0 := by rw [loadRows_scaledLoad] at hr; omega
  obtain ⟨t, ht, ⟨hfaulted, -⟩, -⟩ := hstop hplain 0x40000000 badRegion_staleRowStream
  obtain ⟨u, hu, -, -, -, -, ⟨hworked, -⟩, -⟩ := hend hplain (by decide) rfl rfl
    (fun r hr => by rw [only hr]; exact rowFound_staleRowStream) (fun _ r hr => by rw [only hr]; exact scaleFound_staleRowStream)
  obtain rfl : t = u := Host.Outcome.next.inj (ht.symm.trans hu)
  have hflights := congrArg (fun x : Ctx => x.flights.map (·.phase)) (hfaulted.symm.trans hworked)
  revert hflights
  decide

end Sys2Proof.Machine
end

section
/-!
How an engine's read finds at once what lies near it (10_translation.md, 12_ordering.md).
-/

namespace Sys2Proof.Machine

/-! ## The region of a key (R253 to R256) -/

theorem linRegion_eq_hbm {x j lin : Nat} (h : linRegion x = .hbm j lin) : lin = x := by
  unfold linRegion at h
  split_ifs at h
  exact (Region.hbm.inj h).2.symm

theorem State.region_of_linear (s : State) {x : Nat} (h : x < 0x14000000000) : s.region x = linRegion x := by
  rw [State.region, if_neg (by omega), if_neg (by omega), if_neg (by omega), if_neg (by omega), if_neg (by omega), if_neg (by omega),
    if_neg (by omega), if_pos h]

/-- The interleaved window's addresses are of the twenty stacks (R255). -/
theorem interleaved_lt {n x : Nat} (hn : n < 4) (hx : x < 0x4B00000000) : interleaved n x < 0x14000000000 := by
  have hst : interleaveStack (x / 4096) < 5 := Nat.mod_lt _ (by decide)
  unfold interleaved
  omega

/-- Memory of a stack is kept under its stack-linear address, which lies in the same place of the same stack (R256). -/
theorem State.region_key_of_hbm {s : State} {pa j lin : Nat} (h : s.region pa = .hbm j lin) : s.region lin = .hbm j lin := by
  have of_lin {x : Nat} (hx : x < 0x14000000000) (hl : linRegion x = .hbm j lin) : s.region lin = .hbm j lin := by
    rw [linRegion_eq_hbm hl, s.region_of_linear hx]
    exact linRegion_eq_hbm hl ▸ hl
  unfold State.region at h
  split_ifs at h
  next hwin => exact of_lin (interleaved_lt (by omega) hwin.2) h
  next hlow => exact of_lin hlow h

/-! ## A sector read at once (R314, R322, R341) -/

theorem State.ownOver_of_clear {s : State} {src : Src} {line : Nat} (h : s.mem.wrs.all (fun w => !(w.src == src && w.addr == line)) = true)
    (inst : Option (Nat × Nat)) (b : List Byte) : s.ownOver src inst line b = b := by
  have hnone : s.mem.wrs.filter (fun w => w.src == src && w.addr == line && w.stage == .sent && w.crc == none && (w.firn == none || w.firn == inst)) = [] := by
    refine List.filter_eq_nil_iff.mpr fun w hw => ?_
    have hclear := List.all_eq_true.mp h w hw
    simp only [Bool.not_eq_true', Bool.and_eq_false_iff] at hclear
    rcases hclear with h1 | h1 <;> simp [h1]
  rw [State.ownOver, hnone, List.foldl_nil]

theorem State.homeShare_of_unowned {s : State} {line : Nat} (h : ∀ a, s.dirOf line ≠ some (.owner a)) : s.homeShare line = s := by
  unfold State.homeShare
  split
  · rename_i a ha
    exact absurd ha (h a)
  · rfl

section
variable {s : State} {d : Die} {c : Cx} {inst : Option (Nat × Nat)} {line : Nat}
  (hwrs : s.mem.wrs.all (fun w => !(w.src == .cx d c && w.addr == line)) = true)
  (hin : s.absent (s.region line) = false) (hfree : s.held (s.region line) = false)
include hwrs hin hfree

/-- A sector of a scratchpad is read as it stands. -/
theorem State.engineRead_scr {n off : Nat} (hr : s.region line = .scr n off) (streaming : Bool) :
    s.engineRead d c inst line streaming = (.data (s.cells line 64) (s.mem.scrPoison.contains line), s) := by
  simp only [State.engineRead, hin, hfree, Bool.false_eq_true, if_false]
  simp only [hr, State.ownOver_of_clear hwrs]

/-- A sector of the die's own memory that no agent owns is read at its home, past the remote cache. -/
theorem State.engineRead_hbm {j lin : Nat} (hr : s.region line = .hbm j lin) (hj : j / 5 = d.val) (hun : ∀ a, s.dirOf line ≠ some (.owner a))
    (streaming : Bool) : s.engineRead d c inst line streaming = (.data (s.sectorFor inst line) (s.poisoned line), s) := by
  have hhome : (Region.hbm j lin).home = .cd d := by
    rw [Region.home, dif_pos (hj ▸ d.isLt)]
    exact congrArg Home.cd (Fin.ext hj)
  have hmay : s.rcMay d (Region.hbm j lin) inst = false := by simp [State.rcMay, hhome]
  simp only [State.engineRead, hin, hfree, Bool.false_eq_true, if_false]
  simp only [hr, hmay, hhome, State.homeShare_of_unowned hun, State.ownOver_of_clear hwrs, Bool.false_eq_true, if_false, if_true]

end

theorem State.translate_of_hit {s : State} {d : Die} {c : Cx} {n va : Nat} {e : TlbEnt} {write : Bool} (h : s.tlbFind d n (s.asid d c) va = some e)
    (hg : pteGrants e.pte write = true) : s.translate d c n va write = (.ok (leafAddr e.pte e.level va), s) := by
  simp only [State.translate, h, hg, if_true]

/-- What an engine finds at once at a sector is what it reads there, with nothing changed. -/
theorem State.read_of_near {s : State} {d : Die} {c : Cx} {inst : Option (Nat × Nat)} {stream va k : Nat} {b : List Byte} {q : Bool}
    (h : s.nearSec d c inst stream va = some (k, b, q)) (streaming : Bool) :
    ∃ pa, s.translate d c stream (va % 2 ^ 57) false = (.ok pa, s) ∧ (s.region pa).key pa = k ∧ arrayRegion (s.region pa) = true ∧
      s.engineRead d c inst k streaming = (.data b q, s) := by
  unfold State.nearSec at h
  split at h
  · cases h
  · rename_i e he
    dsimp only at h
    generalize hpa : leafAddr e.pte e.level (va % 2 ^ 57) = pa at h
    split at h
    · rename_i hok
      simp only [Bool.and_eq_true, Bool.not_eq_true'] at hok
      obtain ⟨⟨⟨hg, hin⟩, hfree⟩, hwrs⟩ := hok
      refine ⟨pa, hpa ▸ State.translate_of_hit he hg, ?_⟩
      cases hr : s.region pa with
      | scr n off =>
        simp only [hr] at h hin hfree hwrs
        have hkey : s.region ((Region.scr n off).key pa) = .scr n off := hr
        split at h
        · cases h
          exact ⟨rfl, rfl, State.engineRead_scr hwrs (by rwa [hkey]) (by rwa [hkey]) hkey streaming⟩
        · cases h
      | hbm j lin =>
        simp only [hr] at h hin hfree hwrs
        have hkey := State.region_key_of_hbm hr
        split at h
        · rename_i hj
          split at h
          · cases h
          · rename_i hun
            cases h
            exact ⟨rfl, rfl, State.engineRead_hbm hwrs (by rwa [Region.key, hkey]) (by rwa [Region.key, hkey]) hkey hj (fun a ha => hun a ha) streaming⟩
        · cases h
      | _ => simp [hr] at h
    · cases h

/-! ## A run read at once -/

/-- What an engine finds at once at `n` sectors from `va` on. -/
def State.nearSecs (s : State) (d : Die) (c : Cx) (inst : Option (Nat × Nat)) (stream va n : Nat) : List (Option (Nat × List Byte × Bool)) :=
  (List.range n).map fun i => s.nearSec d c inst stream (va + 64 * i)

theorem State.nearSecs_succ (s : State) (d : Die) (c : Cx) (inst : Option (Nat × Nat)) (stream va n : Nat) :
    s.nearSecs d c inst stream va (n + 1) = s.nearSec d c inst stream va :: s.nearSecs d c inst stream (va + 64) n := by
  rw [State.nearSecs, List.range_succ_eq_map, List.map_cons, List.map_map, State.nearSecs]
  congr 1
  refine List.map_congr_left fun i _ => ?_
  simp only [Function.comp_apply, Nat.succ_eq_add_one]
  congr 1
  omega

/-- A port of an array: its reads may reach the regions of R130, and are not made past the remote cache. -/
def Port.OfArray (p : Port) : Prop := p.allow = arrayRegion ∧ p.fresh = false

/-- Sectors all found at once are read with nothing changed. -/
theorem State.readSecs_of_near {s : State} {d : Die} {c : Cx} {f : Flight} {p : Port} (hp : p.OfArray) (n : Nat) {va : Nat}
    (h : (s.nearSecs d c f.inst p.stream va n).all Option.isSome = true) :
    ∃ l, State.readSecs d c f p n va s = (.ok l, s) ∧ l.map (fun x => (x.data, x.poison)) =
      ((s.nearSecs d c f.inst p.stream va n).filterMap id).map (·.2) := by
  induction n generalizing va with
  | zero => exact ⟨[], rfl, rfl⟩
  | succ n ih =>
    rw [State.nearSecs_succ, List.all_cons, Bool.and_eq_true] at h
    obtain ⟨⟨k, b, q⟩, hx⟩ := Option.isSome_iff_exists.mp h.1
    obtain ⟨pa, htrans, hkey, hallow, hread⟩ := State.read_of_near hx p.weights
    obtain ⟨l, hl, hmap⟩ := ih h.2
    refine ⟨{ va := va, key := k, mem := (s.region pa).isMem, poison := q, data := b } :: l, ?_, ?_⟩
    · simp only [State.readSecs, htrans, hp.1, hallow, hp.2, hkey, hread, hl, Bool.not_true, Bool.false_eq_true, if_false]
    · rw [State.nearSecs_succ, hx, List.map_cons, hmap]
      rfl

theorem State.nearRun_eq_some {s : State} {d : Die} {c : Cx} {inst : Option (Nat × Nat)} {stream va n : Nat} {x : List Byte × Bool}
    (h : s.nearRun d c inst stream va n = some x) :
    let l := s.nearSecs d c inst stream (va / 64 * 64) (sectorCount va n)
    l.all Option.isSome = true ∧ x = ((((l.filterMap id).flatMap fun x => x.2.1).drop (va % 64)).take n, (l.filterMap id).any fun x => x.2.2) := by
  simp only [State.nearRun] at h
  split at h
  · rename_i hall
    exact ⟨hall, (Option.some.inj h).symm⟩
  · cases h

/-- A run found at once is read with nothing changed. -/
theorem State.readRun_of_near {s : State} {d : Die} {c : Cx} {f : Flight} {p : Port} (hp : p.OfArray) {va n : Nat} {x : List Byte × Bool}
    (h : s.nearRun d c f.inst p.stream va n = some x) :
    ∃ l, State.readRun d c f p va n s = (.ok l, s) ∧ (runBytes va n l, l.any (·.poison)) = x := by
  obtain ⟨hall, rfl⟩ := State.nearRun_eq_some h
  obtain ⟨l, hl, hmap⟩ := State.readSecs_of_near (s := s) (d := d) (c := c) (f := f) hp _ hall
  refine ⟨l, hl, Prod.ext ?_ ?_⟩
  · have hdata := congrArg (List.flatMap Prod.fst) hmap
    rw [List.flatMap_map, List.flatMap_map] at hdata
    rw [runBytes]
    exact congrArg (fun y : List Byte => (y.drop (va % 64)).take n) hdata
  · have hpoison := congrArg (List.any · Prod.snd) hmap
    simp only [List.any_map] at hpoison
    exact hpoison

/-- An array's read of a run found at once, with no checksums verified (R129). -/
theorem State.arrayRead_of_near {s : State} {d : Die} {c : Cx} {m : Fin 8} {slot : Nat} {f : Flight} {p : Port} {va n : Nat} {x : List Byte × Bool}
    (hp : p.OfArray) (hf : (s.cx d c).flight slot = some f) (hcrc : s.flag (R.MA_CFG d m) F.MA_CFG.CRC_CHECK = false)
    (h : s.nearRun d c f.inst p.stream va n = some x) : State.arrayRead d c m slot p va n s = (some x, s) := by
  obtain ⟨l, hl, rfl⟩ := State.readRun_of_near (f := f) hp h
  simp only [State.arrayRead, hf, hl, State.maCheck, hcrc, Bool.false_eq_true, if_false]

end Sys2Proof.Machine
end

section
/-!
The sums of a row of a STREAM (04_arrays.md, 05_formats.md): the exact sum of integers, and the entries a row changes.
-/

namespace Sys2Proof.Machine

/-! ## Two's complement, and the ends of INT32 (R108, R158) -/

theorem signedCode_eq_toInt {bits : Nat} (h : 0 < bits) (c : Nat) : signedCode bits c = (BitVec.ofNat bits c).toInt := by
  obtain ⟨n, rfl⟩ := Nat.exists_eq_succ_of_ne_zero h.ne'
  rw [signedCode, BitVec.toInt_eq_toNat_cond, BitVec.toNat_ofNat, Nat.succ_eq_add_one, Nat.add_sub_cancel, Nat.pow_succ]
  split_ifs <;> omega

theorem Num.dy_ofInt (i : Int) : (Num.ofInt i).dy.1 = i := by
  simp only [Num.ofInt, Num.dy, decide_eq_true_eq]
  split_ifs <;> omega

theorem fmtBits_pos (f : Nat) : 0 < fmtBits f := by
  unfold fmtBits
  split_ifs <;> decide

theorem decodeNum_of_int {f : Nat} (h : f ∈ [Fmt.INT4, Fmt.INT8, Fmt.INT16]) (c : Nat) :
    (decodeNum f c).dy.1 = (BitVec.ofNat (fmtBits f) c).toInt := by
  have hdecode : decodeNum f c = .ofInt (signedCode (fmtBits f) c) := by
    simp only [List.mem_cons, List.not_mem_nil, or_false] at h
    rcases h with rfl | rfl | rfl <;> rfl
  rw [hdecode, Num.dy_ofInt, signedCode_eq_toInt (fmtBits_pos f)]

/-- An entry holds the exact sum, or the end of INT32 that lies beyond it. -/
theorem toInt_sat32 (i : Int) : (BitVec.ofNat 32 (sat32 i).1).toInt = max (-(2 ^ 31)) (min (2 ^ 31 - 1) i) := by
  rw [BitVec.toInt_eq_toNat_cond, BitVec.toNat_ofNat, sat32, satW]
  split_ifs <;> omega

theorem sat32_of_out {i : Int} (h : i < -(2 ^ 31) ∨ 2 ^ 31 ≤ i) : ((sat32 i).2 != 0) = true := by
  rw [sat32, satW]
  split_ifs
  · rfl
  · rfl
  · omega

theorem dotInt_eq_sum (us ys : List Int) : dotInt us ys = (List.zipWith (· * ·) us ys).sum := List.sum_eq_foldl.symm

/-! ## A column of the accumulator (R97, R107, R108) -/

section
variable (p : Plane) (k : Cmd) (col : Nat) (ws sw : List Num)

/-- A stationary row's entry of the column, the row's sum added: nothing where the row is masked. -/
def ArraySt.enterRow (b : ArraySt) (r : Nat) : ArraySt :=
  if k.strOff r then b
  else
    let q := rowEntry p k r (Sparse.get 0 (4096 * r + col) b.acc) ws sw
    { b with acc := Sparse.set (4096 * r + col) q.1 b.acc, sat := if q.2 && !b.sat.contains (col / 128) then col / 128 :: b.sat else b.sat }

variable (b : ArraySt) {r : Nat}

theorem ArraySt.enterRow_of_off (h : k.strOff r = true) : b.enterRow p k col ws sw r = b := if_pos h

theorem ArraySt.acc_enterRow (h : k.strOff r = false) :
    Sparse.get 0 (4096 * r + col) (b.enterRow p k col ws sw r).acc = (rowEntry p k r (Sparse.get 0 (4096 * r + col) b.acc) ws sw).1 := by
  rw [ArraySt.enterRow, if_neg (ne_true_of_eq_false h)]
  exact Sparse.get_set_same _ _ _ _

theorem ArraySt.acc_enterRow_of_ne {i : Nat} (h : k.strOff r = false → i ≠ 4096 * r + col) :
    Sparse.get 0 i (b.enterRow p k col ws sw r).acc = Sparse.get 0 i b.acc := by
  cases hoff : k.strOff r with
  | true => rw [b.enterRow_of_off p k col ws sw hoff]
  | false =>
    rw [ArraySt.enterRow, if_neg (ne_true_of_eq_false hoff)]
    exact Sparse.get_set_of_ne _ _ _ (h hoff)

theorem ArraySt.mem_sat_enterRow {i : Nat} (h : i ∈ b.sat) : i ∈ (b.enterRow p k col ws sw r).sat := by
  unfold ArraySt.enterRow
  split
  · exact h
  · dsimp only
    split
    · exact List.mem_cons_of_mem _ h
    · exact h

theorem ArraySt.slot_mem_sat_enterRow (h : k.strOff r = false) (hq : (rowEntry p k r (Sparse.get 0 (4096 * r + col) b.acc) ws sw).2 = true) :
    col / 128 ∈ (b.enterRow p k col ws sw r).sat := by
  rw [ArraySt.enterRow, if_neg (ne_true_of_eq_false h)]
  simp only [hq, Bool.true_and, Bool.not_eq_true', List.contains_eq_mem, decide_eq_false_iff_not]
  split
  · exact List.mem_cons_self
  · exact not_not.mp ‹_›

theorem ArraySt.sat_enterRow_of_float (h : isIntFmt p.fmt = false) : (b.enterRow p k col ws sw r).sat = b.sat := by
  unfold ArraySt.enterRow
  split
  · rfl
  · simp [rowEntry, h]

theorem ArraySt.enterRow_frame (r : Nat) :
    b.enterRow p k col ws sw r = { b with acc := (b.enterRow p k col ws sw r).acc, sat := (b.enterRow p k col ws sw r).sat } := by
  unfold ArraySt.enterRow
  split <;> rfl

end

section
variable (p : Plane) (k : Cmd) (col : Nat) (ws sw : List Num)

/-- Rows entered in their order. -/
def ArraySt.enterRows (a : ArraySt) (l : List Nat) : ArraySt := l.foldl (ArraySt.enterRow p k col ws sw) a

theorem ArraySt.addColumn_eq (a : ArraySt) : a.addColumn p k col ws sw = a.enterRows p k col ws sw (List.range 128) := rfl

theorem ArraySt.enterRows_cons (a : ArraySt) (r : Nat) (l : List Nat) :
    a.enterRows p k col ws sw (r :: l) = (a.enterRow p k col ws sw r).enterRows p k col ws sw l := rfl

theorem ArraySt.enterRows_frame (a : ArraySt) (l : List Nat) :
    a.enterRows p k col ws sw l = { a with acc := (a.enterRows p k col ws sw l).acc, sat := (a.enterRows p k col ws sw l).sat } := by
  induction l generalizing a with
  | nil => rfl
  | cons r l ih => rw [ArraySt.enterRows_cons, ih, ArraySt.enterRow_frame]

/-- An entry of no row that is entered stays. -/
theorem ArraySt.acc_enterRows_of_ne (a : ArraySt) {l : List Nat} {i : Nat} (h : ∀ r ∈ l, k.strOff r = false → i ≠ 4096 * r + col) :
    Sparse.get 0 i (a.enterRows p k col ws sw l).acc = Sparse.get 0 i a.acc := by
  induction l generalizing a with
  | nil => rfl
  | cons r l ih =>
    obtain ⟨hr, hl⟩ := List.forall_mem_cons.mp h
    rw [ArraySt.enterRows_cons, ih _ hl, ArraySt.acc_enterRow_of_ne _ _ _ _ _ _ hr]

theorem ArraySt.mem_sat_enterRows (a : ArraySt) (l : List Nat) {i : Nat} (h : i ∈ a.sat) : i ∈ (a.enterRows p k col ws sw l).sat := by
  induction l generalizing a with
  | nil => exact h
  | cons r l ih => exact ih _ (a.mem_sat_enterRow p k col ws sw h)

/-- Each row entered once: its entry takes the row's sum, and the slot is marked if that saturated. -/
theorem ArraySt.enterRows_at (a : ArraySt) {l : List Nat} (hl : l.Nodup) {r : Nat} (hr : r ∈ l) (hoff : k.strOff r = false) :
    let q := rowEntry p k r (Sparse.get 0 (4096 * r + col) a.acc) ws sw
    Sparse.get 0 (4096 * r + col) (a.enterRows p k col ws sw l).acc = q.1 ∧ (q.2 = true → col / 128 ∈ (a.enterRows p k col ws sw l).sat) := by
  induction l generalizing a with
  | nil => cases hr
  | cons x l ih =>
    obtain ⟨hx, hl⟩ := List.nodup_cons.mp hl
    rw [ArraySt.enterRows_cons]
    rcases List.mem_cons.mp hr with rfl | hr
    · have hlater : ∀ y ∈ l, k.strOff y = false → 4096 * r + col ≠ 4096 * y + col := fun y hy _ he =>
        hx ((by omega : r = y) ▸ hy)
      refine ⟨?_, fun hq => ?_⟩
      · rw [ArraySt.acc_enterRows_of_ne p k col ws sw _ hlater, a.acc_enterRow p k col ws sw hoff]
      · exact ArraySt.mem_sat_enterRows p k col ws sw _ l (a.slot_mem_sat_enterRow p k col ws sw hoff hq)
    · have hfirst : k.strOff x = false → 4096 * r + col ≠ 4096 * x + col := fun _ he => hx ((by omega : r = x) ▸ hr)
      have hrest := ih (a.enterRow p k col ws sw x) hl hr
      rwa [a.acc_enterRow_of_ne p k col ws sw hfirst] at hrest

theorem ArraySt.sat_enterRows_of_float (h : isIntFmt p.fmt = false) (a : ArraySt) (l : List Nat) :
    (a.enterRows p k col ws sw l).sat = a.sat := by
  induction l generalizing a with
  | nil => rfl
  | cons r l ih => rw [ArraySt.enterRows_cons, ih, ArraySt.sat_enterRow_of_float p k col ws sw a h]

end

/-! ## The sum of a row of integers (R108) -/

/-- The weights of a row of an integer format. -/
def intWeights (fmt : Nat) (bs : List Byte) : List Int :=
  if fmt = Fmt.T5 then (readNums Fmt.T5 128 bs).1.map fun y => y.dy.1
  else (unpackBits (fmtBits fmt) 128 bs).map fun y => (BitVec.ofNat (fmtBits fmt) y).toInt

theorem map_dy_readNums {fmt : Nat} (h : fmt ∈ [Fmt.INT4, Fmt.INT8, Fmt.INT16, Fmt.T5]) (bs : List Byte) :
    (readNums fmt 128 bs).1.map (fun y => y.dy.1) = intWeights fmt bs := by
  unfold intWeights
  split_ifs with ht
  · rw [ht]
  · have hint : fmt ∈ [Fmt.INT4, Fmt.INT8, Fmt.INT16] := by
      simp only [List.mem_cons, List.not_mem_nil, or_false] at h ⊢
      tauto
    rw [readNums, if_neg ht, List.map_map]
    exact List.map_congr_left fun y _ => decodeNum_of_int hint y

/-- A row's entry of integers: the exact sum, held to INT32. -/
theorem rowEntry_of_int {p : Plane} {k : Cmd} (hp : p.fmt ∈ [Fmt.INT8, Fmt.INT16]) (hk : k.strFmt ∈ [Fmt.INT4, Fmt.INT8, Fmt.INT16, Fmt.T5])
    (r old : Nat) (bs : List Byte) (sw : List Num) : rowEntry p k r old (readNums k.strFmt 128 bs).1 sw =
      accInt old (List.zipWith (fun u y => (BitVec.ofNat (fmtBits p.fmt) u).toInt * y) (p.row r) (intWeights k.strFmt bs)).sum := by
  have hint : isIntFmt p.fmt = true := by
    simp only [List.mem_cons, List.not_mem_nil, or_false] at hp
    rcases hp with hp | hp <;> rw [hp] <;> rfl
  have hcodes : ((p.row r).map (decodeNum p.fmt)).map (fun x => x.dy.1) = (p.row r).map fun u => (BitVec.ofNat (fmtBits p.fmt) u).toInt := by
    rw [List.map_map]
    exact List.map_congr_left fun u _ => decodeNum_of_int (List.mem_cons_of_mem _ hp) u
  simp only [rowEntry, hint, if_true, hcodes, map_dy_readNums hk, dotInt_eq_sum, List.zipWith_map_left]

theorem toInt_accInt (old : Nat) (sum : Int) : (BitVec.ofNat 32 (accInt old sum).1).toInt =
    max (-(2 ^ 31)) (min (2 ^ 31 - 1) ((BitVec.ofNat 32 old).toInt + sum)) := by
  rw [← signedCode_eq_toInt (by decide) old]
  exact toInt_sat32 _

theorem accInt_saturated {old : Nat} {sum : Int} (h : (BitVec.ofNat 32 old).toInt + sum < -(2 ^ 31) ∨ 2 ^ 31 ≤ (BitVec.ofNat 32 old).toInt + sum) :
    (accInt old sum).2 = true := by
  rw [← signedCode_eq_toInt (by decide) old] at h
  exact sat32_of_out h

end Sys2Proof.Machine
end

section
/-!
What a row taken leaves in the state (04_arrays.md): counters and their wraps, the frame of an array's command, the stream's progress.
-/

namespace Sys2Proof.Machine

/-! ## Event counters, and what tells their wraps (R138) -/

theorem onlyWraps_iff {s t : State} : OnlyWraps s t ↔
    ∃ l, t.faults = { s.faults with raised := s.faults.raised ++ l } ∧ ∀ x ∈ l, x.status = St.CNT_WRAP := by
  constructor
  · rintro ⟨hfaults, ⟨l, hl⟩, hwraps⟩
    rw [← hl, List.drop_left] at hwraps
    exact ⟨l, by rw [hfaults, hl], hwraps⟩
  · rintro ⟨l, hl, hwraps⟩
    refine ⟨by rw [hl], by rw [hl]; exact List.prefix_append _ _, fun x hx => hwraps x ?_⟩
    rwa [hl, List.drop_left] at hx

theorem OnlyWraps.of_faults {s t : State} (h : t.faults = s.faults) : OnlyWraps s t :=
  onlyWraps_iff.mpr ⟨[], by rw [h, List.append_nil], by simp⟩

section
variable {s t : State} (h : OnlyWraps s t)
include h

theorem OnlyWraps.congr {u : State} (hu : u.faults = t.faults) : OnlyWraps s u := by
  unfold OnlyWraps at h ⊢
  rwa [hu]

theorem OnlyWraps.trans {u : State} (h' : OnlyWraps t u) : OnlyWraps s u := by
  obtain ⟨l, hl, hwraps⟩ := onlyWraps_iff.mp h
  obtain ⟨l', hl', hwraps'⟩ := onlyWraps_iff.mp h'
  refine onlyWraps_iff.mpr ⟨l ++ l', by rw [hl', hl, List.append_assoc], fun x hx => ?_⟩
  exact (List.mem_append.mp hx).elim (hwraps x) (hwraps' x)

theorem OnlyWraps.raise {r : FaultRec} (hr : r.status = St.CNT_WRAP) : OnlyWraps s (t.raise r) := by
  obtain ⟨l, hl, hwraps⟩ := onlyWraps_iff.mp h
  refine onlyWraps_iff.mpr ⟨l ++ [{ r with stamp := t.spanNow, raisedAt := t.now }], ?_, fun x hx => ?_⟩
  · rw [State.raise, hl, List.append_assoc]
  · rcases List.mem_append.mp hx with hx | hx
    · exact hwraps x hx
    · rw [List.mem_singleton.mp hx]
      exact hr

theorem OnlyWraps.count (o n : Nat) : OnlyWraps s (t.count o n) := by
  unfold State.count
  extract_lets c s1 s2 u
  have h1 : OnlyWraps s s1 := h.congr rfl
  split_ifs
  · exact h1
  · exact OnlyWraps.raise (t := s2) (h1.congr rfl) rfl
  · exact h1.congr rfl

end

theorem RegsBut.count {l : List Nat} {s t : State} {o : Nat} (n : Nat) (h : RegsBut l s t) (ho : o ∈ l) : RegsBut l s (t.count o n) := by
  unfold State.count
  extract_lets c s1 s2 u
  have h1 : RegsBut l s s1 := h.setFld _ _ ho
  split_ifs
  · exact h1
  · exact (h1.setFld _ _ ho).raise _
  · exact h1.setFld _ _ ho

theorem State.fld_count (s : State) (o n : Nat) : (s.count o n).fld o F.CTR.COUNT = (s.fld o F.CTR.COUNT + n) % 2 ^ 48 := by
  have h1 : (s.setFld o F.CTR.COUNT (s.fld o F.CTR.COUNT + n)).fld o F.CTR.COUNT = (s.fld o F.CTR.COUNT + n) % 2 ^ 48 :=
    State.fld_setFld _ _ _ _ (by decide)
  have h2 (t : State) : (t.setFld o F.CTR.OVF 1).fld o F.CTR.COUNT = t.fld o F.CTR.COUNT :=
    State.fld_setFld_of_disjoint _ _ _ _ _ (by decide) (by decide)
  unfold State.count
  extract_lets c s1 s2 u
  split_ifs
  · exact h1
  · exact (h2 s1).trans h1
  · exact (h2 s1).trans h1

theorem State.fld_count_of_ne (s : State) {o i : Nat} (n : Nat) (f : Fld) (h : i ≠ o) : (s.count o n).fld i f = s.fld i f :=
  ((RegsBut.refl [o] s).count n (List.mem_singleton_self o)).fld (by simpa using h) f

@[simp] theorem State.count_arrays (s : State) (o n : Nat) : (s.count o n).arrays = s.arrays := by rw [State.count_frame]

@[simp] theorem State.maShow_cxs (s : State) (d m : Nat) : (s.maShow d m).cxs = s.cxs := by rw [s.regsOnly_maShow d m]
@[simp] theorem State.maShow_faults (s : State) (d m : Nat) : (s.maShow d m).faults = s.faults := by rw [s.regsOnly_maShow d m]

theorem FlightBy.trans {d : Die} {c : Cx} {n : Nat} {g k : Flight → Flight} {s t u : State} (h : FlightBy d c n g s t) (h' : FlightBy d c n k t u)
    (hg : ∀ f, (g f).slot = f.slot) : FlightBy d c n (k ∘ g) s u :=
  ⟨by rw [h'.1, h.1, Ctx.mapFlight_mapFlight _ n k hg], fun e b hne => (h'.2 e b hne).trans (h.2 e b hne)⟩

/-! ## What a command of an array changes -/

theorem ArrayOnly.refl (d m : Nat) (l : List Nat) (s : State) : ArrayOnly d m l s s :=
  ⟨.refl l s, fun _ _ => rfl, .of_faults rfl, rfl⟩

theorem ArrayOnly.of_enginesOnly {d m : Nat} {l : List Nat} {s t : State} (hregs : RegsBut l s t) (harr : ArrBut d m s t) (hwraps : OnlyWraps s t)
    (honly : EnginesOnly s t) (heng : t.eng = s.eng) : ArrayOnly d m l s t := by
  refine ⟨hregs, harr, hwraps, ?_⟩
  unfold EnginesOnly at honly
  rwa [heng] at honly

section
variable {d m : Nat} {l : List Nat} {s t : State} (h : ArrayOnly d m l s t)
include h

theorem ArrayOnly.enginesOnly : EnginesOnly s t := by
  obtain ⟨-, -, -, hframe⟩ := h
  rw [hframe]
  rfl

theorem ArrayOnly.setFld {o : Nat} (f : Fld) (v : Nat) (ho : o ∈ l) : ArrayOnly d m l s (t.setFld o f v) := by
  obtain ⟨hregs, harr, hwraps, hframe⟩ := h
  refine ⟨hregs.setFld f v ho, harr, hwraps, ?_⟩
  rw [hframe]
  rfl

theorem ArrayOnly.count {o : Nat} (n : Nat) (ho : o ∈ l) : ArrayOnly d m l s (t.count o n) := by
  have heng : (t.count o n).eng = s.eng := by
    rw [State.count_frame, h.2.2.2]
  refine .of_enginesOnly (h.1.count n ho) (fun k hk => ?_) (h.2.2.1.count o n) (h.enginesOnly.count o n) heng
  rw [State.count_arrays]
  exact h.2.1 k hk

theorem ArrayOnly.setArr (a : ArraySt) : ArrayOnly d m l s (t.setArr d m a) := by
  obtain ⟨hregs, harr, hwraps, hframe⟩ := h
  refine ⟨hregs, harr.setArr a, hwraps, ?_⟩
  rw [hframe]
  rfl

theorem ArrayOnly.setFlight (e : Die) (c : Cx) (n : Nat) (g : Flight → Flight) : ArrayOnly d m l s (t.setFlight e c n g) := by
  obtain ⟨hregs, harr, hwraps, hframe⟩ := h
  refine ⟨hregs, harr, hwraps, ?_⟩
  rw [hframe]
  rfl

theorem ArrayOnly.trans {u : State} (h' : ArrayOnly d m l t u) : ArrayOnly d m l s u := by
  obtain ⟨hregs, harr, hwraps, hframe⟩ := h
  obtain ⟨hregs', harr', hwraps', hframe'⟩ := h'
  refine ⟨hregs.trans hregs', fun k hk => (harr' k hk).trans (harr k hk), hwraps.trans hwraps', ?_⟩
  rw [hframe', hframe]

theorem ArrayOnly.workDone (e : Die) (c : Cx) (n : Nat) : ArrayOnly d m l s (t.workDone e c n) :=
  h.trans (.of_enginesOnly (.of_regs_eq l (t.engRan_regs e c n)) (.of_arrays (t.engRan_arrays e c n)) (.of_faults (t.engRan_faults e c n))
    ((EnginesOnly.refl t).workDone e c n) (t.engRan_eng e c n))

theorem ArrayOnly.maShow (hm : R.MA_STATUS d m ∈ l) : ArrayOnly d m l s (t.maShow d m) := by
  have honly := t.regsOnly_maShow d m
  have hframe : EnginesOnly t (t.maShow d m) := by
    rw [honly]
    rfl
  exact h.trans (.of_enginesOnly ((t.regsBut_maShow d m).mono (by simpa using hm)) (.of_arrays honly.arrays) (.of_faults (t.maShow_faults d m)) hframe honly.eng)

end

/-! ## A row taken into the accumulator (R97, R107, R108, R113) -/

theorem ArraySt.poison_addColumn (a : ArraySt) (p : Plane) (k : Cmd) (col : Nat) (ws sw : List Num) :
    (a.addColumn p k col ws sw).poison = a.poison := by
  rw [ArraySt.addColumn_eq, ArraySt.enterRows_frame]

/-- The array with a weight row entered, of a stream whose sources are poisoned or not. -/
def ArraySt.rowEntered (a : ArraySt) (p : Plane) (k : Cmd) (col : Nat) (ws sw : List Num) (bad : Bool) : ArraySt :=
  let b := a.addColumn p k col ws sw
  { b with p0 := { b.p0 with taken := true }, p1 := { b.p1 with taken := true },
           poison := if bad && !b.poison.contains (col / 128) then col / 128 :: b.poison else b.poison, rimeRun := 0 }

/-- The factors of a row's scales. -/
def Cmd.strFactors (k : Cmd) (ss : List Byte) : List Num :=
  ss.map fun b => decodeNum (if k.strScales = 1 then Fmt.E8M0 else Fmt.UE4M3) b.toNat

/-- An array put in place by a row, which is counted, and the cycle that issued it. -/
def State.rowNoted (s : State) (d : Die) (m : Fin 8) (b : ArraySt) (cycle : Prop) [Decidable cycle] : State :=
  let t := ((s.setArr d m b).count (R.MA_ROWS d m) 1).setFld (R.MA_STATUS d m) F.MA_STATUS.RIME 0
  if cycle then t.count (R.MA_CYC_BUSY d m) 1 else t

/-- The stream's next row is due; the last ends it. -/
def State.rowStepped (s : State) (d : Die) (c : Cx) (m : Fin 8) (f : Flight) : State :=
  let t := s.setFlight d c f.slot fun g => { g with prog := f.prog + 1, held := none }
  if f.prog + 1 = f.cmd.strRows then t.arrayEnd d c m f.slot else t

/-- The array that a row of a flight's stream makes of array `m`. -/
def State.arrRowed (s : State) (d : Die) (m : Fin 8) (f : Flight) (bs ss : List Byte) (bad : Bool) : ArraySt :=
  let p := (s.arr d m).plane (s.maActive d m)
  (s.arr d m).rowEntered p f.cmd (f.cmd.strCol + f.prog) (readNums f.cmd.strFmt 128 bs).1 (f.cmd.strFactors ss) (bad || p.poison)

theorem State.rowTake_eq (s : State) (d : Die) (c : Cx) (m : Fin 8) (f : Flight) (bs ss : List Byte) (bad : Bool) :
    s.rowTake d c m f bs ss bad = (s.rowNoted d m (s.arrRowed d m f bs ss bad)
      (f.prog % rowsPerCycle ((s.arr d m).plane (s.maActive d m)).fmt f.cmd.strFmt = 0)).rowStepped d c m f := rfl

/-- A row enters sums and marks, and the array is otherwise as it was but for what tells rime rows (R126). -/
theorem ArraySt.rowEntered_frame (a : ArraySt) (p : Plane) (k : Cmd) (col : Nat) (ws sw : List Num) (bad : Bool) :
    let b := a.rowEntered p k col ws sw bad
    b = { a with acc := b.acc, sat := b.sat, poison := b.poison, p0 := { a.p0 with taken := true }, p1 := { a.p1 with taken := true }, rimeRun := 0 } := by
  intro b
  have h : a.addColumn p k col ws sw = _ := ArraySt.enterRows_frame p k col ws sw a (List.range 128)
  rw [show b = a.rowEntered p k col ws sw bad from rfl, ArraySt.rowEntered, h]

theorem ArraySt.poison_rowEntered (a : ArraySt) (p : Plane) (k : Cmd) (col : Nat) (ws sw : List Num) (bad : Bool) (i : Nat) :
    (a.rowEntered p k col ws sw bad).poison.contains i = (a.poison.contains i || (bad && i == col / 128)) := by
  rw [ArraySt.rowEntered, ArraySt.poison_addColumn]
  cases bad with
  | false => simp
  | true =>
    cases hmem : a.poison.contains (col / 128) with
    | true =>
      by_cases hi : i = col / 128
      · simpa [hi] using hmem
      · simp [hi]
    | false => simp [Bool.or_comm, beq_eq_decide]

/-! ### What the row leaves in the state -/

section
variable (s : State) (d : Die) (c : Cx) (m : Fin 8) (f : Flight) (b : ArraySt) (cycle : Prop) [Decidable cycle]

/-- The registers that tell a row. -/
def rowRegs (d m : Nat) : List Nat := [R.MA_STATUS d m, R.MA_ROWS d m, R.MA_CYC_BUSY d m, R.MA_CRC_UNVERIFIED d m]

theorem State.arrayOnly_rowNoted : ArrayOnly d m (rowRegs d m) s (s.rowNoted d m b cycle) := by
  have h : ArrayOnly d m (rowRegs d m) s (((s.setArr d m b).count (R.MA_ROWS d m) 1).setFld (R.MA_STATUS d m) F.MA_STATUS.RIME 0) :=
    (((ArrayOnly.refl d m _ s).setArr b).count 1 (by simp [rowRegs])).setFld _ _ (by simp [rowRegs])
  unfold State.rowNoted
  extract_lets t
  split_ifs
  · exact h.count 1 (by simp [rowRegs])
  · exact h

theorem State.rowNoted_cxs : (s.rowNoted d m b cycle).cxs = s.cxs := by
  unfold State.rowNoted
  extract_lets t
  split_ifs <;> simp [t]

theorem State.rowNoted_arrays : (s.rowNoted d m b cycle).arrays = (s.setArr d m b).arrays := by
  unfold State.rowNoted
  extract_lets t
  split_ifs <;> simp [t]

theorem State.fld_rowNoted : (s.rowNoted d m b cycle).fld (R.MA_ROWS d m) F.CTR.COUNT = (s.fld (R.MA_ROWS d m) F.CTR.COUNT + 1) % 2 ^ 48 ∧
    (s.rowNoted d m b cycle).fld (R.MA_STATUS d m) F.MA_STATUS.RIME = 0 := by
  have hrows : R.MA_ROWS d m ≠ R.MA_STATUS d m ∧ R.MA_ROWS d m ≠ R.MA_CYC_BUSY d m ∧ R.MA_STATUS d m ≠ R.MA_CYC_BUSY d m := by
    unfold R.MA_ROWS R.MA_STATUS R.MA_CYC_BUSY
    omega
  obtain ⟨hrs, hrb, hsb⟩ := hrows
  let t := ((s.setArr d m b).count (R.MA_ROWS d m) 1).setFld (R.MA_STATUS d m) F.MA_STATUS.RIME 0
  have ht : t.fld (R.MA_ROWS d m) F.CTR.COUNT = (s.fld (R.MA_ROWS d m) F.CTR.COUNT + 1) % 2 ^ 48 ∧ t.fld (R.MA_STATUS d m) F.MA_STATUS.RIME = 0 :=
    ⟨(State.fld_setFld_of_ne _ _ _ _ hrs).trans (State.fld_count _ _ _), State.fld_setFld_of_le _ _ _ (by decide) (by decide)⟩
  unfold State.rowNoted
  split_ifs
  · exact ⟨(State.fld_count_of_ne _ _ _ hrb).trans ht.1, (State.fld_count_of_ne _ _ _ hsb).trans ht.2⟩
  · exact ht

/-- What the end of an array's command leaves, beside its flight. -/
theorem State.arrayOnly_arrayEnd {l : List Nat} {t : State} (h : ArrayOnly d m l t s) (hst : R.MA_STATUS d m ∈ l) (hcrc : R.MA_CRC_UNVERIFIED d m ∈ l)
    (n : Nat) : ArrayOnly d m l t (s.arrayEnd d c m n) := by
  unfold State.arrayEnd
  extract_lets k
  refine ArrayOnly.maShow (ArrayOnly.workDone ?_ _ _ _) hst
  split_ifs
  · exact h
  · exact h.count k hcrc

theorem State.arrayEnd_arrays (n : Nat) : (s.arrayEnd d c m n).arrays = s.arrays := by
  unfold State.arrayEnd
  extract_lets k
  rw [(State.regsOnly_maShow _ d m).arrays]
  refine (State.engRan_arrays _ d c n).trans ?_
  split_ifs <;> simp

theorem State.fld_arrayEnd (n : Nat) : (s.arrayEnd d c m n).fld (R.MA_ROWS d m) F.CTR.COUNT = s.fld (R.MA_ROWS d m) F.CTR.COUNT ∧
    (s.arrayEnd d c m n).fld (R.MA_STATUS d m) F.MA_STATUS.RIME = s.fld (R.MA_STATUS d m) F.MA_STATUS.RIME := by
  have hne : R.MA_ROWS d m ≠ R.MA_STATUS d m ∧ R.MA_ROWS d m ≠ R.MA_CRC_UNVERIFIED d m ∧ R.MA_STATUS d m ≠ R.MA_CRC_UNVERIFIED d m := by
    unfold R.MA_ROWS R.MA_STATUS R.MA_CRC_UNVERIFIED
    omega
  obtain ⟨hrs, hrc, hsc⟩ := hne
  unfold State.arrayEnd
  extract_lets k
  generalize hu : (if k = 0 then s else s.count (R.MA_CRC_UNVERIFIED d m) k) = u
  have hdone (o : Nat) (g : Fld) : (u.workDone d c n).fld o g = u.fld o g := State.fld_of_regs_eq (u.engRan_regs d c n) o g
  rw [(State.regsBut_maShow _ d m).fld (by simpa using hrs), State.fld_maShow_of_apart _ d m (by decide), hdone, hdone, ← hu]
  split_ifs
  · exact ⟨rfl, rfl⟩
  · exact ⟨State.fld_count_of_ne _ _ _ hrc, State.fld_count_of_ne _ _ _ hsc⟩

theorem State.flightBy_arrayEnd (n : Nat) : FlightBy d c n ended s (s.arrayEnd d c m n) := by
  unfold State.arrayEnd
  extract_lets k
  refine ((State.flightBy_workDone _ d c n).from_cxs ?_).of_cxs (State.maShow_cxs _ d m)
  split_ifs <;> simp

/-- The frame of a row, of a stream that goes on or ends. -/
theorem State.rowStepped_frame {l : List Nat} {t : State} (h : ArrayOnly d m l t s) (hst : R.MA_STATUS d m ∈ l) (hcrc : R.MA_CRC_UNVERIFIED d m ∈ l) :
    ArrayOnly d m l t (s.rowStepped d c m f) ∧ (s.rowStepped d c m f).arrays = s.arrays ∧
      (s.rowStepped d c m f).fld (R.MA_ROWS d m) F.CTR.COUNT = s.fld (R.MA_ROWS d m) F.CTR.COUNT ∧
      (s.rowStepped d c m f).fld (R.MA_STATUS d m) F.MA_STATUS.RIME = s.fld (R.MA_STATUS d m) F.MA_STATUS.RIME := by
  unfold State.rowStepped
  extract_lets u
  have hu : ArrayOnly d m l t u := h.setFlight d c f.slot _
  split_ifs
  · obtain ⟨hrows, hrime⟩ := u.fld_arrayEnd d c m f.slot
    exact ⟨u.arrayOnly_arrayEnd d c m hu hst hcrc f.slot, u.arrayEnd_arrays d c m f.slot, hrows, hrime⟩
  · exact ⟨hu, rfl, rfl, rfl⟩

theorem State.flightBy_rowStepped :
    (f.prog + 1 = f.cmd.strRows → FlightBy d c f.slot (fun g => { ended g with prog := f.prog + 1 }) s (s.rowStepped d c m f)) ∧
    (f.prog + 1 ≠ f.cmd.strRows → FlightBy d c f.slot (fun g => { g with prog := f.prog + 1, held := none }) s (s.rowStepped d c m f)) := by
  unfold State.rowStepped
  extract_lets t
  have hstep : FlightBy d c f.slot (fun g => { g with prog := f.prog + 1, held := none }) s t := s.flightBy_setFlight d c f.slot _
  refine ⟨fun hlast => ?_, fun hlast => ?_⟩
  · rw [if_pos hlast]
    exact hstep.trans (t.flightBy_arrayEnd d c m f.slot) fun _ => rfl
  · rw [if_neg hlast]
    exact hstep

end

/-! ### The contexts that a row leaves -/

section
variable {s t : State} (h : s.cxs = t.cxs) (d : Die) (c : Cx) (m : Fin 8)
include h

theorem State.setFlight_cxs_congr (n : Nat) (g : Flight → Flight) : (s.setFlight d c n g).cxs = (t.setFlight d c n g).cxs := by
  simp only [State.setFlight, State.setCx, State.cx, h]

theorem State.arrayEnd_cxs_congr (n : Nat) : (s.arrayEnd d c m n).cxs = (t.arrayEnd d c m n).cxs := by
  unfold State.arrayEnd
  rw [State.maShow_cxs, State.maShow_cxs]
  refine State.setFlight_cxs_congr ?_ d c n _
  rw [State.engRan_cxs, State.engRan_cxs]
  split_ifs <;> simp [h]

theorem State.rowStepped_cxs_congr (f : Flight) : (s.rowStepped d c m f).cxs = (t.rowStepped d c m f).cxs := by
  have hstep := State.setFlight_cxs_congr h d c f.slot fun g => { g with prog := f.prog + 1, held := none }
  unfold State.rowStepped
  dsimp only
  split_ifs
  · exact State.arrayEnd_cxs_congr hstep d c m f.slot
  · exact hstep

end

section
variable (s : State) (d : Die) (c : Cx) (m : Fin 8) (f : Flight) (bs ss : List Byte) (bad : Bool)

/-- What a row leaves in the state: the array's sums, the counters that tell it, and its stream's progress. -/
theorem State.rowTake_frame :
    let t := s.rowTake d c m f bs ss bad
    t.arr d m = s.arrRowed d m f bs ss bad ∧
      t.fld (R.MA_ROWS d m) F.CTR.COUNT = (s.fld (R.MA_ROWS d m) F.CTR.COUNT + 1) % 2 ^ 48 ∧ t.fld (R.MA_STATUS d m) F.MA_STATUS.RIME = 0 ∧
      (f.prog + 1 = f.cmd.strRows → FlightBy d c f.slot (fun g => { ended g with prog := f.prog + 1 }) s t) ∧
      (f.prog + 1 ≠ f.cmd.strRows → FlightBy d c f.slot (fun g => { g with prog := f.prog + 1, held := none }) s t) ∧
      ArrayOnly d m (rowRegs d m) s t := by
  rw [State.rowTake_eq]
  set u := s.rowNoted d m (s.arrRowed d m f bs ss bad) (f.prog % rowsPerCycle ((s.arr d m).plane (s.maActive d m)).fmt f.cmd.strFmt = 0)
  have hcxs : u.cxs = s.cxs := s.rowNoted_cxs d m _ _
  have harrays : u.arrays = (s.setArr d m (s.arrRowed d m f bs ss bad)).arrays := s.rowNoted_arrays d m _ _
  obtain ⟨hrows, hrime⟩ : u.fld _ _ = _ ∧ u.fld _ _ = _ := s.fld_rowNoted d m _ _
  obtain ⟨honly, hkept, hrows', hrime'⟩ := u.rowStepped_frame d c m f (s.arrayOnly_rowNoted d m _ _) (by simp [rowRegs]) (by simp [rowRegs])
  obtain ⟨hlast, hnext⟩ := u.flightBy_rowStepped d c m f
  refine ⟨?_, hrows'.trans hrows, hrime'.trans hrime, fun hp => (hlast hp).from_cxs hcxs.symm, fun hp => (hnext hp).from_cxs hcxs.symm, honly⟩
  rw [State.arr, hkept, harrays]
  exact s.arr_setArr d m _

theorem State.rowTake_cxs_congr {s t : State} (h : s.cxs = t.cxs) : (s.rowTake d c m f bs ss bad).cxs = (t.rowTake d c m f bs ss bad).cxs := by
  rw [State.rowTake_eq, State.rowTake_eq]
  refine State.rowStepped_cxs_congr ?_ d c m f
  rw [State.rowNoted_cxs, State.rowNoted_cxs, h]

end

end Sys2Proof.Machine
end

section
/-!
A row under the error correction of its accumulator and plane (04_arrays.md, R113).
-/

namespace Sys2Proof.Machine

/-! ## The sums of a row entered (R107, R108) -/

section
variable (a : ArraySt) (p : Plane) (k : Cmd) (col : Nat) (ws sw : List Num) (bad : Bool)

theorem ArraySt.acc_rowEntered_of_off {r : Nat} (h : k.strOff r = true) :
    Sparse.get 0 (4096 * r + col) (a.rowEntered p k col ws sw bad).acc = Sparse.get 0 (4096 * r + col) a.acc := by
  refine ArraySt.acc_enterRows_of_ne p k col ws sw a fun x _ hx he => ?_
  have hrx : r = x := by omega
  rw [← hrx, h] at hx
  cases hx

theorem ArraySt.acc_rowEntered_of_column {i : Nat} (h : i % 4096 ≠ col % 4096) :
    Sparse.get 0 i (a.rowEntered p k col ws sw bad).acc = Sparse.get 0 i a.acc :=
  ArraySt.acc_enterRows_of_ne p k col ws sw a fun x _ _ he => h (by omega)

/-- A row's entry takes its sum, and its slot is marked if that saturated. -/
theorem ArraySt.rowEntered_at {r : Nat} (hr : r < 128) (hoff : k.strOff r = false) :
    let b := a.rowEntered p k col ws sw bad
    let q := rowEntry p k r (Sparse.get 0 (4096 * r + col) a.acc) ws sw
    Sparse.get 0 (4096 * r + col) b.acc = q.1 ∧ (q.2 = true → col / 128 ∈ b.sat) :=
  ArraySt.enterRows_at p k col ws sw a List.nodup_range (List.mem_range.mpr hr) hoff

theorem ArraySt.sat_rowEntered_of_float (h : isIntFmt p.fmt = false) : (a.rowEntered p k col ws sw bad).sat = a.sat :=
  ArraySt.sat_enterRows_of_float p k col ws sw h a _

/-- What the errors of this span have been recorded for bears on no sum. -/
theorem ArraySt.rowEntered_ceNoted (l : List Nat) :
    ({ a with ceNoted := l } : ArraySt).rowEntered p k col ws sw bad = { a.rowEntered p k col ws sw bad with ceNoted := l } := by
  have hrows (l' : List Nat) : ({ a with ceNoted := l } : ArraySt).enterRows p k col ws sw l' = { a.enterRows p k col ws sw l' with ceNoted := l } := by
    induction l' generalizing a with
    | nil => rfl
    | cons r l' ih =>
      have hrow : ({ a with ceNoted := l } : ArraySt).enterRow p k col ws sw r = { a.enterRow p k col ws sw r with ceNoted := l } := by
        unfold ArraySt.enterRow
        split <;> rfl
      rw [ArraySt.enterRows_cons, hrow, ih]
      rfl
  rw [ArraySt.rowEntered, ArraySt.addColumn_eq, hrows]
  rfl

end

theorem rowEntry_of_float {p : Plane} (h : isIntFmt p.fmt = false) (k : Cmd) (r old : Nat) (ws sw : List Num) :
    (rowEntry p k r old ws sw).1 = accFloat old (dotFloat (if k.strScales = 2 then 16 else 32) ((p.row r).map (decodeNum p.fmt)) ws sw
      ((p.scales.getD r []).map (decodeNum Fmt.E8M0))) := by
  simp only [rowEntry, h, Bool.false_eq_true, if_false]

/-! ## ROW_ISSUE by what its accumulator or plane has met (R113) -/

/-- A row of the stream read, and taken or waited for. -/
def State.rowReads (s : State) (d : Die) (c : Cx) (m : Fin 8) (f : Flight) : State :=
  match State.arrayRead d c m f.slot (streamPort m) (f.cmd.strRow f.prog) (rowBytes f.cmd.strFmt) s with
  | (none, s1) => s1.maStall d m
  | (some (bs, bad), s1) =>
    let (sc, s2) := if f.cmd.strScales = 0 then (some ([], false), s1)
      else State.arrayRead d c m f.slot (scalePort m) (f.cmd.strScale f.prog) f.cmd.strScaleBytes s1
    match sc with
    | none => s2.maStall d m
    | some (ss, bad') => s2.rowTake d c m f bs ss (bad || bad')

/-- The row reads entries of a slot that a stream has updated: those are checked (R113). -/
def State.RowHits (s : State) (d : Die) (m : Fin 8) (f : Flight) (i : Nat) : Prop :=
  i = (f.cmd.strCol + f.prog) / 128 ∧ (s.arr d m).updated ((f.cmd.strCol + f.prog) / 128) = true

section
variable {s : State} {d : Die} {c : Cx} {m : Fin 8} {f : Flight} (hfront : s.arrayFront d m 3 = some (c, f)) (hrun : f.phase = .running)

theorem State.rowHits_iff (i : Nat) : (i == (f.cmd.strCol + f.prog) / 128 && (s.arr d m).updated i) = true ↔ s.RowHits d m f i := by
  rw [Bool.and_eq_true, beq_iff_eq, State.RowHits]
  constructor
  · rintro ⟨rfl, h⟩
    exact ⟨rfl, h⟩
  · rintro ⟨rfl, h⟩
    exact ⟨rfl, h⟩

include hfront hrun

theorem rowIssue_of_none : rowIssue d m .none s = s.rowReads d c m f := by
  simp only [rowIssue, hfront, hrun]
  rfl

theorem rowIssue_of_ce {i : Fin 32} (h : s.RowHits d m f i) : rowIssue d m (.accCorrectable i) s = (s.accCe d m i).rowReads d c m f := by
  have hhit := (s.rowHits_iff i).mpr h
  simp only [rowIssue, hfront, hrun, hhit]
  rfl

theorem rowIssue_of_ce_apart {i : Fin 32} (h : ¬ s.RowHits d m f i) : rowIssue d m (.accCorrectable i) s = s.rowReads d c m f := by
  have hhit := Bool.eq_false_iff.mpr (mt (s.rowHits_iff i).mp h)
  simp only [rowIssue, hfront, hrun, hhit]
  rfl

theorem rowIssue_of_ue {i : Fin 32} (h : s.RowHits d m f i) : rowIssue d m (.accUncorrectable i) s = (s.engFault d c f Ma.ACC_ECC 0).maShow d m := by
  have hhit := (s.rowHits_iff i).mpr h
  simp only [rowIssue, hfront, hrun, hhit]
  rfl

theorem rowIssue_of_ue_apart {i : Fin 32} (h : ¬ s.RowHits d m f i) : rowIssue d m (.accUncorrectable i) s = s.rowReads d c m f := by
  have hhit := Bool.eq_false_iff.mpr (mt (s.rowHits_iff i).mp h)
  simp only [rowIssue, hfront, hrun, hhit]
  rfl

theorem rowIssue_of_plane : rowIssue d m .planeUncorrectable s =
    ((s.setArr d m ((s.arr d m).setPlane (s.maActive d m) {})).engFault d c f Ma.PLANE_ECC 0).maShow d m := by
  simp only [rowIssue, hfront, hrun]
  rfl

end

/-- What a row finds at once of its scales. -/
def State.nearScales (s : State) (d : Die) (c : Cx) (m : Fin 8) (f : Flight) : Option (List Byte × Bool) :=
  if f.cmd.strScales = 0 then some ([], false)
  else s.nearRun d c f.inst (arrayStream m 2) (f.cmd.strScale f.prog) f.cmd.strScaleBytes

/-- A row found at once with its scales is taken as it is found. -/
theorem State.rowReads_of_near {s : State} {d : Die} {c : Cx} {m : Fin 8} {f : Flight} {x y : List Byte × Bool} (hf : (s.cx d c).flight f.slot = some f)
    (hcrc : s.flag (R.MA_CFG d m) F.MA_CFG.CRC_CHECK = false)
    (hx : s.nearRun d c f.inst (arrayStream m 1) (f.cmd.strRow f.prog) (rowBytes f.cmd.strFmt) = some x) (hy : s.nearScales d c m f = some y) :
    s.rowReads d c m f = s.rowTake d c m f x.1 y.1 (x.2 || y.2) := by
  have hrow := State.arrayRead_of_near (p := streamPort m) ⟨rfl, rfl⟩ hf hcrc hx
  unfold State.nearScales at hy
  unfold State.rowReads
  rw [hrow]
  split at hy
  · rename_i hnone
    cases hy
    simp only [hnone, if_true]
  · rename_i hsome
    have hscale := State.arrayRead_of_near (p := scalePort m) ⟨rfl, rfl⟩ hf hcrc hy
    simp only [hsome, if_false, hscale]

/-! ## A correctable error (R113) -/

section
variable (s : State) (d : Die) (c : Cx) (m : Fin 8) {i : Nat}

theorem State.accCe_of_noted (h : i ∈ (s.arr d m).ceNoted) : s.accCe d m i = s := by
  simp [State.accCe, h]

theorem State.accCe_of_new (h : i ∉ (s.arr d m).ceNoted) : s.accCe d m i =
    (s.setArr d m { s.arr d m with ceNoted := i :: (s.arr d m).ceNoted }).raise
      { status := St.ACC_CE, sev := Sev.CORRECTED, kind := Uk.ARRAY, die := d.val, index := m.val, arg0 := BitVec.ofNat 64 i } := by
  simp [State.accCe, h]

theorem State.accCe_frame (i : Nat) : s.accCe d m i = { s with arrays := (s.accCe d m i).arrays, faults := (s.accCe d m i).faults } := by
  by_cases h : i ∈ (s.arr d m).ceNoted
  · rw [s.accCe_of_noted d m h]
  · rw [s.accCe_of_new d m h]
    rfl

theorem State.nearRun_accCe (i : Nat) (inst : Option (Nat × Nat)) (stream va n : Nat) :
    (s.accCe d m i).nearRun d c inst stream va n = s.nearRun d c inst stream va n := by
  rw [s.accCe_frame d m i]
  rfl

theorem State.arr_accCe_of_new (h : i ∉ (s.arr d m).ceNoted) : (s.accCe d m i).arr d m = { s.arr d m with ceNoted := i :: (s.arr d m).ceNoted } := by
  rw [s.accCe_of_new d m h]
  exact s.arr_setArr d m _

theorem State.arrRowed_accCe (h : i ∉ (s.arr d m).ceNoted) (f : Flight) (bs ss : List Byte) (bad : Bool) :
    (s.accCe d m i).arrRowed d m f bs ss bad = { s.arrRowed d m f bs ss bad with ceNoted := i :: (s.arr d m).ceNoted } := by
  have hact : (s.accCe d m i).maActive d m = s.maActive d m := by
    rw [s.accCe_frame d m i]
    rfl
  unfold State.arrRowed
  rw [s.arr_accCe_of_new d m h, hact]
  exact ArraySt.rowEntered_ceNoted _ _ _ _ _ _ _ _

end

/-! ## An uncorrectable error (R113, R131) -/

theorem faultRegs_array (d : Nat) (m : Fin 8) : faultRegs d m = (R.MA_FAULT d m, R.MA_FAULT_ADDR d m) := if_pos m.isLt

/-- The stream of an array stops with a fault of its engine, and its registers show what it holds. -/
theorem State.engFault_shown (s : State) (d : Die) (c : Cx) (m : Fin 8) {f : Flight} {code : Nat} (hf : f.cmd.engine = m.val) (hcode : code < 256) :
    let t := (s.engFault d c f code 0).maShow d m
    FlightBy d c f.slot (stopped code 0) s t ∧ FaultTold d m.val c.val f.slot code 0 s t ∧ t.arrays = s.arrays ∧
      ArrayOnly d m [R.MA_FAULT d m, R.MA_FAULT_ADDR d m, R.MA_STATUS d m] s t := by
  intro t
  obtain ⟨hflight, htold, hregs⟩ := s.engFault_told d c f code 0 hf hcode
  have hshow : RegsBut [engStatus d m] (s.engFault d c f code 0) t := engStatus_array d m ▸ State.regsBut_maShow _ d m
  rw [faultRegs_array] at hregs
  have honly : ArrayOnly d m [R.MA_FAULT d m, R.MA_FAULT_ADDR d m, R.MA_STATUS d m] s (s.engFault d c f code 0) :=
    .of_enginesOnly (hregs.mono (by simp)) (.of_arrays (s.engFault_arrays d c f code 0)) (.of_faults (s.engFault_faults d c f code 0))
      ((EnginesOnly.refl s).engFault d c f code 0) (s.engFault_eng d c f code 0)
  exact ⟨hflight.of_cxs (State.maShow_cxs _ d m), htold.of_status hshow,
    ((State.regsOnly_maShow _ d m).arrays).trans (s.engFault_arrays d c f code 0), honly.maShow (by simp)⟩

/-- A plane emptied is shown as not valid. -/
theorem ArraySt.valid_setPlane_empty (a : ArraySt) (i : Nat) : (i = 0 → (a.setPlane i {}).p0.valid = false) ∧ (i ≠ 0 → (a.setPlane i {}).p1.valid = false) := by
  refine ⟨fun h => ?_, fun h => ?_⟩
  · rw [ArraySt.setPlane, if_pos h]
  · rw [ArraySt.setPlane, if_neg h]

/-- An uncorrectable error of the active plane empties it (R113). -/
theorem State.planeFault_shown (s : State) (d : Die) (c : Cx) (m : Fin 8) {f : Flight} (hf : f.cmd.engine = m.val) :
    let act := s.maActive d m
    let t := ((s.setArr d m ((s.arr d m).setPlane act {})).engFault d c f Ma.PLANE_ECC 0).maShow d m
    FlightBy d c f.slot (stopped Ma.PLANE_ECC 0) s t ∧ FaultTold d m.val c.val f.slot Ma.PLANE_ECC 0 s t ∧ t.arr d m = (s.arr d m).setPlane act {} ∧
      t.fld (R.MA_STATUS d m) (if act = 0 then F.MA_STATUS.P0_VALID else F.MA_STATUS.P1_VALID) = 0 ∧
      ArrayOnly d m [R.MA_FAULT d m, R.MA_FAULT_ADDR d m, R.MA_STATUS d m] s t := by
  intro act t
  set s1 := s.setArr d m ((s.arr d m).setPlane act {})
  have harr1 : s1.arr d m = (s.arr d m).setPlane act {} := s.arr_setArr d m _
  obtain ⟨hflight, htold, harrays, honly⟩ := s1.engFault_shown d c m hf (code := Ma.PLANE_ECC) (by decide)
  have hold : (s1.engFault d c f Ma.PLANE_ECC 0).arr d m = (s.arr d m).setPlane act {} := by
    rw [State.arr, s1.engFault_arrays, ← harr1, State.arr]
  refine ⟨hflight.from_cxs rfl, htold, ?_, ?_, ((ArrayOnly.refl d m _ s).setArr _).trans honly⟩
  · rw [State.arr, harrays, ← harr1, State.arr]
  · obtain ⟨h0, h1⟩ := (s1.engFault d c f Ma.PLANE_ECC 0).valid_maShow d m
    obtain ⟨he0, he1⟩ := (s.arr d m).valid_setPlane_empty act
    rw [hold] at h0 h1
    split_ifs with hact
    · rw [h0, he0 hact]
      rfl
    · rw [h1, he1 hact]
      rfl

end Sys2Proof.Machine
end

section
/-!
Rows of a STREAM, rime rows and ballast (04_arrays.md, 18_power.md): O43.
-/

namespace Sys2Proof.Machine

/-! ## A row under the error correction of its accumulator (R113) -/

section
variable {s : State} {d : Die} {c : Cx} {m : Fin 8} {f : Flight} {x y : List Byte × Bool} (hf : (s.cx d c).flight f.slot = some f)
  (hcrc : s.flag (R.MA_CFG d m) F.MA_CFG.CRC_CHECK = false)
  (hx : s.nearRun d c f.inst (arrayStream m 1) (f.cmd.strRow f.prog) (rowBytes f.cmd.strFmt) = some x) (hy : s.nearScales d c m f = some y)
include hf hcrc hx hy

theorem State.rowReads_accCe (i : Nat) :
    (s.accCe d m i).rowReads d c m f = (s.accCe d m i).rowTake d c m f x.1 y.1 (x.2 || y.2) := by
  have hframe := s.accCe_frame d m i
  refine State.rowReads_of_near ?_ ?_ ((s.nearRun_accCe d c m i _ _ _ _).trans hx) ?_
  · rw [hframe]
    exact hf
  · rw [hframe]
    exact hcrc
  · unfold State.nearScales at hy ⊢
    rwa [State.nearRun_accCe]

/-- A correctable error, first of its slot this span, is recorded before the row, which is taken all the same. -/
theorem State.rowReads_accCe_of_new {i : Nat} (hi : i ∉ (s.arr d m).ceNoted) :
    let t := s.rowTake d c m f x.1 y.1 (x.2 || y.2)
    let u := (s.accCe d m i).rowReads d c m f
    u.cxs = t.cxs ∧ u.arr d m = { t.arr d m with ceNoted := i :: (s.arr d m).ceNoted } ∧
      ((u.faults.raised.drop s.faults.raised.length).head?.map fun z => (z.status, z.sev, z.kind, z.die, z.index, z.arg0)) =
        some (St.ACC_CE, Sev.CORRECTED, Uk.ARRAY, d.val, m.val, BitVec.ofNat 64 i) := by
  intro t u
  have hu : u = (s.accCe d m i).rowTake d c m f x.1 y.1 (x.2 || y.2) := State.rowReads_accCe hf hcrc hx hy i
  have hcxs : (s.accCe d m i).cxs = s.cxs := by rw [s.accCe_frame d m i]
  obtain ⟨harr, -⟩ := s.rowTake_frame d c m f x.1 y.1 (x.2 || y.2)
  obtain ⟨harr', -, -, -, -, -, -, hwraps, -⟩ := (s.accCe d m i).rowTake_frame d c m f x.1 y.1 (x.2 || y.2)
  refine ⟨hu ▸ State.rowTake_cxs_congr d c m f _ _ _ hcxs, ?_, ?_⟩
  · rw [hu, harr', s.arrRowed_accCe d m hi, ← harr]
  · obtain ⟨l, hl, -⟩ := onlyWraps_iff.mp hwraps
    rw [hu, hl, s.accCe_of_new d m hi, State.raise, List.append_assoc]
    dsimp only
    rw [State.setArr_faults, List.drop_left]
    rfl

end

/-! ## The sums, by the formats of the plane and the weights (R107, R108) -/

theorem ArraySt.rowEntered_int (a : ArraySt) {p : Plane} {k : Cmd} (hp : p.fmt ∈ [Fmt.INT8, Fmt.INT16])
    (hk : k.strFmt ∈ [Fmt.INT4, Fmt.INT8, Fmt.INT16, Fmt.T5]) (col : Nat) (bs : List Byte) (sw : List Num) (bad : Bool) {r : Nat} (hr : r < 128)
    (hoff : k.strOff r = false) :
    let b := a.rowEntered p k col (readNums k.strFmt 128 bs).1 sw bad
    let sum := (BitVec.ofNat 32 (Sparse.get 0 (4096 * r + col) a.acc)).toInt +
      (List.zipWith (fun u y => (BitVec.ofNat (fmtBits p.fmt) u).toInt * y) (p.row r) (intWeights k.strFmt bs)).sum
    (BitVec.ofNat 32 (Sparse.get 0 (4096 * r + col) b.acc)).toInt = max (-(2 ^ 31)) (min (2 ^ 31 - 1) sum) ∧
      ((sum < -(2 ^ 31) ∨ 2 ^ 31 ≤ sum) → col / 128 ∈ b.sat) := by
  obtain ⟨hacc, hsat⟩ := a.rowEntered_at p k col (readNums k.strFmt 128 bs).1 sw bad hr hoff
  rw [rowEntry_of_int hp hk] at hacc hsat
  exact ⟨by rw [hacc, toInt_accInt], fun hout => hsat (accInt_saturated hout)⟩

theorem ArraySt.rowEntered_float (a : ArraySt) {p : Plane} (hp : isIntFmt p.fmt = false) (k : Cmd) (col : Nat) (ws sw : List Num) (bad : Bool) :
    (a.rowEntered p k col ws sw bad).sat = a.sat ∧ ∀ r < 128, k.strOff r = false →
      Sparse.get 0 (4096 * r + col) (a.rowEntered p k col ws sw bad).acc = accFloat (Sparse.get 0 (4096 * r + col) a.acc)
        (dotFloat (if k.strScales = 2 then 16 else 32) ((p.row r).map (decodeNum p.fmt)) ws sw ((p.scales.getD r []).map (decodeNum Fmt.E8M0))) := by
  refine ⟨a.sat_rowEntered_of_float p k col ws sw bad hp, fun r hr hoff => ?_⟩
  obtain ⟨hacc, -⟩ := a.rowEntered_at p k col ws sw bad hr hoff
  rw [hacc, rowEntry_of_float hp]

/-! ## Rime rows and ballast (R126, R127, R484) -/

theorem rimeRow_rules {s : State} (d : Die) (m : Fin 8) (hon : s.On) :
    let a := s.arr d m
    let p := a.plane (s.maActive d m)
    let may := s.engIn d m.val = true ∧ s.rimeAsked d = true ∧ s.flag (R.MA_CFG d m) F.MA_CFG.RIME_ALLOW = true ∧ p.valid = true ∧ p.taken = true ∧
      a.rimeRun < 256
    (may → Answers (.rimeRow d m) s fun t => t.arr d m = { a with rimeRun := a.rimeRun + 1 } ∧
      t.fld (R.MA_CYC_RIME d m) F.CTR.COUNT = (s.fld (R.MA_CYC_RIME d m) F.CTR.COUNT + 1) % 2 ^ 48 ∧
      t.fld (R.MA_STATUS d m) F.MA_STATUS.RIME = 1 ∧ t.cxs = s.cxs ∧ ArrayOnly d m [R.MA_CYC_RIME d m, R.MA_STATUS d m] s t) ∧
    (¬ may → exec (.rimeRow d m) s = .next s) := by
  intro a p may
  have hmay : s.rimeMay d m = true ↔ may := by
    simp only [State.rimeMay, Bool.and_eq_true, decide_eq_true_eq, and_assoc]
    exact Iff.rfl
  have hexec : exec (.rimeRow d m) s = .next (rimeRow d m s) := State.whileOn_on _ hon
  have hne : R.MA_CYC_RIME d m ≠ R.MA_STATUS d m := by
    unfold R.MA_CYC_RIME R.MA_STATUS
    omega
  refine ⟨fun h => ?_, fun h => ?_⟩
  · rw [rimeRow, if_pos (hmay.mpr h)] at hexec
    refine .of hexec ⟨?_, (State.fld_setFld_of_ne _ _ _ _ hne).trans (State.fld_count _ _ _),
      State.fld_setFld_of_le _ _ _ (by decide) (by decide), State.count_cxs _ _ _, ?_⟩
    · rw [State.arr, State.setFld_arrays, State.count_arrays]
      exact s.arr_setArr d m _
    · exact (((ArrayOnly.refl d m _ s).setArr _).count 1 (by simp)).setFld _ _ (by simp)
  · rw [hexec, rimeRow, if_neg (mt hmay.mp h)]

theorem ballastRow_rules {s : State} (d : Die) (u : Fin 16) (hon : s.On) :
    let may := s.flag R.LS_CFG F.LS_CFG.EN = true ∧ s.flag R.LS_CFG F.LS_CFG.BALLAST_EN = true ∧ s.power.below = true ∧ s.dieIn d = true ∧
      s.ballastFree d u = true ∧ d.val ∉ s.power.doze ∧ s.fld R.PWR_REST_STATUS F.PWR_REST_STATUS.STATE = 0
    (may → Answers (.ballastRow d u) s fun t => t.fld (R.PWR_D_BALLAST d) F.CTR.COUNT = (s.fld (R.PWR_D_BALLAST d) F.CTR.COUNT + 1) % 2 ^ 48 ∧
      t.fld R.LS_STATUS F.LS_STATUS.BALLAST_NOW = 1 ∧ RegsBut [R.PWR_D_BALLAST d, R.LS_STATUS] s t ∧ OnlyWraps s t ∧
      t = { s with regs := t.regs, faults := t.faults }) ∧
    (¬ may → exec (.ballastRow d u) s = .next s) := by
  intro may
  have hexec : exec (.ballastRow d u) s = .next (ballastRow d u s) := State.whileOn_on _ hon
  have hne : R.PWR_D_BALLAST d ≠ R.LS_STATUS := by
    unfold R.PWR_D_BALLAST R.dieBase R.LS_STATUS
    omega
  have hmay : (s.flag R.LS_CFG F.LS_CFG.EN && s.flag R.LS_CFG F.LS_CFG.BALLAST_EN && s.power.below && s.dieIn d && s.ballastFree d u &&
      !s.power.doze.contains d.val && s.fld R.PWR_REST_STATUS F.PWR_REST_STATUS.STATE == 0) = true ↔ may := by
    simp only [Bool.and_eq_true, Bool.not_eq_true', List.contains_eq_mem, decide_eq_false_iff_not, beq_iff_eq, and_assoc]
    exact Iff.rfl
  refine ⟨fun h => ?_, fun h => ?_⟩
  · rw [ballastRow, if_pos (hmay.mpr h)] at hexec
    refine .of hexec ⟨(State.fld_setFld_of_ne _ _ _ _ hne).trans (State.fld_count _ _ _), State.fld_setFld_of_le _ _ _ (by decide) (by decide),
      ((RegsBut.refl _ s).count 1 (by simp)).setFld _ _ (by simp), ((OnlyWraps.of_faults rfl).count _ 1).congr rfl, ?_⟩
    rw [State.count_frame]
    rfl
  · rw [hexec, ballastRow, if_neg (mt hmay.mp h)]

/-! ## ROW_ISSUE -/

theorem State.arrayFront_of_front {s : State} {d : Die} {m : Fin 8} {c : Cx} {f : Flight} {op : Nat} (h : s.front d m = some (c, f))
    (hop : f.cmd.isArray op = true) : s.arrayFront d m op = some (c, f) := by
  simp only [State.arrayFront, h, hop, if_true]

theorem State.nearScales_eq {s : State} {d : Die} {c : Cx} {m : Fin 8} {f : Flight}
    (h : f.cmd.strScales ≠ 0 → (s.nearRun d c f.inst (arrayStream m 2) (f.cmd.strScale f.prog) f.cmd.strScaleBytes).isSome = true) :
    s.nearScales d c m f = some (if f.cmd.strScales = 0 then ([], false)
      else (s.nearRun d c f.inst (arrayStream m 2) (f.cmd.strScale f.prog) f.cmd.strScaleBytes).getD ([], false)) := by
  unfold State.nearScales
  split_ifs with h0
  · rfl
  · obtain ⟨y, hy⟩ := Option.isSome_iff_exists.mp (h h0)
    rw [hy]
    rfl

/-- Settles O43: a row found at once is taken as `State.rowTake` takes it, whose sums are those of `ArraySt.rowEntered`; a correctable error is
recorded before it, and an uncorrectable one ends the stream instead. -/
theorem arrayRows : Obligations.ArrayRows := by
  unfold Obligations.ArrayRows
  refine ⟨fun s d m c f hon hfr hen hop hrun hfl => ?_, fun s d m hon => rimeRow_rules d m hon, fun s d u hon => ballastRow_rules d u hon⟩
  intro a k act p col slot st hit row scale
  have hfront := State.arrayFront_of_front hfr hop
  have hexec (e : ArrayEcc) : exec (.rowIssue d m e) s = .next (rowIssue d m e s) := State.whileOn_on _ hon
  refine ⟨fun hcrc x hx hsc => ?_, fun i hi hhit => ?_, ?_⟩
  · intro ss bad
    have hy : s.nearScales d c m f = some ss := State.nearScales_eq hsc
    have hreads : s.rowReads d c m f = s.rowTake d c m f x.1 ss.1 (x.2 || ss.2) := State.rowReads_of_near hfl hcrc hx hy
    obtain ⟨harr, hrows, hrime, hlast, hnext, honly⟩ := s.rowTake_frame d c m f x.1 ss.1 (x.2 || ss.2)
    refine .of (hexec .none) ?_
    rw [rowIssue_of_none hfront hrun, hreads]
    intro b wts
    have hb : b = a.rowEntered p k col (readNums k.strFmt 128 x.1).1 (k.strFactors ss.1) bad := harr
    rw [hb]
    refine ⟨fun r _ hoff => a.acc_rowEntered_of_off p k col _ _ bad hoff, fun i hi => a.acc_rowEntered_of_column p k col _ _ bad hi,
      fun _ hp hk r hr hoff => a.rowEntered_int hp hk col x.1 _ bad hr hoff, fun _ hp => a.rowEntered_float hp k col _ _ bad,
      a.poison_rowEntered p k col _ _ bad, a.rowEntered_frame p k col _ _ bad, hrows, hrime, hlast, hnext, honly, fun i => ?_, fun i hi => ?_⟩
    · refine .of (hexec (.accCorrectable i)) ?_
      by_cases hhit : s.RowHits d m f i
      · rw [rowIssue_of_ce hfront hrun hhit]
        by_cases hnew : i.val ∈ a.ceNoted
        · rw [s.accCe_of_noted d m hnew, hreads]
          exact ⟨congrArg ArraySt.acc hb, rfl, fun _ _ h => absurd hnew h, fun _ => rfl⟩
        · obtain ⟨hcxs, harr', hraised⟩ := State.rowReads_accCe_of_new hfl hcrc hx hy hnew
          rw [show State.arr _ _ _ = b from rfl, hb] at harr'
          exact ⟨by rw [harr'], hcxs, fun _ _ _ => ⟨harr', hraised⟩, fun h => absurd ⟨hhit.1, hhit.2, hnew⟩ h⟩
      · rw [rowIssue_of_ce_apart hfront hrun hhit, hreads]
        exact ⟨congrArg ArraySt.acc hb, rfl, fun h1 h2 => absurd ⟨h1, h2⟩ hhit, fun _ => rfl⟩
    · refine .of (hexec (.accUncorrectable i)) ?_
      rw [rowIssue_of_ue_apart hfront hrun hi, hreads]
  · refine .of (hexec (.accUncorrectable i)) ?_
    rw [rowIssue_of_ue hfront hrun ⟨hi, hhit⟩]
    exact s.engFault_shown d c m hen (by decide)
  · refine .of (hexec .planeUncorrectable) ?_
    rw [rowIssue_of_plane hfront hrun]
    exact s.planeFault_shown d c m hen

end Sys2Proof.Machine
end

section
/-!
Elements of the vector engines (05_formats.md, 06_spine_vector.md): blocks of a stream, how many results and bytes it gives, and the
integer results.
-/

namespace Sys2Proof.Machine

/-! ## Blocks of a list (R169) -/

/-- The first `n` pieces of `b` elements, one after the other, are the list's first `n * b`. -/
theorem flatMap_pieces {α : Type} (b : Nat) (xs : List α) (n : Nat) :
    ((List.range n).flatMap fun i => (xs.drop (i * b)).take b) = xs.take (n * b) := by
  induction n with
  | zero => simp
  | succ n ih => rw [List.range_succ, List.flatMap_append, ih, List.flatMap_singleton, Nat.succ_mul, List.take_add]

theorem length_blocksOf {α : Type} (b : Nat) (xs : List α) : (blocksOf b xs).length = (xs.length + b - 1) / b := by
  rw [blocksOf, List.length_map, List.length_range]

/-- The blocks, one after the other, are the list. -/
theorem flatten_blocksOf {α : Type} {b : Nat} (hb : 0 < b) (xs : List α) : (blocksOf b xs).flatten = xs := by
  have hall : xs.length ≤ (xs.length + b - 1) / b * b := by
    have := Nat.div_add_mod (xs.length + b - 1) b
    have := Nat.mod_lt (xs.length + b - 1) hb
    rw [Nat.mul_comm]
    omega
  rw [blocksOf, ← List.flatMap_def, flatMap_pieces, List.take_of_length_le hall]

/-- A list no longer than a block is one block. -/
theorem blocksOf_length {α : Type} {xs : List α} (h : 0 < xs.length) : blocksOf xs.length xs = [xs] := by
  have hone : (xs.length + xs.length - 1) / xs.length = 1 := Nat.div_eq_of_lt_le (by omega) (by omega)
  rw [blocksOf, hone]
  simp

/-- What each block gives, as many elements as it has, is as long as the whole. -/
theorem length_flatMap_blocksOf {α β : Type} {b : Nat} (hb : 0 < b) (xs : List α) {g : List α → List β} (hg : ∀ x, (g x).length = x.length) :
    ((blocksOf b xs).flatMap g).length = xs.length := by
  conv_rhs => rw [← flatten_blocksOf hb xs]
  rw [List.length_flatMap, List.length_flatten]
  simp only [hg]

/-- The same with a second list that has one entry for each block. -/
theorem length_zipWith_flatMap {α β γ δ : Type} {g : δ → List α → γ} {out : γ → List β} (hg : ∀ y x, (out (g y x)).length = x.length)
    {l : List (List α)} {ys : List δ} (hl : ys.length = l.length) : ((List.zipWith g ys l).flatMap out).length = l.flatten.length := by
  induction l generalizing ys with
  | nil => simp
  | cons x l ih =>
    obtain ⟨y, ys, rfl⟩ := List.exists_cons_of_length_eq_add_one hl
    rw [List.zipWith_cons_cons, List.flatMap_cons, List.length_append, hg, ih (Nat.succ.inj hl), List.flatten_cons, List.length_append]

/-! ## How many elements a conversion gives (R155, R156) -/

theorem length_autoBlock (dst mode : Nat) (ue : Bool) (xs : List Num) : (autoBlock dst mode ue xs).2.1.length = xs.length := by
  unfold autoBlock
  extract_lets zeros
  have hzeros : zeros.length = xs.length := List.length_map _
  split
  · exact hzeros
  split
  · exact hzeros
  split
  split
  · split
    · exact hzeros
    · dsimp only
      split
      · simp
      · exact hzeros
  · simp

theorem length_givenBlock (dst mode : Nat) (ue : Bool) (sc : Nat) (xs : List Num) : (givenBlock dst mode ue sc xs).1.length = xs.length := by
  unfold givenBlock
  split
  · split_ifs <;> simp
  · simp

/-- A conversion gives an element for each value, and AUTO a scale for each block. -/
theorem length_quantise (dfmt mode qmode : Nat) (sat ue fromInt : Bool) {given : List Nat} {xs : List Num}
    (hgiven : qmode = 2 → given.length = (blocksOf (if ue then 16 else 32) xs).length) :
    let q := quantise dfmt mode qmode sat ue fromInt given xs
    q.1.length = xs.length ∧ (qmode = 1 → q.2.1.length = (blocksOf (if ue then 16 else 32) xs).length) := by
  have hb : 0 < if ue then 16 else 32 := by split <;> decide
  unfold quantise
  dsimp only
  by_cases h1 : qmode = 1
  · simp only [h1, if_true, List.flatMap_map, List.length_map, implies_true, and_true]
    exact length_flatMap_blocksOf hb xs fun x => length_autoBlock dfmt mode ue x
  · refine ⟨?_, fun h => absurd h h1⟩
    by_cases h2 : qmode = 2
    · simp only [if_neg h1, if_pos h2]
      rw [length_zipWith_flatMap (fun _ _ => length_givenBlock _ _ _ _ _) (hgiven h2), flatten_blocksOf hb]
    · simp [h1, h2]

/-! ## How many results a stream gives (R170, R175, R176) -/

section
variable (k : Cmd) {n : Nat} {as_ : List Num} (ha : as_.length = n) (bs cs : List Num)
include ha

theorem Cmd.length_intResults : (k.intResults n as_ bs cs).length = k.results n := by
  unfold Cmd.intResults Cmd.results
  split
  · rw [List.length_map, length_blocksOf, ha]
  · rw [List.length_map, List.length_range]

theorem Cmd.length_floatResults : (k.floatResults n as_ bs cs).length = k.results n := by
  unfold Cmd.floatResults Cmd.results
  split
  · rw [List.length_map, length_blocksOf, ha]
  · rw [List.length_map, List.length_range]

/-- A stream gives an element for each result, and under AUTO no more scales than there are blocks. -/
theorem Cmd.length_compute {given : List Nat} (hgiven : k.veQmode = 2 → given.length = (k.results n + k.blockLen - 1) / k.blockLen) :
    (k.compute n as_ bs cs given).1.length = k.results n ∧
      (k.veQmode = 1 → (k.compute n as_ bs cs given).2.1.length ≤ (k.results n + k.blockLen - 1) / k.blockLen) := by
  have hquant (fromInt : Bool) {xs : List Num} (hxs : xs.length = k.results n) :
      let q := quantise k.veDfmt k.veRmode k.veQmode k.veSat k.veUe fromInt given xs
      q.1.length = k.results n ∧ (k.veQmode = 1 → q.2.1.length = (k.results n + k.blockLen - 1) / k.blockLen) := by
    have hblocks : (blocksOf (if k.veUe then 16 else 32) xs).length = (k.results n + k.blockLen - 1) / k.blockLen := by
      rw [length_blocksOf, hxs]
      rfl
    rw [← hblocks] at hgiven ⊢
    rw [← hxs]
    exact length_quantise _ _ _ _ _ _ hgiven
  unfold Cmd.compute
  split_ifs with hcvt hint
  · have hall : as_.length = k.results n := by
      rw [ha, Cmd.results, hcvt]
      rfl
    obtain ⟨hcodes, hscales⟩ := hquant (isIntFmt k.veAfmt) hall
    exact ⟨hcodes, fun h => (hscales h).le⟩
  · simp [k.length_intResults ha bs cs]
  · obtain ⟨hcodes, hscales⟩ := hquant false ((List.length_map _).trans (k.length_floatResults ha bs cs))
    exact ⟨hcodes, fun h => (hscales h).le⟩

end

/-! ## Bytes of packed elements (R148, R150) -/

theorem length_leBytes (n v : Nat) : (leBytes n v).length = n := by rw [leBytes, List.length_map, List.length_range]

/-- Chunk `j` of T5 elements: 26 bytes if it is whole, else a byte for each five elements begun. -/
theorem length_t5Chunk (ds : List Nat) (j : Nat) :
    ((blocksOf 5 ((ds.drop (j * 128)).take 128)).map t5Byte).length = (min 128 (ds.length - j * 128) + 4) / 5 := by
  rw [List.length_map, length_blocksOf, List.length_take, List.length_drop, Nat.add_sub_assoc (by decide)]

theorem length_packT5 (ds : List Nat) : (packT5 ds).length = fmtBytes Fmt.T5 ds.length := by
  have hwhole (q : Nat) (hq : q ≤ ds.length / 128) :
      ((List.range q).map fun j => (min 128 (ds.length - j * 128) + 4) / 5).sum = q * 26 := by
    have hconst : ∀ j ∈ List.range q, (min 128 (ds.length - j * 128) + 4) / 5 = 26 := fun j hj => by
      have := List.mem_range.mp hj
      omega
    rw [List.map_congr_left hconst, List.map_const', List.sum_replicate, List.length_range, smul_eq_mul]
  rw [packT5, blocksOf, List.flatMap_map, List.length_flatMap]
  simp only [length_t5Chunk]
  rw [fmtBytes, if_pos rfl]
  by_cases hrest : ds.length % 128 = 0
  · rw [show (ds.length + 128 - 1) / 128 = ds.length / 128 by omega, hwhole _ le_rfl]
    omega
  · rw [show (ds.length + 128 - 1) / 128 = ds.length / 128 + 1 by omega, List.range_succ, List.map_append, List.sum_append, hwhole _ le_rfl]
    simp only [List.map_singleton, List.sum_singleton]
    omega

/-- Packed elements fill the bytes their format gives them. -/
theorem length_packElems (f : Nat) (cs : List Nat) : (packElems f cs).length = fmtBytes f cs.length := by
  unfold packElems
  split_ifs with ht
  · rw [ht, length_packT5]
  · rw [packBits, length_leBytes, fmtBytes, if_neg ht]

theorem length_readNums (f n : Nat) (bs : List Byte) : (readNums f n bs).1.length = n := by
  unfold readNums
  split_ifs <;> simp [unpackBits]

/-! ## Integer results (R158, R171, R176) -/

/-- A code holds the exact integer, or the end of its format that lies beyond it. -/
theorem toInt_satW {bits : Nat} (hb : 0 < bits) (i : Int) :
    (BitVec.ofNat bits (satW bits i).1).toInt = max (-(2 ^ (bits - 1))) (min (2 ^ (bits - 1) - 1) i) := by
  obtain ⟨n, rfl⟩ := Nat.exists_eq_succ_of_ne_zero hb.ne'
  have hpos : 0 < 2 ^ n := Nat.two_pow_pos n
  have hcast : (2 : Int) ^ n = (2 ^ n : Nat) := by push_cast; rfl
  have hread (c : Nat) (hc : c < 2 * 2 ^ n) : (BitVec.ofNat (n + 1) c).toInt = if c < 2 ^ n then (c : Int) else c - 2 * (2 ^ n : Nat) := by
    rw [BitVec.toInt_eq_toNat_cond, BitVec.toNat_ofNat, Nat.pow_succ, Nat.mod_eq_of_lt (by omega)]
    split_ifs <;> omega
  simp only [satW, Nat.succ_eq_add_one, Nat.add_sub_cancel, pow_succ, hcast]
  generalize 2 ^ n = top at hpos hread
  split_ifs with habove hbelow
  · rw [hread _ (by omega), if_pos (by omega)]
    omega
  · rw [hread _ (by omega), if_neg (by omega)]
    omega
  · have hmod : i % (top * 2) = if 0 ≤ i then i else i + top * 2 := by
      split_ifs
      · exact Int.emod_eq_of_lt (by omega) (by omega)
      · rw [← Int.add_emod_right, Int.emod_eq_of_lt (by omega) (by omega)]
    rw [hmod, hread _ (by split_ifs <;> omega)]
    split_ifs <;> omega

theorem decodeNum_of_isInt {f : Nat} (h : isIntFmt f = true) (c : Nat) : (decodeNum f c).dy.1 = (BitVec.ofNat (fmtBits f) c).toInt := by
  simp only [isIntFmt, Bool.and_eq_true, decide_eq_true_eq] at h
  have hdecode : decodeNum f c = .ofInt (signedCode (fmtBits f) c) := by
    obtain rfl | rfl | rfl | rfl : f = 10 ∨ f = 11 ∨ f = 12 ∨ f = 13 := by omega
    all_goals rfl
  rw [hdecode, Num.dy_ofInt, signedCode_eq_toInt (fmtBits_pos f)]

/-- The integer an element code of a stream is read as; a code past the end reads as 0. -/
def intAt (fmt : Nat) (l : List Nat) (i : Nat) : Int := (BitVec.ofNat (fmtBits fmt) (l.getD i 0)).toInt

theorem dy_getD_decode {fmt : Nat} (h : isIntFmt fmt = true) (l : List Nat) (i : Nat) :
    ((l.map (decodeNum fmt)).getD i (.fin false 0 0)).dy.1 = intAt fmt l i := by
  rw [intAt, List.getD_eq_getElem?_getD, List.getD_eq_getElem?_getD, List.getElem?_map]
  cases l[i]? with
  | none => simp [Num.dy]
  | some c => exact decodeNum_of_isInt h c

section
variable {k : Cmd} {n : Nat} (ha : isIntFmt k.veAfmt = true) (hb : isIntFmt k.veBfmt = true) (hd : isIntFmt k.veDfmt = true) (as_ bs cs : List Nat)
include ha hb hd

/-- The stream's codes on the integer path hold its exact results, each held to the destination format once. -/
theorem Cmd.toInt_compute (hop : hasIntPath k.op = true) {as_ bs cs : List Num} {i : Nat} {r : Int} (hr : (k.intResults n as_ bs cs)[i]? = some r)
    (given : List Nat) : (BitVec.ofNat (fmtBits k.veDfmt) ((k.compute n as_ bs cs given).1.getD i 0)).toInt =
      max (-(2 ^ (fmtBits k.veDfmt - 1))) (min (2 ^ (fmtBits k.veDfmt - 1) - 1) r) := by
  have hcvt : k.op ≠ 0x10 := fun h => by rw [h] at hop; exact absurd hop (by decide)
  have hint : k.intPath = true := by simp [Cmd.intPath, hop, ha, hb, hd]
  simp only [Cmd.compute, if_neg hcvt, hint, if_true, List.getD_eq_getElem?_getD, List.getElem?_map, hr, Option.map_some, Option.getD_some]
  exact toInt_satW (fmtBits_pos _) r

/-- Element `i` of an elementwise operation on vectors. -/
theorem Cmd.intResults_elementwise (hmode : k.veBmode = 0) (hop : isReduce k.op = false) {i : Nat} (hi : i < n) :
    (k.intResults n (as_.map (decodeNum k.veAfmt)) (bs.map (decodeNum k.veBfmt)) (cs.map (decodeNum k.veDfmt)))[i]? =
      some (veInt k.op (intAt k.veAfmt as_ i) (intAt k.veBfmt bs i) (intAt k.veDfmt cs i)) := by
  simp only [Cmd.intResults, hop, Bool.false_eq_true, if_false, List.getElem?_map, List.getElem?_range hi, Option.map_some, Cmd.bAt, hmode, if_true,
    dy_getD_decode ha, dy_getD_decode hb, dy_getD_decode hd]

omit hb hd in
/-- A reduction whose one segment is the whole stream. -/
theorem Cmd.intResults_reduce (hop : isReduce k.op = true) (hseg : k.veSeg n = n) (hlen : as_.length = n) (hn : 0 < n) (bs cs : List Num) :
    (k.intResults n (as_.map (decodeNum k.veAfmt)) bs cs)[0]? = some (intReduce k.op ((List.range n).map (intAt k.veAfmt as_))) := by
  have hcodes : as_.map (fun c => (decodeNum k.veAfmt c).dy.1) = (List.range n).map (intAt k.veAfmt as_) := by
    refine List.ext_getElem (by simp [hlen]) fun i hi _ => ?_
    have hi : i < as_.length := by simpa using hi
    simp [intAt, decodeNum_of_isInt ha, hi]
  have hone : blocksOf n (as_.map (decodeNum k.veAfmt)) = [as_.map (decodeNum k.veAfmt)] := by
    have hall : (as_.map (decodeNum k.veAfmt)).length = n := (List.length_map _).trans hlen
    subst hall
    exact blocksOf_length hn
  simp only [Cmd.intResults, hop, if_true, hseg, hone, List.map_singleton, List.map_map, Function.comp_def, hcodes, List.getElem?_cons_zero]

end

/-- The exact sum of integers, and of their squares (R176). -/
theorem intReduce_sum (xs : List Int) : intReduce 0x30 xs = xs.sum := List.sum_eq_foldl.symm

theorem intReduce_sumsq (xs : List Int) : intReduce 0x32 xs = (xs.map (· ^ 2)).sum := by
  rw [List.sum_eq_foldl, List.foldl_map]
  simp only [pow_two]
  rfl

/-- With every format an integer one, each result of a stream is the exact one, held to the destination format once (R158, R171). -/
theorem Cmd.compute_int {k : Cmd} {n : Nat} (as_ bs cs : List Nat) (ha : isIntFmt k.veAfmt = true) (hb : isIntFmt k.veBfmt = true)
    (hd : isIntFmt k.veDfmt = true) (hmode : k.veBmode = 0) {i : Nat} (hi : i < n) :
    let z := k.compute n (as_.map (decodeNum k.veAfmt)) (bs.map (decodeNum k.veBfmt)) (cs.map (decodeNum k.veDfmt)) []
    let held (i : Nat) (r : Int) : Prop := (BitVec.ofNat (fmtBits k.veDfmt) (z.1.getD i 0)).toInt =
      max (-(2 ^ (fmtBits k.veDfmt - 1))) (min (2 ^ (fmtBits k.veDfmt - 1) - 1) r)
    (k.op ∈ [opADD, opSUB, opMUL, opFMA, opMAX, opMIN, opRELU] → held i (veInt k.op (intAt k.veAfmt as_ i) (intAt k.veBfmt bs i) (intAt k.veDfmt cs i))) ∧
      (k.op = 0x30 ∨ k.op = 0x32 → k.veSeg n = n → as_.length = n → held 0 (intReduce k.op ((List.range n).map (intAt k.veAfmt as_)))) := by
  refine ⟨fun hop => ?_, fun hop hseg hlen => ?_⟩
  · have hpath : hasIntPath k.op = true ∧ isReduce k.op = false := by
      generalize k.op = op at hop
      revert op
      decide
    exact k.toInt_compute ha hb hd hpath.1 (k.intResults_elementwise ha hb hd as_ bs cs hmode hpath.2 hi) []
  · have hpath : hasIntPath k.op = true ∧ isReduce k.op = true := by
      rcases hop with hop | hop <;> rw [hop] <;> decide
    exact k.toInt_compute ha hb hd hpath.1 (k.intResults_reduce ha as_ hpath.2 hseg hlen (by omega) _ _) []

end Sys2Proof.Machine
end

section
/-!
The scratchpad window as an engine reads and writes it (06_spine_vector.md, 12_ordering.md): R168, R172, R173, R189.
-/

namespace Sys2Proof.Machine

/-! ## Runs of bytes in memory -/

theorem Memory.writeBytes_append (as_ bs : List Byte) (a : Nat) (m : List Host.Cell) :
    Memory.writeBytes a (as_ ++ bs) m = Memory.writeBytes (a + as_.length) bs (Memory.writeBytes a as_ m) := by
  induction as_ generalizing a m with
  | nil => rfl
  | cons b l ih =>
    rw [List.cons_append, Memory.writeBytes, ih, Memory.writeBytes, List.length_cons, Nat.add_assoc, Nat.add_comm 1]

/-- The first run of a list is written as `Memory.writeBytes` writes it. -/
theorem writeRuns_cons (a : Nat) (bs : List Byte) (l : List (Nat × List Byte)) (m : List Host.Cell) :
    writeRuns id ((a, bs) :: l) m = writeRuns id l (Memory.writeBytes a bs m) := by
  have hrun (bs : List Byte) (a : Nat) (m : List Host.Cell) :
      (List.range bs.length).foldl (fun m i => Memory.write (a + i) (bs.getD i 0) m) m = Memory.writeBytes a bs m := by
    induction bs generalizing a m with
    | nil => rfl
    | cons b bs ih =>
      rw [List.length_cons, List.range_succ_eq_map, List.foldl_cons, List.foldl_map, Memory.writeBytes, ← ih]
      simp only [List.getD_cons_zero, List.getD_cons_succ, Nat.add_zero, Nat.succ_eq_add_one, Nat.add_assoc, Nat.add_comm 1]
  exact congrArg (writeRuns id l) (hrun bs a m)

theorem writeRuns_nil (key : Nat → Nat) (m : List Host.Cell) : writeRuns key [] m = m := rfl

/-- Nothing is written where the mask is clear. -/
theorem Memory.writeMask_of_clear {mask : Nat} {bs : List Byte} {i : Nat} (h : ∀ j < bs.length, mask.testBit (i + j) = false) (a : Nat)
    (m : List Host.Cell) : Memory.writeMask a mask i bs m = m := by
  induction bs generalizing i with
  | nil => rfl
  | cons b bs ih =>
    have hfirst : mask.testBit i = false := h 0 (Nat.zero_lt_succ _)
    have hrest : ∀ j < bs.length, mask.testBit (i + 1 + j) = false := fun j hj => by
      rw [Nat.add_assoc, Nat.add_comm 1]
      exact h (j + 1) (Nat.succ_lt_succ hj)
    rw [Memory.writeMask, hfirst, if_neg Bool.false_ne_true, ih hrest]

/-- Where every bit of the mask is set the bytes are a run written. -/
theorem Memory.writeMask_of_set {mask : Nat} {bs : List Byte} {i : Nat} (h : ∀ j < bs.length, mask.testBit (i + j) = true) (a : Nat)
    (m : List Host.Cell) : Memory.writeMask a mask i bs m = Memory.writeBytes (a + i) bs m := by
  induction bs generalizing i m with
  | nil => rfl
  | cons b bs ih =>
    have hfirst : mask.testBit i = true := h 0 (Nat.zero_lt_succ _)
    have hrest : ∀ j < bs.length, mask.testBit (i + 1 + j) = true := fun j hj => by
      rw [Nat.add_assoc, Nat.add_comm 1]
      exact h (j + 1) (Nat.succ_lt_succ hj)
    rw [Memory.writeMask, hfirst, if_pos rfl, ih hrest, Memory.writeBytes, Nat.add_assoc]

theorem Memory.writeMask_append (a mask : Nat) (as_ bs : List Byte) (i : Nat) (m : List Host.Cell) :
    Memory.writeMask a mask i (as_ ++ bs) m = Memory.writeMask a mask (i + as_.length) bs (Memory.writeMask a mask i as_ m) := by
  induction as_ generalizing i m with
  | nil => rfl
  | cons b l ih => rw [List.cons_append, Memory.writeMask, ih, Memory.writeMask, List.length_cons, Nat.add_assoc, Nat.add_comm 1]

theorem testBit_byteMask (o n i : Nat) : (byteMask o n).testBit i = (decide (i < 64) && decide (o ≤ i) && decide (i < o + n)) := by
  rw [byteMask, Nat.testBit_mod_two_pow, Nat.testBit_shiftLeft, Nat.testBit_two_pow_sub_one, Bool.and_assoc]
  by_cases h : o ≤ i
  · simp only [h, decide_true, Bool.true_and, show i - o < n ↔ i < o + n by omega]
  · simp [h]

/-- A sector's write of bytes at an offset is a run written. -/
theorem Memory.writeMask_atOffset (line o : Nat) {bs : List Byte} (h : o + bs.length ≤ 64) (m : List Host.Cell) :
    Memory.writeMask line (byteMask o bs.length) 0 (atOffset o bs) m = Memory.writeBytes (line + o) bs m := by
  have hbefore : ∀ j < (List.replicate o (0 : Byte)).length, (byteMask o bs.length).testBit (0 + j) = false := fun j hj => by
    rw [List.length_replicate] at hj
    simp [testBit_byteMask, hj]
  have hbytes : ∀ j < bs.length, (byteMask o bs.length).testBit (o + j) = true := fun j hj => by
    simp [testBit_byteMask, hj]
    omega
  have hafter (l : List Byte) : ∀ j < l.length, (byteMask o bs.length).testBit (o + bs.length + j) = false := fun j hj => by
    simp [testBit_byteMask]
  rw [atOffset, Memory.writeMask_append, Memory.writeMask_append, Memory.writeMask_of_clear hbefore, List.length_append, List.length_replicate,
    Nat.zero_add, Nat.zero_add, Memory.writeMask_of_set hbytes, Memory.writeMask_of_clear (hafter _)]

/-! ## Reading the window (R173) -/

theorem State.cells_add (s : State) (a m n : Nat) : s.cells a (m + n) = s.cells a m ++ s.cells (a + m) n := by
  simp only [State.cells, List.range_add, List.map_append, List.map_map, Function.comp_def, Nat.add_assoc]

theorem State.length_cells (s : State) (a n : Nat) : (s.cells a n).length = n := by rw [State.cells, List.length_map, List.length_range]

theorem State.flatMap_cells (s : State) (a n : Nat) : ((List.range n).flatMap fun i => s.cells (a + 64 * i) 64) = s.cells a (64 * n) := by
  induction n with
  | zero => rfl
  | succ n ih => rw [List.range_succ, List.flatMap_append, ih, List.flatMap_singleton, Nat.mul_succ, s.cells_add]

/-- Bytes of a longer run of bytes. -/
theorem State.drop_take_cells (s : State) {a o n k : Nat} (h : o + n ≤ k) : ((s.cells a k).drop o).take n = s.cells (a + o) n := by
  obtain ⟨j, rfl⟩ := Nat.exists_eq_add_of_le h
  rw [s.cells_add, s.cells_add, List.append_assoc, List.drop_left' (s.length_cells a o), List.take_left' (s.length_cells _ n)]

/-- With no write in flight the window reads as memory. -/
theorem State.winRead_eq_cells {s : State} (hw : s.mem.wrs = []) (d : Die) (part off n : Nat) :
    s.winRead d part off n = s.cells (s.winAddr d part off) n := by
  have hsector (line : Nat) : s.scrSector d line = s.cells line 64 := by simp [State.scrSector, hw]
  unfold State.winRead
  extract_lets a l
  have hl : l = s.cells (a / 64 * 64) (64 * sectorCount a n) := by
    simp only [l, hsector]
    exact s.flatMap_cells _ _
  by_cases hn : n = 0
  · subst hn
    rw [List.take_zero]
    rfl
  · have hroom : a % 64 + n ≤ 64 * sectorCount a n := by
      rw [sectorCount, if_neg hn]
      omega
    rw [hl, s.drop_take_cells hroom, show a / 64 * 64 + a % 64 = a by omega]

/-! ## A write to the window lands at once (R341) -/

/-- The line lies in the die's scratchpad, the die is in service, and its remote cache holds no sector of the line. -/
structure State.ScrOpen (s : State) (d : Die) (line : Nat) : Prop where
  region : ∃ off, s.region line = .scr d off
  inService : s.dieIn d = true
  uncached : (s.rc d).sector line = none

theorem State.region_of_high (s t : State) {pa : Nat} (h : 0x7D000000000000 ≤ pa) : s.region pa = t.region pa := by
  simp only [State.region, h, if_true]

theorem State.not_hbm_of_high (s : State) {pa : Nat} (h : 0x7D000000000000 ≤ pa) (j lin : Nat) : s.region pa ≠ .hbm j lin := by
  simp only [State.region, h, if_true]
  split_ifs <;> simp

theorem State.scrOpen_of_landsAt {s : State} {d : Die} {inst : Option (Nat × Nat)} {key : Nat} (hkey : 0x7D000000000000 ≤ key)
    (h : s.landsAt d inst key = true) : s.ScrOpen d (key / 64 * 64) := by
  simp only [State.landsAt, Bool.and_eq_true, Bool.not_eq_true', beq_iff_eq] at h
  obtain ⟨⟨⟨hin, hrc⟩, -⟩, hregion⟩ := h
  split at hregion
  case h_1 n off hr =>
    obtain rfl := eq_of_beq hregion
    rw [hr] at hin
    exact ⟨⟨off, hr⟩, by simpa [State.absent] using hin, hrc⟩
  case h_2 j lin hr => exact absurd hr (s.not_hbm_of_high (by omega) j lin)
  case h_3 => cases hregion

/-- What a write of the die's own scratchpad may change: memory's bytes, and marks of poison that it takes away. -/
def ScrOnly (s t : State) : Prop :=
  t = { s with mem := { s.mem with cells := t.mem.cells, scrPoison := t.mem.scrPoison } } ∧ ∀ x ∈ t.mem.scrPoison, x ∈ s.mem.scrPoison

theorem ScrOnly.refl (s : State) : ScrOnly s s := ⟨rfl, fun _ h => h⟩

section
variable {s t : State} (h : ScrOnly s t)
include h

theorem ScrOnly.trans {u : State} (h' : ScrOnly t u) : ScrOnly s u := by
  obtain ⟨hframe, hpoison⟩ := h
  obtain ⟨hframe', hpoison'⟩ := h'
  refine ⟨?_, fun x hx => hpoison x (hpoison' x hx)⟩
  rw [hframe', hframe]

theorem ScrOnly.regs : t.regs = s.regs := by rw [h.1]
theorem ScrOnly.cxs : t.cxs = s.cxs := by rw [h.1]
theorem ScrOnly.wrs : t.mem.wrs = s.mem.wrs := by rw [h.1]

theorem ScrOnly.winAddr (d : Die) (part off : Nat) : t.winAddr d part off = s.winAddr d part off := by
  rw [h.1]
  rfl

theorem ScrOnly.scrOpen {d : Die} {line : Nat} (ho : s.ScrOpen d line) : t.ScrOpen d line := by
  rw [h.1]
  exact ⟨ho.region, ho.inService, ho.uncached⟩

end

/-- A write of an open line, with none in flight, is accepted as it is sent. -/
theorem State.sendWrite_of_scrOpen {s : State} {w : Wr} {d : Die} {c : Cx} (hsrc : w.src = .cx d c) (hcrc : w.crc = none)
    (ho : s.ScrOpen d w.addr) (hw : s.mem.wrs = []) : s.sendWrite w = s.acceptAt w.addr w.mask w.data w.whole w.cmd w.poison := by
  obtain ⟨off, hr⟩ := ho.region
  have habsent : s.absent (.scr d off) = false := by simp [State.absent, ho.inService]
  have hpass : s.rcPass d w.addr w.mask w.data = s := by rw [State.rcPass, ho.uncached]
  have hbehind : s.behind w.src (Region.scr d off).dst = false := by rw [State.behind, hw]; rfl
  rw [hsrc] at hbehind
  simp [State.sendWrite, hr, habsent, hsrc, hcrc, Src.die, hpass, hbehind]

theorem State.acceptAt_of_scr {s : State} {line : Nat} {d off : Nat} (hr : s.region line = .scr d off) (mask : Nat) (data : List Byte) (whole : Bool)
    (cmd : Nat) : ScrOnly s (s.acceptAt line mask data whole cmd false) ∧
      (s.acceptAt line mask data whole cmd false).mem.cells = Memory.writeMask line mask 0 data s.mem.cells := by
  simp only [State.acceptAt, hr, Bool.false_eq_true, if_false]
  split_ifs
  · exact ⟨⟨rfl, fun x hx => List.mem_of_mem_filter hx⟩, rfl⟩
  · exact ⟨⟨rfl, fun x hx => hx⟩, rfl⟩

/-- Bytes of one sector written for an element of a flight. -/
theorem State.writeSec_of_scrOpen {s : State} {d : Die} {line : Nat} (ho : s.ScrOpen d line) (hw : s.mem.wrs = []) (c : Cx) (f : Flight) (elem va : Nat)
    {o : Nat} {bs : List Byte} (hlen : o + bs.length ≤ 64) : ScrOnly s (s.writeSec d c f elem line va o bs false false) ∧
      (s.writeSec d c f elem line va o bs false false).mem.cells = Memory.writeBytes (line + o) bs s.mem.cells := by
  obtain ⟨off, hr⟩ := ho.region
  rw [State.writeSec, State.sendWrite_of_scrOpen rfl rfl ho hw, ← Memory.writeMask_atOffset line o hlen]
  exact State.acceptAt_of_scr hr _ _ _ _

theorem State.winAddr_add (s : State) (d : Die) (part off i : Nat) : s.winAddr d part (off + i) = s.winAddr d part off + i := by
  simp only [State.winAddr, Nat.add_assoc]

theorem State.high_winAddr (s : State) (d : Die) (part off : Nat) : 0x7D000000000000 ≤ s.winAddr d part off := by
  unfold State.winAddr
  omega

theorem State.winWrite_of_open {d : Die} (c : Cx) (f : Flight) (part elem : Nat) {fuel off : Nat} {bs : List Byte} {s : State} (hw : s.mem.wrs = [])
    (ho : ∀ i < bs.length, s.ScrOpen d ((s.winAddr d part off + i) / 64 * 64)) (hfuel : s.winAddr d part off % 64 + bs.length ≤ 64 * fuel) :
    let t := State.winWrite d c f part elem fuel off bs s
    ScrOnly s t ∧ t.mem.cells = Memory.writeBytes (s.winAddr d part off) bs s.mem.cells := by
  induction fuel generalizing off bs s with
  | zero =>
    obtain rfl : bs = [] := List.eq_nil_of_length_eq_zero (by omega)
    exact ⟨.refl s, rfl⟩
  | succ fuel ih =>
    intro t
    by_cases hbs : bs = []
    · subst hbs
      have ht : t = s := by simp [t, State.winWrite]
      rw [ht]
      exact ⟨.refl s, rfl⟩
    · set a := s.winAddr d part off
      set n := 64 - a % 64 with hn
      set u := s.writeSec d c f elem (a / 64 * 64) a (a % 64) (bs.take n) false false
      have ht : t = State.winWrite d c f part elem fuel (off + n) (bs.drop n) u := by
        simp only [t, State.winWrite, if_neg hbs]
        rfl
      have hfirst : s.ScrOpen d (a / 64 * 64) := ho 0 (List.length_pos_iff.mpr hbs)
      obtain ⟨honly, hcells⟩ := State.writeSec_of_scrOpen hfirst hw c f elem a (o := a % 64) (bs := bs.take n) (by rw [List.length_take]; omega)
      rw [show a / 64 * 64 + a % 64 = a by omega] at hcells
      have hnext : u.winAddr d part (off + n) = a + n := by rw [honly.winAddr, s.winAddr_add]
      have hopen : ∀ i < (bs.drop n).length, u.ScrOpen d ((u.winAddr d part (off + n) + i) / 64 * 64) := fun i hi => by
        rw [List.length_drop] at hi
        rw [hnext, Nat.add_assoc]
        exact honly.scrOpen (ho (n + i) (by omega))
      obtain ⟨honly', hcells'⟩ := ih (honly.wrs.trans hw) hopen (by rw [hnext, List.length_drop]; omega)
      rw [hnext, hcells] at hcells'
      rw [ht]
      refine ⟨honly.trans honly', hcells'.trans ?_⟩
      by_cases hlong : n ≤ bs.length
      · conv_rhs => rw [← List.take_append_drop n bs, Memory.writeBytes_append, List.length_take, Nat.min_eq_left hlong]
      · rw [List.drop_of_length_le (by omega), List.take_of_length_le (by omega)]
        rfl

/-- Bytes put at an offset of the window, where each byte's line is open. -/
theorem State.winPut_of_open {s : State} {d : Die} (c : Cx) (f : Flight) (elem : Nat) {off : Nat} {bs : List Byte} (hw : s.mem.wrs = [])
    (ho : ∀ i < bs.length, s.ScrOpen d ((s.winAddr d f.cmd.part off + i) / 64 * 64)) :
    ScrOnly s (s.winPut d c f elem off bs) ∧ (s.winPut d c f elem off bs).mem.cells = Memory.writeBytes (s.winAddr d f.cmd.part off) bs s.mem.cells :=
  State.winWrite_of_open c f f.cmd.part elem hw ho (by omega)

end Sys2Proof.Machine
end

section
/-!
The stream commands of a vector engine (06_spine_vector.md): what the scratchpad's code finds, the checks before the work, the work: O45.
-/

namespace Sys2Proof.Machine

/-! ## What the scratchpad's code finds (R189) -/

section
variable (s : State) (d : Die) (x : ScrFinding)

/-- The line of a die's scratchpad that a finding names. -/
def scrLine (d : Die) (x : ScrFinding) : Nat := 0x7D000000000000 + d.val * 0x100000000 + x.offset % 0x10000000 / 64 * 64

theorem State.scrFind_of_correctable (h : x.kind = .correctable) : s.scrFind d x = s.count (R.SCR_ECC_CE d) 1 := by
  rw [State.scrFind, h]

theorem State.scrFind_of_marked (h : x.kind = .uncorrectable) (hm : scrLine d x ∈ s.mem.scrPoison) : s.scrFind d x = s := by
  rw [State.scrFind, h]
  exact if_pos (List.contains_iff_mem.mpr hm)

/-- The line of an uncorrectable error marked, and the error counted. -/
def State.scrMarked (s : State) (d : Die) (line : Nat) : State :=
  ({ s with mem := { s.mem with scrPoison := line :: s.mem.scrPoison } }).count (R.SCR_ECC_UE d) 1

theorem State.scrFind_of_new (h : x.kind = .uncorrectable) (hm : scrLine d x ∉ s.mem.scrPoison) : s.scrFind d x = (s.scrMarked d (scrLine d x)).raise
    { status := St.SCR_UE, sev := Sev.DEFERRED, kind := Uk.DIE, die := d.val, index := d.val, addr := scrLine d x, phys := true, hasAddr := true } := by
  rw [State.scrFind, h]
  exact if_neg fun hc => hm (List.contains_iff_mem.mp hc)

theorem State.scrMarked_mem (line : Nat) : (s.scrMarked d line).mem = { s.mem with scrPoison := line :: s.mem.scrPoison } := by
  rw [State.scrMarked, State.count_mem]

theorem State.scrMarked_frame (line : Nat) :
    s.scrMarked d line = { s with regs := (s.scrMarked d line).regs, faults := (s.scrMarked d line).faults, mem := (s.scrMarked d line).mem } := by
  rw [State.scrMarked, State.count_frame]

theorem State.regsBut_scrMarked (line : Nat) : RegsBut [R.SCR_ECC_UE d] s (s.scrMarked d line) :=
  RegsBut.count 1 (.of_regs_eq _ rfl) (List.mem_singleton_self _)

/-- A new uncorrectable error is marked, counted and recorded. -/
theorem State.scrFind_new (h : x.kind = .uncorrectable) (hm : scrLine d x ∉ s.mem.scrPoison) :
    let t := s.scrFind d x
    t.mem = { s.mem with scrPoison := scrLine d x :: s.mem.scrPoison } ∧
      t.lastRaised.map (fun y => (y.status, y.sev, y.kind, y.die, y.addr)) = some (St.SCR_UE, Sev.DEFERRED, Uk.DIE, d.val, scrLine d x) ∧
      t.fld (R.SCR_ECC_UE d) F.CTR.COUNT = (s.fld (R.SCR_ECC_UE d) F.CTR.COUNT + 1) % 2 ^ 48 ∧ RegsBut [R.SCR_ECC_UE d] s t ∧
      t = { s with regs := t.regs, faults := t.faults, mem := t.mem } := by
  intro t
  have ht : t = _ := s.scrFind_of_new d x h hm
  rw [ht]
  refine ⟨s.scrMarked_mem d _, by rw [State.lastRaised_raise]; rfl, State.fld_count _ _ 1, (s.regsBut_scrMarked d _).raise _, ?_⟩
  rw [s.scrMarked_frame d (scrLine d x)]
  rfl

end

/-- What findings in a die's scratchpad leave as it was. -/
def ScrFound (d : Die) (s t : State) : Prop :=
  t = { s with regs := t.regs, faults := t.faults, mem := { s.mem with scrPoison := t.mem.scrPoison } } ∧
    RegsBut [R.SCR_ECC_CE d, R.SCR_ECC_UE d] s t

theorem State.scrFound_scrFind (s : State) (d : Die) (x : ScrFinding) : ScrFound d s (s.scrFind d x) := by
  cases hk : x.kind with
  | correctable =>
    rw [s.scrFind_of_correctable d x hk]
    exact ⟨by rw [State.count_frame], (RegsBut.refl _ s).count 1 (by simp)⟩
  | uncorrectable =>
    by_cases hm : scrLine d x ∈ s.mem.scrPoison
    · rw [s.scrFind_of_marked d x hk hm]
      exact ⟨rfl, .refl _ s⟩
    · obtain ⟨hmem, -, -, hregs, hframe⟩ := s.scrFind_new d x hk hm
      rw [hmem] at hframe
      exact ⟨by rw [hframe], hregs.mono (by simp)⟩

theorem State.scrFound_scrAll (s : State) (d : Die) (xs : List ScrFinding) : ScrFound d s (s.scrAll d xs) := by
  induction xs generalizing s with
  | nil => exact ⟨rfl, .refl _ s⟩
  | cons x xs ih =>
    obtain ⟨hframe, hregs⟩ := s.scrFound_scrFind d x
    obtain ⟨hframe', hregs'⟩ := ih (s.scrFind d x)
    refine ⟨?_, hregs.trans hregs'⟩
    rw [show s.scrAll d (x :: xs) = (s.scrFind d x).scrAll d xs from rfl, hframe', hframe]

section
variable {d : Die} {s t : State} (h : ScrFound d s t)
include h

theorem ScrFound.cxs : t.cxs = s.cxs := by rw [h.1]
theorem ScrFound.cores : t.cores = s.cores := by rw [h.1]
theorem ScrFound.blocks : t.mem.blocks = s.mem.blocks := by rw [h.1]
theorem ScrFound.memCells : t.mem.cells = s.mem.cells := by rw [h.1]
theorem ScrFound.wrs : t.mem.wrs = s.mem.wrs := by rw [h.1]

theorem ScrFound.cells (a n : Nat) : t.cells a n = s.cells a n := by rw [State.cells, h.memCells, State.cells]

theorem ScrFound.fld {o : Nat} (hce : o ≠ R.SCR_ECC_CE d) (hue : o ≠ R.SCR_ECC_UE d) (f : Fld) : t.fld o f = s.fld o f :=
  h.2.fld (by simp [hce, hue]) f

theorem ScrFound.fld_SCR_WIN (part : Nat) (f : Fld) : t.fld (R.SCR_WIN d part) f = s.fld (R.SCR_WIN d part) f :=
  h.fld (by unfold R.SCR_WIN R.SCR_ECC_CE; omega) (by unfold R.SCR_WIN R.SCR_ECC_UE; omega) f

theorem ScrFound.winAddr (part off : Nat) : t.winAddr d part off = s.winAddr d part off := by
  rw [State.winAddr, h.fld_SCR_WIN, State.winAddr]

theorem ScrFound.inWin (part : Nat) (r : Nat × Nat) : t.inWin d part r = s.inWin d part r := by
  rw [State.inWin, h.fld_SCR_WIN, State.inWin]

theorem ScrFound.scrOpen {line : Nat} (hline : 0x7D000000000000 ≤ line) (ho : s.ScrOpen d line) : t.ScrOpen d line where
  region := by
    rw [t.region_of_high s hline]
    exact ho.region
  inService := by
    have hne (o : Nat) (h : 0x40010 ≤ o) : R.HUB_CD_STATUS d ≠ R.dieBase d + o := by
      unfold R.HUB_CD_STATUS R.dieBase
      omega
    have hfld (f : Fld) : t.fld (R.HUB_CD_STATUS d) f = s.fld (R.HUB_CD_STATUS d) f := h.fld (hne _ (by decide)) (hne _ (by decide)) f
    rw [State.dieIn, State.flag, hfld, hfld]
    exact ho.inService
  uncached := by
    rw [h.1]
    exact ho.uncached

end

/-! ## A command stops with a fault of its engine (R190) -/

theorem State.engineStops_engFault (s : State) (d : Die) (c : Cx) {f : Flight} {code u : Nat} (addr : Nat) (hu : f.cmd.engine = u) (hcode : code < 256) :
    EngineStops d u c f.slot code addr s (s.engFault d c f code addr) := by
  obtain ⟨hflight, htold, hregs⟩ := s.engFault_told d c f code addr hu hcode
  refine ⟨hflight, htold, hregs, ?_⟩
  have hframe := (EnginesOnly.refl s).engFault d c f code addr
  unfold EnginesOnly at hframe
  rwa [State.engFault_faults, State.engFault_arrays, State.engFault_eng] at hframe

/-! ## What a vector command changes -/

theorem State.engRan_frame (s : State) (d : Die) (c : Cx) (n : Nat) :
    s.engRan d c n = { s with power := { s.power with ranAt := (s.engRan d c n).power.ranAt } } := by
  unfold State.engRan
  split
  · split <;> rfl
  · rfl

theorem State.workDone_frame (s : State) (d : Die) (c : Cx) (n : Nat) :
    s.workDone d c n = { s with cxs := (s.workDone d c n).cxs, power := { s.power with ranAt := (s.workDone d c n).power.ranAt } } := by
  rw [State.workDone, State.engRan_frame]
  rfl

theorem VectorOnly.of_scrOnly (l : List Nat) {s t : State} (h : ScrOnly s t) : VectorOnly l s t := by
  refine ⟨.of_regs_eq l h.regs, .of_faults (by rw [h.1]), ?_⟩
  rw [h.1]

section
variable {l : List Nat} {s t : State} (h : VectorOnly l s t)
include h

theorem VectorOnly.setFld {o : Nat} (f : Fld) (v : Nat) (ho : o ∈ l) : VectorOnly l s (t.setFld o f v) := by
  obtain ⟨hregs, hwraps, hframe⟩ := h
  refine ⟨hregs.setFld f v ho, hwraps, ?_⟩
  rw [hframe]
  rfl

theorem VectorOnly.count {o : Nat} (n : Nat) (ho : o ∈ l) : VectorOnly l s (t.count o n) := by
  obtain ⟨hregs, hwraps, hframe⟩ := h
  refine ⟨hregs.count n ho, hwraps.count o n, ?_⟩
  rw [State.count_frame, hframe]

theorem VectorOnly.setFlight (d : Die) (c : Cx) (n : Nat) (g : Flight → Flight) : VectorOnly l s (t.setFlight d c n g) := by
  obtain ⟨hregs, hwraps, hframe⟩ := h
  refine ⟨hregs, hwraps, ?_⟩
  rw [hframe]
  rfl

theorem VectorOnly.engRan (d : Die) (c : Cx) (n : Nat) : VectorOnly l s (t.engRan d c n) := by
  obtain ⟨hregs, hwraps, hframe⟩ := h
  refine ⟨hregs.of_regs (t.engRan_regs d c n), hwraps.congr (t.engRan_faults d c n), ?_⟩
  rw [State.engRan_frame, hframe]

theorem VectorOnly.workDone (d : Die) (c : Cx) (n : Nat) : VectorOnly l s (t.workDone d c n) := (h.engRan d c n).setFlight d c n _

end

/-! ## The end of a vector command (R154, R186, R194) -/

theorem State.engRan_mem (s : State) (d : Die) (c : Cx) (n : Nat) : (s.engRan d c n).mem = s.mem ∧ (s.engRan d c n).cores = s.cores := by
  rw [State.engRan_frame]
  exact ⟨rfl, rfl⟩

section
variable (s : State) (d : Die) (c : Cx) (v : Fin 8) (slot fl elems cycles : Nat)

/-- The registers told a vector command's flags, elements and cycles. -/
def State.veNoted : State := ((s.veFlags d c fl).count (R.VE_ELEMS d v) elems).count (R.VE_CYC_BUSY d v) cycles

theorem State.veEnd_eq : s.veEnd d c v slot fl elems cycles =
    ((s.veNoted d c v fl elems cycles).workDone d c slot).setFlight d c slot fun g => { g with tile := none } := rfl

theorem State.veNoted_frame : (s.veNoted d c v fl elems cycles).cxs = s.cxs ∧ (s.veNoted d c v fl elems cycles).mem = s.mem ∧
    (s.veNoted d c v fl elems cycles).cores = s.cores := by
  unfold State.veNoted
  rw [State.count_frame, State.count_frame (s.veFlags d c fl)]
  exact ⟨rfl, rfl, rfl⟩

theorem State.fld_veNoted : (s.veNoted d c v fl elems cycles).fld (R.CX_VE_FLAGS d c) F.CX_VE_FLAGS.FLAGS =
      (s.fld (R.CX_VE_FLAGS d c) F.CX_VE_FLAGS.FLAGS ||| fl) % (F.CX_VE_FLAGS.FLAGS.top + 1) ∧
    (s.veNoted d c v fl elems cycles).fld (R.VE_ELEMS d v) F.CTR.COUNT = (s.fld (R.VE_ELEMS d v) F.CTR.COUNT + elems) % 2 ^ 48 := by
  have hflags : R.CX_VE_FLAGS d c ≠ R.VE_CYC_BUSY d v := by
    unfold R.CX_VE_FLAGS R.VE_CYC_BUSY
    omega
  have hbusy : R.VE_ELEMS d v ≠ R.VE_CYC_BUSY d v := by
    unfold R.VE_ELEMS R.VE_CYC_BUSY
    omega
  have helems : R.CX_VE_FLAGS d c ≠ R.VE_ELEMS d v := by
    unfold R.VE_ELEMS R.CX_VE_FLAGS
    omega
  unfold State.veNoted
  rw [State.fld_count_of_ne _ _ _ hflags, State.fld_count_of_ne _ _ _ helems, State.fld_count_of_ne _ _ _ hbusy, State.fld_count]
  exact ⟨State.fld_setFld _ _ _ _ (by decide), by rw [State.veFlags, State.fld_setFld_of_ne _ _ _ _ helems.symm]⟩

/-- What the end of a vector command leaves. -/
theorem State.veEnd_frame : let t := s.veEnd d c v slot fl elems cycles
    t.mem = s.mem ∧ t.cores = s.cores ∧ t.regs = (s.veNoted d c v fl elems cycles).regs ∧
      FlightBy d c slot (fun g => { ended g with tile := none }) s t := by
  obtain ⟨hcxs, hmem, hcores⟩ := s.veNoted_frame d c v fl elems cycles
  rw [State.veEnd_eq]
  generalize s.veNoted d c v fl elems cycles = u at hcxs hmem hcores ⊢
  obtain ⟨hranMem, hranCores⟩ := u.engRan_mem d c slot
  exact ⟨hranMem.trans hmem, hranCores.trans hcores, u.engRan_regs d c slot,
    ((u.flightBy_workDone d c slot).from_cxs hcxs.symm).setFlight (fun _ => rfl) fun g => { g with tile := none }⟩

theorem VectorOnly.veEnd {l : List Nat} {u : State} (h : VectorOnly l u s)
    (hl : ∀ o ∈ [R.CX_VE_FLAGS d c, R.VE_ELEMS d v, R.VE_CYC_BUSY d v], o ∈ l) : VectorOnly l u (s.veEnd d c v slot fl elems cycles) :=
  ((((h.setFld _ _ (hl _ (by simp))).count elems (hl _ (by simp))).count cycles (hl _ (by simp))).workDone d c slot).setFlight d c slot _

end

/-! ## The checks before a vector command reads (R172, R189) -/

section
variable {s : State} {d : Die} {part : Nat}

theorem State.inWin_iff {r : Nat × Nat} : s.inWin d part r = true ↔ r.1 + r.2 ≤ s.fld (R.SCR_WIN d part) F.SCR_WIN.SIZE_MIB * 0x100000 := decide_eq_true_iff

theorem badOverlap_iff {dst x : (Nat × Nat) × Nat} : badOverlap dst x = true ↔ ¬ (rangesMeet dst.1 x.1 = true → dst = x) := by
  rw [badOverlap, Prod.ext_iff, Bool.and_eq_true, Bool.not_eq_true', ← Bool.not_eq_true, Bool.and_eq_true, beq_iff_eq, beq_iff_eq, Classical.not_imp]

theorem State.winBad_append (l l' : List (Nat × Nat)) : s.winBad d part (l ++ l') = (s.winBad d part l).or (s.winBad d part l') :=
  List.findSome?_append

/-- An uncorrectable line is named by an offset of one of the ranges. -/
theorem State.winBad_mem {l : List (Nat × Nat)} {o : Nat} (h : s.winBad d part l = some o) :
    o ∈ l.flatMap fun r => (List.range (r.2 / 64 + 2)).map fun j => r.1 + 64 * j := by
  obtain ⟨r, hr, ho⟩ := List.exists_of_findSome?_eq_some h
  obtain ⟨i, hi, rfl⟩ := Option.map_eq_some_iff.mp ho
  have hlt := List.mem_range.mp (List.mem_of_find?_eq_some hi)
  refine List.mem_flatMap.mpr ⟨r, hr, List.mem_map.mpr ⟨i, List.mem_range.mpr ?_, rfl⟩⟩
  unfold sectorCount at hlt
  split at hlt <;> omega

variable {dst : (Nat × Nat) × Nat} {srcs : List ((Nat × Nat) × Nat)} {more : List (Nat × Nat)}

theorem State.veCheck_of_outside (h : ¬ ∀ r ∈ (dst.1 :: srcs.map (·.1)) ++ more, s.inWin d part r = true) :
    ∃ r ∈ (dst.1 :: srcs.map (·.1)) ++ more, s.veCheck d part dst srcs more = some (Vc.VE_RANGE, r.1) := by
  cases hfind : ((dst.1 :: srcs.map (·.1)) ++ more).find? fun r => !s.inWin d part r with
  | none => exact absurd (fun r hr => by simpa using List.find?_eq_none.mp hfind r hr) h
  | some r => exact ⟨r, List.mem_of_find?_eq_some hfind, by rw [State.veCheck, hfind]⟩

variable (hin : ∀ r ∈ (dst.1 :: srcs.map (·.1)) ++ more, s.inWin d part r = true)
include hin

theorem State.find_outside_of_inside : ((dst.1 :: srcs.map (·.1)) ++ more).find? (fun r => !s.inWin d part r) = none :=
  List.find?_eq_none.mpr fun r hr => by simp [hin r hr]

theorem State.veCheck_of_overlap (h : ¬ ∀ x ∈ srcs, rangesMeet dst.1 x.1 = true → dst = x) :
    ∃ x ∈ srcs, s.veCheck d part dst srcs more = some (Vc.VE_OVERLAP, x.1.1) := by
  cases hfind : srcs.find? fun x => badOverlap dst x with
  | none => exact absurd (fun x hx => not_not.mp fun hb => List.find?_eq_none.mp hfind x hx (badOverlap_iff.mpr hb)) h
  | some x => exact ⟨x, List.mem_of_find?_eq_some hfind, by simp only [State.veCheck, State.find_outside_of_inside hin, hfind]⟩

theorem State.veCheck_of_clear (h : ∀ x ∈ srcs, rangesMeet dst.1 x.1 = true → dst = x) :
    s.veCheck d part dst srcs more = (s.winBad d part (srcs.map (·.1))).map fun o => (Vc.SCR_ECC, o) := by
  have hfind : srcs.find? (fun x => badOverlap dst x) = none := List.find?_eq_none.mpr fun x hx hb => badOverlap_iff.mp hb (h x hx)
  simp only [State.veCheck, State.find_outside_of_inside hin, hfind]

end

end Sys2Proof.Machine
end

section
/-!
The work of the stream commands of a vector engine, and their statement (06_spine_vector.md): O45.
-/

namespace Sys2Proof.Machine

/-! ## What a stream reads and gives (R168, R170, R171) -/

/-- The window ranges of the scales a stream reads. -/
def Cmd.givenRange (k : Cmd) (n : Nat) : List (Nat × Nat) := if k.veQmode = 2 then k.scaleRange n else []

section
variable (s : State) (d : Die) (k : Cmd) (n : Nat)

/-- An operand's values as memory holds them, and whether a reserved code is among them. -/
def State.operand (fmt off m : Nat) : List Num × Bool := readNums fmt m (s.cells (s.winAddr d k.part off) (fmtBytes fmt m))

/-- The destination's old values, which FMA alone reads. -/
def State.oldDst : List Num × Bool := if k.op = opFMA then s.operand d k k.veDfmt k.veDst n else ([], false)

/-- The scales read from memory. -/
def State.givenScales : List Nat := ((k.givenRange n).flatMap fun r => s.cells (s.winAddr d k.part r.1) r.2).map BitVec.toNat

/-- A stream's element codes, scale codes and flags. -/
def State.streamResults : List Nat × List Nat × Nat :=
  k.compute n (s.operand d k k.veAfmt k.veA n).1 (s.operand d k k.veBfmt k.veB (k.bCount n)).1 (s.oldDst d k n).1 (s.givenScales d k n)

/-- INVALID for a reserved code read (R149). -/
def State.reservedFlag : Nat :=
  if (s.operand d k k.veAfmt k.veA n).2 || (s.operand d k k.veBfmt k.veB (k.bCount n)).2 || (s.oldDst d k n).2 then Flag.INVALID else 0

/-- A stream's flags: those of its results and of its reads. -/
def State.streamFlags : Nat := (s.streamResults d k n).2.2 ||| s.reservedFlag d k n

theorem Cmd.scaleRange_of_mode {k : Cmd} (h : k.veQmode ≠ 0) : k.scaleRange n = [(k.veScale, (k.results n + k.blockLen - 1) / k.blockLen)] := if_neg h

theorem State.length_givenScales (h : k.veQmode = 2) : (s.givenScales d k n).length = (k.results n + k.blockLen - 1) / k.blockLen := by
  rw [State.givenScales, Cmd.givenRange, if_pos h, Cmd.scaleRange_of_mode n (by rw [h]; decide), List.flatMap_singleton, List.length_map,
    State.length_cells]

theorem State.length_streamResults : (s.streamResults d k n).1.length = k.results n ∧
    (k.veQmode = 1 → (s.streamResults d k n).2.1.length ≤ (k.results n + k.blockLen - 1) / k.blockLen) :=
  k.length_compute (length_readNums _ _ _) _ _ (s.length_givenScales d k n)

end

section
variable {s t : State} {d : Die} (h : ScrFound d s t) (k : Cmd) (n : Nat)
include h

theorem ScrFound.operand (fmt off m : Nat) : t.operand d k fmt off m = s.operand d k fmt off m := by
  rw [State.operand, h.winAddr, h.cells, State.operand]

theorem ScrFound.oldDst : t.oldDst d k n = s.oldDst d k n := by rw [State.oldDst, h.operand, State.oldDst]

theorem ScrFound.givenScales : t.givenScales d k n = s.givenScales d k n := by
  simp only [State.givenScales, h.winAddr, h.cells]

theorem ScrFound.streamResults : t.streamResults d k n = s.streamResults d k n := by
  rw [State.streamResults, h.operand, h.operand, h.oldDst, h.givenScales, State.streamResults]

theorem ScrFound.streamFlags : t.streamFlags d k n = s.streamFlags d k n := by
  rw [State.streamFlags, h.streamResults, State.reservedFlag, h.operand, h.operand, h.oldDst, State.streamFlags, State.reservedFlag]

end

/-! ## What a stream writes (R168, R172) -/

/-- The runs of bytes a stream writes: its elements, and under AUTO its scales. -/
def State.streamRuns (s : State) (d : Die) (k : Cmd) (z : List Nat × List Nat × Nat) : List (Nat × List Byte) :=
  (s.winAddr d k.part k.veDst, packElems k.veDfmt z.1) ::
    if k.veQmode = 1 then [(s.winAddr d k.part k.veScale, z.2.1.map (BitVec.ofNat 8))] else []

/-- The elements put at the destination, and under AUTO the scales at theirs. -/
def State.streamPut (s : State) (d : Die) (c : Cx) (f : Flight) (z : List Nat × List Nat × Nat) : State :=
  let s1 := s.winPut d c f 0 f.cmd.veDst (packElems f.cmd.veDfmt z.1)
  if f.cmd.veQmode = 1 then s1.winPut d c f 0 f.cmd.veScale (z.2.1.map (BitVec.ofNat 8)) else s1

/-- Every byte of a stream's destination and of its scales lies in an open line. -/
def State.StreamOpen (s : State) (d : Die) (k : Cmd) (n : Nat) : Prop :=
  ∀ r ∈ (k.dstRange n).1 :: k.scaleRange n, ∀ i < r.2, s.ScrOpen d ((s.winAddr d k.part r.1 + i) / 64 * 64)

theorem State.streamPut_of_open {s : State} {d : Die} (c : Cx) {f : Flight} {n : Nat} {z : List Nat × List Nat × Nat} (hw : s.mem.wrs = [])
    (ho : s.StreamOpen d f.cmd n) (hcodes : z.1.length = f.cmd.results n)
    (hscales : f.cmd.veQmode = 1 → z.2.1.length ≤ (f.cmd.results n + f.cmd.blockLen - 1) / f.cmd.blockLen) :
    ScrOnly s (s.streamPut d c f z) ∧ (s.streamPut d c f z).mem.cells = writeRuns id (s.streamRuns d f.cmd z) s.mem.cells := by
  have helems : ∀ i < (packElems f.cmd.veDfmt z.1).length, s.ScrOpen d ((s.winAddr d f.cmd.part f.cmd.veDst + i) / 64 * 64) := fun i hi => by
    rw [length_packElems, hcodes] at hi
    exact ho _ List.mem_cons_self i hi
  obtain ⟨honly, hcells⟩ := State.winPut_of_open c f 0 hw helems
  by_cases hauto : f.cmd.veQmode = 1
  · set u := s.winPut d c f 0 f.cmd.veDst (packElems f.cmd.veDfmt z.1)
    have hopen : ∀ i < (z.2.1.map (BitVec.ofNat 8)).length, u.ScrOpen d ((u.winAddr d f.cmd.part f.cmd.veScale + i) / 64 * 64) := fun i hi => by
      rw [List.length_map] at hi
      rw [honly.winAddr]
      refine honly.scrOpen (ho (f.cmd.veScale, (f.cmd.results n + f.cmd.blockLen - 1) / f.cmd.blockLen) ?_ i (hi.trans_le (hscales hauto)))
      rw [Cmd.scaleRange_of_mode n (by rw [hauto]; decide)]
      simp
    obtain ⟨honly', hcells'⟩ := State.winPut_of_open c f 0 (honly.wrs.trans hw) hopen
    rw [hcells, honly.winAddr] at hcells'
    rw [State.streamPut, State.streamRuns, if_pos hauto, if_pos hauto, writeRuns_cons, writeRuns_cons, writeRuns_nil]
    exact ⟨honly.trans honly', hcells'⟩
  · rw [State.streamPut, State.streamRuns, if_neg hauto, if_neg hauto, writeRuns_cons, writeRuns_nil]
    exact ⟨honly, hcells⟩

/-- The cycles a stream command occupies its engine (R186). -/
def Cmd.streamCycles (k : Cmd) (n : Nat) : Nat := (n + 63) / 64 + veLatency k.op + (if k.veQmode = 1 then 8 else 0)

/-- With no write in flight a stream works on memory as it is. -/
theorem State.veStream_eq {s : State} (hw : s.mem.wrs = []) (d : Die) (c : Cx) (v : Fin 8) (f : Flight) (n : Nat) :
    s.veStream d c v f n = (s.streamPut d c f (s.streamResults d f.cmd n)).veEnd d c v f.slot (s.streamFlags d f.cmd n)
      (s.streamResults d f.cmd n).1.length (f.cmd.streamCycles n) := by
  have hgiven : (if f.cmd.veQmode = 2 then
      (s.cells (s.winAddr d f.cmd.part f.cmd.veScale) ((f.cmd.results n + f.cmd.blockLen - 1) / f.cmd.blockLen)).map BitVec.toNat else []) =
      s.givenScales d f.cmd n := by
    rw [State.givenScales, Cmd.givenRange]
    split_ifs with h
    · rw [Cmd.scaleRange_of_mode n (by rw [h]; decide), List.flatMap_singleton]
    · rfl
  simp only [State.veStream, State.winRead_eq_cells hw, hgiven]
  rfl

theorem ScrFound.streamOpen {s t : State} {d : Die} (h : ScrFound d s t) {k : Cmd} {n : Nat} (ho : s.StreamOpen d k n) : t.StreamOpen d k n := by
  intro r hr i hi
  have hhigh := s.high_winAddr d k.part r.1
  rw [h.winAddr]
  exact h.scrOpen (by omega) (ho r hr i hi)

theorem ScrFound.streamRuns {s t : State} {d : Die} (h : ScrFound d s t) (k : Cmd) (z : List Nat × List Nat × Nat) :
    t.streamRuns d k z = s.streamRuns d k z := by
  rw [State.streamRuns, h.winAddr, h.winAddr, State.streamRuns]

theorem State.streamOpen_of_lands {s : State} {d : Die} {k : Cmd} {n : Nat}
    (h : ∀ r ∈ (k.dstRange n).1 :: k.scaleRange n, ∀ i < r.2, s.landsAt d none (s.winAddr d k.part (r.1 + i)) = true) : s.StreamOpen d k n := by
  intro r hr i hi
  rw [← State.winAddr_add]
  exact State.scrOpen_of_landsAt (s.high_winAddr d k.part _) (h r hr i hi)

/-- What a stream leaves that meets no fault. -/
theorem State.veStream_of_open {s : State} (hw : s.mem.wrs = []) (d : Die) (c : Cx) (v : Fin 8) (f : Flight) {n : Nat} (ho : s.StreamOpen d f.cmd n) :
    let t := s.veStream d c v f n
    let z := s.streamResults d f.cmd n
    t.mem.cells = writeRuns id (s.streamRuns d f.cmd z) s.mem.cells ∧
      t.fld (R.CX_VE_FLAGS d c) F.CX_VE_FLAGS.FLAGS =
        (s.fld (R.CX_VE_FLAGS d c) F.CX_VE_FLAGS.FLAGS ||| s.streamFlags d f.cmd n) % (F.CX_VE_FLAGS.FLAGS.top + 1) ∧
      t.fld (R.VE_ELEMS d v) F.CTR.COUNT = (s.fld (R.VE_ELEMS d v) F.CTR.COUNT + z.1.length) % 2 ^ 48 ∧
      FlightBy d c f.slot (fun g => { ended g with tile := none }) s t ∧ (∀ x ∈ t.mem.scrPoison, x ∈ s.mem.scrPoison) ∧
      t.mem.blocks = s.mem.blocks ∧ t.cores = s.cores ∧ VectorOnly [R.CX_VE_FLAGS d c, R.VE_ELEMS d v, R.VE_CYC_BUSY d v] s t := by
  intro t z
  obtain ⟨hcodes, hscales⟩ := s.length_streamResults d f.cmd n
  obtain ⟨honly, hcells⟩ := State.streamPut_of_open c hw ho hcodes hscales
  have ht : t = _ := State.veStream_eq hw d c v f n
  obtain ⟨hmem, hcores, hregs, hflight⟩ := (s.streamPut d c f z).veEnd_frame d c v f.slot (s.streamFlags d f.cmd n) z.1.length (f.cmd.streamCycles n)
  obtain ⟨hflags, helems⟩ := (s.streamPut d c f z).fld_veNoted d c v (s.streamFlags d f.cmd n) z.1.length (f.cmd.streamCycles n)
  have hvector := VectorOnly.veEnd _ d c v f.slot (s.streamFlags d f.cmd n) z.1.length (f.cmd.streamCycles n)
    (.of_scrOnly [R.CX_VE_FLAGS d c, R.VE_ELEMS d v, R.VE_CYC_BUSY d v] honly) (fun _ h => h)
  rw [← ht] at hmem hcores hregs hflight hvector
  rw [State.fld_of_regs_eq honly.regs] at hflags helems
  have hblocks : (s.streamPut d c f z).mem.blocks = s.mem.blocks ∧ (s.streamPut d c f z).cores = s.cores := by
    rw [honly.1]
    exact ⟨rfl, rfl⟩
  refine ⟨by rw [hmem, hcells], (State.fld_of_regs_eq hregs _ _).trans hflags, (State.fld_of_regs_eq hregs _ _).trans helems,
    hflight.from_cxs honly.cxs.symm, fun x hx => honly.2 x (by rwa [hmem] at hx), by rw [hmem, hblocks.1], hcores.trans hblocks.2, hvector⟩

/-- What a stream leaves of the state before the findings on its reads. -/
theorem ScrFound.veStream_frame {s s1 : State} {d : Die} (h : ScrFound d s s1) (hw : s.mem.wrs = []) (c : Cx) (v : Fin 8) (f : Flight) {n : Nat}
    (ho : s.StreamOpen d f.cmd n) : let t := s1.veStream d c v f n
    let z := s.streamResults d f.cmd n
    t.mem.cells = writeRuns id (s.streamRuns d f.cmd z) s.mem.cells ∧
      t.fld (R.CX_VE_FLAGS d c) F.CX_VE_FLAGS.FLAGS =
        (s.fld (R.CX_VE_FLAGS d c) F.CX_VE_FLAGS.FLAGS ||| z.2.2 ||| s.reservedFlag d f.cmd n) % (F.CX_VE_FLAGS.FLAGS.top + 1) ∧
      t.fld (R.VE_ELEMS d v) F.CTR.COUNT = (s.fld (R.VE_ELEMS d v) F.CTR.COUNT + z.1.length) % 2 ^ 48 ∧
      FlightBy d c f.slot (fun g => { ended g with tile := none }) s t ∧ (∀ x ∈ t.mem.scrPoison, x ∈ s1.mem.scrPoison) ∧
      t.mem.blocks = s.mem.blocks ∧ t.cores = s.cores ∧ VectorOnly [R.CX_VE_FLAGS d c, R.VE_ELEMS d v, R.VE_CYC_BUSY d v] s1 t := by
  intro t z
  obtain ⟨hcells, hflags, helems, hflight, hpoison, hblocks, hcores, honly⟩ := State.veStream_of_open (h.wrs.trans hw) d c v f (h.streamOpen ho)
  have hflagReg (g : Fld) : s1.fld (R.CX_VE_FLAGS d c) g = s.fld (R.CX_VE_FLAGS d c) g :=
    h.fld (by unfold R.CX_VE_FLAGS R.SCR_ECC_CE; omega) (by unfold R.CX_VE_FLAGS R.SCR_ECC_UE; omega) g
  have helemReg (g : Fld) : s1.fld (R.VE_ELEMS d v) g = s.fld (R.VE_ELEMS d v) g :=
    h.fld (by unfold R.VE_ELEMS R.SCR_ECC_CE; omega) (by unfold R.VE_ELEMS R.SCR_ECC_UE; omega) g
  rw [h.streamResults, h.streamRuns, h.memCells] at hcells
  rw [hflagReg, h.streamFlags, State.streamFlags, ← Nat.lor_assoc] at hflags
  rw [helemReg, h.streamResults] at helems
  exact ⟨hcells, hflags, helems, hflight.from_cxs h.cxs.symm, hpoison, hblocks.trans h.blocks, hcores.trans h.cores, honly⟩

/-! ## A stream command at its engine (R170, R172, R189) -/

/-- The scales a stream reads are checked as their one range. -/
theorem State.givenChecks_eq (s : State) (d : Die) (k : Cmd) (n : Nat) (h : k.veQmode = 2) :
    (k.scaleRange n).map (fun r => s.winBad d k.part [r]) = [s.winBad d k.part (k.givenRange n)] := by
  rw [Cmd.givenRange, if_pos h, Cmd.scaleRange_of_mode n (by rw [h]; decide), List.map_singleton]

/-- The window ranges of a stream command: its destination, its sources, its scales. -/
def Cmd.allRanges (k : Cmd) (n : Nat) : List (Nat × Nat) := ((k.dstRange n).1 :: (k.srcRanges n).map (·.1)) ++ k.scaleRange n

/-- Every range of a stream command lies in its partition's window. -/
def Cmd.Inside (k : Cmd) (d : Die) (n : Nat) (s : State) : Prop := ∀ r ∈ k.allRanges n, s.inWin d k.part r = true

/-- The destination of a stream command meets no source other than exactly. -/
def Cmd.Apart (k : Cmd) (n : Nat) : Prop := ∀ x ∈ k.srcRanges n, rangesMeet (k.dstRange n).1 x.1 = true → k.dstRange n = x

theorem ScrFound.inside_iff {s t : State} {d : Die} (h : ScrFound d s t) (k : Cmd) (n : Nat) : k.Inside d n t ↔
    ∀ r ∈ k.allRanges n, r.1 + r.2 ≤ s.fld (R.SCR_WIN d k.part) F.SCR_WIN.SIZE_MIB * 0x100000 := by
  simp only [Cmd.Inside, h.inWin, State.inWin_iff]

section
variable {s : State} {d : Die} {v : Fin 8} {c : Cx} {f : Flight} {op : Nat} (xs : List ScrFinding) (hfr : s.veFront d v op = some (c, f))
include hfr

theorem veRun_of_empty (hn : f.count = 0) : veRun op d v xs s = s.workDone d c f.slot := by
  simp only [veRun, hfr, hn, if_true]

variable (hn : f.count ≠ 0)
include hn

theorem veRun_of_check {code off : Nat}
    (h : (s.scrAll d xs).veCheck d f.cmd.part (f.cmd.dstRange f.count) (f.cmd.srcRanges f.count) (f.cmd.scaleRange f.count) = some (code, off)) :
    veRun op d v xs s = (s.scrAll d xs).engFault d c f code off := by
  simp only [veRun, hfr, if_neg hn, h]

/-- A range outside the window stops the command. -/
theorem veRun_of_outside (hout : ¬ f.cmd.Inside d f.count (s.scrAll d xs)) : ∃ r ∈ f.cmd.allRanges f.count,
    veRun op d v xs s = (s.scrAll d xs).engFault d c f Vc.VE_RANGE r.1 := by
  obtain ⟨r, hr, hcheck⟩ := State.veCheck_of_outside hout
  exact ⟨r, hr, veRun_of_check xs hfr hn hcheck⟩

variable (hin : f.cmd.Inside d f.count (s.scrAll d xs))
include hin

/-- A destination that meets a source other than exactly stops the command. -/
theorem veRun_of_overlap (hover : ¬ f.cmd.Apart f.count) : ∃ x ∈ f.cmd.srcRanges f.count,
    veRun op d v xs s = (s.scrAll d xs).engFault d c f Vc.VE_OVERLAP x.1.1 := by
  obtain ⟨x, hx, hcheck⟩ := State.veCheck_of_overlap hin hover
  exact ⟨x, hx, veRun_of_check xs hfr hn hcheck⟩

variable (hclear : f.cmd.Apart f.count)
include hclear

/-- An uncorrectable line of a source, or of the scales read, stops the command. -/
theorem veRun_of_bad {o : Nat}
    (hbad : (s.scrAll d xs).winBad d f.cmd.part ((f.cmd.srcRanges f.count).map (·.1) ++ f.cmd.givenRange f.count) = some o) :
    veRun op d v xs s = (s.scrAll d xs).engFault d c f Vc.SCR_ECC o := by
  have hcheck := State.veCheck_of_clear hin hclear
  rw [State.winBad_append] at hbad
  cases hsrcs : (s.scrAll d xs).winBad d f.cmd.part ((f.cmd.srcRanges f.count).map (·.1)) with
  | some o' =>
    rw [hsrcs] at hcheck hbad
    obtain rfl : o' = o := Option.some.inj hbad
    exact veRun_of_check xs hfr hn hcheck
  | none =>
    rw [hsrcs, Option.map_none] at hcheck
    rw [hsrcs, Option.none_or] at hbad
    have hq : f.cmd.veQmode = 2 := by
      by_contra hq
      rw [Cmd.givenRange, if_neg hq] at hbad
      cases hbad
    simp only [veRun, hfr, if_neg hn, hcheck, if_pos hq, State.givenChecks_eq _ d _ _ hq, hbad]

/-- Else the command does its work. -/
theorem veRun_of_sound
    (hsound : (s.scrAll d xs).winBad d f.cmd.part ((f.cmd.srcRanges f.count).map (·.1) ++ f.cmd.givenRange f.count) = none) :
    veRun op d v xs s = (s.scrAll d xs).veStream d c v f f.count := by
  rw [State.winBad_append, Option.or_eq_none_iff] at hsound
  obtain ⟨hsrcs, hgiven⟩ := hsound
  have hcheck : (s.scrAll d xs).veCheck d f.cmd.part (f.cmd.dstRange f.count) (f.cmd.srcRanges f.count) (f.cmd.scaleRange f.count) = none := by
    rw [State.veCheck_of_clear hin hclear, hsrcs, Option.map_none]
  by_cases hq : f.cmd.veQmode = 2
  · simp only [veRun, hfr, if_neg hn, hcheck, if_pos hq, State.givenChecks_eq _ d _ _ hq, hgiven]
  · simp only [veRun, hfr, if_neg hn, hcheck, if_neg hq]

end

/-! ## The stream commands -/

/-- Settles O45: each stream command is `veRun` at its opcode, whose checks and work the lemmas above say; with integer formats its results are
those of `Cmd.compute_int`; a finding is told by `State.scrFind`. -/
theorem vectorStreams : Obligations.VectorStreams := by
  unfold Obligations.VectorStreams
  refine ⟨fun s d v c f xs hon hfr hen hkind => ?_, fun k n as_ bs cs ha hb hd hmode => ?_, fun s d x => ?_⟩
  · intro k n s1 dst srcs given all inside clear sound stops rd a b e z lands does
    have hfound : ScrFound d s s1 := s.scrFound_scrAll d xs
    have hstops (code addr : Nat) (hcode : code < 256) : EngineStops d (8 + v.val) c f.slot code addr s1 (s1.engFault d c f code addr) :=
      s1.engineStops_engFault d c addr hen hcode
    have hinside : k.Inside d n s1 ↔ inside := hfound.inside_iff k n
    have hdoes (op : Nat) (i : Instr) (hi : exec i s = s.whileOn (veRun op d v xs s)) : does op i := by
      intro hop
      have hve : s.veFront d v op = some (c, f) := by simp only [State.veFront, hfr, hkind, k, hop, and_self, if_true]
      have hruns {t : State} {P : State → Prop} (ht : veRun op d v xs s = t) (hP : P t) : Answers i s P :=
        .of (hi.trans (State.whileOn_on _ hon)) (ht ▸ hP)
      refine ⟨fun hn => ?_, fun hn hout => ?_, fun hn hin hover => ?_, fun hn hin hclear hbad => ?_, fun hn hin hclear hsound hlands hw => ?_⟩
      · exact hruns (veRun_of_empty xs hve hn) ⟨s.flightBy_workDone d c f.slot, s.workDone_frame d c f.slot⟩
      · obtain ⟨r, hr, hrun⟩ := veRun_of_outside xs hve hn (mt hinside.mp hout)
        exact hruns hrun ⟨r.1, List.mem_map_of_mem hr, hstops _ _ (by decide)⟩
      · obtain ⟨x, hx, hrun⟩ := veRun_of_overlap xs hve hn (hinside.mpr hin) hover
        exact hruns hrun ⟨x.1.1, List.mem_map_of_mem hx, hstops _ _ (by decide)⟩
      · obtain ⟨o, ho⟩ := Option.ne_none_iff_exists'.mp hbad
        exact hruns (veRun_of_bad xs hve hn (hinside.mpr hin) hclear ho) ⟨o, State.winBad_mem ho, hstops _ _ (by decide)⟩
      · exact hruns (veRun_of_sound xs hve hn (hinside.mpr hin) hclear hsound)
          (hfound.veStream_frame hw c v f (State.streamOpen_of_lands hlands))
    exact ⟨hdoes _ _ rfl, hdoes _ _ rfl, hdoes _ _ rfl, hdoes _ _ rfl, hdoes _ _ rfl, hdoes _ _ rfl, hdoes _ _ rfl, hdoes _ _ rfl, hdoes _ _ rfl,
      hdoes _ _ rfl, hdoes _ _ rfl, hdoes _ _ rfl, hdoes _ _ rfl, hdoes _ _ rfl, hdoes _ _ rfl, hdoes _ _ rfl⟩
  · intro u x z top is i hi
    obtain ⟨helem, hreduce⟩ := k.compute_int as_ bs cs ha hb hd hmode hi
    have his (op : Nat) (hmem : op ∈ [opADD, opSUB, opMUL, opFMA, opMAX, opMIN, opRELU]) {r : Int}
        (hr : veInt op (x k.veAfmt as_ i) (x k.veBfmt bs i) (x k.veDfmt cs i) = r) (hop : k.op = op) : is i r := by
      subst hop hr
      exact helem hmem
    refine ⟨his opADD (by decide) rfl, his opSUB (by decide) rfl, his opMUL (by decide) rfl, his opFMA (by decide) rfl, his opMAX (by decide) rfl,
      his opMIN (by decide) rfl, his opRELU (by decide) rfl, fun h hseg hlen _ => ?_, fun h hseg hlen _ => ?_⟩
    · have hsum := hreduce (.inl h) hseg hlen
      rwa [h, intReduce_sum] at hsum
    · have hsum := hreduce (.inr h) hseg hlen
      rwa [h, intReduce_sumsq, List.map_map] at hsum
  · intro line t
    exact ⟨s.scrFind_of_correctable d x, s.scrFind_of_marked d x, s.scrFind_new d x⟩

end Sys2Proof.Machine
end

section
/-!
The DMA engines (07_dma.md): the CRC writes that are left at a command's end, which refute O47, and a completion signal of the reserved
operation, which refutes O48.
-/

namespace Sys2Proof.Machine

/-! ## The blocks a command has written wholly (R211) -/

theorem isSome_mapM {α β : Type} {g : α → Option β} {l : List α} (h : ∀ a ∈ l, (g a).isSome = true) : (l.mapM g).isSome = true := by
  induction l with
  | nil => rfl
  | cons a l ih =>
    obtain ⟨x, hx⟩ := Option.isSome_iff_exists.mp (h a List.mem_cons_self)
    obtain ⟨y, hy⟩ := Option.isSome_iff_exists.mp (ih fun b hb => h b (List.mem_cons_of_mem _ hb))
    simp [hx, hy]

theorem byteIn_single {b i : Nat} {bs : List Byte} (h : i < bs.length) : byteIn [(b, bs)] (b + i) = bs[i]? := by
  simp [byteIn, h]

/-- One run of 4,096 bytes holds every byte of its block. -/
theorem isSome_blockBytes_single {b : Nat} {bs : List Byte} (h : bs.length = 4096) : (blockBytes [(b, bs)] b).isSome = true :=
  isSome_mapM fun i hi => by
    have hlt : i < bs.length := h ▸ List.mem_range.mp hi
    rw [byteIn_single hlt, List.getElem?_eq_getElem hlt]
    rfl

theorem Flight.wholeBlocks_of_single {f : Flight} {b : Nat} {bs : List Byte} (hout : f.out = [(b, bs)]) (hb : b % 4096 = 0)
    (h : bs.length = 4096) : f.wholeBlocks = [b] := by
  have hblocks : blocksOfRun b bs.length = [b] := by
    have hstart : b / 4096 * 4096 = b := by omega
    simp [blocksOfRun, h, hb, hstart]
  have honce : [b].eraseDups = [b] := by simp [List.eraseDups_cons]
  simp [Flight.wholeBlocks, hout, hblocks, honce, isSome_blockBytes_single h]

/-! ## A CRC write to a stack of another die (R211, R341) -/

/-- A context's CRC write to a stack of another die that is in service is sent to it, and takes the next id. -/
theorem State.sendWrite_crc_of_away {s : State} {w : Wr} {d : Die} {c : Cx} {k j lin : Nat} (hsrc : w.src = .cx d c) (hcrc : w.crc = some k)
    (hr : s.region w.addr = .hbm j lin) (haway : d.val ≠ j / 5) (hin : s.absent (.hbm j lin) = false) :
    (s.sendWrite w).mem.nextId = s.mem.nextId + 1 := by
  have hown : (d.val == j / 5) = false := by simpa using haway
  have hdst : ∀ p, (Region.hbm j lin).dst ≠ .pkg p := fun p => by
    simp only [Region.dst]
    split_ifs <;> simp
  simp only [State.sendWrite, hr, hin, hsrc, hcrc, Src.die, hown, Bool.false_and, Bool.and_false, Bool.false_eq_true, if_false]

/-- So is that of a block its command has written wholly, where the destination stream finds the block there. -/
theorem State.writeCrc_of_away {s : State} {d : Die} {c : Cx} {f : Flight} {p : Port} {b pa j lin : Nat} (elem : Nat)
    (htrans : s.translate d c p.stream (b % 2 ^ 57) true = (.ok pa, s)) (hbytes : (blockBytes f.out b).isSome = true)
    (hr : s.region pa = .hbm j lin) (haway : d.val ≠ j / 5) (hin : s.absent (.hbm j lin) = false) :
    (s.writeCrc d c f p elem b).mem.nextId = s.mem.nextId + 1 := by
  obtain ⟨bs, hbs⟩ := Option.isSome_iff_exists.mp hbytes
  have hkey : s.region ((Region.hbm j lin).key pa) = .hbm j lin := State.region_key_of_hbm hr
  simp only [State.writeCrc, htrans, hbs, hr, Region.isMem, if_true]
  exact State.sendWrite_crc_of_away rfl rfl hkey haway hin

/-- A command ends that has written wholly one block, of a stack of another die: its CRC write is sent. -/
theorem State.dmaEnd_of_away {s : State} {d : Die} {c : Cx} {e : Fin 16} {f : Flight} {b pa j lin : Nat} {bs : List Byte}
    (hf : (s.cx d c).flight f.slot = some f) (hout : f.out = [(b, bs)]) (hb : b % 4096 = 0) (hbs : bs.length = 4096)
    (htrans : s.translate d c (ddstPort e).stream (b % 2 ^ 57) true = (.ok pa, s)) (hr : s.region pa = .hbm j lin)
    (haway : d.val ≠ j / 5) (hin : s.absent (.hbm j lin) = false) : (s.dmaEnd d c e f).mem.nextId = s.mem.nextId + 1 := by
  have hcrcs : s.writeCrcs d c f (ddstPort e) f.plan.length = s.writeCrc d c f (ddstPort e) f.plan.length b := by
    simp only [State.writeCrcs, hf, Flight.wholeBlocks_of_single hout hb hbs, List.foldl_cons, List.foldl_nil]
  have hdone : (s.dmaEnd d c e f).mem = (s.writeCrc d c f (ddstPort e) f.plan.length b).mem := by
    rw [State.dmaEnd, hcrcs, State.workDone]
    exact (State.engRan_mem _ d c f.slot).1
  rw [hdone]
  exact State.writeCrc_of_away _ htrans (hout ▸ isSome_blockBytes_single hbs) hr haway hin

/-- The last piece of a plan moved, the command ends. -/
theorem State.dmaGo_of_last {s s1 : State} {d : Die} {c : Cx} {e : Fin 16} {slot : Nat} {f g : Flight} {r : DRun} (fuel : Nat)
    (hf : (s.cx d c).flight slot = some f) (hr : f.plan[f.prog]? = some (.move r)) (hmove : s.pieceMove d c e f r = (none, s1))
    (hlast : f.prog + 1 = f.plan.length) (hg : ((s1.setFlight d c slot fun g => { g with prog := f.prog + 1 }).cx d c).flight slot = some g) :
    State.dmaGo d c e slot (fuel + 1) s = (s1.setFlight d c slot fun g => { g with prog := f.prog + 1 }).dmaEnd d c e g := by
  simp only [State.dmaGo, hf, hr, hmove, hlast, if_true]
  rw [← hlast]
  simp only [hg]

/-! ## The last piece of a DESC whose first run went to another die (O47) -/

/-- The bytes of the first run. -/
def zeroBlock : List Byte := List.replicate 4096 0

/-- A DESC of two descriptors in partition 0, on DMA engine 0. -/
def twoRuns : Cmd where
  w0 := (((0 : Word).put 3 0 1).put 5 4 2).put 17 10 3
  w3 := 1

/-- Its first run: 4,096 bytes from the window to virtual address 0. -/
def runAway : DRun := { src := 0, srcSp := true, dst := 0, len := 4096 }

/-- Its second run: two bytes of the window, to both sides of the 4 KiB boundary at 8,192. -/
def runNear : DRun := { src := 0, srcSp := true, dst := 8191, dstSp := true, len := 2 }

/-- The flight of the DESC before its last piece. -/
def twoRunsFlight : Flight where
  slot := 0
  ext := false
  cmd := twoRuns
  id := 1
  phase := .running
  prog := 4
  out := [(0, zeroBlock)]
  plan := runAway.items false ++ runNear.items false
  dsts := [(0, 4096)]

/-- CD0 and CD1 are in service, with stack 5, CD1's first. The window of partition 0 on CD0 has 1 MiB. The engine's destination stream
holds a leaf that takes virtual address 0 to the stack. The first run's 64 writes have been accepted there and receipted, so that no write
is in flight and the block is open for the CRC write of command 1. The model comes here from the issue of the DESC: it moves the first run
and the second run's first byte, and a WR_LINE and an ACK follow for each of the 64 writes. -/
def crcLeft : State where
  regs := [(R.HUB_CD_STATUS 0, 8), (R.HUB_CD_STATUS 1, 8), (R.HS_STATUS 5, 8), (R.CX_STATE 0 0, 2), (R.SCR_WIN 0 0, 0x10000)]
  cxs := [(0, { flights := [twoRunsFlight] })]
  tlb := [{ die := 0, stream := dmStream 0 2, asid := 0, level := 2, vpn := 0, pte := (0xD7 : Word).put 53 10 (0x5000000000 / 4096) }]
  mem := { blocks := [(0x5000000000 / 4096, { gen := 64, isOpen := true, writer := 1, begun := [1] })], nextId := 65 }

/-- The last piece. -/
def lastPiece : DRun := { src := 1, srcSp := true, dst := 8192, dstSp := true, len := 1 }

theorem front_crcLeft : crcLeft.front 0 16 = some (0, twoRunsFlight) := rfl

theorem plan_twoRunsFlight : twoRunsFlight.plan[twoRunsFlight.prog]? = some (.move lastPiece) := by decide

theorem lands_lastPiece : crcLeft.landsAt 0 none (crcLeft.winAddr 0 twoRuns.part 8192) = true := by decide

theorem winBad_crcLeft : crcLeft.winBad 0 twoRuns.part [(1, 1)] = none := by decide

/-- The state once the last piece has been moved. -/
def lastMoved : State :=
  ((State.dmaPlan 0 0 twoRunsFlight 0 crcLeft).pieceMove 0 0 0 twoRunsFlight lastPiece).2.setFlight 0 0 0 fun g => { g with prog := 5 }

/-- The flight then. -/
def movedFlight : Flight := { twoRunsFlight with prog := 5 }

theorem flight_lastMoved : (lastMoved.cx 0 0).flight 0 = some movedFlight := rfl

theorem translate_lastMoved : lastMoved.translate 0 0 (ddstPort 0).stream (0 % 2 ^ 57) true = (.ok 0x5000000000, lastMoved) := rfl

theorem dmaRun_crcLeft : dmaRun 3 0 0 [] crcLeft = lastMoved.dmaEnd 0 0 0 movedFlight := by
  have hgo : dmaRun 3 0 0 [] crcLeft = State.dmaGo 0 0 0 0 64 (State.dmaPlan 0 0 twoRunsFlight 0 crcLeft) := rfl
  rw [hgo]
  exact State.dmaGo_of_last 63 (f := twoRunsFlight) rfl plan_twoRunsFlight rfl rfl flight_lastMoved

/-- The command's end sends the CRC write of the first run's block: an id is taken. -/
theorem nextId_dmaRun_crcLeft : (dmaRun 3 0 0 [] crcLeft).mem.nextId = 66 := by
  rw [dmaRun_crcLeft, State.dmaEnd_of_away (pa := 0x5000000000) (j := 5) (lin := 0x5000000000) flight_lastMoved rfl rfl
    List.length_replicate translate_lastMoved rfl (by decide) (by decide)]
  rfl

/-- Refutes O47: the statement says that a piece whose own bytes land at once changes nothing of memory but bytes, block records and poison
marks. The last piece of a command also sends the CRC writes of every block the command has written wholly (R211, R214). Where an earlier
run wrote a block of another die's stack, its CRC write is then in flight, though the last piece went to the die's own scratchpad. -/
theorem not_dmaMoves : ¬ Obligations.DmaMoves := by
  unfold Obligations.DmaMoves
  intro h
  obtain ⟨-, hrunning, -⟩ := h crcLeft 0 0 0 twoRunsFlight rfl front_crcLeft rfl rfl rfl
  have hgo := hrunning (by decide) rfl lastPiece plan_twoRunsFlight rfl rfl (fun i hi => by
    obtain rfl : i = 0 := Nat.lt_one_iff.mp hi
    exact Option.isSome_iff_exists.mpr ⟨_, (if_pos rfl).trans (if_pos lands_lastPiece)⟩) rfl
  obtain ⟨-, hdesc⟩ := hgo _ ((if_pos rfl).trans (if_pos ⟨winBad_crcLeft, rfl⟩))
  obtain ⟨t, ht, ⟨-, -, -, -, -, -, hframe⟩, -⟩ := hdesc rfl
  have hexec : exec (.desc 0 0 []) crcLeft = .next (dmaRun 3 0 0 [] crcLeft) := State.whileOn_on _ rfl
  have htr : t = dmaRun 3 0 0 [] crcLeft := Host.Outcome.next.inj (ht.symm.trans hexec)
  have hid : t.mem.nextId = 65 := congrArg (fun u : State => u.mem.nextId) hframe
  rw [htr, nextId_dmaRun_crcLeft] at hid
  exact absurd hid (by decide)

/-! ## A completion signal of the reserved operation (O48) -/

/-- A COPY on DMA engine 0 of no bytes, with a signal whose SIGNAL_OP is 3. -/
def reservedSignal : Cmd where
  w0 := (((((0 : Word).put 3 0 1).put 5 4 2).put 17 10 1).put 18 18 1).put 21 21 1
  w1 := (0 : Word).put 12 11 3

/-- Its flight, at its completion point. -/
def reservedSignalFlight : Flight := { slot := 0, ext := true, cmd := reservedSignal, id := 1, phase := .worked }

/-- CD0.CX0 is READY with the COPY worked. Of partition 0 no pace is set: its registers at reset name this package as the leader's and quire 0
as the gathering head (R440). -/
def reservedSignalState : State where
  regs := [(R.CX_STATE 0 0, 2)]
  cxs := [(0, { flights := [reservedSignalFlight] })]

/-- The model takes the reserved operation for ARRIVE, and notes its round for the pace reports. -/
theorem pace_dmaCompletion_reservedSignal : (dmaCompletion 0 0 0 reservedSignalState).pace ≠ [] := by decide

/-- Refutes O48: the statement takes every state, and of a signal it excludes ARRIVE by its code 2 alone, not the reserved code 3, which
the model sends as an ARRIVE too. The signal of such a command to its partition's gathering head is noted for the pace reports, outside what
the statement lets a completion change. No command comes so far: one with SIGNAL_OP 3 is refused with BAD_COMMAND (R67). -/
theorem not_dmaCompletion : ¬ Obligations.DmaCompletion := by
  unfold Obligations.DmaCompletion
  intro h
  obtain ⟨-, -, -, hcompletes, -⟩ := h reservedSignalState 0 0 0 reservedSignalFlight rfl rfl rfl
  obtain ⟨-, hdone⟩ := hcompletes ⟨rfl, by decide, by decide⟩ ⟨rfl, by decide, by decide⟩ rfl (fun hf => absurd hf (by decide))
    (fun _ => ⟨rfl, by decide, by decide⟩) (fun hw => absurd hw (by decide))
  obtain ⟨t, ht, -, -, -, -, -, -, -, -, -, hframe⟩ := hdone (fun hm => absurd hm (by decide)) rfl
  have hexec : exec (.dmaCompletion 0 0 0) reservedSignalState = .next (dmaCompletion 0 0 0 reservedSignalState) := State.whileOn_on _ rfl
  have htr : t = dmaCompletion 0 0 0 reservedSignalState := Host.Outcome.next.inj (ht.symm.trans hexec)
  have hpace : t.pace = [] := congrArg State.pace hframe
  exact pace_dmaCompletion_reservedSignal (htr ▸ hpace)

end Sys2Proof.Machine
end

section
/-!
What leaves firn and its epochs as they are, and a melt (08_firn.md): R225-R227, R239. INSTANCE is the count of an epoch's runs (R225).
-/

namespace Sys2Proof.Machine

/-! ## Registers that are no epoch's -/

/-- A register other than every FIRN_EPOCH_n. -/
def OffEpochs (o : Nat) : Prop := o < R.FIRN_EPOCH 0 ∨ R.FIRN_EPOCH 256 ≤ o

theorem OffEpochs.ne {o e : Nat} (ho : OffEpochs o) (he : e < 256) : R.FIRN_EPOCH e ≠ o := by
  unfold OffEpochs R.FIRN_EPOCH at ho
  unfold R.FIRN_EPOCH
  omega

/-- A compute die's registers lie after HUB's. -/
theorem offEpochs_of_die {d o : Nat} (h : R.dieBase d ≤ o) : OffEpochs o := by
  unfold R.dieBase at h
  unfold OffEpochs R.FIRN_EPOCH
  omega

theorem offEpochs_CX_STATE (d c : Nat) : OffEpochs (R.CX_STATE d c) := offEpochs_of_die (d := d) (by unfold R.CX_STATE; omega)
theorem offEpochs_CX_FAULT (d c : Nat) : OffEpochs (R.CX_FAULT d c) := offEpochs_of_die (d := d) (by unfold R.CX_FAULT; omega)
theorem offEpochs_CX_FAULT_ADDR (d c : Nat) : OffEpochs (R.CX_FAULT_ADDR d c) := offEpochs_of_die (d := d) (by unfold R.CX_FAULT_ADDR; omega)
theorem offEpochs_MA_STATUS (d m : Nat) : OffEpochs (R.MA_STATUS d m) := offEpochs_of_die (d := d) (by unfold R.MA_STATUS; omega)
theorem offEpochs_SPN_STATUS (d m : Nat) : OffEpochs (R.SPN_STATUS d m) := offEpochs_of_die (d := d) (by unfold R.SPN_STATUS; omega)
theorem offEpochs_SPN_DROPPED (d m : Nat) : OffEpochs (R.SPN_DROPPED d m) := offEpochs_of_die (d := d) (by unfold R.SPN_DROPPED; omega)

/-- HUB's registers that the ends of firn's commands count in or show. -/
theorem offEpochs_hub : ∀ o ∈ [R.SYNC_STATUS, R.SYNC_OPS, R.SYNC_ERRORS, R.FIRN_CMD_MELTED, R.FIRN_MELTS, R.FIRN_SETTLES], OffEpochs o := by
  unfold OffEpochs
  decide

/-! ## Firn, memory and the epochs' registers stay -/

/-- Firn, memory and every FIRN_EPOCH_n are in `t` what they were in `s`. -/
structure FirnKept (s t : State) : Prop where
  firn : t.firn = s.firn
  mem : t.mem = s.mem
  reg : ∀ e < 256, t.reg (R.FIRN_EPOCH e) = s.reg (R.FIRN_EPOCH e)

theorem FirnKept.refl (s : State) : FirnKept s s := ⟨rfl, rfl, fun _ _ => rfl⟩

section
variable {s t : State} (h : FirnKept s t)
include h

theorem FirnKept.epState {e : Nat} (he : e < 256) : t.epState e = s.epState e :=
  congrArg (fun w : Word => w.get F.FIRN_EPOCH.STATE.hi F.FIRN_EPOCH.STATE.lo) (h.reg e he)

theorem FirnKept.setReg {o : Nat} (ho : OffEpochs o) (w : Word) : FirnKept s (t.setReg o w) :=
  ⟨h.firn, h.mem, fun e he => (t.reg_setReg_of_ne w (ho.ne he)).trans (h.reg e he)⟩

theorem FirnKept.setFld {o : Nat} (ho : OffEpochs o) (f : Fld) (v : Nat) : FirnKept s (t.setFld o f v) := h.setReg ho _

theorem FirnKept.raiseFld {o : Nat} (ho : OffEpochs o) (f : Fld) (v : Nat) : FirnKept s (t.raiseFld o f v) := by
  unfold State.raiseFld
  split
  · exact h.setFld ho _ _
  · exact h

theorem FirnKept.raise (r : FaultRec) : FirnKept s (t.raise r) := ⟨h.firn, h.mem, h.reg⟩

theorem FirnKept.count {o : Nat} (ho : OffEpochs o) (n : Nat) : FirnKept s (t.count o n) := by
  unfold State.count
  extract_lets c s1 s2 u
  have h1 : FirnKept s s1 := h.setFld ho _ _
  split_ifs
  · exact h1
  · exact (h1.setFld ho _ _).raise _
  · exact h1.setFld ho _ _

theorem FirnKept.setCx (d : Die) (c : Cx) (x : Ctx) : FirnKept s (t.setCx d c x) := ⟨h.firn, h.mem, h.reg⟩

theorem FirnKept.setArr (d m : Nat) (a : ArraySt) : FirnKept s (t.setArr d m a) := ⟨h.firn, h.mem, h.reg⟩

theorem FirnKept.withSync (x : SyncSt) : FirnKept s { t with sync := x } := ⟨h.firn, h.mem, h.reg⟩

theorem FirnKept.setQuire (q : Nat) (r : QuireRec) : FirnKept s (t.setQuire q r) := h.withSync _

theorem FirnKept.setCxState (d : Die) (c : Cx) (v : Nat) : FirnKept s (t.setCxState d c v) := h.setFld (offEpochs_CX_STATE _ _) _ _

theorem FirnKept.cxShow (d : Die) (c : Cx) : FirnKept s (t.cxShow d c) :=
  (h.setFld (offEpochs_CX_STATE _ _) _ _).setFld (offEpochs_CX_STATE _ _) _ _

/-! ### A command's work ends (R69) -/

theorem FirnKept.engRan (d : Die) (c : Cx) (n : Nat) : FirnKept s (t.engRan d c n) := by
  unfold State.engRan
  split
  · split
    · exact ⟨h.firn, h.mem, h.reg⟩
    · exact h
  · exact h

theorem FirnKept.workDone (d : Die) (c : Cx) (n : Nat) : FirnKept s (t.workDone d c n) := (h.engRan d c n).setCx d c _

/-! ### A waiter's unit goes back to its quire (R378, R379) -/

theorem FirnKept.syncShow : FirnKept s t.syncShow :=
  ((h.setFld (offEpochs_hub _ (by simp)) _ _).setFld (offEpochs_hub _ (by simp)) _ _).raiseFld (offEpochs_hub _ (by simp)) _ _

theorem FirnKept.wakeWaiter (w : Waiter) (g : Bool) : FirnKept s (t.wakeWaiter w g) := by
  unfold State.wakeWaiter
  extract_lets x s1
  split
  · exact h.setCx _ _ _
  · split
    · exact (h.setCx _ _ _).setCxState _ _ _
    · exact h.setCx _ _ _

theorem FirnKept.evalWaiters (q fuel : Nat) : FirnKept s (State.evalWaiters q fuel t) := by
  induction fuel generalizing t with
  | zero => exact h
  | succ n ih =>
    unfold State.evalWaiters
    extract_lets r go y s1 s2
    have h2 : FirnKept s s2 :=
      List.foldlRecOn (motive := FirnKept s) go _ (h.withSync _) fun _ hu w _ => hu.wakeWaiter w false
    split
    · exact h2
    · split
      · exact h2
      · exact ih ((((h2.setQuire _ _).count (offEpochs_hub _ (by simp)) 1).withSync _).wakeWaiter _ _)

theorem FirnKept.cxWake (d : Die) (c : Cx) : FirnKept s (t.cxWake d c) := by
  unfold State.cxWake
  split
  · exact (h.setCxState _ _ _).setCx _ _ _
  · exact h

theorem FirnKept.ringDoorbells (q : Nat) : FirnKept s (t.ringDoorbells q) :=
  List.foldlRecOn (motive := FirnKept s) t.cxKeys _ h fun u hu p _ => by
    split
    · exact hu.cxWake _ _
    · exact hu

theorem FirnKept.effective (x : QSource) (op arg q : Nat) (r : QuireRec) : FirnKept s (t.effective x op arg q r) :=
  ((((h.setQuire _ _).count (offEpochs_hub _ (by simp)) 1).evalWaiters _ _).ringDoorbells _).syncShow

/-- An operation of a sync unit itself stops no context. -/
theorem FirnKept.quireRefuse_unit (p flag st q op arg slot : Nat) : FirnKept s (t.quireRefuse (.unit p) flag st q op arg slot) :=
  ((h.setQuire _ _).count (offEpochs_hub _ (by simp)) 1).raise _

theorem FirnKept.quireAdd_unit (p q v slot : Nat) : FirnKept s (t.quireAdd (.unit p) q v slot) := by
  unfold State.quireAdd
  extract_lets r
  split_ifs
  · exact h.effective _ _ _ _ _
  · exact h.quireRefuse_unit _ _ _ _ _ _ _
  · exact h.effective _ _ _ _ _
  · exact (h.effective _ _ _ _ _).count (offEpochs_hub _ (by simp)) 1
  · exact h.quireRefuse_unit _ _ _ _ _ _ _

theorem FirnKept.freeWaiterOf (d : Die) (c : Cx) (slot : Nat) (b : Bool) : FirnKept s (t.freeWaiterOf d c slot b) := by
  unfold State.freeWaiterOf
  extract_lets mine y s1 s2
  have h1 : FirnKept s s1 := h.withSync _
  have h2 : FirnKept s s2 := by
    simp only [s2]
    split
    · refine List.foldlRecOn (motive := FirnKept s) mine _ h1 fun u hu w _ => ?_
      split
      · split
        · exact hu.quireAdd_unit _ _ _ _
        · exact hu
      · exact hu
    · exact h1
  exact h2.syncShow

/-! ### Slots, spines and groups of an array (R79, R164, R165) -/

theorem FirnKept.lockSlot (d m i : Nat) (on : Bool) : FirnKept s (t.lockSlot d m i on) := h.setFld (offEpochs_MA_STATUS _ _) _ _

theorem FirnKept.spnShow (d m : Nat) : FirnKept s (t.spnShow d m) :=
  ((h.setFld (offEpochs_SPN_STATUS _ _) _ _).setFld (offEpochs_SPN_STATUS _ _) _ _).setFld (offEpochs_SPN_STATUS _ _) _ _

theorem FirnKept.maShow (d m : Nat) : FirnKept s (t.maShow d m) := by
  have honly := t.regsOnly_maShow d m
  refine ⟨by rw [honly, h.firn], by rw [honly, h.mem], fun e he => (t.regsBut_maShow d m _ ?_).trans (h.reg e he)⟩
  simpa using (offEpochs_MA_STATUS d m).ne he

theorem FirnKept.abandonGroup (d m : Nat) : FirnKept s (t.abandonGroup d m) := by
  unfold State.abandonGroup
  extract_lets a
  split
  · exact h
  · exact ((h.setArr _ _ _).setFld (offEpochs_MA_STATUS _ _) _ _).maShow _ _

theorem FirnKept.releaseTile (d : Die) (f : Flight) : FirnKept s (t.releaseTile d f) := by
  unfold State.releaseTile
  split
  · split
    · exact h
    · exact h.lockSlot _ _ _ _
  · exact h

theorem FirnKept.spinesMelt (e i : Nat) : FirnKept s (t.spinesMelt e i) := by
  refine List.foldlRecOn (motive := FirnKept s) t.arrays _ h fun u hu p _ => ?_
  extract_lets d m gone a t1 t2
  split
  · exact hu
  · have h2 : FirnKept s t2 := List.foldlRecOn (motive := FirnKept s) gone _ (hu.setArr _ _ _) fun v hv x _ => by
      split
      · exact hv
      · exact hv.lockSlot _ _ _ _
    exact (h2.count (offEpochs_SPN_DROPPED _ _) _).spnShow _ _

/-! ### Contexts of a melted INSTANCE (R227, R239) -/

theorem FirnKept.unstopMelted (d : Die) (c : Cx) (slots : List Nat) : FirnKept s (t.unstopMelted d c slots) := by
  unfold State.unstopMelted
  split
  · exact ((h.setReg (offEpochs_CX_FAULT _ _) _).setReg (offEpochs_CX_FAULT_ADDR _ _) _).setCxState _ _ _
  · exact h

theorem FirnKept.meltFlights (e i : Nat) : FirnKept s (t.meltFlights e i) := by
  refine List.foldlRecOn (motive := FirnKept s) t.cxKeys _ h fun u hu p _ => ?_
  extract_lets x mine groups t1 t2 y t3 t4
  split
  · exact hu
  · have h1 : FirnKept s t1 :=
      List.foldlRecOn (motive := FirnKept s) mine _ hu fun v hv f _ => (hv.releaseTile _ f).freeWaiterOf _ _ _ _
    have h2 : FirnKept s t2 := List.foldlRecOn (motive := FirnKept s) groups _ h1 fun v hv m _ => hv.abandonGroup _ m
    have h3 : FirnKept s t3 := h2.setCx _ _ _
    have h4 : FirnKept s t4 := by
      simp only [t4]
      split_ifs
      · exact h3.setCxState _ _ _
      · exact h3.setCxState _ _ _
      · exact h3
    exact ((h4.unstopMelted _ _ _).count (offEpochs_hub _ (by simp)) _).cxShow _ _

theorem FirnKept.recheckEpoch (e : Nat) : FirnKept s (t.recheckEpoch e) := by
  refine List.foldlRecOn (motive := FirnKept s) t.cxKeys _ h fun u hu p _ => ?_
  split
  · extract_lets st v
    split
    · exact ((hu.freeWaiterOf _ _ _ _).setCx _ _ _).setCxState _ _ _
    · exact hu
  · exact hu

end

/-! ## The registers that show firn (R249, R251, R252) -/

/-- The registers of the logs. -/
def logRegs : List Nat := (List.range 21).map R.FIRN_LOG

/-- The registers that show the logs and the writes they hold. -/
def firnShown : List Nat := R.FIRN_STATUS :: logRegs

theorem offEpochs_firnShown : ∀ o ∈ firnShown, OffEpochs o := by
  unfold OffEpochs
  decide

theorem RegsOnly.raiseFld {s t : State} (h : RegsOnly s t) (o : Nat) (f : Fld) (v : Nat) : RegsOnly s (t.raiseFld o f v) := by
  unfold State.raiseFld
  split
  · exact h.setFld _ _ _
  · exact h

theorem RegsBut.raiseFld {l : List Nat} {s t : State} {o : Nat} (f : Fld) (v : Nat) (h : RegsBut l s t) (ho : o ∈ l) :
    RegsBut l s (t.raiseFld o f v) := by
  unfold State.raiseFld
  split
  · exact h.setFld _ _ ho
  · exact h

/-- Every log's register brought to its log. -/
def State.logsShown (s : State) : State := (List.range 21).foldl State.firnShow s

theorem State.logsShown_frame (s : State) : RegsOnly s s.logsShown ∧ RegsBut logRegs s s.logsShown :=
  List.foldlRecOn (motive := fun t => RegsOnly s t ∧ RegsBut logRegs s t) (List.range 21) _ ⟨.refl s, .refl _ s⟩ fun t ht n hn => by
    have hmem : R.FIRN_LOG n ∈ logRegs := List.mem_map_of_mem hn
    exact ⟨(ht.1.setFld _ _ _).raiseFld _ _ _, (ht.2.setFld _ _ hmem).raiseFld _ _ hmem⟩

/-- FIRN_STATUS with its two live fields brought to the logs and the writes in flight. -/
def State.statusShown (s : State) : State :=
  (s.setFld R.FIRN_STATUS F.FIRN_STATUS.FULL_NOW (if s.mem.wrs.any (fun w => w.heldAt.isSome) then 1 else 0)).setFld R.FIRN_STATUS
    F.FIRN_STATUS.SPILLING (if s.firn.entries.any (fun x => x.log == 20 && decide (x.sector < 0x14000000000)) then 1 else 0)

theorem State.firnStatus_eq (s : State) : s.firnStatus = s.statusShown.logsShown := rfl

theorem State.regsOnly_firnStatus (s : State) : RegsOnly s s.firnStatus := by
  have hstatus : RegsOnly s s.statusShown := ((RegsOnly.refl s).setFld _ _ _).setFld _ _ _
  exact hstatus.trans s.statusShown.logsShown_frame.1

theorem State.regsBut_firnStatus (s : State) : RegsBut firnShown s s.firnStatus := by
  have hstatus : RegsBut firnShown s s.statusShown :=
    ((RegsBut.refl _ s).setFld _ _ List.mem_cons_self).setFld _ _ List.mem_cons_self
  exact hstatus.trans (s.statusShown.logsShown_frame.2.mono fun _ => List.mem_cons_of_mem _)

@[simp] theorem State.firnStatus_firn (s : State) : s.firnStatus.firn = s.firn := by rw [s.regsOnly_firnStatus]
@[simp] theorem State.firnStatus_mem (s : State) : s.firnStatus.mem = s.mem := by rw [s.regsOnly_firnStatus]
@[simp] theorem State.firnStatus_cxs (s : State) : s.firnStatus.cxs = s.cxs := by rw [s.regsOnly_firnStatus]

/-- A field of FIRN_STATUS that shows no state stays. -/
theorem State.fld_firnStatus_of_seen (s : State) {f : Fld} (hf : 1 < f.lo) : s.firnStatus.fld R.FIRN_STATUS f = s.fld R.FIRN_STATUS f := by
  rw [State.firnStatus_eq, s.statusShown.logsShown_frame.2.fld (by decide), State.statusShown,
    State.fld_setFld_of_disjoint _ _ _ _ _ (by decide) (.inr hf),
    State.fld_setFld_of_disjoint _ _ _ _ _ (by decide) (.inr (Nat.lt_of_succ_lt hf))]

theorem FirnKept.firnStatus {s t : State} (h : FirnKept s t) : FirnKept s t.firnStatus :=
  ⟨by rw [t.firnStatus_firn, h.firn], by rw [t.firnStatus_mem, h.mem],
    fun e he => (t.regsBut_firnStatus _ fun hmem => (offEpochs_firnShown _ hmem).ne he rfl).trans (h.reg e he)⟩

/-! ## An epoch's state -/

theorem State.epState_setEpState (s : State) (e : Nat) {v : Nat} (hv : v ≤ 7) : (s.setEpState e v).epState e = v :=
  State.fld_setFld_of_le _ _ _ (by decide) hv

@[simp] theorem State.epState_epShow (s : State) (e : Nat) : (s.epShow e).epState e = s.epState e :=
  State.fld_setFld_of_disjoint _ _ _ _ _ (by decide) (by decide)

/-! ## A melt (R239) -/

/-- An INSTANCE's entries, block states and writes in flight dropped. -/
def State.dropInst (s : State) (e i : Nat) : State :=
  { s with
    firn := { s.firn with
      entries := s.firn.entries.filter (fun x => !x.ofInst e i)
      blocks := s.firn.blocks.filter fun b => !(b.epoch == e && b.inst == i) }
    mem := { s.mem with wrs := s.mem.wrs.filter fun w => w.firn != some (e, i) } }

theorem State.meltNow_eq (s : State) (e : Nat) : s.meltNow e =
    ((((((s.setEpState e Ep.MELTING).meltFlights e (s.epInst e)).dropInst e (s.epInst e)).spinesMelt e (s.epInst e)).recheckEpoch e).epShow
      e).firnStatus := rfl

/-- A melt leaves the epoch MELTING, its INSTANCE without an entry in the logs, every other entry and memory as they were. -/
theorem State.meltNow_frame (s : State) {e : Nat} (he : e < 256) :
    (s.meltNow e).epState e = Ep.MELTING ∧ (∀ x, x ∈ (s.meltNow e).firn.entries ↔ x ∈ s.firn.entries ∧ x.ofInst e (s.epInst e) = false) ∧
      (s.meltNow e).mem.cells = s.mem.cells := by
  have hflights : FirnKept (s.setEpState e Ep.MELTING) _ := (FirnKept.refl _).meltFlights e (s.epInst e)
  rw [State.meltNow_eq]
  generalize (s.setEpState e Ep.MELTING).meltFlights e (s.epInst e) = u at hflights
  have hrest : FirnKept (u.dropInst e (s.epInst e)) _ := ((FirnKept.refl _).spinesMelt e (s.epInst e)).recheckEpoch e
  generalize ((u.dropInst e (s.epInst e)).spinesMelt e (s.epInst e)).recheckEpoch e = v at hrest
  have hshown : (v.epShow e).firn = v.firn ∧ (v.epShow e).mem = v.mem := ⟨rfl, rfl⟩
  have hstate : (u.dropInst e (s.epInst e)).epState e = u.epState e := rfl
  refine ⟨?_, ?_, ?_⟩
  · rw [(FirnKept.refl _).firnStatus.epState he, v.epState_epShow, hrest.epState he, hstate, hflights.epState he]
    exact s.epState_setEpState e (by decide)
  · intro x
    rw [State.firnStatus_firn, hshown.1, hrest.firn, State.dropInst, hflights.firn]
    simp [State.setEpState]
  · rw [State.firnStatus_mem, hshown.2, hrest.mem, State.dropInst, hflights.mem]
    rfl

end Sys2Proof.Machine
end

section
/-!
The registers of firn (08_firn.md): O22.
-/

namespace Sys2Proof

theorem Word.get_lt (v : Word) (hi lo : Nat) : v.get hi lo < 2 ^ (hi + 1 - lo) := Nat.mod_lt _ (Nat.two_pow_pos _)

end Sys2Proof

namespace Sys2Proof.Machine

/-! ## A new INSTANCE (R225) -/

/-- The epoch is IDLE under the next INSTANCE, whose number FIRN_EPOCH_n shows modulo 256; nothing but its register and its count changes. -/
theorem State.newInstance_frame (s : State) (e : Nat) : let t := s.newInstance e
    t.epState e = Ep.IDLE ∧ t.epInst e = s.epInst e + 1 ∧ t.fld (R.FIRN_EPOCH e) F.FIRN_EPOCH.INSTANCE = (s.epInst e + 1) % 256 ∧
      t = { s with regs := t.regs, firn := { s.firn with insts := t.firn.insts } } ∧ RegsBut [R.FIRN_EPOCH e] s t := by
  refine ⟨?_, Sparse.get_set_same _ _ _ _, ?_, rfl, ?_⟩
  · rw [State.newInstance, State.epState_epShow, State.epState, State.fld_setFld_of_disjoint _ _ _ _ _ (by decide) (by decide)]
    exact State.epState_setEpState _ e (by decide)
  · rw [State.newInstance, State.epShow, State.fld_setFld_of_disjoint _ _ _ _ _ (by decide) (by decide)]
    exact State.fld_setFld _ _ _ _ (by decide)
  · have hinst : RegsBut [R.FIRN_EPOCH e] s { s with firn := { s.firn with insts := Sparse.set e (s.epInst e + 1) s.firn.insts } } := .of_regs_eq _ rfl
    exact ((hinst.setFld _ _ (by simp)).setFld _ _ (by simp)).setFld _ _ (by simp)

/-! ## A refusal (R226, R245, R247) -/

/-- An INFO record of a status is raised, and nothing else changes. -/
def Told (st : Nat) (s t : State) : Prop :=
  t.lastRaised.map (fun r => (r.status, r.sev)) = some (st, Sev.INFO) ∧ t = { s with faults := t.faults }

theorem State.told_raiseReg (s : State) (st o : Nat) : Told st s (s.raiseReg st o) :=
  ⟨by rw [State.raiseReg, State.lastRaised_raise]; rfl, rfl⟩

/-! ## FIRN_CTL (R226, R248) -/

section
variable {s : State} {v : Word}

theorem firnRearmAct_of_both (h8 : v.bit 8 = true) (h9 : v.bit 9 = true) : firnRearmAct v s = s.firnRefuse := by
  simp only [firnRearmAct, h8, h9, if_true]

theorem firnRearmAct_of_rearm (h8 : v.bit 8 = true) (h9 : v.bit 9 = false) : firnRearmAct v s =
    if s.epState (v.get 7 0) = Ep.IDLE then s else if s.epState (v.get 7 0) = Ep.MELTED then s.newInstance (v.get 7 0) else s.firnRefuse := by
  simp only [firnRearmAct, h8, h9, if_true, Bool.false_eq_true, if_false]

theorem firnMeltAct_of_both (h8 : v.bit 8 = true) (h9 : v.bit 9 = true) : firnMeltAct v s = s.firnRefuse := by
  simp only [firnMeltAct, h8, h9, if_true]

theorem firnMeltAct_of_still (h8 : v.bit 8 = false) (h9 : v.bit 9 = true)
    (he : s.epState (v.get 7 0) = Ep.IDLE ∨ s.epState (v.get 7 0) = Ep.LIVE) : firnMeltAct v s = s.meltNow (v.get 7 0) := by
  simp only [firnMeltAct, h8, h9, if_true, Bool.false_eq_true, if_false, if_pos he]

/-- The melt waits for the end of the settle. -/
theorem firnMeltAct_of_settling (h8 : v.bit 8 = false) (h9 : v.bit 9 = true) (he : s.epState (v.get 7 0) = Ep.SETTLING) :
    ∃ x, firnMeltAct v s = { s with firn := { s.firn with waits := s.firn.waits ++ [x] } } ∧ x.epoch = v.get 7 0 ∧ x.isMelt = true := by
  refine ⟨{ epoch := v.get 7 0, die := 0, cx := 0, slot := 65536, isMelt := true }, ?_, rfl, rfl⟩
  simp only [firnMeltAct, h8, h9, he, if_true, Bool.false_eq_true, if_false]
  rfl

end

/-! ## FIRN_DDR and FIRN_EPOCH_n (R245, R247) -/

theorem regFields_FIRN_DDR : (regFields R.FIRN_DDR).getD [] = F.FIRN_DDR.all := by decide

/-- A row of the register map holds no register past its last. -/
theorem RegEntry.holds_of_past {e : RegEntry} {o : Nat} (hs : 0 < e.stride) (h : e.base + e.count * e.stride ≤ o) : e.holds o = false := by
  have hdiv : ¬ (o - e.base) / e.stride < e.count := by
    rw [Nat.div_lt_iff_lt_mul hs]
    omega
  simp [RegEntry.holds, hdiv]

/-- The rows of the register map before that of the FIRN_EPOCH_n. -/
def rowsBeforeEpochs : List RegEntry := hubRegs0 ++ hubRegs1.take 4

theorem rowsBeforeEpochs_end : ∀ e ∈ rowsBeforeEpochs, 0 < e.stride ∧ e.base + e.count * e.stride ≤ R.FIRN_EPOCH 0 := by decide

theorem regFields_FIRN_EPOCH (n : Fin 256) : (regFields (R.FIRN_EPOCH n)).getD [] = F.FIRN_EPOCH.all := by
  have hn := n.isLt
  have hbefore : rowsBeforeEpochs.find? (·.holds (R.FIRN_EPOCH n)) = none := List.find?_eq_none.mpr fun e he => by
    obtain ⟨hstride, hend⟩ := rowsBeforeEpochs_end e he
    rw [RegEntry.holds_of_past hstride (hend.trans (by unfold R.FIRN_EPOCH; omega))]
    exact Bool.false_ne_true
  have hrow : RegEntry.holds ⟨0x20400, 0x8, 256, 0x8, 1, F.FIRN_EPOCH.all⟩ (R.FIRN_EPOCH n) = true := by
    simp [RegEntry.holds, R.FIRN_EPOCH]
  have hrows : hubRegs = rowsBeforeEpochs ++ ⟨0x20400, 0x8, 256, 0x8, 1, F.FIRN_EPOCH.all⟩ ::
    (hubRegs1.drop 5 ++ hubRegs2 ++ hubRegs3 ++ hubRegs4 ++ hubRegs5 ++ hubRegs6 ++ hubRegs7) := rfl
  have hhub : regFields (R.FIRN_EPOCH n) = (hubRegs.find? (·.holds (R.FIRN_EPOCH n))).map (·.fields) := by
    unfold regFields R.FIRN_EPOCH
    rw [if_neg (by omega), if_neg (by omega), if_neg (by simp; omega)]
  rw [hhub, hrows, List.find?_append, hbefore, List.find?_cons, hrow]
  rfl

theorem fieldsApart_FIRN_DDR : FieldsApart F.FIRN_DDR.all := by unfold FieldsApart; decide

theorem fieldsApart_FIRN_EPOCH : FieldsApart F.FIRN_EPOCH.all := by unfold FieldsApart; decide

theorem State.fld_plainWrite_FIRN_DDR (s : State) (v : Word) : (s.plainWrite R.FIRN_DDR v).fld R.FIRN_DDR F.FIRN_DDR.SIZE_GIB = v.get 22 16 := by
  rw [State.fld, State.reg_plainWrite, regFields_FIRN_DDR]
  exact get_writeFields_of_rw fieldsApart_FIRN_DDR _ v (f := F.FIRN_DDR.SIZE_GIB) (by decide) rfl

/-- A write of FIRN_EPOCH_n sets PART and leaves STATE. -/
theorem State.fld_plainWrite_FIRN_EPOCH (s : State) (v : Word) (n : Fin 256) :
    (s.plainWrite (R.FIRN_EPOCH n) v).fld (R.FIRN_EPOCH n) F.FIRN_EPOCH.PART = v.get 7 4 ∧
      (s.plainWrite (R.FIRN_EPOCH n) v).epState n = s.epState n := by
  rw [State.epState, State.fld, State.fld, State.reg_plainWrite, regFields_FIRN_EPOCH]
  exact ⟨get_writeFields_of_rw fieldsApart_FIRN_EPOCH _ v (f := F.FIRN_EPOCH.PART) (by decide) rfl,
    get_writeFields_of_ro fieldsApart_FIRN_EPOCH _ v (f := F.FIRN_EPOCH.STATE) (by decide) rfl⟩

theorem State.plainWrite_frame (s : State) (o : Nat) (v : Word) :
    s.plainWrite o v = { s with regs := (s.plainWrite o v).regs } ∧ RegsBut [o] s (s.plainWrite o v) :=
  ⟨rfl, (RegsBut.refl [o] s).setReg _ (by simp)⟩

/-- Is an epoch in a state in which its PART stays (R245)? -/
theorem mem_runStates {k : Nat} : k ∈ [Ep.LIVE, Ep.SETTLING, Ep.MELTING] ↔ k = Ep.LIVE ∨ k = Ep.SETTLING ∨ k = Ep.MELTING := by simp

/-- Settles O22: each register's act, in each state of the epoch it names. -/
theorem firnRegisters : Obligations.FirnRegisters := by
  unfold Obligations.FirnRegisters
  intro s w v hon e told
  have he : e < 256 := v.get_lt 7 0
  refine ⟨fun hw => ?_, fun hw => ?_, fun n hw => ?_⟩
  · have hrearm : exec (.firnCtlRearm w) s = .next (firnRearmAct v s) := State.whileOn_write _ hon hw
    have hmelt : exec (.firnCtlMelt w) s = .next (firnMeltAct v s) := State.whileOn_write _ hon hw
    refine ⟨fun h8 h9 => ?_, fun h8 h9 => ?_, fun h8 h9 => ?_⟩
    · rw [firnRearmAct_of_both h8 h9] at hrearm
      rw [firnMeltAct_of_both h8 h9] at hmelt
      exact ⟨.of hrearm (s.told_raiseReg _ _), .of hmelt (s.told_raiseReg _ _)⟩
    · rw [firnRearmAct_of_rearm h8 h9] at hrearm
      refine ⟨fun hidle => ?_, fun hmelted => ?_, fun hni hnm => ?_⟩
      · rwa [if_pos hidle] at hrearm
      · have hni : s.epState e ≠ Ep.IDLE := by rw [hmelted]; decide
        rw [if_neg hni, if_pos hmelted] at hrearm
        exact .of hrearm (s.newInstance_frame e)
      · rw [if_neg hni, if_neg hnm] at hrearm
        exact .of hrearm (s.told_raiseReg _ _)
    · refine ⟨fun hsettling => ?_, fun hstill => ?_⟩
      · obtain ⟨x, hact, hx⟩ := firnMeltAct_of_settling (s := s) h8 h9 hsettling
        rw [hact] at hmelt
        exact .of hmelt ⟨x, rfl, hx⟩
      · rw [firnMeltAct_of_still h8 h9 hstill] at hmelt
        obtain ⟨hstate, hentries, hcells⟩ := s.meltNow_frame (e := v.get 7 0) he
        exact .of hmelt ⟨hstate, fun x hx => ((hentries x).mp hx).2, hcells⟩
  · have hddr : exec (.firnDdrWrite w) s = .next (firnDdrAct v s) := State.whileOn_write _ hon hw
    rw [firnDdrAct] at hddr
    refine ⟨fun hlive => ?_, fun hstill hbig => ?_, fun hstill hfits => ?_⟩
    · rw [if_pos hlive] at hddr
      exact .of hddr (s.told_raiseReg _ _)
    · rwa [if_neg (by simp [hstill]), if_pos hbig] at hddr
    · rw [if_neg (by simp [hstill]), if_neg (Nat.not_lt.mpr hfits)] at hddr
      exact .of hddr ⟨s.fld_plainWrite_FIRN_DDR v, s.plainWrite_frame _ v⟩
  · have hepoch : exec (.firnEpochWrite w n) s = .next (firnEpochAct n v s) := State.whileOn_write _ hon hw
    rw [firnEpochAct] at hepoch
    refine ⟨fun hrun hpart => ?_, fun hstill => ?_⟩
    · rw [if_pos ⟨mem_runStates.mp hrun, hpart⟩] at hepoch
      exact .of hepoch (s.told_raiseReg _ _)
    · rw [if_neg fun hrun => hstill (mem_runStates.mpr hrun.1)] at hepoch
      obtain ⟨hpart, hstate⟩ := s.fld_plainWrite_FIRN_EPOCH v n
      exact .of hepoch ⟨hpart, hstate, s.plainWrite_frame _ v⟩

end Sys2Proof.Machine
end

section
/-!
SETTLE and MELT, the flip of a settle and the end of a melt (08_firn.md): O21.
-/

namespace Sys2Proof.Machine

/-! ## A SETTLE or MELT command begins (R69, R226) -/

/-- A command begun: its flight runs. -/
def State.cmdBegun (s : State) (d : Die) (c : Cx) (slot : Nat) : State := s.setFlight d c slot fun g => { g with phase := .running }

/-- Who waits for the epoch that a flight's command names. -/
def Flight.epochWait (f : Flight) (d : Die) (c : Cx) (isMelt : Bool) : EpochWait :=
  { epoch := f.cmd.w2.get 7 0, die := d, cx := c, slot := f.slot, isMelt := isMelt }

theorem epochCommand_of_front {s : State} {d : Die} {c : Cx} {f : Flight} {isMelt : Bool}
    (h : s.ctlFront d c (if isMelt then Op.MELT else Op.SETTLE) = some f) (hp : f.phase = .issued) : epochCommand isMelt d c s =
      if isMelt then (s.cmdBegun d c f.slot).meltFor (f.epochWait d c isMelt) else (s.cmdBegun d c f.slot).settleFor (f.epochWait d c isMelt) := by
  have hfront : s.ctlFront d c (if isMelt then 0x11 else 0x10) = some f := h
  simp only [epochCommand, hfront, hp, if_true]
  rfl

section
variable {s : State} {w : EpochWait}

theorem State.settleFor_of_idle (h : s.epState w.epoch = Ep.IDLE) : s.settleFor w = s.epochCmdDone w := if_pos h

theorem State.settleFor_of_live (h : s.epState w.epoch = Ep.LIVE) :
    s.settleFor w = ({ s with firn := { s.firn with acting := s.firn.acting ++ [w] } }).setEpState w.epoch Ep.SETTLING := by
  rw [State.settleFor]
  simp only [h]
  rfl

theorem State.settleFor_of_melted (h : s.epState w.epoch = Ep.MELTED) : s.settleFor w =
    ((s.setFld R.FIRN_STATUS F.FIRN_STATUS.SETTLE_MELTED 1).raiseHub Sev.INFO St.FIRN_SETTLE_MELTED Uk.FIRN).epochCmdDone w := by
  rw [State.settleFor]
  simp only [h]
  rfl

theorem State.settleFor_of_busy (h : s.epState w.epoch = Ep.SETTLING ∨ s.epState w.epoch = Ep.MELTING) :
    s.settleFor w = { s with firn := { s.firn with waits := s.firn.waits ++ [w] } } := by
  rw [State.settleFor]
  rcases h with h | h
  · simp only [h]
    rfl
  · simp only [h]
    rfl

theorem State.meltFor_of_still (h : s.epState w.epoch = Ep.IDLE ∨ s.epState w.epoch = Ep.LIVE) :
    s.meltFor w = ({ s with firn := { s.firn with acting := s.firn.acting ++ [w] } }).meltNow w.epoch := if_pos h

theorem State.meltFor_of_still_frame (he : w.epoch < 256) (h : s.epState w.epoch = Ep.IDLE ∨ s.epState w.epoch = Ep.LIVE) :
    (s.meltFor w).epState w.epoch = Ep.MELTING ∧
      (∀ x, x ∈ (s.meltFor w).firn.entries ↔ x ∈ s.firn.entries ∧ x.ofInst w.epoch (s.epInst w.epoch) = false) ∧
      (s.meltFor w).mem.cells = s.mem.cells := by
  rw [State.meltFor_of_still h]
  exact State.meltNow_frame _ he

theorem State.meltFor_of_melted (h : s.epState w.epoch = Ep.MELTED) : s.meltFor w = s.epochCmdDone w := by
  rw [State.meltFor]
  simp only [h]
  rfl

theorem State.meltFor_of_busy (h : s.epState w.epoch = Ep.SETTLING ∨ s.epState w.epoch = Ep.MELTING) :
    s.meltFor w = { s with firn := { s.firn with waits := s.firn.waits ++ [w] } } := by
  rw [State.meltFor]
  rcases h with h | h
  · simp only [h]
    rfl
  · simp only [h]
    rfl

end

section
variable {s : State} {d : Die} {c : Cx} {f : Flight} (hf : (s.cx d c).flight f.slot = some f)
include hf

theorem State.cmdBegun_frame : ((s.cmdBegun d c f.slot).cx d c).flight f.slot = some { f with phase := .running } ∧
    CxBut d c s (s.cmdBegun d c f.slot) := by
  refine ⟨?_, (CxBut.refl d c s).setFlight _ _⟩
  rw [State.cmdBegun, State.cx_setFlight]
  exact Ctx.flight_mapFlight (fun _ => rfl) hf

/-- A state with the contexts of the command begun shows it running, and no other context changed. -/
theorem State.running_of_cxs {t : State} (ht : t.cxs = (s.cmdBegun d c f.slot).cxs) :
    (∃ g, (t.cx d c).flight f.slot = some g ∧ g.phase = .running) ∧ CxBut d c s t := by
  obtain ⟨hrun, hbut⟩ := State.cmdBegun_frame hf
  refine ⟨⟨{ f with phase := .running }, ?_, rfl⟩, hbut.of_cxs ht⟩
  rwa [State.cx, ht]

/-- A SETTLE or MELT that ends shows its flight worked, and changes nothing else. -/
theorem State.epochCmdDone_frame (hk : f.cmd.kind = 3) (b : Bool) {u : State} (hu : u.cxs = (s.cmdBegun d c f.slot).cxs) :
    let t := u.epochCmdDone (f.epochWait d c b)
    (∃ g, (t.cx d c).flight f.slot = some g ∧ g.phase = .worked) ∧ t = { u with cxs := t.cxs } ∧ CxBut d c s t := by
  obtain ⟨hrun, hbut⟩ := State.cmdBegun_frame hf
  have hfu : (u.cx d c).flight f.slot = some { f with phase := .running } := by rwa [State.cx, hu]
  have hdone : u.epochCmdDone (f.epochWait d c b) = u.setFlight d c f.slot fun g => { g with phase := .worked, held := none } :=
    State.workDone_of_control hfu hk
  dsimp only
  rw [hdone]
  refine ⟨⟨ended { f with phase := .running }, ?_, rfl⟩, rfl, (hbut.of_cxs hu).setFlight _ _⟩
  rw [State.cx_setFlight]
  exact Ctx.flight_mapFlight (g := ended) (fun _ => rfl) hfu

end

/-! ## The end of a settle or melt (R226, R239) -/

/-- The commands an epoch was acting for end in their contexts alone. -/
theorem State.endActing_kept (s : State) (e : Nat) :
    FirnKept { s with firn := { s.firn with acting := s.firn.acting.filter (·.epoch != e) } } (s.endActing e) :=
  List.foldlRecOn (motive := FirnKept _) (s.firn.acting.filter (·.epoch == e)) _ (.refl _) fun _ ht w _ => ht.workDone w.die w.cx w.slot

/-- With no command that waits for the epoch nothing is tried again. -/
theorem State.retryWaits_of_none {s : State} {e : Nat} (h : ∀ x ∈ s.firn.waits, x.epoch ≠ e) : s.retryWaits e = s := by
  have hmine : s.firn.waits.filter (·.epoch == e) = [] := List.filter_eq_nil_iff.mpr fun x hx => by simpa using h x hx
  have hrest : s.firn.waits.filter (·.epoch != e) = s.firn.waits := List.filter_eq_self.mpr fun x hx => by simpa using h x hx
  rw [State.retryWaits, State.takeWaits, hmine, hrest]
  rfl

/-- An epoch's settle or melt counted and its commands ended. -/
def State.epochEnded (s : State) (o e : Nat) : State := ((s.count o 1).endActing e).retryWaits e

/-- With no command that waits, memory, the entries, the instances and the epoch's state stay. -/
theorem State.epochEnded_frame {s : State} {o e : Nat} (ho : OffEpochs o) (he : e < 256) (hq : ∀ x ∈ s.firn.waits, x.epoch ≠ e) :
    (s.epochEnded o e).mem = s.mem ∧ (s.epochEnded o e).firn = { s.firn with acting := s.firn.acting.filter (·.epoch != e) } ∧
      (s.epochEnded o e).epState e = s.epState e := by
  have hcount : FirnKept s (s.count o 1) := (FirnKept.refl s).count ho 1
  have hend := (s.count o 1).endActing_kept e
  have hfirn : ((s.count o 1).endActing e).firn = { s.firn with acting := s.firn.acting.filter (·.epoch != e) } := by
    rw [hend.firn, hcount.firn]
  rw [State.epochEnded, State.retryWaits_of_none (by rw [hfirn]; exact hq)]
  exact ⟨hend.mem.trans hcount.mem, hfirn, (hend.epState he).trans (hcount.epState he)⟩

theorem meltComplete_of_melting {s : State} {e : Nat} (h : s.epState e = Ep.MELTING) :
    meltComplete e s = (s.setEpState e Ep.MELTED).epochEnded R.FIRN_MELTS e := if_pos h

/-! ## The flip of a settle (R235) -/

theorem State.homeShare_firn (s : State) (line : Nat) : (s.homeShare line).firn = s.firn := by
  have hcount (a : CAgent) : (if a = .host then s.count R.HL_BISNP 1 else s).firn = s.firn := by
    split
    · rw [State.count_frame]
    · rfl
  have hheld (t : State) (a : CAgent) (x : CLine) : (t.setHeld a line x).firn = t.firn := by cases a <;> rfl
  unfold State.homeShare
  split
  · dsimp only
    split
    · refine (hheld _ _ _).trans ?_
      split
      · exact hcount _
      · exact hcount _
    · exact hcount _
  · rfl

/-- Taking back the tracked copies of a line leaves firn. -/
theorem State.homeInval_firn (s : State) (line : Nat) (keep : Option CAgent) : (s.homeInval line keep).firn = s.firn := by
  have hdrop (t : State) (a : CAgent) : (t.dropCopy a line).firn = t.firn := by cases a <;> rfl
  unfold State.homeInval
  dsimp only
  refine List.foldlRecOn (motive := fun t : State => t.firn = s.firn) _ _ ?_ fun t ht a _ => (hdrop t a).trans ht
  split
  · rw [State.count_frame, State.homeShare_firn]
  · exact s.homeShare_firn line

/-- The tracked copies and reservations of the entries' sectors taken back. -/
def State.copiesDropped (s : State) (l : List FirnEnt) : State :=
  l.foldl (fun t x => (t.homeInval x.sector none).breakResv x.sector none) s

theorem State.copiesDropped_firn (s : State) (l : List FirnEnt) : (s.copiesDropped l).firn = s.firn :=
  List.foldlRecOn (motive := fun t : State => t.firn = s.firn) l _ rfl fun t ht x _ => (t.homeInval_firn x.sector none).trans ht

/-- An INSTANCE's entries made ice's, its provisional block states dropped. -/
def State.entriesSettled (s : State) (e i : Nat) (l : List FirnEnt) : State :=
  { s with firn := { s.firn with
      entries := s.firn.entries.filter (fun x => !x.ofInst e i) ++ l.map (fun x => { x with settled := true })
      blocks := s.firn.blocks.filter fun b => !(b.epoch == e && b.inst == i) } }

/-- The state a flip's new INSTANCE begins in: the INSTANCE's entries, its blocks and its spine entries are ice's. -/
def State.iceOf (s : State) (e i : Nat) : State :=
  let mine := s.firn.entries.filter fun x => x.ofInst e i
  (((s.copiesDropped mine).firn.blocks.filter fun b => b.epoch == e && b.inst == i).foldl State.flipBlock
    ((s.copiesDropped mine).entriesSettled e i mine)).spinesSettle e i

theorem State.iceOf_firn (s : State) (e i : Nat) :
    (s.iceOf e i).firn = (s.entriesSettled e i (s.firn.entries.filter fun x => x.ofInst e i)).firn := by
  have hblocks (l : List FirnBlock) (t : State) : (l.foldl State.flipBlock t).firn = t.firn :=
    List.foldlRecOn (motive := fun u : State => u.firn = t.firn) l _ rfl fun _ hu _ _ => hu
  refine (hblocks _ _).trans ?_
  rw [State.entriesSettled, State.copiesDropped_firn]
  rfl

theorem State.flip_eq (s : State) (e : Nat) : s.flip e = ((s.iceOf e (s.epInst e)).newInstance e).epochEnded R.FIRN_SETTLES e := rfl

/-- With no command that waits, the flip begins the next INSTANCE in IDLE and turns the INSTANCE's entries into ice's. -/
theorem State.flip_of_quiet {s : State} {e : Nat} (he : e < 256) (hq : ∀ x ∈ s.firn.waits, x.epoch ≠ e) :
    (s.flip e).epState e = Ep.IDLE ∧ (s.flip e).epInst e = s.epInst e + 1 ∧ (s.flip e).firn.entries =
      s.firn.entries.filter (fun x => !x.ofInst e (s.epInst e)) ++
        (s.firn.entries.filter fun x => x.ofInst e (s.epInst e)).map fun x => { x with settled := true } := by
  have hice := s.iceOf_firn e (s.epInst e)
  rw [State.flip_eq]
  generalize s.iceOf e (s.epInst e) = u at hice
  have hwaits : (u.newInstance e).firn.waits = s.firn.waits := (congrArg FirnSt.waits hice :)
  have hinst : u.epInst e = s.epInst e := (congrArg (fun x : FirnSt => Sparse.get 0 e x.insts) hice :)
  obtain ⟨-, hfirn, hstate⟩ := State.epochEnded_frame (s := u.newInstance e) (o := R.FIRN_SETTLES) (offEpochs_hub _ (by simp)) he (hwaits ▸ hq)
  obtain ⟨hidle, hnext, -⟩ := u.newInstance_frame e
  refine ⟨hstate.trans hidle, ?_, ?_⟩
  · rw [State.epInst, hfirn, ← hinst]
    exact hnext
  · rw [hfirn]
    exact congrArg FirnSt.entries hice

theorem FirnEnt.ofInst_settled (x : FirnEnt) (e i : Nat) : ({ x with settled := true } : FirnEnt).ofInst e i = false := rfl

/-- MELT of an IDLE or LIVE epoch (R239). -/
theorem melt_of_still {s : State} {d : Die} {c : Cx} {f : Flight} {e : Nat} (hon : s.On) (hfront : s.ctlFront d c Op.MELT = some f)
    (hp : f.phase = .issued) (hepoch : f.cmd.w2.get 7 0 = e) (he : e < 256) (h : s.epState e = Ep.IDLE ∨ s.epState e = Ep.LIVE) :
    Answers (.melt d c) s fun t => t.epState e = Ep.MELTING ∧ (∀ x ∈ t.firn.entries, x.ofInst e (s.epInst e) = false) ∧
      (∀ x ∈ s.firn.entries, x.ofInst e (s.epInst e) = false → x ∈ t.firn.entries) ∧ t.mem.cells = s.mem.cells := by
  subst hepoch
  have hexec : exec (.melt d c) s = .next (epochCommand true d c s) := State.whileOn_on _ hon
  obtain ⟨hstate, hentries, hcells⟩ := State.meltFor_of_still_frame (s := s.cmdBegun d c f.slot) (w := f.epochWait d c true) he h
  rw [epochCommand_of_front (isMelt := true) hfront hp, if_pos rfl] at hexec
  exact .of hexec ⟨hstate, fun x hx => ((hentries x).mp hx).2, fun x hx hof => (hentries x).mpr ⟨hx, hof⟩, hcells⟩

/-- Settles O21: the commands by the state of their epoch, the flip of a settle and the end of a melt. -/
theorem epochCommands : Obligations.EpochCommands := by
  unfold Obligations.EpochCommands
  refine ⟨fun s d c f hon hf hp hk => ?_, fun s n hon hq => ⟨fun hset => ⟨fun harr hfree => ?_, fun hwait => ?_⟩, fun hm => ?_, fun hm => ?_⟩⟩
  · intro e i w at_
    have he : e < 256 := Word.get_lt _ 7 0
    have hst (b : Bool) {k : Nat} (h : s.epState e = k) : (s.cmdBegun d c f.slot).epState (f.epochWait d c b).epoch = k := h
    refine ⟨fun hfront => ?_, fun hfront => ?_⟩
    · have hexec : exec (.settle d c) s = .next (epochCommand false d c s) := State.whileOn_on _ hon
      rw [epochCommand_of_front (isMelt := false) hfront hp, if_neg Bool.false_ne_true] at hexec
      refine ⟨fun h => ?_, fun h => ?_, fun h => ?_, fun h => ?_⟩
      · rw [State.settleFor_of_idle (hst false h)] at hexec
        have hend := State.epochCmdDone_frame (u := s.cmdBegun d c f.slot) hf hk false rfl
        exact .of hexec hend
      · rw [State.settleFor_of_live (hst false h)] at hexec
        obtain ⟨hrun, hbut⟩ := State.running_of_cxs hf rfl
        exact .of hexec ⟨hrun, State.epState_setEpState _ e (by decide), rfl, rfl, hbut,
          RegsBut.setFld _ _ (.of_regs_eq _ rfl) (List.mem_singleton.mpr rfl)⟩
      · rw [State.settleFor_of_melted (hst false h)] at hexec
        obtain ⟨hdone, hframe, hbut⟩ := State.epochCmdDone_frame hf hk false
          (u := ((s.cmdBegun d c f.slot).setFld R.FIRN_STATUS F.FIRN_STATUS.SETTLE_MELTED 1).raiseHub Sev.INFO St.FIRN_SETTLE_MELTED Uk.FIRN) rfl
        refine .of hexec ⟨hdone, ?_, ?_, ?_, hbut, ?_⟩
        · rw [hframe]
          exact State.fld_setFld_of_le _ _ _ (by decide) (by decide)
        · rw [hframe]
          simp [State.lastRaised, State.raiseHub, State.raise]
        · rw [hframe]
          rfl
        · rw [hframe]
          exact (RegsBut.setFld _ _ (.of_regs_eq _ rfl) (by simp)).of_regs rfl
      · rw [State.settleFor_of_busy (h.imp (hst false) (hst false))] at hexec
        obtain ⟨hrun, hbut⟩ := State.running_of_cxs hf rfl
        exact .of hexec ⟨hrun, rfl, hbut⟩
    · have hexec : exec (.melt d c) s = .next (epochCommand true d c s) := State.whileOn_on _ hon
      rw [epochCommand_of_front (isMelt := true) hfront hp, if_pos rfl] at hexec
      refine ⟨fun h => ?_, fun h => ?_, fun h => ?_⟩
      · rw [State.meltFor_of_melted (hst true h)] at hexec
        have hend := State.epochCmdDone_frame (u := s.cmdBegun d c f.slot) hf hk true rfl
        exact .of hexec hend
      · rw [State.meltFor_of_busy (h.imp (hst true) (hst true))] at hexec
        obtain ⟨hrun, hbut⟩ := State.running_of_cxs hf rfl
        exact .of hexec ⟨hrun, rfl, hbut⟩
      · exact melt_of_still hon hfront hp rfl he h
  · have hexec : exec (.settleFlip n) s = .next _ := State.whileOn_on _ hon
    rw [if_pos ⟨hset, harr, by rw [hfree]; rfl⟩] at hexec
    obtain ⟨hidle, hinst, hentries⟩ := State.flip_of_quiet n.isLt hq
    refine .of hexec ⟨hidle, hinst, fun x hx hof => ?_, fun x hx => ?_⟩
    · rw [hentries]
      exact List.mem_append_right _ (List.mem_map_of_mem (List.mem_filter.mpr ⟨hx, hof⟩))
    · rw [hentries] at hx
      rcases List.mem_append.mp hx with hx | hx
      · simpa using (List.mem_filter.mp hx).2
      · obtain ⟨y, -, rfl⟩ := List.mem_map.mp hx
        exact y.ofInst_settled n (s.epInst n)
  · have hexec : exec (.settleFlip n) s = .next _ := State.whileOn_on _ hon
    rwa [if_neg fun h => ?_] at hexec
    rcases hwait with hwait | hwait <;> simp [hwait] at h
  · have hexec : exec (.meltComplete n) s = .next (meltComplete n s) := State.whileOn_on _ hon
    rw [meltComplete_of_melting hm] at hexec
    obtain ⟨hmem, hfirn, hstate⟩ := State.epochEnded_frame (s := s.setEpState n Ep.MELTED) (o := R.FIRN_MELTS) (offEpochs_hub _ (by simp))
      n.isLt hq
    exact .of hexec ⟨hstate.trans (s.epState_setEpState n (by decide)), hmem, (congrArg FirnSt.entries hfirn :)⟩
  · have hexec : exec (.meltComplete n) s = .next (meltComplete n s) := State.whileOn_on _ hon
    rwa [meltComplete, if_neg hm] at hexec

end Sys2Proof.Machine
end

section
/-!
Firn writes, a full log and merging (08_firn.md): O23.
-/

namespace Sys2Proof.Machine

/-! ## Runs of bytes read back (R341) -/

/-- A run of bytes written is read back. -/
theorem Memory.read_writeBytes_inside (bs : List Byte) {m : List Host.Cell} {a i : Nat} (h : Memory.wf m = true) (hi : i < bs.length) :
    Memory.read (a + i) (Memory.writeBytes a bs m) = bs[i] := by
  induction bs generalizing a i m with
  | nil => exact absurd hi (Nat.not_lt_zero i)
  | cons b r ih =>
    rw [Memory.writeBytes]
    cases i with
    | zero =>
      rw [Nat.add_zero, Memory.read_writeBytes_of_outside r (Memory.write_wf a b h) (.inl (Nat.lt_succ_self a)), Memory.read_write_same a b h]
      rfl
    | succ j =>
      rw [show a + (j + 1) = a + 1 + j by omega, ih (Memory.write_wf a b h) (Nat.lt_of_succ_lt_succ hi)]
      rfl

theorem State.cells_setCells_writeBytes {s : State} (hm : s.memOk) (a : Nat) (bs : List Byte) :
    (s.setCells (Memory.writeBytes a bs s.mem.cells)).cells a bs.length = bs := by
  refine List.ext_getElem (State.length_cells _ _ _) fun i _ hi => ?_
  simp only [State.cells, List.getElem_map, List.getElem_range]
  exact Memory.read_writeBytes_inside bs hm hi

/-! ## Ice in a sector (R231, R235) -/

theorem length_overlay (mask i : Nat) (us os : List Byte) : (overlay mask i us os).length = us.length := by
  induction us generalizing i os with
  | nil => cases os <;> rfl
  | cons u us ih =>
    cases os with
    | nil => rfl
    | cons o os => rw [overlay, List.length_cons, ih, List.length_cons]

theorem State.length_ice (s : State) (sec : Nat) : (s.ice sec).length = 64 :=
  List.foldlRecOn (motive := fun b : List Byte => b.length = 64) _ _ (s.length_cells sec 64) fun _ hb _ _ => (length_overlay _ _ _ _).trans hb

/-- With no settled entry of the sector ice is memory. -/
theorem State.ice_of_merged {s : State} {sec : Nat} (h : ∀ y ∈ s.firn.entries, y.settled = true → y.sector ≠ sec) : s.ice sec = s.cells sec 64 := by
  have hnone : s.firn.entries.filter (fun y => y.settled && y.sector == sec) = [] :=
    List.filter_eq_nil_iff.mpr fun y hy => by simpa using h y hy
  rw [State.ice, hnone, List.foldl_nil]

/-! ## Merging (R237) -/

/-- A sector's settled entries freed. -/
def State.entriesFreed (s : State) (sec : Nat) : State :=
  { s with firn := { s.firn with entries := s.firn.entries.filter fun y => !(y.settled && y.sector == sec) } }

/-- Ice in a sector written into memory, its settled entries freed. -/
def State.iceWritten (s : State) (sec : Nat) : State := (s.entriesFreed sec).setCells (Memory.writeBytes sec (s.ice sec) s.mem.cells)

/-- The sector's POISON as its merged entries leave it. -/
def State.poisonMerged (s : State) (sec : Nat) (l : List FirnEnt) : State :=
  if l.any (·.poison) then s.setPoison sec true else if l.any (fun x => x.mask == fullMask) then s.setPoison sec false else s

theorem State.poisonMerged_frame (s : State) (sec : Nat) (l : List FirnEnt) :
    s.poisonMerged sec l = { s with mem := { s.mem with blocks := (s.poisonMerged sec l).mem.blocks } } := by
  unfold State.poisonMerged
  split_ifs <;> rfl

theorem State.mergeSector_eq (s : State) (sec : Nat) : s.mergeSector sec =
    ((s.iceWritten sec).poisonMerged sec (s.firn.entries.filter fun x => x.settled && x.sector == sec)).firnStatus := rfl

/-- A merge writes ice into the sector and frees its settled entries; beside that it changes block records and the registers that show firn. -/
theorem State.mergeSector_frame (s : State) (sec : Nat) : let t := s.mergeSector sec
    t.firn = (s.iceWritten sec).firn ∧ t.mem.cells = (s.iceWritten sec).mem.cells ∧
      t = { s with regs := t.regs, firn := t.firn, mem := { s.mem with cells := t.mem.cells, blocks := t.mem.blocks } } := by
  have hpoison := (s.iceWritten sec).poisonMerged_frame sec (s.firn.entries.filter fun x => x.settled && x.sector == sec)
  have honly := State.regsOnly_firnStatus ((s.iceWritten sec).poisonMerged sec (s.firn.entries.filter fun x => x.settled && x.sector == sec))
  rw [← State.mergeSector_eq] at honly
  generalize (s.iceWritten sec).poisonMerged sec _ = u at hpoison honly
  dsimp only
  generalize s.mergeSector sec = t at honly
  rw [honly, hpoison]
  exact ⟨rfl, rfl, rfl⟩

theorem firnMerge_of_oldest {s : State} {n : Fin 21} {x : FirnEnt} (h : s.firn.entries.find? (fun x => x.settled && x.log == n.val) = some x)
    (hheld : s.held (s.region x.sector) = false) : firnMerge n s = s.mergeSector x.sector := by
  simp only [firnMerge, h, hheld, Bool.false_eq_true, if_false]

/-! ## Writes in flight (R341) -/

/-- A change of the write in flight that leaves its id is read back. -/
theorem State.wr_setWr {s : State} {w : Wr} {g : Wr → Wr} (hg : ∀ v, (g v).id = v.id) (h : s.wr w.id = some w) :
    (s.setWr w.id g).wr w.id = some (g w) := by
  have hkeep : ((fun v : Wr => v.id == w.id) ∘ fun v => if v.id = w.id then g v else v) = fun v => v.id == w.id := by
    funext v
    by_cases hv : v.id = w.id <;> simp [hv, hg]
  change ((s.mem.wrs.map fun v => if v.id = w.id then g v else v).find? fun v => v.id == w.id) = some (g w)
  rw [List.find?_map, hkeep, show s.mem.wrs.find? (fun v => v.id == w.id) = some w from h]
  simp

theorem State.wr_dropWr (s : State) (id : Nat) : (s.dropWr id).wr id = none := by
  simp [State.wr, State.dropWr]

theorem State.wr_of_mem {s t : State} (h : t.mem = s.mem) (id : Nat) : t.wr id = s.wr id := by rw [State.wr, State.wr, h]

/-! ## A firn write enters its log (R229, R230, R232) -/

/-- Is it the INSTANCE's entry of a sector? -/
def FirnEnt.mine (x : FirnEnt) (e i sec : Nat) : Bool := x.ofInst e i && x.sector == sec

/-- The entry a firn write makes in a log. -/
def Wr.entry (w : Wr) (e i n : Nat) : FirnEnt :=
  { log := n, sector := w.addr, epoch := e, inst := i, mask := w.mask, data := w.data, poison := w.poison }

/-- An entry that a firn write of its sector has joined. -/
def FirnEnt.joined (x : FirnEnt) (w : Wr) : FirnEnt :=
  { x with mask := x.mask ||| w.mask, data := overlay w.mask 0 x.data w.data, poison := w.poison || (x.poison && w.mask != fullMask) }

/-- A write to a sector with no entry of its INSTANCE becomes one. -/
theorem State.entries_firnPut_new {s : State} {w : Wr} {e i : Nat} (n : Nat) (h : s.firn.entries.any (·.mine e i w.addr) = false) :
    (s.firnPut w e i n).firn.entries = s.firn.entries ++ [w.entry e i n] := if_neg (by rw [Bool.not_eq_true]; exact h)

/-- A write to a sector with an entry of its INSTANCE joins it. -/
theorem State.entries_firnPut_join {s : State} {w : Wr} {e i : Nat} (n : Nat) (h : s.firn.entries.any (·.mine e i w.addr) = true) :
    (s.firnPut w e i n).firn.entries = s.firn.entries.map fun x => if x.mine e i w.addr then x.joined w else x := if_pos h

/-- Of the entries only the sector's own of the INSTANCE changes, and it holds every byte of the write. -/
theorem entries_joined {l : List FirnEnt} (w : Wr) (e i : Nat) : let l' := l.map fun x => if x.mine e i w.addr then x.joined w else x
    l'.length = l.length ∧ (∀ x ∈ l, x.mine e i w.addr = false → x ∈ l') ∧ (∀ x ∈ l', x.mine e i w.addr = true → w.mask &&& x.mask = w.mask) := by
  refine ⟨List.length_map _, fun x hx hm => List.mem_map.mpr ⟨x, hx, by simp [hm]⟩, fun x hx hm => ?_⟩
  obtain ⟨y, -, rfl⟩ := List.mem_map.mp hx
  by_cases hy : y.mine e i w.addr = true
  · rw [if_pos hy, FirnEnt.joined, Nat.and_or_distrib_left, Nat.and_self]
    exact Nat.eq_of_testBit_eq fun k => by simp; tauto
  · rw [if_neg hy] at hm
    exact absurd hm hy

/-- A firn write accepted leaves firn, and of memory changes its own record alone. -/
theorem State.firnAccept_frame {s : State} {w : Wr} (h : s.wr w.id = some w) : let t := s.firnAccept w
    t.firn = s.firn ∧ t.wr w.id = some { w with stage := .accepted, heldAt := none } ∧ t.mem = { s.mem with wrs := t.mem.wrs } ∧
      t = { s with regs := t.regs, mem := t.mem } := by
  have honly := (s.setWr w.id fun v => { v with stage := .accepted, heldAt := none }).regsOnly_firnStatus
  have hwr := State.wr_setWr (g := fun v => { v with stage := .accepted, heldAt := none }) (fun _ => rfl) h
  unfold State.firnAccept
  dsimp only
  generalize (s.setWr w.id fun v => { v with stage := .accepted, heldAt := none }).firnStatus = t at honly
  have hmem : t.mem = (s.setWr w.id fun v => { v with stage := .accepted, heldAt := none }).mem := by rw [honly]
  refine ⟨by rw [honly]; rfl, (State.wr_of_mem hmem _).trans hwr, by rw [hmem]; rfl, ?_⟩
  rw [honly]
  rfl

/-- A firn write put in a log and accepted. -/
theorem State.firnEntered_frame {s : State} {w : Wr} (h : s.wr w.id = some w) (e i n : Nat) : let t := (s.firnPut w e i n).firnAccept w
    t.firn = (s.firnPut w e i n).firn ∧ t.wr w.id = some { w with stage := .accepted, heldAt := none } ∧
      t.mem = { s.mem with wrs := t.mem.wrs } ∧ t = { s with regs := t.regs, firn := t.firn, mem := t.mem } := by
  obtain ⟨hfirn, hwr, hmem, hframe⟩ := State.firnAccept_frame (s := s.firnPut w e i n) (w := w) h
  refine ⟨hfirn, hwr, hmem, ?_⟩
  generalize (s.firnPut w e i n).firnAccept w = t at hfirn hwr hmem hframe
  rw [hframe]
  rfl

/-! ## A full log (R243) -/

theorem State.firnHold_frame {s : State} {w : Wr} (h : s.wr w.id = some w) (hheld : w.heldAt = none) : let t := s.firnHold w
    t.wr w.id = some { w with heldAt := some s.now } ∧ t.firn = s.firn ∧
      t.fld R.FIRN_FULL_WAITS F.CTR.COUNT = (s.fld R.FIRN_FULL_WAITS F.CTR.COUNT + 1) % 2 ^ 48 ∧
      t.fld R.FIRN_STATUS F.FIRN_STATUS.FULL_SEEN = 1 ∧ t.mem = { s.mem with wrs := t.mem.wrs } := by
  have hhold : s.firnHold w = (((s.setWr w.id fun v => { v with heldAt := some s.now }).count R.FIRN_FULL_WAITS 1).setFld R.FIRN_STATUS
      F.FIRN_STATUS.FULL_SEEN 1).firnStatus := by simp only [State.firnHold, hheld]
  have hwr := State.wr_setWr (g := fun v => { v with heldAt := some s.now }) (fun _ => rfl) h
  dsimp only
  rw [hhold]
  have hmem : ((((s.setWr w.id fun v => { v with heldAt := some s.now }).count R.FIRN_FULL_WAITS 1).setFld R.FIRN_STATUS
      F.FIRN_STATUS.FULL_SEEN 1).firnStatus).mem = (s.setWr w.id fun v => { v with heldAt := some s.now }).mem := by
    rw [State.firnStatus_mem, State.setFld_mem, State.count_mem]
  refine ⟨(State.wr_of_mem hmem _).trans hwr, ?_, ?_, ?_, by rw [hmem]; rfl⟩
  · rw [State.firnStatus_firn, State.setFld_firn, State.count_frame]
    rfl
  · rw [(State.regsBut_firnStatus _).fld (by decide), State.fld_setFld_of_ne _ _ _ _ (by decide), State.fld_count]
    rfl
  · rw [State.fld_firnStatus_of_seen _ (by decide)]
    exact State.fld_setFld_of_le _ _ _ (by decide) (by decide)

/-! ## A firn write at its log (R229, R230, R239, R243) -/

section
variable {s : State} {w : Wr} {e i : Nat} (hin : s.absent (s.region w.addr) = false) (hheld : s.held (s.region w.addr) = false)
  (hfirst : s.wrFirst w = true)
include hin hheld hfirst

/-- A write of a melting INSTANCE is dropped. -/
theorem firnWrite_of_melting (hinst : s.epInst e = i) (hmelt : Ep.MELTING ≤ s.epState e) : firnWrite w e i s = (s.dropWr w.id).firnStatus := by
  simp [firnWrite, hin, hheld, hfirst, hinst, hmelt]

variable (hcrc : w.crc = none) (hlive : ¬ (s.epInst e = i ∧ Ep.MELTING ≤ s.epState e))
include hcrc hlive

theorem firnWrite_of_room (h : s.firn.entries.any (·.mine e i w.addr) = true ∨ s.logFull (s.region w.addr).log = false) :
    firnWrite w e i s = (s.firnPut w e i (s.region w.addr).log).firnAccept w := by
  have hroom : ((s.firn.entries.any fun x => x.ofInst e i && x.sector == w.addr) || !s.logFull (s.region w.addr).log) = true := by
    rcases h with h | h
    · exact Bool.or_eq_true_iff.mpr (.inl h)
    · simp [h]
  simp only [firnWrite, hin, hheld, hfirst, hcrc, hroom, if_neg hlive, Bool.false_eq_true, Bool.not_true, Bool.or_self, if_true, if_false]

theorem firnWrite_of_full (hnone : s.firn.entries.any (·.mine e i w.addr) = false) (hfull : s.logFull (s.region w.addr).log = true)
    (hspill : s.flag R.FIRN_CFG F.FIRN_CFG.SPILL_EN = false) : firnWrite w e i s = s.firnHold w := by
  have hroom : ((s.firn.entries.any fun x => x.ofInst e i && x.sector == w.addr) || !s.logFull (s.region w.addr).log) = false := by
    rw [hfull]
    simpa [FirnEnt.mine] using hnone
  simp only [firnWrite, hin, hheld, hfirst, hcrc, hroom, hspill, if_neg hlive, Bool.false_eq_true, Bool.not_true, Bool.or_self, and_false,
    false_and, if_false]

end

end Sys2Proof.Machine
end

section
/-!
A firn write held too long, and firn writes and merges by their commands (08_firn.md): O23.
-/

namespace Sys2Proof.Machine

/-! ## A write held too long (R243) -/

theorem State.life_frame (s : State) (i n : Nat) : s.life i n = { s with regs := (s.life i n).regs, faults := (s.life i n).faults } := by
  unfold State.life
  extract_lets c s1
  split_ifs <;> rfl

/-- The writes of a command that no log has taken dropped. -/
def State.sentDropped (s : State) (cmd : Nat) : State :=
  { s with mem := { s.mem with wrs := s.mem.wrs.filter fun v => !(v.cmd == cmd && v.stage == .sent) } }

/-- The first element of a write's command that no log has taken. -/
def State.firstUnwritten (s : State) (w : Wr) : Nat :=
  (s.mem.wrs.filter fun v => v.cmd == w.cmd && v.stage == .sent).foldl (fun m v => min m v.elem) w.elem

/-- A flight's command stopped on a full log at the first element not written. -/
def State.fullFaulted (s : State) (d : Die) (c : Cx) (w : Wr) (f : Flight) : State :=
  ((s.sentDropped w.cmd).setFlight d c f.slot fun g => { g with prog := s.firstUnwritten w }).flightFault d c f.slot St.FIRN_FULL 0 0

section
variable {s : State} {w : Wr} {d : Die} {c : Cx} {f : Flight} {h : Nat} (hheld : w.heldAt = some h) (hsrc : w.src = .cx d c)
include hheld hsrc

theorem firnFullTimeout_of_due (hf : (s.cx d c).flights.find? (fun g => g.id == w.cmd) = some f)
    (hus : s.fld R.FIRN_CFG F.FIRN_CFG.FULL_WAIT_US ≠ 0) (hdue : h + s.fld R.FIRN_CFG F.FIRN_CFG.FULL_WAIT_US * 16000 ≤ s.now) :
    firnFullTimeout w s = ((s.fullFaulted d c w f).life 12 1).firnStatus := by
  simp only [firnFullTimeout, hheld, hsrc, hf, if_pos (And.intro hus hdue)]
  rfl

theorem firnFullTimeout_of_early
    (h : s.fld R.FIRN_CFG F.FIRN_CFG.FULL_WAIT_US = 0 ∨ s.now < h + s.fld R.FIRN_CFG F.FIRN_CFG.FULL_WAIT_US * 16000) :
    firnFullTimeout w s = s := by
  simp only [firnFullTimeout, hheld, hsrc]
  exact if_neg fun hdue => by omega

end

/-- A context has a flight at the slot of each of its flights. -/
theorem Ctx.exists_flight {x : Ctx} {f : Flight} (h : f ∈ x.flights) : ∃ g, x.flight f.slot = some g :=
  Option.isSome_iff_exists.mp (List.find?_isSome.mpr ⟨f, h, beq_self_eq_true _⟩)

/-- A flight that has met a full log. -/
def Flight.metFull (f : Flight) : Flight := { f with phase := .faulted, fault := St.FIRN_FULL, faultAddr := 0, code := 0, held := none }

/-- The flight stops with FIRN_FULL, and no other context changes. -/
theorem State.fullFaulted_flight (s : State) (d : Die) (c : Cx) (w : Wr) {f : Flight} (hf : f ∈ (s.cx d c).flights) :
    (∃ g, ((s.fullFaulted d c w f).cx d c).flight f.slot = some g ∧ g.phase = .faulted ∧ g.fault = St.FIRN_FULL) ∧
      CxBut d c s (s.fullFaulted d c w f) := by
  obtain ⟨g, hg⟩ := Ctx.exists_flight hf
  have hprog : (((s.sentDropped w.cmd).setFlight d c f.slot fun g => { g with prog := s.firstUnwritten w }).cx d c).flight f.slot =
      some { g with prog := s.firstUnwritten w } := by
    rw [State.cx_setFlight]
    exact Ctx.flight_mapFlight (fun _ => rfl) hg
  have hbut : CxBut d c s ((s.sentDropped w.cmd).setFlight d c f.slot fun g => { g with prog := s.firstUnwritten w }) :=
    ((CxBut.refl d c s).of_cxs rfl).setFlight _ _
  unfold State.fullFaulted
  generalize (s.sentDropped w.cmd).setFlight d c f.slot _ = u at hprog hbut
  have hran : ((u.engRan d c f.slot).cx d c).flight f.slot = some { g with prog := s.firstUnwritten w } := by
    rwa [State.cx, State.engRan_cxs]
  refine ⟨⟨Flight.metFull { g with prog := s.firstUnwritten w }, ?_, rfl, rfl⟩, (hbut.of_cxs (u.engRan_cxs d c f.slot)).setFlight _ _⟩
  rw [State.flightFault, State.cx_setFlight]
  exact Ctx.flight_mapFlight (g := Flight.metFull) (fun _ => rfl) hran

theorem State.fullFaulted_frame (s : State) (d : Die) (c : Cx) (w : Wr) (f : Flight) :
    (s.fullFaulted d c w f).mem = (s.sentDropped w.cmd).mem ∧ (s.fullFaulted d c w f).firn = s.firn := by
  have honly : EnginesOnly (s.sentDropped w.cmd) (s.fullFaulted d c w f) := ((EnginesOnly.refl _).setFlight d c _ _).flightFault d c _ _ _ _
  exact ⟨by rw [honly], by rw [honly]; rfl⟩

/-- The stop counted and shown: it faults the command, drops its writes that no log has taken, and leaves firn and every other context. -/
theorem State.fullStopped_frame (s : State) (d : Die) (c : Cx) (w : Wr) {f : Flight} (hf : f ∈ (s.cx d c).flights) :
    let t := ((s.fullFaulted d c w f).life 12 1).firnStatus
    (∃ g, (t.cx d c).flight f.slot = some g ∧ g.phase = .faulted ∧ g.fault = St.FIRN_FULL) ∧ t.mem = (s.sentDropped w.cmd).mem ∧
      t.firn = s.firn ∧ CxBut d c s t := by
  obtain ⟨⟨g, hg, hfault⟩, hbut⟩ := s.fullFaulted_flight d c w hf
  obtain ⟨hmem, hfirn⟩ := s.fullFaulted_frame d c w f
  generalize s.fullFaulted d c w f = u at hg hbut hmem hfirn
  have hcxs : (u.life 12 1).firnStatus.cxs = u.cxs := by rw [State.firnStatus_cxs, State.life_frame]
  dsimp only
  refine ⟨⟨g, ?_, hfault⟩, ?_, ?_, hbut.of_cxs hcxs⟩
  · rw [State.cx, hcxs]
    exact hg
  · rw [State.firnStatus_mem, State.life_frame]
    exact hmem
  · rw [State.firnStatus_firn, State.life_frame]
    exact hfirn

theorem State.mem_sentDropped {s : State} {cmd : Nat} {v : Wr} :
    v ∈ (s.sentDropped cmd).mem.wrs ↔ v ∈ s.mem.wrs ∧ (v.cmd = cmd → v.stage = .accepted) := by
  rw [State.sentDropped, List.mem_filter]
  cases hv : v.stage <;> simp

/-! ## The commands -/

section
variable {s : State} {m : Moment} {w : Wr} {e i : Nat} (hon : s.On) (hw : s.wr w.id = some w)
include hon hw

theorem exec_firnWrite (hfirn : w.firn = some (e, i)) (hsent : w.stage = .sent) :
    exec (.firnWrite m w.id) s = .next (firnWrite w e i (s.atTime m)) := by
  have hexec : exec (.firnWrite m w.id) s = .next (firnWriteStep w.id (s.atTime m)) := State.whileOn_on _ hon
  have hw0 : (s.atTime m).wr w.id = some w := hw
  rw [hexec]
  simp only [firnWriteStep, hw0, hfirn, hsent, if_true]

theorem exec_firnFullTimeout : exec (.firnFullTimeout m w.id) s = .next (firnFullTimeout w (s.atTime m)) := by
  have hexec : exec (.firnFullTimeout m w.id) s = .next _ := State.whileOn_on _ hon
  simpa only [hw] using hexec

end

/-- Settles O23: a firn write by the state of its log and INSTANCE, the stop of one held too long, and a merge of the oldest settled sector. -/
theorem firnWrites : Obligations.FirnWrites := by
  unfold Obligations.FirnWrites
  refine ⟨fun s m w e i hon hnow hw hfirn hsent => ?_, fun s n x hon hfind hheld hm => ?_⟩
  · intro r s0 mine
    have hexec := exec_firnWrite (m := m) hon hw hfirn hsent
    have hw0 : s0.wr w.id = some w := hw
    have hm : s0.now = m := State.now_atTime_of_le hnow
    refine ⟨fun hin hheld hfirst hcrc hlive => ⟨fun hnone hroom => ?_, fun hany => ?_, fun hnone hfull hspill hat => ?_⟩,
      fun hin hheld hfirst hinst hmelt => ?_, fun h d c f hheld hsrc hf => ⟨fun hus hdue => ?_, fun hearly => ?_⟩⟩
    · rw [firnWrite_of_room (s := s0) hin hheld hfirst hcrc hlive (.inr hroom)] at hexec
      have hentries := State.entries_firnPut_new (s := s0) (s0.region w.addr).log hnone
      obtain ⟨hput, hwr, hmem, hframe⟩ := State.firnEntered_frame hw0 e i (s0.region w.addr).log
      rw [← hput] at hentries
      exact .of hexec ⟨hentries, hwr, hmem, hframe⟩
    · rw [firnWrite_of_room (s := s0) hin hheld hfirst hcrc hlive (.inl hany)] at hexec
      have hentries := State.entries_firnPut_join (s := s0) (s0.region w.addr).log hany
      obtain ⟨hput, hwr, hmem, hframe⟩ := State.firnEntered_frame hw0 e i (s0.region w.addr).log
      obtain ⟨hlen, hkept, hmask⟩ := entries_joined (l := s0.firn.entries) w e i
      rw [← hentries, ← hput] at hlen hkept hmask
      exact .of hexec ⟨hlen, hkept, hmask, hwr, hmem, hframe⟩
    · rw [firnWrite_of_full (s := s0) hin hheld hfirst hcrc hlive hnone hfull hspill] at hexec
      obtain ⟨hwr, hframe⟩ := State.firnHold_frame hw0 hat
      rw [hm] at hwr
      exact .of hexec ⟨hwr, hframe⟩
    · rw [firnWrite_of_melting (s := s0) hin hheld hfirst hinst hmelt] at hexec
      have hmem : (s0.dropWr w.id).firnStatus.mem = (s0.dropWr w.id).mem := State.firnStatus_mem _
      exact .of hexec ⟨(State.wr_of_mem hmem _).trans (s0.wr_dropWr w.id), State.firnStatus_firn _, (congrArg MemSt.cells hmem :)⟩
    · have hstop := exec_firnFullTimeout (m := m) hon hw
      rw [firnFullTimeout_of_due (s := s0) hheld hsrc hf hus (hm.symm ▸ hdue)] at hstop
      obtain ⟨hfault, hmem, hkept, hbut⟩ := s0.fullStopped_frame d c w (List.mem_of_find?_eq_some hf)
      refine .of hstop ⟨hfault, fun v hv => ?_, fun v hv hne => ?_, (congrArg MemSt.cells hmem :), hkept, hbut⟩
      · rw [hmem] at hv
        exact (State.mem_sentDropped.mp hv).2
      · rw [hmem]
        exact State.mem_sentDropped.mpr ⟨hv, fun he => absurd he hne⟩
    · have hstop := exec_firnFullTimeout (m := m) hon hw
      rwa [firnFullTimeout_of_early (s := s0) hheld hsrc (hm.symm ▸ hearly)] at hstop
  · have hexec : exec (.firnMerge n) s = .next (firnMerge n s) := State.whileOn_on _ hon
    rw [firnMerge_of_oldest hfind hheld] at hexec
    obtain ⟨hfirn, hcells, hframe⟩ := s.mergeSector_frame x.sector
    refine .of hexec ?_
    generalize s.mergeSector x.sector = t at hfirn hcells hframe
    have hfreed : ∀ y ∈ t.firn.entries, y.settled = true → y.sector ≠ x.sector := fun y hy hset => by
      rw [hfirn] at hy
      simpa [hset] using (List.mem_filter.mp hy).2
    have hread : t.cells x.sector 64 = s.ice x.sector := by
      have hback := State.cells_setCells_writeBytes hm x.sector (s.ice x.sector)
      rw [s.length_ice] at hback
      rw [State.cells, hcells]
      exact hback
    refine ⟨(State.ice_of_merged hfreed).trans hread, hread, ?_, fun a ha => ?_, hfreed, hframe⟩
    · rw [State.memOk, hcells]
      exact Memory.writeBytes_wf _ _ hm
    · rw [hcells]
      exact Memory.read_writeBytes_of_outside _ hm (by rwa [s.length_ice])

end Sys2Proof.Machine
end

section
/-!
The stacks and the DDR5 channels (09_memory.md): refresh, patrol scrubbing, the failure of a channel, the metadata window (O26).
-/

namespace Sys2Proof.Machine

/-! ## Life counters lie in the colophon (R519) -/

/-- A register below the colophon reads as before when a life counter is raised. -/
theorem State.reg_life (s : State) (i n : Nat) {o : Nat} (h : o < R.COLO_LIFE_SAT) : (s.life i n).reg o = s.reg o := by
  have hsat : o ≠ R.COLO_LIFE_SAT := Nat.ne_of_lt h
  have hlife : o ≠ R.COLO_LIFE i := by
    unfold R.COLO_LIFE_SAT at h
    unfold R.COLO_LIFE
    omega
  unfold State.life
  extract_lets c s1
  split_ifs
  · exact s.reg_setReg_of_ne _ hlife
  · exact s.reg_setReg_of_ne _ hlife
  · rw [State.reg_raise, State.reg_setReg_of_ne _ _ hsat, s.reg_setReg_of_ne _ hlife]

theorem State.fld_life (s : State) (i n : Nat) {o : Nat} (f : Fld) (h : o < R.COLO_LIFE_SAT) : (s.life i n).fld o f = s.fld o f := by
  rw [State.fld, State.fld, s.reg_life i n h]

@[simp] theorem State.life_mem (s : State) (i n : Nat) : (s.life i n).mem = s.mem := by rw [State.life_frame]
@[simp] theorem State.life_hs (s : State) (i n : Nat) : (s.life i n).hs = s.hs := by rw [State.life_frame]

/-- The registers of a stack that commands change or count in. -/
def stackRegs (j : Nat) : List Nat := [R.HS_STATUS j, R.HS_ECC_CE j, R.HS_ECC_UE j, R.HS_RETRAINS j, R.HS_HOLD_MAX j, R.FIRN_LOG j]

/-- They lie below the colophon's. -/
theorem stackRegs_lt (j : Fin 20) : ∀ o ∈ stackRegs j, o < R.COLO_LIFE_SAT := by
  revert j
  decide

theorem State.fld_life_stack (s : State) (i n : Nat) {j : Fin 20} {o : Nat} (f : Fld) (h : o ∈ stackRegs j) :
    (s.life i n).fld o f = s.fld o f := s.fld_life i n f (stackRegs_lt j o h)

/-! ## Refresh (R258) -/

/-- A temperature read, and the refresh rate set with it. -/
theorem State.refreshSet_frame (s : State) (j hot v : Nat) (hv : v ≤ 1) :
    let t := (s.setFld (R.HS_STATUS j) F.HS_STATUS.TEMP_C (min 255 hot)).setFld (R.HS_STATUS j) F.HS_STATUS.REFRESH_2X v
    t.fld (R.HS_STATUS j) F.HS_STATUS.TEMP_C = min 255 hot ∧ t.fld (R.HS_STATUS j) F.HS_STATUS.REFRESH_2X = v ∧ t.hsState j = s.hsState j := by
  refine ⟨?_, State.fld_setFld_of_le _ _ _ (by decide) hv, ?_⟩
  · rw [State.fld_setFld_of_disjoint _ _ _ _ _ (by decide) (by decide)]
    exact State.fld_setFld_of_le _ _ _ (by decide) (Nat.min_le_left _ _)
  · rw [State.hsState, State.fld_setFld_of_disjoint _ _ _ _ _ (by decide) (by decide),
      State.fld_setFld_of_disjoint _ _ _ _ _ (by decide) (by decide)]
    rfl

theorem refresh_frame (j : Fin 20) (hot : Nat) (s : State) : let t := refresh j hot s
    t.fld (R.HS_STATUS j) F.HS_STATUS.TEMP_C = min 255 hot ∧
      t.fld (R.HS_STATUS j) F.HS_STATUS.REFRESH_2X = (if 85 ≤ hot then 1 else if hot < 80 then 0 else s.fld (R.HS_STATUS j) F.HS_STATUS.REFRESH_2X) ∧
      t.hsState j = s.hsState j ∧ t = { s with regs := t.regs } ∧ RegsBut [R.HS_STATUS j] s t := by
  have hbut : RegsBut [R.HS_STATUS j] s (s.setFld (R.HS_STATUS j) F.HS_STATUS.TEMP_C (min 255 hot)) := (RegsBut.refl _ s).setFld _ _ (by simp)
  by_cases hhot : 85 ≤ hot
  · have hrefresh : refresh j hot s = _ := if_pos hhot
    obtain ⟨htemp, hrate, hstate⟩ := s.refreshSet_frame j hot 1 (by decide)
    rw [hrefresh, if_pos hhot]
    exact ⟨htemp, hrate, hstate, rfl, hbut.setFld _ _ (by simp)⟩
  · have hrefresh : refresh j hot s = _ := if_neg hhot
    rw [hrefresh, if_neg hhot]
    by_cases hcool : hot < 80
    · obtain ⟨htemp, hrate, hstate⟩ := s.refreshSet_frame j hot 0 (by decide)
      rw [if_pos hcool, if_pos hcool]
      exact ⟨htemp, hrate, hstate, rfl, hbut.setFld _ _ (by simp)⟩
    · rw [if_neg hcool, if_neg hcool]
      exact ⟨State.fld_setFld_of_le _ _ _ (by decide) (Nat.min_le_left _ _), State.fld_setFld_of_disjoint _ _ _ _ _ (by decide) (by decide),
        State.fld_setFld_of_disjoint _ _ _ _ _ (by decide) (by decide), rfl, hbut⟩

/-! ## Patrol scrubbing (R264, R265) -/

section
variable {s : State} {a j lin : Nat} (hr : s.region a = .hbm j lin)
include hr

theorem patrolScrub_of_on (k : EccKind) (hin : s.stackIn j = true) (hen : s.flag (R.HS_CFG j) F.HS_CFG.SCRUB_EN = true) :
    patrolScrub a (some k) s = s.eccFind { addr := a, kind := k } := by
  simp [patrolScrub, hr, hin, hen]

theorem patrolScrub_of_off (x : Option EccKind) (hen : s.flag (R.HS_CFG j) F.HS_CFG.SCRUB_EN = false) : patrolScrub a x s = s := by
  cases x <;> simp [patrolScrub, hr, hen]

end

/-- The record of an uncorrectable error in a stack's sector (R264). -/
def stackUe (j a : Nat) : FaultRec :=
  { status := St.MEM_UE, sev := Sev.DEFERRED, kind := Uk.STACK, die := j / 5, index := j, addr := a, phys := true, hasAddr := true }

/-- An uncorrectable error of a stack's sector marked and counted. -/
def State.ueMarked (s : State) (j lin : Nat) : State := ((s.setPoison lin true).count (R.HS_ECC_UE j) 1).life 15 1

theorem State.poisoned_of_mem {s t : State} (h : t.mem = s.mem) (a : Nat) : t.poisoned a = s.poisoned a := by
  rw [State.poisoned, State.block, h]
  rfl

theorem State.poisoned_setPoison (s : State) (a : Nat) : (s.setPoison a true).poisoned a = true := by
  have hadded (l : List Nat) (i : Nat) : (if l.contains i then l else i :: l).contains i = true := by
    split
    · assumption
    · simp
  rw [State.poisoned, State.block, State.setPoison, State.setBlock, Sparse.get_set_same]
  exact hadded _ _

section
variable {s : State} {a lin : Nat} {j : Fin 20} (ha : a % 64 = 0) (hr : s.region a = .hbm j lin)
include ha hr

theorem State.eccFind_uncorrectable_of_new (hp : s.poisoned lin = false) :
    s.eccFind { addr := a, kind := .uncorrectable } = (s.ueMarked j lin).raise (stackUe j a) := by
  have hsec : a / 64 * 64 = a := by omega
  simp [State.eccFind, hsec, hr, Region.key, hp, State.ueMarked, stackUe]

/-- A correctable error of a stack's sector is counted, and memory stays. -/
theorem State.eccFind_correctable_frame : let t := s.eccFind { addr := a, kind := .correctable }
    t.fld (R.HS_ECC_CE j) F.CTR.COUNT = (s.fld (R.HS_ECC_CE j) F.CTR.COUNT + 1) % 2 ^ 48 ∧ t.mem = s.mem := by
  have hsec : a / 64 * 64 = a := by omega
  have hcount : ((s.count (R.HS_ECC_CE j) 1).life 14 1).fld (R.HS_ECC_CE j) F.CTR.COUNT = (s.fld (R.HS_ECC_CE j) F.CTR.COUNT + 1) % 2 ^ 48 := by
    rw [State.fld_life_stack (j := j) _ _ _ _ (by simp [stackRegs]), State.fld_count]
  have hmem : ((s.count (R.HS_ECC_CE j) 1).life 14 1).mem = s.mem := by rw [State.life_mem, State.count_mem]
  simp only [State.eccFind, hsec, hr, Region.key]
  split
  · exact ⟨hcount, hmem⟩
  · exact ⟨hcount, hmem⟩

end

theorem State.ueMarked_frame (s : State) (j : Fin 20) (lin : Nat) : let t := s.ueMarked j lin
    t.poisoned lin = true ∧ t.fld (R.HS_ECC_UE j) F.CTR.COUNT = (s.fld (R.HS_ECC_UE j) F.CTR.COUNT + 1) % 2 ^ 48 ∧ t.mem.cells = s.mem.cells := by
  have hmem : (s.ueMarked j lin).mem = (s.setPoison lin true).mem := by rw [State.ueMarked, State.life_mem, State.count_mem]
  refine ⟨?_, ?_, (congrArg MemSt.cells hmem :)⟩
  · rw [State.poisoned_of_mem hmem, State.poisoned_setPoison]
  · rw [State.ueMarked, State.fld_life_stack (j := j) _ _ _ _ (by simp [stackRegs]), State.fld_count]
    rfl

/-! ## DDR5 channels (R268) -/

/-- A channel's failure: it leaves service and is told, and the addresses on it are absent. -/
theorem ddrChannelFail_frame {n : Fin 12} {s : State} (h : s.flag (R.DC_STATUS n) F.DC_STATUS.IN_SERVICE = true) :
    let t := ddrChannelFail n s
    t.fld (R.DC_STATUS n) F.DC_STATUS.IN_SERVICE = 0 ∧ (∀ off, t.ddrChannel off = n.val → t.absent (.ddr off) = true) ∧
      t.lastRaised.map (fun r => (r.status, r.sev, r.index)) = some (St.DDR_CHANNEL_FAIL, Sev.FATAL_UNIT, n.val) ∧
      t = { s with regs := t.regs, faults := t.faults } ∧ RegsBut [R.DC_STATUS n] s t := by
  have hout : (ddrChannelFail n s).fld (R.DC_STATUS n) F.DC_STATUS.IN_SERVICE = 0 := by
    rw [ddrChannelFail, if_pos h, State.fld_raise]
    exact State.fld_setFld_of_le _ _ _ (by decide) (Nat.zero_le _)
  refine ⟨hout, fun off hoff => ?_, ?_⟩
  · rw [State.absent, hoff, State.flag, hout]
    rfl
  · rw [ddrChannelFail, if_pos h]
    exact ⟨by rw [State.lastRaised_raise]; rfl, rfl, ((RegsBut.refl _ s).setFld _ _ (by simp)).raise _⟩

/-! ## The metadata window (R276) -/

theorem hsMetaAct_frame (j : Fin 20) (v : Word) (s : State) : let t := hsMetaAct j v s
    (t.hsSt j).metaBlock = some (v.get 55 12 * 4096) ∧
      (v.get 55 12 * 4096 / 0x1000000000 = j.val → v.get 55 12 * 4096 % 0x1000000000 < 0xF00000000 → (t.hsSt j).metaRec = s.metaWords (v.get 55 12 * 4096)) ∧
      (v.get 55 12 * 4096 / 0x1000000000 ≠ j.val → (t.hsSt j).metaRec = List.replicate 16 0) ∧
      t = { s with regs := t.regs, hs := t.hs } ∧ RegsBut [R.HS_META_ADDR j] s t := by
  unfold hsMetaAct
  extract_lets s1 a ok
  have hkept : s1.metaWords a = s.metaWords a := rfl
  refine ⟨by rw [State.hsSt_setHsSt], fun hmine hlow => ?_, fun hother => ?_, rfl, (s.plainWrite_frame _ v).2⟩
  · have hok : ok = true := by simp only [ok, a, hmine, hlow, decide_true, Bool.and_self]
    rw [State.hsSt_setHsSt, ← hkept]
    simp only [hok, if_true, a]
  · have hok : ok = false := by simp only [ok, a, hother, decide_false, Bool.false_and]
    rw [State.hsSt_setHsSt]
    simp only [hok, Bool.false_eq_true, if_false]

/-- Settles O26: each command's act on its stack or channel. -/
theorem stackUpkeep : Obligations.StackUpkeep := by
  unfold Obligations.StackUpkeep
  intro s j hon
  refine ⟨fun hot => .of (State.whileOn_on _ hon) (refresh_frame j hot s), fun a lin ha hr hin => ?_,
    fun n hn => .of (State.whileOn_on _ hon) (ddrChannelFail_frame hn), fun w v hw => .of (State.whileOn_write _ hon hw) (hsMetaAct_frame j v s)⟩
  have hexec (x : Option EccKind) : exec (.patrolScrub a x) s = .next (patrolScrub a.toNat x s) := State.whileOn_on _ hon
  refine ⟨fun hen hp => ?_, fun hen => ?_, fun hen x => ?_⟩
  · obtain ⟨hmarked, hcount, hcells⟩ := s.ueMarked_frame j lin
    refine .of (hexec _) ?_
    rw [patrolScrub_of_on hr _ hin hen, State.eccFind_uncorrectable_of_new ha hr hp]
    exact ⟨hmarked, hcount, by rw [State.lastRaised_raise]; rfl, hcells⟩
  · refine .of (hexec _) ?_
    rw [patrolScrub_of_on hr _ hin hen]
    exact State.eccFind_correctable_frame ha hr
  · rw [hexec, patrolScrub_of_off hr x hen]

end Sys2Proof.Machine
end

section
/-!
Writes of HS_CTL and the retrains of a stack (09_memory.md): O27.
-/

namespace Sys2Proof.Machine

/-! ## A write of HS_CTL (R275) -/

section
variable {s : State} {j : Fin 20} {act : Nat} {v : Word} (eff : State → State)

theorem hsCtl_of_allowed (hpos : 0 < act) (hv : v.get 3 0 = act) (hallowed : hsAllowed act (s.hsState j) = true)
    (hawake : s.hsState j ≠ HsS.SELF_REFRESH) : hsCtl j act eff v s = eff s := by
  have hset : act % (2 * act) / act = 1 := by rw [Nat.mod_eq_of_lt (by omega), Nat.div_self hpos]
  simp [hsCtl, hv, hset, hallowed, hawake]

theorem hsCtl_of_refused (hset : v.get 3 0 % (2 * act) / act ≠ 0) (h : v.get 3 0 ≠ act ∨ hsAllowed act (s.hsState j) = false) :
    hsCtl j act eff v s = s.raiseReg St.HS_CTL_REFUSED (R.HS_CTL j) := by
  have hbad : v.get 3 0 ≠ act ∨ (!hsAllowed act (s.hsState j)) = true := h.imp_right fun hno => by rw [hno]; rfl
  exact (if_neg hset).trans (if_pos hbad)

end

theorem Word.retrainBit_set {v : Word} (h : v.bit 0 = true) : v.get 3 0 % (2 * 1) / 1 ≠ 0 := by
  have hodd : v.toNat % 2 = 1 := by simpa [Word.bit] using h
  rw [Word.get, bitsOf, Nat.shiftRight_zero, Nat.div_one]
  omega

/-- A stack out of service, in recalibration or in a retrain takes no RETRAIN. -/
theorem retrain_not_allowed {state : Nat} (h : state = HsS.OFFLINE ∨ state = HsS.RECAL ∨ state = HsS.RETRAIN) : hsAllowed 1 state = false := by
  rcases h with rfl | rfl | rfl <;> rfl

/-! ## A retrain begins, or waits for its neighbour (R269, R270) -/

/-- The stack holds its accesses for a retrain from moment `m` on, and nothing but its state has changed. -/
def AccessesHeld (m j : Nat) (s t : State) : Prop :=
  t.hsState j = HsS.RETRAIN ∧ (t.hsSt j).holdAt = m ∧ (∀ lin, t.held (.hbm j lin) = true) ∧
    t = { s with regs := t.regs, hs := t.hs } ∧ RegsBut [R.HS_STATUS j] s t

theorem State.startRetrain_of_free {s : State} {j : Nat} (h : s.neighbourHolds j = false) : AccessesHeld s.now j s (s.startRetrain j) := by
  have hstart : s.startRetrain j = (s.setHsState j HsS.RETRAIN).setHsSt j { s.hsSt j with holdAt := s.now, retrainDue := false } := by
    rw [State.startRetrain, h]
    rfl
  have hstate : (s.startRetrain j).hsState j = HsS.RETRAIN := by
    rw [hstart]
    exact State.fld_setFld_of_le _ _ _ (by decide) (by decide)
  refine ⟨hstate, ?_, fun lin => ?_, ?_, ?_⟩
  · rw [hstart, State.hsSt_setHsSt]
  · rw [State.hsState] at hstate
    rw [State.held, hstate]
    rfl
  · rw [hstart]
    rfl
  · rw [hstart]
    exact (RegsBut.refl _ s).setFld _ _ (by simp)

theorem State.startRetrain_of_neighbour {s : State} {j : Nat} (h : s.neighbourHolds j = true) :
    s.startRetrain j = s.setHsSt j { s.hsSt j with retrainDue := true } := if_pos h

/-! ## Automatic retrains (R270) -/

section
variable {s : State} {j : Nat} {any : Bool}

theorem State.autoRetrain_of_due (hrun : s.hsState j = HsS.RUN) (hdue : s.flag (R.HS_STATUS j) F.HS_STATUS.DRIFT_DUE = true)
    (hauto : s.flag (R.HS_CFG j) F.HS_CFG.AUTO_RETRAIN = true) (hwhen : (any || s.inWindow j) = true) : s.autoRetrain j any = s.startRetrain j := by
  simp [State.autoRetrain, hrun, hdue, hauto, hwhen]

theorem State.autoRetrain_of_not (h : s.flag (R.HS_CFG j) F.HS_CFG.AUTO_RETRAIN = false ∨ (any || s.inWindow j) = false) :
    s.autoRetrain j any = s := by
  rcases h with h | h <;> simp [State.autoRetrain, h]

end

/-- DRIFT_DUE set: the drift monitor has passed its threshold. -/
def State.driftNoted (s : State) (j : Nat) : State := s.setFld (R.HS_STATUS j) F.HS_STATUS.DRIFT_DUE 1

section
variable (s : State) (j : Nat)

theorem State.fld_driftNoted_of_ne {o : Nat} (f : Fld) (h : o ≠ R.HS_STATUS j) : (s.driftNoted j).fld o f = s.fld o f :=
  State.fld_setFld_of_ne _ _ _ _ h

theorem State.fld_driftNoted_HS_CFG (f : Fld) : (s.driftNoted j).fld (R.HS_CFG j) f = s.fld (R.HS_CFG j) f :=
  s.fld_driftNoted_of_ne j f (by unfold R.HS_CFG R.HS_STATUS; omega)

theorem State.hsState_driftNoted (k : Nat) : (s.driftNoted j).hsState k = s.hsState k := by
  by_cases h : R.HS_STATUS k = R.HS_STATUS j
  · rw [State.hsState, State.hsState, h]
    exact State.fld_setFld_of_disjoint _ _ _ _ _ (by decide) (by decide)
  · exact s.fld_driftNoted_of_ne j _ h

theorem State.neighbourHolds_driftNoted : (s.driftNoted j).neighbourHolds j = s.neighbourHolds j := by
  simp only [State.neighbourHolds, State.hsState_driftNoted]

theorem State.inWindow_driftNoted : (s.driftNoted j).inWindow j = s.inWindow j := by
  simp only [State.inWindow, State.fld_driftNoted_HS_CFG]
  rfl

theorem State.driftDue_driftNoted : (s.driftNoted j).fld (R.HS_STATUS j) F.HS_STATUS.DRIFT_DUE = 1 :=
  State.fld_setFld_of_le _ _ _ (by decide) (by decide)

end

theorem driftThreshold_of_run {s : State} {j : Fin 20} (twice : Bool) (h : s.hsState j = HsS.RUN) :
    driftThreshold j twice s = (s.driftNoted j).autoRetrain j twice := by
  have hawake : (s.driftNoted j).hsState j ≠ HsS.SELF_REFRESH := by
    rw [State.hsState_driftNoted, h]
    decide
  exact if_neg hawake

/-- A retrain that begins leaves DRIFT_DUE. -/
theorem State.driftDue_startRetrain (s : State) (j : Nat) :
    (s.startRetrain j).fld (R.HS_STATUS j) F.HS_STATUS.DRIFT_DUE = s.fld (R.HS_STATUS j) F.HS_STATUS.DRIFT_DUE := by
  unfold State.startRetrain
  split
  · rfl
  · exact State.fld_setFld_of_disjoint _ _ _ _ _ (by decide) (by decide)

/-- The drift monitor starts a retrain in the window, or at twice the threshold at any time. -/
theorem driftThreshold_holds {s : State} {j : Fin 20} {twice : Bool} (hrun : s.hsState j = HsS.RUN)
    (hauto : s.flag (R.HS_CFG j) F.HS_CFG.AUTO_RETRAIN = true) (hfree : s.neighbourHolds j = false) (hwhen : (twice || s.inWindow j) = true) :
    AccessesHeld s.now j s (driftThreshold j twice s) ∧ (driftThreshold j twice s).fld (R.HS_STATUS j) F.HS_STATUS.DRIFT_DUE = 1 := by
  have hdue := s.driftDue_driftNoted j
  have hstart : driftThreshold j twice s = (s.driftNoted j).startRetrain j := by
    rw [driftThreshold_of_run twice hrun]
    refine State.autoRetrain_of_due ?_ ?_ ?_ ?_
    · rw [State.hsState_driftNoted, hrun]
    · rw [State.flag, hdue]
      rfl
    · rwa [State.flag, State.fld_driftNoted_HS_CFG]
    · rwa [State.inWindow_driftNoted]
  have hbut : RegsBut [R.HS_STATUS j] s (s.driftNoted j) := (RegsBut.refl _ s).setFld _ _ (by simp)
  obtain ⟨hstate, hat, hheld, hframe, hregs⟩ := State.startRetrain_of_free ((s.neighbourHolds_driftNoted j).trans hfree)
  rw [hstart]
  exact ⟨⟨hstate, hat, hheld, hframe, hbut.trans hregs⟩, by rw [State.driftDue_startRetrain, hdue]⟩

theorem driftThreshold_of_not {s : State} {j : Fin 20} (hrun : s.hsState j = HsS.RUN)
    (h : s.flag (R.HS_CFG j) F.HS_CFG.AUTO_RETRAIN = false ∨ s.inWindow j = false) : driftThreshold j false s = s.driftNoted j := by
  rw [driftThreshold_of_run false hrun]
  refine State.autoRetrain_of_not (h.imp (fun hauto => ?_) fun hshut => ?_)
  · rwa [State.flag, State.fld_driftNoted_HS_CFG]
  · rwa [Bool.false_or, State.inWindow_driftNoted]

/-! ## A retrain ends (R269) -/

/-- A field raised to a value that fits it is at least that value. -/
theorem State.le_fld_raiseFld (s : State) (o : Nat) (f : Fld) {v : Nat} (hf : f.hi < 64) (hv : v ≤ f.top) : v ≤ (s.raiseFld o f v).fld o f := by
  unfold State.raiseFld
  split
  · rw [State.fld_setFld_of_le _ _ _ hf (Nat.min_le_left _ _), Nat.min_eq_right hv]
  · rename_i h
    exact Nat.le_of_not_lt h

theorem State.fld_raiseFld_of_ne (s : State) {o i : Nat} (f g : Fld) (v : Nat) (h : i ≠ o) : (s.raiseFld o f v).fld i g = s.fld i g :=
  ((RegsBut.refl [o] s).raiseFld f v (by simp)).fld (by simpa using h) g

@[simp] theorem State.count_hs (s : State) (o n : Nat) : (s.count o n).hs = s.hs := by rw [State.count_frame]

@[simp] theorem State.raiseFld_hs (s : State) (o : Nat) (f : Fld) (v : Nat) : (s.raiseFld o f v).hs = s.hs := by
  rw [(RegsOnly.refl s).raiseFld o f v]

/-- How long the stack has held its accesses, in nanoseconds that fit HS_HOLD_MAX. -/
def State.holdNs (s : State) (j : Nat) : Nat := min 0xFFFFFFFF ((s.now - (s.hsSt j).holdAt) / 16)

/-- A retrain ended and counted, its accesses held no more. -/
def State.retrainCounted (s : State) (j : Nat) : State :=
  (((s.setHsState j HsS.RUN).count (R.HS_RETRAINS j) 1).raiseFld (R.HS_HOLD_MAX j) F.HS_HOLD_MAX.MAX_NS (s.holdNs j)).life 16 1

/-- The record of a failed retrain. -/
def retrainFailure (j : Nat) : FaultRec := { status := St.HS_RETRAIN_FAIL, sev := Sev.DEFERRED, kind := Uk.STACK, die := j / 5, index := j }

/-- A retrain ended: done, or failed. -/
def State.retrainEnded (s : State) (j : Nat) (failed : Bool) : State :=
  if failed then (s.retrainCounted j).raise (retrainFailure j) else (s.retrainCounted j).setFld (R.HS_STATUS j) F.HS_STATUS.DRIFT_DUE 0

section
variable (s : State) (j : Fin 20)

theorem State.retrainCounted_mem : (s.retrainCounted j).mem = s.mem := by
  rw [State.retrainCounted, State.life_mem, State.raiseFld_mem, State.count_mem]
  rfl

theorem State.retrainCounted_hs : (s.retrainCounted j).hs = s.hs := by
  rw [State.retrainCounted, State.life_hs, State.raiseFld_hs, State.count_hs]
  rfl

theorem State.fld_HS_STATUS_retrainCounted (f : Fld) : (s.retrainCounted j).fld (R.HS_STATUS j) f = (s.setHsState j HsS.RUN).fld (R.HS_STATUS j) f := by
  rw [State.retrainCounted, State.fld_life_stack (j := j) _ _ _ _ (by simp [stackRegs]),
    State.fld_raiseFld_of_ne _ _ _ _ (by unfold R.HS_STATUS R.HS_HOLD_MAX; omega),
    State.fld_count_of_ne _ _ _ (by unfold R.HS_STATUS R.HS_RETRAINS; omega)]

theorem State.hsState_retrainCounted : (s.retrainCounted j).hsState j = HsS.RUN := by
  rw [State.hsState, State.fld_HS_STATUS_retrainCounted]
  exact State.fld_setFld_of_le _ _ _ (by decide) (by decide)

theorem State.driftDue_retrainCounted :
    (s.retrainCounted j).fld (R.HS_STATUS j) F.HS_STATUS.DRIFT_DUE = s.fld (R.HS_STATUS j) F.HS_STATUS.DRIFT_DUE := by
  rw [State.fld_HS_STATUS_retrainCounted]
  exact State.fld_setFld_of_disjoint _ _ _ _ _ (by decide) (by decide)

theorem State.count_retrainCounted :
    (s.retrainCounted j).fld (R.HS_RETRAINS j) F.CTR.COUNT = (s.fld (R.HS_RETRAINS j) F.CTR.COUNT + 1) % 2 ^ 48 := by
  rw [State.retrainCounted, State.fld_life_stack (j := j) _ _ _ _ (by simp [stackRegs]),
    State.fld_raiseFld_of_ne _ _ _ _ (by unfold R.HS_RETRAINS R.HS_HOLD_MAX; omega), State.fld_count, State.setHsState,
    State.fld_setFld_of_ne _ _ _ _ (by unfold R.HS_RETRAINS R.HS_STATUS; omega)]

theorem State.holdNs_le_retrainCounted : s.holdNs j ≤ (s.retrainCounted j).fld (R.HS_HOLD_MAX j) F.HS_HOLD_MAX.MAX_NS := by
  rw [State.retrainCounted, State.fld_life_stack (j := j) _ _ _ _ (by simp [stackRegs])]
  exact State.le_fld_raiseFld _ _ _ (by decide) (Nat.min_le_left _ _)

/-- What a retrain's end leaves, done or failed. -/
theorem State.retrainEnded_frame (failed : Bool) : let t := s.retrainEnded j failed
    t.hsState j = HsS.RUN ∧ t.fld (R.HS_RETRAINS j) F.CTR.COUNT = (s.fld (R.HS_RETRAINS j) F.CTR.COUNT + 1) % 2 ^ 48 ∧
      s.holdNs j ≤ t.fld (R.HS_HOLD_MAX j) F.HS_HOLD_MAX.MAX_NS ∧
      (failed = false → t.fld (R.HS_STATUS j) F.HS_STATUS.DRIFT_DUE = 0) ∧
      (failed = true → t.fld (R.HS_STATUS j) F.HS_STATUS.DRIFT_DUE = s.fld (R.HS_STATUS j) F.HS_STATUS.DRIFT_DUE ∧
        t.lastRaised.map (fun r => (r.status, r.sev)) = some (St.HS_RETRAIN_FAIL, Sev.DEFERRED)) ∧
      t.mem = s.mem ∧ t.hs = s.hs := by
  have hstate := s.hsState_retrainCounted j
  have hcount := s.count_retrainCounted j
  have hhold := s.holdNs_le_retrainCounted j
  cases failed with
  | true =>
    exact ⟨hstate, hcount, hhold, fun h => absurd h (by decide),
      fun _ => ⟨s.driftDue_retrainCounted j, by rw [State.retrainEnded, if_pos rfl, State.lastRaised_raise]; rfl⟩, s.retrainCounted_mem j, s.retrainCounted_hs j⟩
  | false =>
    refine ⟨?_, ?_, ?_, fun _ => State.fld_setFld_of_le _ _ _ (by decide) (by decide), fun h => absurd h (by decide), s.retrainCounted_mem j,
      s.retrainCounted_hs j⟩
    · exact (State.fld_setFld_of_disjoint _ _ _ _ _ (by decide) (by decide)).trans hstate
    · exact (State.fld_setFld_of_ne _ _ _ _ (by unfold R.HS_RETRAINS R.HS_STATUS; omega)).trans hcount
    · exact hhold.trans_eq (State.fld_setFld_of_ne _ _ _ _ (by unfold R.HS_HOLD_MAX R.HS_STATUS; omega)).symm

end

/-- With no removal and no retrain waiting, a retrain ends and nothing else begins. -/
theorem retrainComplete_of_alone {s : State} {j : Fin 20} (hstate : s.hsState j = HsS.RETRAIN) (hoff : (s.hsSt j).offAfter = false)
    (hdue : ∀ k ∈ dieStacks (j / 5), (s.hsSt k).retrainDue = false) (failed : Bool) : retrainComplete j failed s = s.retrainEnded j failed := by
  obtain ⟨-, -, -, -, -, -, hhs⟩ := s.retrainEnded_frame j failed
  have hsSt (k : Nat) : (s.retrainEnded j failed).hsSt k = s.hsSt k := by rw [State.hsSt, hhs, State.hsSt]
  unfold retrainComplete
  rw [if_pos hstate]
  extract_lets ns s1 s2 s3
  have hended : s3 = s.retrainEnded j failed := if_neg fun h => by
    rw [show s2.hsSt j = s.hsSt j from hsSt j, hoff] at h
    cases h
  split
  · next k hk =>
    have hwaits := List.find?_some hk
    rw [hended, hsSt, hdue k (List.mem_of_find?_eq_some hk)] at hwaits
    cases hwaits
  · exact hended

/-- Settles O27: HS_CTL by the state of its stack, the drift monitor and the window, and a retrain's end. -/
theorem stackRetrains : Obligations.StackRetrains := by
  unfold Obligations.StackRetrains
  intro s m j hon hnow s0 holds refused
  have hm : s0.now = m := State.now_atTime_of_le hnow
  have hholds {t : State} (h : AccessesHeld s0.now j s0 t) : holds t := by
    rw [hm] at h
    exact h
  have hdrift (twice : Bool) : exec (.driftThreshold m j twice) s = .next (driftThreshold j twice s0) := State.whileOn_on _ hon
  have hwindow : exec (.retrainWindow m j) s = .next (s0.autoRetrain j false) := State.whileOn_on _ hon
  have hcomplete (failed : Bool) : exec (.retrainComplete m j failed) s = .next (retrainComplete j failed s0) := State.whileOn_on _ hon
  refine ⟨fun w v hw hbit => ?_, fun hrun hauto hfree => ⟨?_, fun hin => ?_, fun hin hdue => ?_⟩, fun hnot => ⟨?_, fun hrun => ?_⟩,
    fun hstate hoff hdue failed => ?_, fun hstate failed => ?_⟩
  · have hw0 : s0.Writes w (R.HS_CTL j) v := hw
    have hexec : exec (.retrain m w j) s = .next (hsCtl j 1 (fun u => u.startRetrain j) v s0) := by
      rw [← State.onWrite_of (hsCtl j 1 _) hw0]
      exact State.whileOn_on _ hon
    have hacts (hv : v.get 3 0 = 1) (hrun : s0.hsState j = HsS.RUN) : exec (.retrain m w j) s = .next (s0.startRetrain j) := by
      rw [hexec, hsCtl_of_allowed _ (by decide) hv (by rw [hrun]; rfl) (by rw [hrun]; decide)]
    refine ⟨fun hv hrun hfree => ?_, fun hv hrun hbusy => ?_, fun hbad => ?_⟩
    · exact .of (hacts hv hrun) (hholds (State.startRetrain_of_free hfree))
    · rw [hacts hv hrun, State.startRetrain_of_neighbour (s := s0) hbusy]
      rfl
    · have hrefused : v.get 3 0 ≠ 1 ∨ hsAllowed 1 (s0.hsState j) = false :=
        hbad.imp_right retrain_not_allowed
      rw [hsCtl_of_refused _ (Word.retrainBit_set hbit) hrefused] at hexec
      exact .of hexec (s0.told_raiseReg _ _)
  · obtain ⟨hheld, hdue⟩ := driftThreshold_holds (s := s0) (twice := true) hrun hauto hfree rfl
    exact .of (hdrift true) ⟨hholds hheld, hdue⟩
  · obtain ⟨hheld, hdue⟩ := driftThreshold_holds (s := s0) (twice := false) hrun hauto hfree hin
    exact .of (hdrift false) ⟨hholds hheld, hdue⟩
  · rw [State.autoRetrain_of_due (s := s0) (any := false) hrun hdue hauto hin] at hwindow
    exact .of hwindow (hholds (State.startRetrain_of_free hfree))
  · rw [hwindow, State.autoRetrain_of_not (s := s0) (any := false) hnot]
  · rw [hdrift, driftThreshold_of_not (s := s0) hrun hnot]
    rfl
  · have hended := hcomplete failed
    rw [retrainComplete_of_alone (s := s0) hstate hoff hdue] at hended
    obtain ⟨hrun, hcount, hhold, hframe⟩ := s0.retrainEnded_frame j failed
    rw [State.holdNs, hm] at hhold
    exact .of hended ⟨hrun, hcount, hhold, hframe⟩
  · have hidle : retrainComplete j failed s0 = s0 := if_neg hstate
    rw [hcomplete, hidle]

end Sys2Proof.Machine
end

section
/-!
A stack leaves service and returns to it (09_memory.md, 11_coherence.md): O28.
-/

namespace Sys2Proof.Machine

/-! ## A range of memory cleared (R261) -/

theorem Memory.read_clear_inside {lo n a : Nat} (m : List Host.Cell) (hlo : lo ≤ a) (hhi : a < lo + n) : Memory.read a (Memory.clear lo n m) = 0 := by
  induction m with
  | nil => rfl
  | cons x r ih =>
    obtain ⟨i, v⟩ := x
    rw [Memory.clear] at ih ⊢
    by_cases hi : i < lo ∨ lo + n ≤ i
    · rw [List.filter_cons_of_pos (by simpa using hi), Memory.read, if_neg (by omega)]
      split
      · rfl
      · exact ih
    · rw [List.filter_cons_of_neg (by simpa using hi)]
      exact ih

theorem Memory.read_clear_outside {lo n a : Nat} {m : List Host.Cell} {above : Option Nat} (hm : Memory.wfFrom above m = true)
    (ha : a < lo ∨ lo + n ≤ a) : Memory.read a (Memory.clear lo n m) = Memory.read a m := by
  induction m generalizing above with
  | nil => rfl
  | cons x r ih =>
    obtain ⟨i, v⟩ := x
    obtain ⟨-, -, hr⟩ := (Memory.wfFrom_cons above i v r).mp hm
    have hrest := ih hr
    rw [Memory.clear] at hrest ⊢
    by_cases hi : i < lo ∨ lo + n ≤ i
    · rw [List.filter_cons_of_pos (by simpa using hi), Memory.read, Memory.read, hrest]
    · rw [List.filter_cons_of_neg (by simpa using hi), Memory.read, if_neg (by omega)]
      split
      · exact Memory.read_of_above fun c hc => lt_trans ‹a < i› (Memory.wfFrom_above hr c (List.mem_of_mem_filter hc))
      · exact hrest

/-! ## Entries dropped from a keyed table -/

theorem Sparse.get_filter_of_kept {α : Type} (d : α) {p : Nat → Bool} {k : Nat} (hk : p k = true) (l : List (Nat × α)) :
    Sparse.get d k (l.filter fun b => p b.1) = Sparse.get d k l := by
  induction l with
  | nil => rfl
  | cons x r ih =>
    obtain ⟨i, v⟩ := x
    by_cases hi : p i = true
    · rw [List.filter_cons_of_pos (by exact hi), Sparse.get, Sparse.get, ih]
    · have hne : i ≠ k := fun e => hi (e ▸ hk)
      rw [List.filter_cons_of_neg (by exact hi), Sparse.get, if_neg hne, ih]

theorem Sparse.get_filter_of_dropped {α : Type} (d : α) {p : Nat → Bool} {k : Nat} (hk : p k = false) (l : List (Nat × α)) :
    Sparse.get d k (l.filter fun b => p b.1) = d := by
  induction l with
  | nil => rfl
  | cons x r ih =>
    obtain ⟨i, v⟩ := x
    by_cases hi : p i = true
    · have hne : i ≠ k := fun e => by rw [e, hk] at hi; cases hi
      rw [List.filter_cons_of_pos (by exact hi), Sparse.get, if_neg hne, ih]
    · rw [List.filter_cons_of_neg (by exact hi), ih]

/-! ## A stack's memory after a full recalibration (R271) -/

theorem State.regsOnly_firnShow (s : State) (n : Nat) : RegsOnly s (s.firnShow n) := ((RegsOnly.refl s).setFld _ _ _).raiseFld _ _ _

theorem State.loseFirn_frame (s : State) (j : Nat) :
    s.loseFirn j = { s with regs := (s.loseFirn j).regs, faults := (s.loseFirn j).faults, firn := (s.loseFirn j).firn } := by
  unfold State.loseFirn
  dsimp only
  rw [State.regsOnly_firnShow]
  split <;> rfl

@[simp] theorem State.loseFirn_mem (s : State) (j : Nat) : (s.loseFirn j).mem = s.mem := by rw [State.loseFirn_frame]
@[simp] theorem State.loseFirn_hs (s : State) (j : Nat) : (s.loseFirn j).hs = s.hs := by rw [State.loseFirn_frame]

theorem State.cells_stackZero (s : State) (j : Nat) : (s.stackZero j).mem.cells = Memory.clear (j * 0x1000000000) 0x1000000000 s.mem.cells := by
  rw [State.stackZero, State.loseFirn_mem]

theorem State.block_stackZero (s : State) (j a : Nat) : (s.stackZero j).block a =
    Sparse.get {} (a / 4096) (s.mem.blocks.filter fun b => b.1 / 0x1000000 != j) := by
  rw [State.block, State.stackZero, State.loseFirn_mem]

theorem State.stackZero_mine (s : State) {j a : Nat} (h : a / 0x1000000000 = j) :
    Memory.read a (s.stackZero j).mem.cells = 0 ∧ (s.stackZero j).block a = {} := by
  have hblock : (a / 4096 / 0x1000000 != j) = false := by simp; omega
  rw [State.cells_stackZero, State.block_stackZero]
  exact ⟨Memory.read_clear_inside _ (by omega) (by omega), Sparse.get_filter_of_dropped (p := fun i => i / 0x1000000 != j) _ hblock _⟩

theorem State.stackZero_other (s : State) {j a : Nat} (hm : s.memOk) (h : a / 0x1000000000 ≠ j) :
    Memory.read a (s.stackZero j).mem.cells = Memory.read a s.mem.cells ∧ (s.stackZero j).block a = s.block a := by
  have hblock : (a / 4096 / 0x1000000 != j) = true := by simp; omega
  rw [State.cells_stackZero, State.block_stackZero]
  exact ⟨Memory.read_clear_outside hm (by omega), Sparse.get_filter_of_kept (p := fun i => i / 0x1000000 != j) _ hblock _⟩

theorem State.stackZero_hsSt (s : State) (j k : Nat) : (s.stackZero j).hsSt k = s.hsSt k := by
  rw [State.hsSt, State.stackZero, State.loseFirn_hs, State.hsSt]

/-! ## A stack returns to service (R331) -/

/-- The registers that say whether a stack serves: its state, its service and its log's absence. -/
def State.stackMarked (s : State) (j state service absent : Nat) : State :=
  ((s.setFld (R.HS_STATUS j) F.HS_STATUS.STATE state).setFld (R.HS_STATUS j) F.HS_STATUS.IN_SERVICE service).setFld (R.FIRN_LOG j) F.FIRN_LOG.ABSENT absent

theorem State.stackMarked_frame (s : State) (j : Fin 20) {state service absent : Nat} (hst : state ≤ 7) (hin : service ≤ 1) (habs : absent ≤ 1) :
    let t := s.stackMarked j state service absent
    t.hsState j = state ∧ t.fld (R.HS_STATUS j) F.HS_STATUS.IN_SERVICE = service ∧ t.fld (R.FIRN_LOG j) F.FIRN_LOG.ABSENT = absent ∧
      RegsBut [R.HS_STATUS j, R.FIRN_LOG j] s t := by
  have hapart : R.HS_STATUS j ≠ R.FIRN_LOG j := by
    unfold R.FIRN_LOG R.HS_STATUS
    omega
  refine ⟨?_, ?_, State.fld_setFld_of_le _ _ _ (by decide) habs,
    (((RegsBut.refl _ s).setFld _ _ (by simp)).setFld _ _ (by simp)).setFld _ _ (by simp)⟩
  · rw [State.hsState, State.stackMarked, State.fld_setFld_of_ne _ _ _ _ hapart, State.fld_setFld_of_disjoint _ _ _ _ _ (by decide) (by decide),
      State.fld_setFld_of_le _ _ _ (by decide) hst]
  · rw [State.stackMarked, State.fld_setFld_of_ne _ _ _ _ hapart, State.fld_setFld_of_le _ _ _ (by decide) hin]

theorem State.stackOn_eq (s : State) (j : Nat) :
    s.stackOn j = (s.stackMarked j HsS.RUN 1 0).setHsSt j { s.hsSt j with onAfter := false, recald := false } := rfl

/-- The stack runs and is in service, its log is there, and the rest of the part is as it was. -/
theorem State.stackOn_frame (s : State) (j : Fin 20) : let t := s.stackOn j
    t.hsState j = HsS.RUN ∧ t.fld (R.HS_STATUS j) F.HS_STATUS.IN_SERVICE = 1 ∧ t.fld (R.FIRN_LOG j) F.FIRN_LOG.ABSENT = 0 ∧
      t = { s with regs := t.regs, hs := t.hs } ∧ RegsBut [R.HS_STATUS j, R.FIRN_LOG j] s t := by
  obtain ⟨hrun, hin, hlog, hregs⟩ := s.stackMarked_frame j (state := HsS.RUN) (service := 1) (absent := 0) (by decide) (by decide) (by decide)
  rw [State.stackOn_eq]
  exact ⟨hrun, hin, hlog, rfl, hregs⟩

/-- What ONLINE does to a stack that is OFFLINE (R275, R331). -/
def onlineAct (j : Fin 20) (s : State) : State :=
  if (s.hsSt j).recald then s.stackOn j else (s.setHsState j HsS.RECAL).setHsSt j { s.hsSt j with onAfter := true }

/-- A full recalibration's end on a stack: its memory zero, its state OFFLINE. -/
def State.recalEnded (s : State) (j : Nat) : State := (s.stackZero j).setHsState j HsS.OFFLINE

theorem recalComplete_of_recal {s : State} {j : Fin 20} (h : s.hsState j = HsS.RECAL) : recalComplete j s =
    if (s.hsSt j).onAfter then (s.recalEnded j).stackOn j else (s.recalEnded j).setHsSt j { s.hsSt j with recald := true } := by
  have hkept : (s.recalEnded j).hsSt j = s.hsSt j := s.stackZero_hsSt j j
  rw [← hkept]
  exact if_pos h

/-- The end of a recalibration leaves memory as zeroing the stack leaves it. -/
theorem recalComplete_mem {s : State} {j : Fin 20} (h : s.hsState j = HsS.RECAL) : (recalComplete j s).mem = (s.stackZero j).mem := by
  rw [recalComplete_of_recal h]
  split <;> rfl

theorem recalComplete_service {s : State} {j : Fin 20} (h : s.hsState j = HsS.RECAL) : let t := recalComplete j s
    if (s.hsSt j).onAfter then t.hsState j = HsS.RUN ∧ t.fld (R.HS_STATUS j) F.HS_STATUS.IN_SERVICE = 1
    else t.hsState j = HsS.OFFLINE ∧ (t.hsSt j).recald = true := by
  rw [recalComplete_of_recal h]
  split
  · obtain ⟨hrun, hin, -⟩ := (s.recalEnded j).stackOn_frame j
    exact ⟨hrun, hin⟩
  · exact ⟨State.fld_setFld_of_le _ _ _ (by decide) (by decide), by rw [State.hsSt_setHsSt]⟩

/-! ## A stack leaves service (R329, R330) -/

/-- The stack is out of service and its memory absent, with its log, and nobody holds a copy of a line of it. -/
def StackGone (j : Nat) (t : State) : Prop :=
  t.hsState j = HsS.OFFLINE ∧ t.fld (R.HS_STATUS j) F.HS_STATUS.IN_SERVICE = 0 ∧ t.fld (R.FIRN_LOG j) F.FIRN_LOG.ABSENT = 1 ∧
    (∀ lin, t.absent (.hbm j lin) = true) ∧ ∀ p ∈ t.mem.coreLines ++ t.mem.hostLines, onStacks [j] p.1 = false

theorem State.absent_of_out {t : State} {j : Nat} (h : t.fld (R.HS_STATUS j) F.HS_STATUS.IN_SERVICE = 0) (lin : Nat) :
    t.absent (.hbm j lin) = true := by
  simp [State.absent, State.stackIn, State.flag, h]

theorem State.absent_of_fenced {t : State} {j z : Nat} (h : Sparse.find j t.mem.stackDrainAt = some z) (lin : Nat) : t.absent (.hbm j lin) = true := by
  simp [State.absent, State.stackIn, h]

theorem State.stackGone_stackMarked {s : State} {j : Fin 20} (h : ∀ p ∈ s.mem.coreLines ++ s.mem.hostLines, onStacks [j.val] p.1 = false) :
    StackGone j (s.stackMarked j HsS.OFFLINE 0 1) := by
  obtain ⟨hstate, hout, hlog, -⟩ := s.stackMarked_frame j (state := HsS.OFFLINE) (service := 0) (absent := 1) (by decide) (by decide) (by decide)
  exact ⟨hstate, hout, hlog, State.absent_of_out hout, h⟩

/-- What keeps the fields that say so and memory keeps a stack gone. -/
theorem StackGone.of_kept {j : Nat} {s t : State} (h : StackGone j s) (hst : ∀ f, t.fld (R.HS_STATUS j) f = s.fld (R.HS_STATUS j) f)
    (hlog : ∀ f, t.fld (R.FIRN_LOG j) f = s.fld (R.FIRN_LOG j) f) (hmem : t.mem = s.mem) : StackGone j t := by
  obtain ⟨hstate, hout, habsent, -, hlines⟩ := h
  have hout' := (hst F.HS_STATUS.IN_SERVICE).trans hout
  exact ⟨(hst _).trans hstate, hout', (hlog _).trans habsent, State.absent_of_out hout', by rwa [hmem]⟩

theorem State.lines_dropLines (s : State) (l : List Nat) :
    ∀ p ∈ (s.dropLines l).1.mem.coreLines ++ (s.dropLines l).1.mem.hostLines, onStacks l p.1 = false := fun p hp => by
  have hp' : p ∈ (s.mem.coreLines ++ s.mem.hostLines).filter fun q => !onStacks l q.1 := by
    rw [List.filter_append]
    exact hp
  simpa using (List.mem_filter.mp hp').2

/-- OFFLINE of a stack takes it out of service (R330). -/
theorem State.stackGone_hsOffline (s : State) (j : Fin 20) : StackGone j (s.hsOffline j) := by
  have hgone : StackGone j (s.removeStack j) := State.stackGone_stackMarked (by
    rw [State.loseFirn_mem]
    exact State.lines_dropLines _ _)
  exact hgone.of_kept (fun _ => rfl) (fun _ => rfl) rfl

/-- What OFFLINE does to a stack that is not in self-refresh (R275). -/
def offlineAct (j : Fin 20) (s : State) : State :=
  if s.hsState j = HsS.RETRAIN then s.setHsSt j { s.hsSt j with offAfter := true } else s.hsOffline j

/-! ## Isolation (R329) -/

theorem State.loseWrite_mem (s : State) (src : Src) (cmd : Nat) (p : Pkg) : (s.loseWrite src cmd p).mem = s.mem := by
  unfold State.loseWrite
  split
  · rfl
  · dsimp only
    split <;> rfl
  · rfl

theorem State.lostWr_mem (s : State) (w : Wr) (p : Pkg) : (s.lostWr w p).mem = s.mem := by
  unfold State.lostWr
  split
  · rfl
  · exact s.loseWrite_mem _ _ _

/-- Writes lost in flight leave memory's bytes. -/
theorem State.cells_loseWritesTo (s : State) (p : Wr → Bool) : (s.loseWritesTo p).mem.cells = s.mem.cells :=
  List.foldlRecOn (motive := fun t : State => t.mem.cells = s.mem.cells) (s.mem.wrs.filter p) _ rfl fun t ht w _ =>
    (congrArg MemSt.cells (t.lostWr_mem w t.ownPkg)).trans ht

/-- The record of a stack lost. -/
def stackLoss (j : Nat) : FaultRec := { status := St.STACK_LOST, sev := Sev.FATAL_UNIT, kind := Uk.STACK, die := j / 5, index := j }

/-- The writes to a stack lost and the copies of its lines dropped. -/
def State.isolated (s : State) (j : Nat) : State := ((s.loseWritesTo fun w => onStacks [j] w.addr).dropLines [j]).1

theorem State.stackDrained_eq (s : State) (j : Fin 20) : ∃ r, s.stackDrained j =
    ((((((s.isolated j).raise r).loseFirn j).stackMarked j HsS.OFFLINE 0 1).life 18 1).raise (stackLoss j)) := ⟨_, rfl⟩

/-- The end of a stack's isolation: the stack is gone and told, and memory's bytes are as they were. -/
theorem State.stackDrained_frame (s : State) (j : Fin 20) : let t := s.stackDrained j
    StackGone j t ∧ t.mem.cells = s.mem.cells ∧
      t.lastRaised.map (fun r => (r.status, r.sev, r.index)) = some (St.STACK_LOST, Sev.FATAL_UNIT, j.val) := by
  obtain ⟨r, hdrained⟩ := s.stackDrained_eq j
  have hmem : (((s.isolated j).raise r).loseFirn j).mem = (s.isolated j).mem := State.loseFirn_mem _ _
  rw [hdrained]
  generalize ((s.isolated j).raise r).loseFirn j = u at hmem
  have hgone : StackGone j (u.stackMarked j HsS.OFFLINE 0 1) := State.stackGone_stackMarked (by
    rw [hmem]
    exact State.lines_dropLines _ _)
  have hkept : ((u.stackMarked j HsS.OFFLINE 0 1).life 18 1).mem = (u.stackMarked j HsS.OFFLINE 0 1).mem := State.life_mem _ _ _
  have hcells : u.mem.cells = s.mem.cells := (congrArg MemSt.cells hmem).trans (s.cells_loseWritesTo _)
  refine ⟨hgone.of_kept (fun f => ?_) (fun f => ?_) hkept, (congrArg MemSt.cells hkept).trans hcells, by rw [State.lastRaised_raise]; rfl⟩
  · exact State.fld_life_stack (j := j) _ _ _ _ (by simp [stackRegs])
  · exact State.fld_life_stack (j := j) _ _ _ _ (by simp [stackRegs])

theorem stackIsolation_of_unfenced {s : State} {j : Fin 20} (h : Sparse.find j.val s.mem.stackDrainAt = none)
    (hin : s.flag (R.HS_STATUS j) F.HS_STATUS.IN_SERVICE = true) : stackIsolation j s = s.stackFence j := by
  simp only [stackIsolation, h, hin, if_true]

section
variable {s : State} {j : Fin 20} {z : Nat} (h : Sparse.find j.val s.mem.stackDrainAt = some z)
include h

theorem stackIsolation_of_draining (hz : s.now < z) : stackIsolation j s = s := by
  simp only [stackIsolation, h, hz, if_true]

theorem stackIsolation_of_drained (hz : z ≤ s.now) : stackIsolation j s =
    ({ s with mem := { s.mem with stackDrainAt := Sparse.del j.val s.mem.stackDrainAt } } : State).stackDrained j := by
  simp only [stackIsolation, h, if_neg (Nat.not_lt.mpr hz)]

end

/-- A fence: memory is absent at once, the drain timer runs, and neither a byte nor a register has changed. -/
theorem State.stackFence_frame (s : State) (j : Fin 20) : let t := s.stackFence j
    (∀ lin, t.absent (.hbm j lin) = true) ∧ Sparse.find j.val t.mem.stackDrainAt = some (s.now + 32000) ∧ t.mem.cells = s.mem.cells ∧ t.regs = s.regs := by
  have htimer : Sparse.find j.val (s.stackFence j).mem.stackDrainAt = some (s.now + 32000) := Sparse.find_set_same _ _ _
  exact ⟨State.absent_of_fenced htimer, htimer, rfl, rfl⟩

/-! ## The commands -/

/-- Settles O28: HS_CTL by the state of its stack, a recalibration's end, and isolation by its drain timer. -/
theorem stackService : Obligations.StackService := by
  unfold Obligations.StackService
  intro s j w v hon gone
  have hrecal (hw : s.Writes w (R.HS_CTL j) v) : exec (.recal w j) s = .next (hsCtl j 2 (fun u => u.setHsState j HsS.RECAL) v s) :=
    State.whileOn_write _ hon hw
  have honline (hw : s.Writes w (R.HS_CTL j) v) : exec (.hsOnline w j) s = .next (hsCtl j 8 (onlineAct j) v s) :=
    State.whileOn_write _ hon hw
  have hoffline (hw : s.Writes w (R.HS_CTL j) v) : exec (.hsOffline w j) s = .next (hsCtl j 4 (offlineAct j) v s) :=
    State.whileOn_write _ hon hw
  have hcomplete : exec (.recalComplete j) s = .next (recalComplete j s) := State.whileOn_on _ hon
  refine ⟨fun hw hoff => ?_, fun hw hrun => ⟨fun hv => ?_, fun hv => ?_⟩, fun hw hret hv => ?_, fun hrec hm => ?_, fun hrec => ?_, fun m hnow => ?_⟩
  · have hawake : s.hsState j ≠ HsS.SELF_REFRESH := by rw [hoff]; decide
    have hacts (hv : v.get 3 0 = 8) : exec (.hsOnline w j) s = .next (onlineAct j s) := by
      rw [honline hw, hsCtl_of_allowed _ (by decide) hv (by rw [hoff]; rfl) hawake]
    refine ⟨fun hv => ?_, fun hv hrec => ?_, fun hv hrec => ?_⟩
    · rw [hrecal hw, hsCtl_of_allowed _ (by decide) hv (by rw [hoff]; rfl) hawake]
    · have hon' : onlineAct j s = s.stackOn j := if_pos hrec
      exact .of (hacts hv) (hon' ▸ s.stackOn_frame j)
    · have hask : onlineAct j s = (s.setHsState j HsS.RECAL).setHsSt j { s.hsSt j with onAfter := true } := if_neg (by simp [hrec])
      refine .of (hacts hv) ?_
      rw [hask]
      exact ⟨State.fld_setFld_of_le _ _ _ (by decide) (by decide), by rw [State.hsSt_setHsSt], rfl, (RegsBut.refl _ s).setFld _ _ (by simp)⟩
  · have hrefused : hsCtl j 2 (fun u => u.setHsState j HsS.RECAL) v s = s.raiseReg St.HS_CTL_REFUSED (R.HS_CTL j) :=
      hsCtl_of_refused _ (by rw [hv]; decide) (.inr (by rw [hrun]; rfl))
    exact .of ((hrecal hw).trans (congrArg _ hrefused)) ⟨s.status_raiseReg _ _, rfl⟩
  · have hacts : hsCtl j 4 (offlineAct j) v s = s.hsOffline j :=
      (hsCtl_of_allowed _ (by decide) hv (by rw [hrun]; rfl) (by rw [hrun]; decide)).trans (if_neg (by rw [hrun]; decide))
    exact .of ((hoffline hw).trans (congrArg _ hacts)) (s.stackGone_hsOffline j)
  · rw [hoffline hw, hsCtl_of_allowed _ (by decide) hv (by rw [hret]; rfl) (by rw [hret]; decide), offlineAct, if_pos hret]
  · have hmem := recalComplete_mem hrec
    have hblock (a : Nat) : (recalComplete j s).block a = (s.stackZero j).block a := by rw [State.block, hmem, State.block]
    refine .of hcomplete ⟨fun a ha => ?_, fun a ha => ?_, ?_, recalComplete_service hrec⟩
    · rw [hmem, hblock]
      exact s.stackZero_mine ha
    · rw [hmem, hblock]
      exact s.stackZero_other hm ha
    · rw [State.memOk, hmem, State.cells_stackZero]
      exact Memory.clear_wf _ _ hm
  · rw [hcomplete, recalComplete, if_neg hrec]
  · have hexec : exec (.stackIsolation m j) s = .next (stackIsolation j (s.atTime m)) := State.whileOn_on _ hon
    have hm : (s.atTime m).now = m := State.now_atTime_of_le hnow
    refine ⟨fun hnone hin => ?_, fun z hz => ⟨fun hdue => ?_, fun hearly => ?_⟩⟩
    · rw [stackIsolation_of_unfenced (s := s.atTime m) hnone hin] at hexec
      have hfence := (s.atTime m).stackFence_frame j
      rw [hm] at hfence
      exact .of hexec hfence
    · rw [stackIsolation_of_drained (s := s.atTime m) hz (hdue.trans_eq hm.symm)] at hexec
      exact .of hexec (State.stackDrained_frame _ j)
    · rw [hexec, stackIsolation_of_draining (s := s.atTime m) hz (hm.trans_lt hearly)]

end Sys2Proof.Machine
end

section
/-!
Translation of engines' accesses (10_translation.md): the walk and FAB_EXPORT_n (O29), and invalidation (O30).
-/

namespace Sys2Proof.Machine

/-! ## States that differ in the dies' registers (R280, R283) -/

theorem State.region_hbm_lt {s : State} {pa j lin : Nat} (h : s.region pa = .hbm j lin) : j < 20 := by
  have of_lin {x : Nat} (hx : x < 0x14000000000) (hl : linRegion x = .hbm j lin) : j < 20 := by
    unfold linRegion at hl
    split_ifs at hl
    have hj := (Region.hbm.inj hl).1
    omega
  unfold State.region at h
  split_ifs at h
  next hwin => exact of_lin (interleaved_lt (by omega) hwin.2) h
  next hlow => exact of_lin hlow h

theorem State.ddrChannel_lt (s : State) (off : Nat) : s.ddrChannel off < 12 := by
  unfold State.ddrChannel
  dsimp only
  split <;> omega

section
variable {s t : State} (hreg : ∀ o < 0x1000000, t.reg o = s.reg o)
include hreg

theorem State.fld_of_hub {o : Nat} (ho : o < 0x1000000) (f : Fld) : t.fld o f = s.fld o f := by rw [State.fld, State.fld, hreg o ho]

theorem State.region_of_hub (pa : Nat) : t.region pa = s.region pa := by
  simp only [State.region, State.fld_of_hub hreg (o := R.HL_WIN) (by decide), State.fld_of_hub hreg (o := R.DC_MAP) (by decide)]

variable (hmem : t.mem = s.mem)
include hmem

theorem State.absent_of_hub {pa : Nat} (h : (s.region pa).isMem = true) : t.absent (s.region pa) = s.absent (s.region pa) := by
  cases hr : s.region pa with
  | hbm j lin =>
    have hj := State.region_hbm_lt hr
    have hst (f : Fld) : t.fld (R.HS_STATUS j) f = s.fld (R.HS_STATUS j) f := State.fld_of_hub hreg (by unfold R.HS_STATUS; omega) f
    have hcd (f : Fld) : t.fld (R.HUB_CD_STATUS (j / 5)) f = s.fld (R.HUB_CD_STATUS (j / 5)) f :=
      State.fld_of_hub hreg (by unfold R.HUB_CD_STATUS; omega) f
    simp only [State.absent, State.stackIn, State.dieIn, State.flag, hst, hcd, hmem]
  | ddr off =>
    have hch : t.ddrChannel off = s.ddrChannel off := by
      simp only [State.ddrChannel, State.fld_of_hub hreg (o := R.DC_MAP) (by decide)]
    have hlt := s.ddrChannel_lt off
    have hst (f : Fld) : t.fld (R.DC_STATUS (s.ddrChannel off)) f = s.fld (R.DC_STATUS (s.ddrChannel off)) f :=
      State.fld_of_hub hreg (by unfold R.DC_STATUS; omega) f
    simp only [State.absent, State.flag, hch, hst]
  | _ => rw [hr] at h; cases h

theorem State.held_of_hub (pa : Nat) : t.held (s.region pa) = s.held (s.region pa) := by
  cases hr : s.region pa with
  | hbm j lin =>
    have hj := State.region_hbm_lt hr
    have hst (f : Fld) : t.fld (R.HS_STATUS j) f = s.fld (R.HS_STATUS j) f := State.fld_of_hub hreg (by unfold R.HS_STATUS; omega) f
    simp only [State.held, hst, hmem]
  | _ => rfl

end

/-! ## The walk (R291) -/

/-- The page-table entry at an address, as its home holds it (R291). -/
def State.entryAt (s : State) (pa : Nat) : Word :=
  BitVec.ofNat 64 (leNat (((s.ice ((s.region pa).key pa / 64 * 64)).drop ((s.region pa).key pa % 64)).take 8))

/-- A walk reads the entry at an address at once and leaves memory: it lies in memory in service and not held, is not poisoned, and no
agent holds a copy. -/
def State.EntryPlain (s : State) (pa : Nat) : Prop :=
  (s.region pa).isMem = true ∧ s.absent (s.region pa) = false ∧ s.held (s.region pa) = false ∧
    s.poisoned ((s.region pa).key pa / 64 * 64) = false ∧ s.dirOf ((s.region pa).key pa / 64 * 64) = none

section
variable {s t : State} (hreg : ∀ o < 0x1000000, t.reg o = s.reg o) (hmem : t.mem = s.mem)
include hreg hmem

theorem State.EntryPlain.of_hub {pa : Nat} (h : s.EntryPlain pa) : t.EntryPlain pa := by
  obtain ⟨his, hin, hheld, hpoison, hdir⟩ := h
  unfold State.EntryPlain
  rw [State.region_of_hub hreg, State.absent_of_hub hreg hmem his, State.held_of_hub hreg hmem, State.poisoned_of_mem hmem, State.dirOf, hmem]
  exact ⟨his, hin, hheld, hpoison, hdir⟩

theorem State.entryAt_of_hub (hfirn : t.firn = s.firn) (pa : Nat) : t.entryAt pa = s.entryAt pa := by
  simp only [State.entryAt, State.ice, State.cells, State.region_of_hub hreg, hmem, hfirn]

end

section
variable {s : State} {va fuel level base pa : Nat} {write : Bool} (hpa : base + va / 2 ^ (12 + 9 * level) % 512 * 8 = pa) (h : s.EntryPlain pa)
include hpa h

/-- A walk at an entry it reads at once. -/
theorem State.walkFrom_of_plain : State.walkFrom va write (fuel + 1) level base s =
    let w := s.entryAt pa
    if !w.bit 0 then (.fault St.PAGE_MISSING, s)
    else if pteBad w level then (.fault St.PAGE_DENIED, s)
    else if pteLeaf w then (if pteGrants w write then (.leaf level w, s) else (.fault St.PAGE_DENIED, s))
    else if level = 2 then (.fault St.PAGE_TOO_SMALL, s)
    else State.walkFrom va write fuel (level - 1) (ptePpn w * 4096) s := by
  obtain ⟨his, hin, hheld, hpoison, hdir⟩ := h
  have hshare := State.homeShare_of_unowned (s := s) fun a => by rw [hdir]; exact nofun
  rw [State.walkFrom]
  simp only [hpa, his, hin, hheld, hpoison, hshare, Bool.not_true, Bool.false_eq_true, if_false]
  rfl

theorem State.walkFrom_of_missing (hv : (s.entryAt pa).bit 0 = false) : State.walkFrom va write (fuel + 1) level base s = (.fault St.PAGE_MISSING, s) := by
  simp only [State.walkFrom_of_plain hpa h, hv, Bool.not_false, if_true]

variable (hv : (s.entryAt pa).bit 0 = true) (hgood : pteBad (s.entryAt pa) level = false)
include hv hgood

theorem State.walkFrom_of_pointer (hptr : pteLeaf (s.entryAt pa) = false) (hl : level ≠ 2) :
    State.walkFrom va write (fuel + 1) level base s = State.walkFrom va write fuel (level - 1) (ptePpn (s.entryAt pa) * 4096) s := by
  simp only [State.walkFrom_of_plain hpa h, hv, hgood, hptr, hl, Bool.not_true, Bool.false_eq_true, if_false]

theorem State.walkFrom_of_leaf (hleaf : pteLeaf (s.entryAt pa) = true) (hg : pteGrants (s.entryAt pa) write = true) :
    State.walkFrom va write (fuel + 1) level base s = (.leaf level (s.entryAt pa), s) := by
  simp only [State.walkFrom_of_plain hpa h, hv, hgood, hleaf, hg, Bool.not_true, Bool.false_eq_true, if_false, if_true]

end

/-! ## A walk of a context's tables (R291 to R294) -/

/-- A walk begun and counted (R305). -/
def State.walkBegun (s : State) (d : Die) : State := s.count (R.XL_D_WALKS d) 1

theorem State.regsBut_walkBegun (s : State) (d : Die) : RegsBut [R.XL_D_WALKS d] s (s.walkBegun d) := (RegsBut.refl _ s).count 1 (by simp)

theorem State.walkBegun_hub (s : State) (d : Die) : ∀ o < 0x1000000, (s.walkBegun d).reg o = s.reg o := fun o ho =>
  s.regsBut_walkBegun d o (by rw [List.mem_singleton]; unfold R.XL_D_WALKS R.dieBase; omega)

theorem State.walkBegun_frame (s : State) (d : Die) :
    s.walkBegun d = { s with regs := (s.walkBegun d).regs, faults := (s.walkBegun d).faults } := s.count_frame _ _

@[simp] theorem State.walkBegun_mem (s : State) (d : Die) : (s.walkBegun d).mem = s.mem := s.count_mem _ _
@[simp] theorem State.walkBegun_cxs (s : State) (d : Die) : (s.walkBegun d).cxs = s.cxs := s.count_cxs _ _
@[simp] theorem State.walkBegun_tlb (s : State) (d : Die) : (s.walkBegun d).tlb = s.tlb := by rw [State.walkBegun_frame]
@[simp] theorem State.walkBegun_firn (s : State) (d : Die) : (s.walkBegun d).firn = s.firn := by rw [State.walkBegun_frame]
@[simp] theorem State.cx_walkBegun (s : State) (d : Die) (c : Cx) : (s.walkBegun d).cx d c = s.cx d c := by rw [State.cx, State.cx, State.walkBegun_cxs]

section
variable {s : State} (d : Die)

theorem State.EntryPlain.walkBegun {pa : Nat} (h : s.EntryPlain pa) : (s.walkBegun d).EntryPlain pa :=
  h.of_hub (s.walkBegun_hub d) (s.walkBegun_mem d)

@[simp] theorem State.entryAt_walkBegun (pa : Nat) : (s.walkBegun d).entryAt pa = s.entryAt pa :=
  State.entryAt_of_hub (s.walkBegun_hub d) (s.walkBegun_mem d) (s.walkBegun_firn d) pa

end

/-- Where the walk of a context's tables reads its level-4 entry, and its level-3 entry if that points to a table. -/
def State.rootEntry (s : State) (d : Die) (c : Cx) (va : Nat) : Nat := (s.reg (R.CX_ATP d c)).get 43 0 * 4096 + va / 2 ^ 48 % 512 * 8
def State.nextEntry (s : State) (d : Die) (c : Cx) (va : Nat) : Nat := ptePpn (s.entryAt (s.rootEntry d c va)) * 4096 + va / 2 ^ 39 % 512 * 8

section
variable {s : State} {d : Die} {c : Cx} {va : Nat} {write : Bool} (hroot : s.EntryPlain (s.rootEntry d c va))
include hroot

theorem State.walk_of_missing (hv : (s.entryAt (s.rootEntry d c va)).bit 0 = false) :
    s.walk d c va write = (.fault St.PAGE_MISSING, s.walkBegun d) :=
  State.walkFrom_of_missing (pa := s.rootEntry d c va) rfl (hroot.walkBegun d) ((congrArg (·.bit 0) (State.entryAt_walkBegun d _)).trans hv)

/-- A level-4 pointer and a level-3 leaf that grants the access. -/
theorem State.walk_of_leaf (hv : (s.entryAt (s.rootEntry d c va)).bit 0 = true) (hgood : pteBad (s.entryAt (s.rootEntry d c va)) 4 = false)
    (hptr : pteLeaf (s.entryAt (s.rootEntry d c va)) = false) (hnext : s.EntryPlain (s.nextEntry d c va))
    (hv' : (s.entryAt (s.nextEntry d c va)).bit 0 = true) (hgood' : pteBad (s.entryAt (s.nextEntry d c va)) 3 = false)
    (hleaf : pteLeaf (s.entryAt (s.nextEntry d c va)) = true) (hg : pteGrants (s.entryAt (s.nextEntry d c va)) write = true) :
    s.walk d c va write = (.leaf 3 (s.entryAt (s.nextEntry d c va)), s.walkBegun d) := by
  rw [← s.entryAt_walkBegun d] at hv hgood hptr hv' hgood' hleaf hg ⊢
  calc s.walk d c va write
    _ = State.walkFrom va write 2 3 (ptePpn ((s.walkBegun d).entryAt (s.rootEntry d c va)) * 4096) (s.walkBegun d) :=
      State.walkFrom_of_pointer (pa := s.rootEntry d c va) rfl (hroot.walkBegun d) hv hgood hptr (by decide)
    _ = (.leaf 3 ((s.walkBegun d).entryAt (s.nextEntry d c va)), s.walkBegun d) :=
      State.walkFrom_of_leaf (by rw [State.entryAt_walkBegun]; rfl) (hnext.walkBegun d) hv' hgood' hleaf hg

end

/-! ## What a walk leaves (R292, R293) -/

@[simp] theorem State.tlbPut_mem (s : State) (d n asid va level : Nat) (pte : Word) : (s.tlbPut d n asid va level pte).mem = s.mem := rfl
@[simp] theorem State.tlbPut_cxs (s : State) (d n asid va level : Nat) (pte : Word) : (s.tlbPut d n asid va level pte).cxs = s.cxs := rfl
@[simp] theorem State.tlbPut_regs (s : State) (d n asid va level : Nat) (pte : Word) : (s.tlbPut d n asid va level pte).regs = s.regs := rfl

/-- A leaf put in a stream's cache is there. -/
theorem State.mem_tlb_tlbPut (s : State) (d n asid va level : Nat) (pte : Word) :
    { die := d, stream := n, asid := asid, level := level, vpn := vpnAt va level, pte := pte } ∈ (s.tlbPut d n asid va level pte).tlb :=
  List.mem_append_right _ (List.mem_singleton_self _)

/-- What another stream holds stays. -/
theorem State.mem_tlbPut_of_ne {s : State} {d n asid va level : Nat} {pte : Word} {e : TlbEnt} (h : e ∈ s.tlb) (hn : e.stream ≠ n) :
    e ∈ (s.tlbPut d n asid va level pte).tlb :=
  List.mem_append_left _ (List.mem_filter.mpr ⟨h, by simp [TlbEnt.hits, hn]⟩)

theorem tableWalk_of_leaf {s s1 : State} {d : Die} {c : Cx} {n va level : Nat} {write : Bool} {pte : Word}
    (h : s.walk d c va write = (.leaf level pte, s1)) :
    tableWalk d c n va write s = (s1.tlbPut d n (s.asid d c) va level pte).tlbPut d 256 (s.asid d c) va level pte := by
  simp only [tableWalk, State.walkFill, h]

/-- A fault of a context's queue stream stops the context at its slot (R293). -/
theorem tableWalk_of_queue_fault {s s1 : State} {d : Die} {c : Cx} {n va st : Nat} {write : Bool} (h : s.walk d c va write = (.fault st, s1))
    (hn : streamEngine n = none) (hready : s1.cxState d c = CxS.READY) (hcur : (s1.cx d c).cur = none) :
    tableWalk d c n va write s = s1.cxStop d c st (s1.fld (R.CX_HEAD d c) F.CX_HEAD.ISSUE) 0 0 va 0 false false := by
  simp only [tableWalk, State.walkFill, h, hn, hready, hcur, and_self, if_true]

/-- The streams past the engines' are the contexts'. -/
theorem streamEngine_of_queue {n : Nat} (h : 128 ≤ n) : streamEngine n = none := by
  unfold streamEngine
  rw [if_neg (by omega), if_neg (by omega), if_neg (by omega)]

/-! ## FAB_EXPORT_n (R304) -/

/-- The rows of the register map before that of the FAB_EXPORT_n. -/
def rowsBeforeExports : List RegEntry := hubRegs0 ++ hubRegs1 ++ hubRegs2 ++ hubRegs3

theorem rowsBeforeExports_end : ∀ e ∈ rowsBeforeExports, 0 < e.stride ∧ e.base + e.count * e.stride ≤ R.FAB_EXPORT 0 := by decide

/-- An entry but the last, which is RO, has the row's fields. -/
theorem regFields_FAB_EXPORT {n : Fin 4096} (hlast : n.val ≠ 4095) : (regFields (R.FAB_EXPORT n)).getD [] = F.FAB_EXPORT.all := by
  have hn := n.isLt
  have hbefore : rowsBeforeExports.find? (·.holds (R.FAB_EXPORT n)) = none := List.find?_eq_none.mpr fun e he => by
    obtain ⟨hstride, hend⟩ := rowsBeforeExports_end e he
    rw [RegEntry.holds_of_past hstride (hend.trans (by unfold R.FAB_EXPORT; omega))]
    exact Bool.false_ne_true
  have hrow : RegEntry.holds ⟨0x90000, 0x8, 4096, 0x8, 1, F.FAB_EXPORT.all⟩ (R.FAB_EXPORT n) = true := by
    simp [RegEntry.holds, R.FAB_EXPORT]
  have hrows : hubRegs = rowsBeforeExports ++ ⟨0x90000, 0x8, 4096, 0x8, 1, F.FAB_EXPORT.all⟩ ::
    (hubRegs4.drop 1 ++ hubRegs5 ++ hubRegs6 ++ hubRegs7) := rfl
  have hhub : regFields (R.FAB_EXPORT n) = (hubRegs.find? (·.holds (R.FAB_EXPORT n))).map (·.fields) := by
    unfold regFields R.FAB_EXPORT
    rw [if_neg (by omega), if_neg (by omega), if_neg (by simp; omega)]
  rw [hhub, hrows, List.find?_append, hbefore, List.find?_cons, hrow]
  rfl

theorem fieldsApart_FAB_EXPORT : FieldsApart F.FAB_EXPORT.all := by unfold FieldsApart; decide

/-- A write of an entry but the last sets its fields. -/
theorem State.fld_plainWrite_FAB_EXPORT (s : State) (v : Word) {n : Fin 4096} (hlast : n.val ≠ 4095) {f : Fld} (hf : f ∈ F.FAB_EXPORT.all) :
    (s.plainWrite (R.FAB_EXPORT n) v).fld (R.FAB_EXPORT n) f = v.get f.hi f.lo := by
  have hrw : ∀ f ∈ F.FAB_EXPORT.all, f.ty = .rw := by decide
  rw [State.fld, State.reg_plainWrite, regFields_FAB_EXPORT hlast]
  exact get_writeFields_of_rw fieldsApart_FAB_EXPORT _ v hf (hrw f hf)

theorem fabExportAct_of_bad {n : Nat} {v : Word} {s : State} (hv : v.bit 0 = true) (hbad : (s.region (v.get 55 30 * 0x40000000)).isMem = false) :
    fabExportAct n v s = s.raiseReg St.FAB_EXPORT_BAD (R.FAB_EXPORT n) :=
  if_pos (by simp [hv, hbad])

theorem fabExportAct_of_good {n : Nat} {v : Word} {s : State} (h : v.bit 0 = false ∨ (s.region (v.get 55 30 * 0x40000000)).isMem = true) :
    fabExportAct n v s = s.plainWrite (R.FAB_EXPORT n) v :=
  if_neg (by rcases h with h | h <;> simp [h])

@[simp] theorem State.cxStop_tlb (s : State) (d : Die) (c : Cx) (st slot kind unit addr code : Nat) (ab dn : Bool) :
    (s.cxStop d c st slot kind unit addr code ab dn).tlb = s.tlb := rfl

/-! ## TABLE_WALK (R291) -/

section
variable {s : State} {d : Die} {c : Cx} {n : Fin 256} {va : BitVec 57} {write : Bool} (hon : s.On) (hroot : s.EntryPlain (s.rootEntry d c va.toNat))
include hon hroot

theorem exec_tableWalk_of_leaf (hv : (s.entryAt (s.rootEntry d c va.toNat)).bit 0 = true) (hgood : pteBad (s.entryAt (s.rootEntry d c va.toNat)) 4 = false)
    (hptr : pteLeaf (s.entryAt (s.rootEntry d c va.toNat)) = false) (hnext : s.EntryPlain (s.nextEntry d c va.toNat))
    (hv' : (s.entryAt (s.nextEntry d c va.toNat)).bit 0 = true) (hgood' : pteBad (s.entryAt (s.nextEntry d c va.toNat)) 3 = false)
    (hleaf : pteLeaf (s.entryAt (s.nextEntry d c va.toNat)) = true) (hg : pteGrants (s.entryAt (s.nextEntry d c va.toNat)) write = true) :
    Answers (.tableWalk d c n va write) s fun t =>
      { die := d.val, stream := n.val, asid := s.asid d c, level := 3, vpn := vpnAt va.toNat 3, pte := s.entryAt (s.nextEntry d c va.toNat) } ∈ t.tlb ∧
      { die := d.val, stream := 256, asid := s.asid d c, level := 3, vpn := vpnAt va.toNat 3, pte := s.entryAt (s.nextEntry d c va.toNat) } ∈ t.tlb ∧
      t.mem = s.mem ∧ t.cxs = s.cxs ∧ RegsBut [R.XL_D_WALKS d] s t := by
  have hexec : exec (.tableWalk d c n va write) s = .next (tableWalk d c n va.toNat write s) := State.whileOn_on _ hon
  rw [tableWalk_of_leaf (State.walk_of_leaf hroot hv hgood hptr hnext hv' hgood' hleaf hg)] at hexec
  exact .of hexec ⟨State.mem_tlbPut_of_ne (State.mem_tlb_tlbPut _ _ _ _ _ _ _) n.isLt.ne, State.mem_tlb_tlbPut _ _ _ _ _ _ _,
    by simp, by simp, (s.regsBut_walkBegun d).of_regs (by simp)⟩

theorem exec_tableWalk_of_missing (hn : 128 ≤ n.val) (hv : (s.entryAt (s.rootEntry d c va.toNat)).bit 0 = false) (hready : s.cxState d c = CxS.READY)
    (hcur : (s.cx d c).cur = none) :
    Answers (.tableWalk d c n va write) s fun t => t.cxState d c = CxS.WAIT_FAULT ∧ t.fld (R.CX_FAULT d c) F.CX_FAULT.STATUS = St.PAGE_MISSING ∧
      (t.reg (R.CX_FAULT_ADDR d c)).toNat = va.toNat ∧ t.mem = s.mem ∧ t.tlb = s.tlb := by
  have hexec : exec (.tableWalk d c n va write) s = .next (tableWalk d c n va.toNat write s) := State.whileOn_on _ hon
  have hne : R.CX_STATE d c ∉ [R.XL_D_WALKS d] := by
    rw [List.mem_singleton]
    unfold R.CX_STATE R.XL_D_WALKS
    omega
  have hstate : (s.walkBegun d).cxState d c = s.cxState d c := (s.regsBut_walkBegun d).fld hne _
  rw [tableWalk_of_queue_fault (State.walk_of_missing hroot hv) (streamEngine_of_queue hn) (hstate.trans hready) (by rw [State.cx_walkBegun, hcur])] at hexec
  refine .of hexec ⟨?_, ?_, ?_, by simp, by simp⟩
  · rw [State.cxState_cxStop]
    rfl
  · rw [State.fld, State.reg_cxStop_fault]
    exact cxFaultWord_status _ _ _ _ _ _ (by decide)
  · rw [State.faultAddr_cxStop]
    omega

end

/-- Settles O29: a walk that ends in a 512 GiB leaf, one that ends at an entry not valid, and a write of FAB_EXPORT_n by its target. -/
theorem translation : Obligations.Translation := by
  unfold Obligations.Translation
  intro s d c hon entry plain root next
  refine ⟨fun n va wr hroot hv hgood hptr hnext hv' hgood' hleaf hg => ?_, fun n va wr hn hroot hv hready hcur => ?_,
    fun n w v hw => ⟨fun hv hbad => ?_, fun hok hlast => ?_⟩⟩
  · exact exec_tableWalk_of_leaf hon hroot hv hgood hptr hnext hv' hgood' hleaf hg
  · exact exec_tableWalk_of_missing hon hroot hn hv hready hcur
  · have hexec : exec (.fabExportWrite w n) s = .next (fabExportAct n v s) := State.whileOn_write _ hon hw
    rw [fabExportAct_of_bad hv hbad] at hexec
    exact .of hexec (State.told_raiseReg _ _ _)
  · have hexec : exec (.fabExportWrite w n) s = .next (fabExportAct n v s) := State.whileOn_write _ hon hw
    rw [fabExportAct_of_good hok] at hexec
    have hfld {f : Fld} (hf : f ∈ F.FAB_EXPORT.all) := s.fld_plainWrite_FAB_EXPORT v hlast hf
    exact .of hexec ⟨hfld (f := F.FAB_EXPORT.VALID) (by decide), hfld (f := F.FAB_EXPORT.WRITE) (by decide),
      hfld (f := F.FAB_EXPORT.TARGET) (by decide), s.plainWrite_frame _ v⟩

/-! ## Invalidation (R295 to R300) -/

theorem regFields_XL_INV_CTL : (regFields R.XL_INV_CTL).getD [] = F.XL_INV_CTL.all := by decide

theorem fieldsApart_XL_INV_CTL : FieldsApart F.XL_INV_CTL.all := by unfold FieldsApart; decide

/-- A field of XL_INV_CTL that is kept takes the value written. -/
theorem State.fld_plainWrite_XL_INV_CTL (s : State) (v : Word) {f : Fld} (hf : f ∈ F.XL_INV_CTL.all) (hty : f.ty = .rw) :
    (s.plainWrite R.XL_INV_CTL v).fld R.XL_INV_CTL f = v.get f.hi f.lo := by
  rw [State.fld, State.reg_plainWrite, regFields_XL_INV_CTL]
  exact get_writeFields_of_rw fieldsApart_XL_INV_CTL _ v hf hty

/-- An invalidation that a die has not acknowledged is not complete. -/
theorem State.invDone_of_waiting {s : State} (h : s.inv.dies ≠ []) : s.invDone = s := if_neg fun hdone => h hdone.2

/-- The invalidation begun: entries in its scope dropped, BUSY set (R295 step 2). -/
def State.invBegun (s : State) (iv : InvSt) : State :=
  ({ s with inv := iv, tlb := s.tlb.filter fun e => !iv.drops e }).setFld R.XL_INV_STATUS F.XL_INV_STATUS.BUSY 1

theorem invStartAct_of_idle {s : State} {v : Word} (hstart : v.bit 0 = true) (hscope : v.get 2 1 ≠ 3) (hidle : s.inv.busy = false)
    (hdies : ∃ d < 4, s.dieIn d = true) :
    invStartAct v s = (s.plainWrite R.XL_INV_CTL v).invBegun ((s.plainWrite R.XL_INV_CTL v).invScope ((List.range 4).filter s.dieIn)) := by
  have hdie : (s.plainWrite R.XL_INV_CTL v).dieIn = s.dieIn := by
    funext d
    have hne : R.HUB_CD_STATUS d ≠ R.XL_INV_CTL := by unfold R.HUB_CD_STATUS R.XL_INV_CTL; omega
    simp only [State.dieIn, State.flag, State.plainWrite, State.fld_setReg_of_ne _ _ _ hne]
  have hsome : (List.range 4).filter s.dieIn ≠ [] := by
    obtain ⟨d, hd, hin⟩ := hdies
    exact List.ne_nil_of_mem (List.mem_filter.mpr ⟨List.mem_range.mpr hd, hin⟩)
  simp only [invStartAct, if_neg hscope, hstart, hidle, hdie, if_true, Bool.false_eq_true, if_false]
  exact State.invDone_of_waiting hsome

theorem invStartAct_of_busy {s : State} {v : Word} (hstart : v.bit 0 = true) (hscope : v.get 2 1 ≠ 3) (hbusy : s.inv.busy = true) :
    invStartAct v s = (s.plainWrite R.XL_INV_CTL v).raiseReg St.XL_INV_BUSY R.XL_INV_CTL := by
  simp only [invStartAct, if_neg hscope, hstart, hbusy, if_true]

theorem State.busy_invBegun (s : State) (iv : InvSt) : (s.invBegun iv).fld R.XL_INV_STATUS F.XL_INV_STATUS.BUSY = 1 :=
  State.fld_setFld_of_le _ _ _ (by decide) (by decide)

theorem State.regsBut_invBegun (s : State) (iv : InvSt) : RegsBut [R.XL_INV_STATUS] s (s.invBegun iv) :=
  .setFld _ _ (.of_regs_eq _ rfl) (by simp)

theorem State.mem_tlb_invBegun {s : State} {iv : InvSt} {e : TlbEnt} : e ∈ (s.invBegun iv).tlb ↔ e ∈ s.tlb ∧ iv.drops e = false := by
  rw [State.invBegun, State.setFld, State.setReg_tlb, List.mem_filter, Bool.not_eq_true']

/-! ## Acknowledgements (R295 steps 4 and 5, R298) -/

section
variable {s : State} {d : Die}

theorem invAckDie_of_clear (hbusy : s.inv.busy = true) (hmem : d.val ∈ s.inv.dies) (hclear : s.invClear d = true) :
    invAckDie d s = ({ s with inv := { s.inv with dies := s.inv.dies.filter (· != d.val) } } : State).invDone :=
  if_pos (by simp [hbusy, hmem, hclear])

theorem invAckDie_of_waiting (hclear : s.invClear d = false) (hin : s.dieIn d = true) : invAckDie d s = s :=
  if_neg (by simp [hclear, hin])

/-- The acknowledgement of a die with another still to come. -/
theorem invAckDie_of_others (hbusy : s.inv.busy = true) (hmem : d.val ∈ s.inv.dies) (hclear : s.invClear d = true) (hother : ∃ e ∈ s.inv.dies, e ≠ d.val) :
    invAckDie d s = { s with inv := { s.inv with dies := s.inv.dies.filter (· != d.val) } } := by
  obtain ⟨e, he, hne⟩ := hother
  rw [invAckDie_of_clear hbusy hmem hclear]
  exact State.invDone_of_waiting (List.ne_nil_of_mem (List.mem_filter.mpr ⟨he, bne_iff_ne.mpr hne⟩))

/-- The invalidation complete (R302): BUSY clear, DONE set, its duration shown. -/
def State.invEnded (s : State) (us : Nat) : State :=
  ((({ s with inv := {} } : State).setFld R.XL_INV_STATUS F.XL_INV_STATUS.BUSY 0).setFld R.XL_INV_STATUS F.XL_INV_STATUS.DONE 1).setFld
    R.XL_INV_STATUS F.XL_INV_STATUS.LAST_US us

theorem State.fld_invEnded (s : State) {us : Nat} (hus : us ≤ 0xFFFF) :
    (s.invEnded us).fld R.XL_INV_STATUS F.XL_INV_STATUS.BUSY = 0 ∧ (s.invEnded us).fld R.XL_INV_STATUS F.XL_INV_STATUS.DONE = 1 ∧
      (s.invEnded us).fld R.XL_INV_STATUS F.XL_INV_STATUS.LAST_US = us := by
  refine ⟨?_, ?_, State.fld_setFld_of_le _ _ _ (by decide) hus⟩
  · rw [State.invEnded, State.fld_setFld_of_disjoint _ _ _ _ _ (by decide) (by decide), State.fld_setFld_of_disjoint _ _ _ _ _ (by decide) (by decide)]
    exact State.fld_setFld_of_le _ _ _ (by decide) (by decide)
  · rw [State.invEnded, State.fld_setFld_of_disjoint _ _ _ _ _ (by decide) (by decide)]
    exact State.fld_setFld_of_le _ _ _ (by decide) (by decide)

theorem State.regsBut_invEnded (s : State) (us : Nat) : RegsBut [R.XL_INV_STATUS] s (s.invEnded us) :=
  ((RegsBut.setFld _ _ (.of_regs_eq _ rfl) (by simp)).setFld _ _ (by simp)).setFld _ _ (by simp)

/-- The last acknowledgement, with no signal asked for. -/
theorem invAckDie_of_last (hbusy : s.inv.busy = true) (hmem : d.val ∈ s.inv.dies) (hclear : s.invClear d = true) (hlast : ∀ e ∈ s.inv.dies, e = d.val)
    (hsig : s.flag R.XL_INV_CTL F.XL_INV_CTL.SIG_EN = false) :
    invAckDie d s = s.invEnded (min 0xFFFF ((s.now - s.inv.startedAt) / 16000)) := by
  have hnone : s.inv.dies.filter (· != d.val) = [] := List.filter_eq_nil_iff.mpr fun e he => by simp [hlast e he]
  rw [invAckDie_of_clear hbusy hmem hclear, State.invDone, if_pos ⟨hbusy, hnone⟩]
  exact if_neg (Bool.eq_false_iff.mp hsig)

/-! ## Transfers that are cut (R296) -/

theorem EnginesOnly.cutFlight {t : State} (h : EnginesOnly s t) (c : Cx) (f : Flight) : EnginesOnly s (t.cutFlight d c f) := by
  unfold State.cutFlight
  extract_lets mine first va
  split
  · exact (h.setFlight _ _ _ _).flightFault _ _ _ _ _ _
  · exact h

/-- The commands of a die whose transfers are cut have stopped. -/
def State.cutFlights (s : State) (d : Die) : State :=
  ((s.cxKeys.filter fun p => p.1 == d).flatMap fun p => (s.cx p.1 p.2).flights.map fun f => (p.2, f)).foldl
    (fun t p => if p.2.phase = .complete ∨ p.2.phase = .faulted then t else t.cutFlight d p.1 p.2) s

/-- Cutting commands leaves memory's bytes, and the invalidation under way. -/
theorem State.cutFlights_frame (s : State) (d : Die) : (s.cutFlights d).mem.cells = s.mem.cells ∧ (s.cutFlights d).inv = s.inv := by
  have h : EnginesOnly s (s.cutFlights d) := List.foldlRecOn (motive := EnginesOnly s) _ _ (EnginesOnly.refl s) fun t ht p _ => by
    split
    · exact ht
    · exact ht.cutFlight p.1 p.2
  rw [h]
  exact ⟨rfl, rfl⟩

theorem invCut_of_due (hbusy : s.inv.busy = true) (hmem : d.val ∈ s.inv.dies) (hclear : s.invClear d = false) (hdue : s.inv.startedAt + 320000 ≤ s.now) :
    invCut d s = State.setFld { s.cutFlights d with mem := { (s.cutFlights d).mem with wrs := (s.cutFlights d).mem.wrs.filter fun w => !s.inv.waitsWrite d w } }
      R.XL_INV_STATUS F.XL_INV_STATUS.CUT 1 :=
  if_pos (by simp [hbusy, hmem, hclear, hdue])

theorem invCut_of_early (hearly : s.now < s.inv.startedAt + 320000) : invCut d s = s :=
  if_neg (by simp [Nat.not_le.mpr hearly])

end

/-- Settles O30: START by whether an invalidation runs, an acknowledgement by whether the die is clear and is the last, and the cut by its time. -/
theorem invalidation : Obligations.Invalidation := by
  unfold Obligations.Invalidation
  intro s hon
  refine ⟨fun w v hw hstart hscope => ⟨fun hidle hdies => ?_, fun hbusy => ?_⟩, fun m d hnow hbusy hmem => ?_⟩
  · have hexec : exec (.invalidationStart w) s = .next (invStartAct v s) := State.whileOn_write _ hon hw
    rw [invStartAct_of_idle hstart hscope hidle hdies] at hexec
    have hplain := (s.plainWrite_frame R.XL_INV_CTL v).2
    set s1 := s.plainWrite R.XL_INV_CTL v
    exact .of hexec ⟨rfl, s.fld_plainWrite_XL_INV_CTL v (by decide) rfl, s.fld_plainWrite_XL_INV_CTL v (by decide) rfl, rfl, rfl,
      fun e he => (State.mem_tlb_invBegun.mp he).2, fun e he hkept => State.mem_tlb_invBegun.mpr ⟨he, hkept⟩, s1.busy_invBegun _, rfl,
      (hplain.mono (by simp)).trans ((s1.regsBut_invBegun _).mono (by simp))⟩
  · have hexec : exec (.invalidationStart w) s = .next (invStartAct v s) := State.whileOn_write _ hon hw
    rw [invStartAct_of_busy hstart hscope hbusy] at hexec
    exact .of hexec ⟨(State.told_raiseReg _ _ _).1, rfl, rfl, rfl, (s.plainWrite_frame R.XL_INV_CTL v).2.raiseReg _ _⟩
  · have hack : exec (.invalidationDieAck m d) s = .next (invAckDie d (s.atTime m)) := State.whileOn_on _ hon
    have hcut : exec (.invalidationCut m d) s = .next (invCut d (s.atTime m)) := State.whileOn_on _ hon
    have hm : (s.atTime m).now = m := State.now_atTime_of_le hnow
    refine ⟨fun hclear hother => ?_, fun hclear hlast hsig => ?_, fun hwait hin => ?_, fun hwait hdue => ?_, fun hearly => ?_⟩
    · rw [hack, invAckDie_of_others (s := s.atTime m) hbusy hmem hclear hother]
      rfl
    · rw [invAckDie_of_last (s := s.atTime m) hbusy hmem hclear hlast hsig, hm] at hack
      obtain ⟨hshut, hdone, hlong⟩ := (s.atTime m).fld_invEnded (Nat.min_le_left 0xFFFF ((m - s.inv.startedAt) / 16000))
      exact .of hack ⟨rfl, hshut, hdone, hlong, rfl, (s.atTime m).regsBut_invEnded _⟩
    · rw [hack, invAckDie_of_waiting (s := s.atTime m) hwait hin]
    · rw [invCut_of_due (s := s.atTime m) hbusy hmem hwait (hdue.trans_eq hm.symm)] at hcut
      obtain ⟨hcells, hinv⟩ := (s.atTime m).cutFlights_frame d
      refine .of hcut ⟨State.fld_setFld_of_le _ _ _ (by decide) (by decide), fun x hx => ?_, hinv, hcells⟩
      simpa using (List.mem_filter.mp hx).2
    · rw [hcut, invCut_of_early (s := s.atTime m) (hm.trans_lt hearly)]

end Sys2Proof.Machine
end

section
/-!
Requests from another package (15_fabric.md, O50).
-/

namespace Sys2Proof.Machine

/-! ## A quire's waiters, step by step (R377, R378) -/

/-- The state with another sync unit. -/
def State.withSync (s : State) (x : SyncSt) : State := { s with sync := x }

/-- The waiters on a quire whose gates are true have them. -/
def State.gatesTaken (s : State) (q : Nat) : State :=
  (s.sync.waiters.filter fun w => w.ready q (s.quire q)).foldl (fun t w => t.wakeWaiter w false)
    (s.withSync { s.sync with waiters := s.sync.waiters.filter fun w => !w.ready q (s.quire q) })

/-- A unit granted to a CONSUME waiter, which leaves `r` in the quire. -/
def State.unitGranted (s : State) (q : Nat) (r : QuireRec) (w : Waiter) : State :=
  let s3 := (s.setQuire q r).count R.SYNC_OPS 1
  (s3.withSync { s3.sync with waiters := s3.sync.waiters.map fun v => if v.index = w.index then { v with granted := true } else v }).wakeWaiter w true

theorem State.evalWaiters_succ (q n : Nat) (s : State) : State.evalWaiters q (n + 1) s =
    match (s.gatesTaken q).sync.waiters.find? (fun w => w.consumes q) with
    | none => s.gatesTaken q
    | some w =>
      if (s.quire q).value = 0 ∨ (s.quire q).mode = Qm.GATHER ∨ (s.quire q).mode = Qm.MIRROR then s.gatesTaken q
      else State.evalWaiters q n ((s.gatesTaken q).unitGranted q { s.quire q with
        value := (s.quire q).value - 1, src := s.srcWord (.src (.cx w.die w.cx)) Qo.CONSUME 1, stamp := s.spanNow } w) := rfl

@[simp] theorem State.wakeWaiter_sync (s : State) (w : Waiter) (g : Bool) : (s.wakeWaiter w g).sync = s.sync := by
  unfold State.wakeWaiter
  extract_lets x s1
  split
  · rfl
  · split <;> rfl

theorem State.gatesTaken_sync (s : State) (q : Nat) :
    (s.gatesTaken q).sync = { s.sync with waiters := s.sync.waiters.filter fun w => !w.ready q (s.quire q) } :=
  List.foldlRecOn (motive := fun t : State => t.sync = { s.sync with waiters := s.sync.waiters.filter fun w => !w.ready q (s.quire q) }) _ _ rfl
    fun t ht w _ => by rw [State.wakeWaiter_sync, ht]

/-- A quire that none waits to CONSUME from, or that is a gathering's or a mirror, grants no unit. -/
def State.NoGrant (s : State) (q : Nat) : Prop := s.noConsumer q ∨ (s.quire q).mode = Qm.GATHER ∨ (s.quire q).mode = Qm.MIRROR

theorem State.evalWaiters_of_noGrant {s : State} {q : Nat} (h : s.NoGrant q) (n : Nat) : State.evalWaiters q (n + 1) s = s.gatesTaken q := by
  rw [State.evalWaiters_succ]
  split
  · rfl
  · rename_i w hw
    rcases h with hnone | hmode
    · have hmem := List.mem_of_find?_eq_some hw
      rw [State.gatesTaken_sync] at hmem
      have hcons := List.find?_some hw
      rw [hnone w (List.mem_of_mem_filter hmem)] at hcons
      cases hcons
    · exact if_pos (.inr hmode)

theorem State.count_sync (s : State) (o n : Nat) : (s.count o n).sync = s.sync := by rw [State.count_frame]

@[simp] theorem State.raiseFld_sync (s : State) (o : Nat) (f : Fld) (v : Nat) : (s.raiseFld o f v).sync = s.sync := by
  unfold State.raiseFld
  split <;> rfl

@[simp] theorem State.syncShow_sync (s : State) : s.syncShow.sync = s.sync := State.raiseFld_sync ..

@[simp] theorem State.cxWake_sync (s : State) (d : Die) (c : Cx) : (s.cxWake d c).sync = s.sync := by
  unfold State.cxWake
  split <;> rfl

@[simp] theorem State.ringDoorbells_sync (s : State) (q : Nat) : (s.ringDoorbells q).sync = s.sync :=
  List.foldlRecOn (motive := fun t : State => t.sync = s.sync) s.cxKeys _ rfl fun t ht p _ => by
    split
    · rw [State.cxWake_sync, ht]
    · exact ht

theorem State.afterOp_quires {s : State} {q : Nat} (h : s.NoGrant q) : (s.afterOp q).sync.quires = s.sync.quires := by
  rw [State.afterOp, State.syncShow_sync, State.ringDoorbells_sync, State.evalWaiters_of_noGrant h, State.gatesTaken_sync]

/-- What follows an operation that grants no unit changes no quire. -/
theorem State.quire_afterOp {s : State} {q : Nat} (h : s.NoGrant q) (p : Nat) : (s.afterOp q).quire p = s.quire p := by
  rw [State.quire, State.quire, State.afterOp_quires h]

/-- An effective operation leaves its record in its quire and every other as it was. -/
theorem State.quire_effective {s : State} {x : QSource} {op arg q : Nat} {r : QuireRec} (h : s.noConsumer q ∨ r.mode = Qm.GATHER ∨ r.mode = Qm.MIRROR) :
    (s.effective x op arg q r).quire q = { r with src := s.srcWord x op arg, stamp := s.spanNow } ∧
      QuiresBut [q] s (s.effective x op arg q r) := by
  set u := (s.setQuire q { r with src := s.srcWord x op arg, stamp := s.spanNow }).count R.SYNC_OPS 1 with hu
  have hq (p : Nat) : u.quire p = (s.setQuire q { r with src := s.srcWord x op arg, stamp := s.spanNow }).quire p := by
    rw [State.quire, State.quire, hu, State.count_sync]
  have hgrant : u.NoGrant q := by
    unfold State.NoGrant State.noConsumer
    rw [hq q, State.quire_setQuire, hu, State.count_sync]
    exact h
  refine ⟨?_, fun p hp => ?_⟩
  · rw [State.effective, State.quire_afterOp hgrant, hq, State.quire_setQuire]
  · rw [State.effective, State.quire_afterOp hgrant, hq, State.quire_setQuire_of_ne _ _ (by simpa using hp)]

/-! ## Operations at quires neither read nor change what the fabric engine keeps (R374) -/

/-- The state with another record of the fabric engine. -/
def State.withFab (s : State) (f : FabSt) : State := { s with fab := f }

section
variable (s : State) (f : FabSt)

@[simp] theorem State.withFab_self : s.withFab s.fab = s := rfl
@[simp] theorem State.withFab_withFab (g : FabSt) : (s.withFab f).withFab g = s.withFab g := rfl
@[simp] theorem State.withFab_mem : (s.withFab f).mem = s.mem := rfl
@[simp] theorem State.withFab_sync : (s.withFab f).sync = s.sync := rfl
@[simp] theorem State.withFab_fab : (s.withFab f).fab = f := rfl
@[simp] theorem State.fld_withFab (o : Nat) (x : Fld) : (s.withFab f).fld o x = s.fld o x := rfl
@[simp] theorem State.flag_withFab (o : Nat) (x : Fld) : (s.withFab f).flag o x = s.flag o x := rfl
@[simp] theorem State.quire_withFab (q : Nat) : (s.withFab f).quire q = s.quire q := rfl
@[simp] theorem State.cx_withFab (d : Die) (c : Cx) : (s.withFab f).cx d c = s.cx d c := rfl
@[simp] theorem State.cxState_withFab (d : Die) (c : Cx) : (s.withFab f).cxState d c = s.cxState d c := rfl
@[simp] theorem State.setFld_withFab (o : Nat) (x : Fld) (v : Nat) : (s.withFab f).setFld o x v = (s.setFld o x v).withFab f := rfl
@[simp] theorem State.raise_withFab (r : FaultRec) : (s.withFab f).raise r = (s.raise r).withFab f := rfl
@[simp] theorem State.setCx_withFab (d : Die) (c : Cx) (x : Ctx) : (s.withFab f).setCx d c x = (s.setCx d c x).withFab f := rfl
@[simp] theorem State.setCxState_withFab (d : Die) (c : Cx) (v : Nat) : (s.withFab f).setCxState d c v = (s.setCxState d c v).withFab f := rfl
@[simp] theorem State.setQuire_withFab (q : Nat) (r : QuireRec) : (s.withFab f).setQuire q r = (s.setQuire q r).withFab f := rfl

theorem State.withFab_ite (p : Prop) [Decidable p] (a b : State) : (if p then a else b).withFab f = if p then a.withFab f else b.withFab f :=
  apply_ite (State.withFab · f) p a b

@[simp] theorem State.count_withFab (o n : Nat) : (s.withFab f).count o n = (s.count o n).withFab f := by
  simp only [State.count, State.withFab_ite]
  rfl

@[simp] theorem State.raiseFld_withFab (o : Nat) (x : Fld) (v : Nat) : (s.withFab f).raiseFld o x v = (s.raiseFld o x v).withFab f := by
  simp only [State.raiseFld, State.withFab_ite]
  rfl

@[simp] theorem State.syncShow_withFab : (s.withFab f).syncShow = s.syncShow.withFab f := by
  simp only [State.syncShow, State.setFld_withFab, State.raiseFld_withFab]
  rfl

@[simp] theorem State.wakeWaiter_withFab (w : Waiter) (g : Bool) : (s.withFab f).wakeWaiter w g = (s.wakeWaiter w g).withFab f := by
  simp only [State.wakeWaiter, State.cx_withFab, State.cxState_withFab]
  split
  · rfl
  · rw [State.withFab_ite]
    rfl

theorem State.foldl_withFab {α : Type} {g : State → α → State} (hg : ∀ t x, g (t.withFab f) x = (g t x).withFab f) (l : List α) :
    l.foldl g (s.withFab f) = (l.foldl g s).withFab f := by
  induction l generalizing s with
  | nil => rfl
  | cons x l ih => rw [List.foldl_cons, List.foldl_cons, hg, ih]

@[simp] theorem State.withSync_withFab (x : SyncSt) : (s.withFab f).withSync x = (s.withSync x).withFab f := rfl

@[simp] theorem State.gatesTaken_withFab (q : Nat) : (s.withFab f).gatesTaken q = (s.gatesTaken q).withFab f := by
  rw [State.gatesTaken, State.withSync_withFab, State.foldl_withFab _ f fun t w => t.wakeWaiter_withFab f w false]
  rfl

@[simp] theorem State.unitGranted_withFab (q : Nat) (r : QuireRec) (w : Waiter) : (s.withFab f).unitGranted q r w = (s.unitGranted q r w).withFab f := by
  simp only [State.unitGranted, State.setQuire_withFab, State.count_withFab, State.withSync_withFab, State.wakeWaiter_withFab]
  rfl

theorem State.evalWaiters_withFab (q fuel : Nat) : State.evalWaiters q fuel (s.withFab f) = (State.evalWaiters q fuel s).withFab f := by
  induction fuel generalizing s with
  | zero => rfl
  | succ n ih =>
    rw [State.evalWaiters_succ, State.evalWaiters_succ, State.gatesTaken_withFab, State.withFab_sync]
    split
    · rfl
    · rw [State.unitGranted_withFab, ih, State.withFab_ite]
      rfl

@[simp] theorem State.cxWake_withFab (d : Die) (c : Cx) : (s.withFab f).cxWake d c = (s.cxWake d c).withFab f := by
  rw [State.cxWake, State.cxWake, State.withFab_ite]
  rfl

@[simp] theorem State.ringDoorbells_withFab (q : Nat) : (s.withFab f).ringDoorbells q = (s.ringDoorbells q).withFab f :=
  s.foldl_withFab f (fun t p => by
    simp only [State.flag_withFab, State.fld_withFab, State.cxWake_withFab, State.withFab_ite]) _

@[simp] theorem State.afterOp_withFab (q : Nat) : (s.withFab f).afterOp q = (s.afterOp q).withFab f := by
  rw [State.afterOp, State.evalWaiters_withFab, State.ringDoorbells_withFab, State.syncShow_withFab]
  rfl

@[simp] theorem State.effective_withFab (x : QSource) (op arg q : Nat) (r : QuireRec) :
    (s.withFab f).effective x op arg q r = (s.effective x op arg q r).withFab f := by
  rw [State.effective, State.setQuire_withFab, State.count_withFab, State.afterOp_withFab]
  rfl

/-- A refusal of another package's operation is told by a record alone. -/
@[simp] theorem State.quireRefuse_withFab (p : Pkg) (flag st q op arg slot : Nat) :
    (s.withFab f).quireRefuse (.src (.remote p)) flag st q op arg slot = (s.quireRefuse (.src (.remote p)) flag st q op arg slot).withFab f := by
  simp only [State.quireRefuse, State.quire_withFab, State.setQuire_withFab, State.count_withFab]
  rfl

theorem State.quireAdd_withFab (p : Pkg) (q v slot : Nat) :
    (s.withFab f).quireAdd (.src (.remote p)) q v slot = (s.quireAdd (.src (.remote p)) q v slot).withFab f := by
  simp only [State.quireAdd, State.quire_withFab, State.effective_withFab, State.quireRefuse_withFab, State.count_withFab, State.withFab_ite]

theorem State.quireSub_withFab (p : Pkg) (q v slot : Nat) :
    (s.withFab f).quireSub (.src (.remote p)) q v slot = (s.quireSub (.src (.remote p)) q v slot).withFab f := by
  simp only [State.quireSub, State.quire_withFab, State.effective_withFab, State.quireRefuse_withFab, State.count_withFab, State.withFab_ite]

/-- A store of another package to a quire. -/
theorem storeAdd_withFab (p : Pkg) (q : Quire) (v : BitVec 32) : storeAdd (.remote p) q v (s.withFab f) = (storeAdd (.remote p) q v s).withFab f := by
  simp only [storeAdd, storeSource, State.quireAdd_withFab]
  rw [State.withFab_ite]
  rfl

theorem storeSub_withFab (p : Pkg) (q : Quire) (v : BitVec 32) : storeSub (.remote p) q v (s.withFab f) = (storeSub (.remote p) q v s).withFab f := by
  simp only [storeSub, storeSource, State.quireSub_withFab]
  rw [State.withFab_ite]
  rfl

end

/-! ## A message of another package is heard (R430) -/

/-- A message of package `p` is answered with RESYNC: it was declared dead, and has not been told so. -/
abbrev State.Resyncs (s : State) (p : Nat) : Prop := s.isDead p = true ∧ (s.pair p).resynced = false

/-- What the fabric engine keeps once a message of package `p` has been heard. -/
def State.heardFab (s : State) (p : Nat) : FabSt :=
  { s.fab with heard := Sparse.set p s.spanNow s.fab.heard, sent := if s.Resyncs p then s.fab.sent ++ [.resync p 0] else s.fab.sent,
               pairs := if s.Resyncs p then Sparse.set p { resynced := true } s.fab.pairs else s.fab.pairs }

theorem State.fabHear_eq (s : State) (p : Nat) : s.fabHear p = s.withFab (s.heardFab p) := by
  unfold State.fabHear State.heardFab
  by_cases h : s.Resyncs p
  · simp only [if_pos h]
    rw [if_pos (by simp [h.1, h.2])]
    rfl
  · simp only [if_neg h]
    rw [if_neg (by simpa using h)]
    rfl

theorem State.heardFab_of_alive {s : State} {p : Nat} (h : s.isDead p = false) :
    s.heardFab p = { s.fab with heard := Sparse.set p s.spanNow s.fab.heard } := by
  have hno : ¬ s.Resyncs p := fun hr => Bool.noConfusion (hr.1.symm.trans h)
  simp only [State.heardFab, if_neg hno]

/-! ## A REQ refused (R285, R444) -/

theorem State.fabRefuse_eq (s : State) (p n : Nat) :
    s.fabRefuse p n = (s.count R.FAB_REFUSED_RX 1).withFab { s.fab with sent := s.fab.sent ++ [.refuse p n] } := by
  have hfab : (s.count R.FAB_REFUSED_RX 1).fab = s.fab := by rw [State.count_frame]
  rw [State.fabRefuse, State.fabSend, hfab]
  rfl

theorem State.fld_fabRefuse (s : State) (p n : Nat) :
    (s.fabRefuse p n).fld R.FAB_REFUSED_RX F.CTR.COUNT = (s.fld R.FAB_REFUSED_RX F.CTR.COUNT + 1) % 2 ^ 48 := s.fld_count _ _

theorem State.regsBut_fabRefuse (s : State) (p n : Nat) : RegsBut [R.FAB_REFUSED_RX] s (s.fabRefuse p n) := (RegsBut.refl _ s).count 1 (by simp)

theorem State.fabRefuse_frame (s : State) (p n : Nat) :
    s.fabRefuse p n = { s with regs := (s.fabRefuse p n).regs, fab := (s.fabRefuse p n).fab, faults := (s.fabRefuse p n).faults } := by
  rw [State.fabRefuse_eq, State.count_frame]
  rfl

@[simp] theorem State.fabRefuse_fab (s : State) (p n : Nat) : (s.fabRefuse p n).fab = { s.fab with sent := s.fab.sent ++ [.refuse p n] } := by
  rw [State.fabRefuse_eq, State.withFab_fab]

@[simp] theorem State.fabRefuse_mem (s : State) (p n : Nat) : (s.fabRefuse p n).mem = s.mem := by rw [State.fabRefuse_frame]

/-! ## A REQ out of turn, or of a package that is no member (R426, R427, R430, R444) -/

@[simp] theorem State.isMember_withFab (s : State) (f : FabSt) (p : Nat) : (s.withFab f).isMember p = s.isMember p := rfl
@[simp] theorem State.isDead_withFab (s : State) (f : FabSt) (p : Nat) : (s.withFab f).isDead p = s.isDead p := rfl

theorem State.pair_heardFab {s : State} {p : Nat} (hd : s.isDead p = false) : (s.withFab (s.heardFab p)).pair p = s.pair p := by
  rw [State.heardFab_of_alive hd]
  rfl

theorem State.earlyBytes_heardFab {s : State} {p : Nat} (hd : s.isDead p = false) : (s.withFab (s.heardFab p)).earlyBytes = s.earlyBytes := by
  rw [State.heardFab_of_alive hd]
  rfl

/-- The REQ of a header as the fabric engine keeps it. -/
def fabReq (h : FabHdr) (body : FabBody) : FabIn := { pseq := h.pseq.toNat, unit := h.unit.toNat, body := body }

section
variable {s : State} {h : FabHdr} {body : FabBody} (hin : s.fabState ≠ FabS.OFF)
include hin

theorem fabArrive_of_stranger (hm : s.isMember h.src = false) :
    fabArrive h body s = (s.withFab (s.heardFab h.src)).fabRefuse h.src h.pseq.toNat := by
  simp only [fabArrive, if_neg hin, State.fabHear_eq, State.isMember_withFab, hm, Bool.not_false, if_true]

variable (hm : s.isMember h.src = true)
include hm

theorem fabArrive_of_dead (hd : s.isDead h.src = true) : fabArrive h body s = s.withFab (s.heardFab h.src) := by
  simp only [fabArrive, if_neg hin, State.fabHear_eq, State.isMember_withFab, State.isDead_withFab, hm, hd, Bool.not_true, Bool.false_eq_true, if_false,
    if_true]

variable (hd : s.isDead h.src = false)
include hd

/-- A REQ of a member that is not dead, by its number. -/
theorem fabArrive_of_member : fabArrive h body s =
    let u := s.withFab (s.heardFab h.src)
    let x := s.pair h.src
    if h.pseq.toNat = x.expectIn then
      let v := u.fabTake h.src (fabReq h body)
      ((State.fabEarly h.src (v.pair h.src).early.length v).fabServeAll h.src).rcptDue h.src
    else if pseqBefore h.pseq.toNat x.expectIn ∨ (x.early.any fun e => e.pseq == h.pseq.toNat) then u
    else if s.earlyBytes + body.bytes ≤ 0x1000000 then u.setPair h.src { x with early := x.early ++ [fabReq h body] }
    else u.fabSend (.nak h.src x.expectIn) := by
  simp only [fabArrive, if_neg hin, State.fabHear_eq, State.isMember_withFab, State.isDead_withFab, hm, hd, Bool.not_true, Bool.false_eq_true, if_false,
    State.pair_heardFab hd, State.earlyBytes_heardFab hd]
  rfl

section
variable (hn : h.pseq.toNat ≠ (s.pair h.src).expectIn)
include hn

theorem fabArrive_of_repeated (hrep : pseqBefore h.pseq.toNat (s.pair h.src).expectIn = true ∨
    ((s.pair h.src).early.any fun e => e.pseq == h.pseq.toNat) = true) : fabArrive h body s = s.withFab (s.heardFab h.src) := by
  rw [fabArrive_of_member hin hm hd]
  exact (if_neg hn).trans (if_pos hrep)

variable (hnew : ¬ (pseqBefore h.pseq.toNat (s.pair h.src).expectIn = true ∨ ((s.pair h.src).early.any fun e => e.pseq == h.pseq.toNat) = true))
include hnew

theorem fabArrive_of_early (hroom : s.earlyBytes + body.bytes ≤ 0x1000000) : fabArrive h body s =
    (s.withFab (s.heardFab h.src)).setPair h.src { s.pair h.src with early := (s.pair h.src).early ++ [fabReq h body] } := by
  rw [fabArrive_of_member hin hm hd]
  exact (if_neg hn).trans ((if_neg hnew).trans (if_pos hroom))

theorem fabArrive_of_full (hfull : ¬ s.earlyBytes + body.bytes ≤ 0x1000000) : fabArrive h body s =
    (s.withFab (s.heardFab h.src)).fabSend (.nak h.src (s.pair h.src).expectIn) := by
  rw [fabArrive_of_member hin hm hd]
  exact (if_neg hn).trans ((if_neg hnew).trans (if_neg hfull))

end

end

/-! ## A REQ in its turn (R426, R428) -/

/-- A REQ of the member `h.src` comes in its turn, with nothing else of any package in the fabric engine or on its way to a home. -/
structure State.InTurn (s : State) (h : FabHdr) : Prop where
  off : s.fabState ≠ FabS.OFF
  leaving : s.fabState ≠ FabS.LEAVING
  member : s.isMember h.src = true
  alive : s.isDead h.src = false
  next : h.pseq.toNat = (s.pair h.src).expectIn
  rcpt : (s.pair h.src).rcptSent = h.pseq.toNat
  early : (s.pair h.src).early = []
  taken : s.fab.taken = []
  wrs : s.mem.wrs = []

/-- What the fabric engine keeps once the REQ has been taken and handed on, with the messages it has sent. -/
def State.turnFab (s : State) (h : FabHdr) (sent : List FabOut) : FabSt :=
  { s.fab with heard := Sparse.set h.src s.spanNow s.fab.heard, sent := sent,
               pairs := Sparse.set h.src { s.pair h.src with expectIn := (h.pseq.toNat + 1) % 2 ^ 24 } s.fab.pairs }

/-- The state in which the REQ is handed on. -/
def State.turnState (s : State) (h : FabHdr) : State := s.withFab (s.turnFab h s.fab.sent)

theorem State.pair_of_turned {s t : State} {h : FabHdr} {sent : List FabOut} (hfab : t.fab.pairs = (s.turnFab h sent).pairs) :
    t.pair h.src = { s.pair h.src with expectIn := (h.pseq.toNat + 1) % 2 ^ 24 } := by
  rw [State.pair, hfab]
  exact Sparse.get_set_same _ _ _ _

/-- The least of pair numbers that are `n`, or the one after `n`, is one of the two. -/
theorem foldl_pseq {l : List Nat} {n m k : Nat} (hl : ∀ x ∈ l, x = n) (hm : m = n ∨ m = k) :
    l.foldl (fun a b => if pseqBefore b a then b else a) m = n ∨ l.foldl (fun a b => if pseqBefore b a then b else a) m = k :=
  List.foldlRecOn (motive := fun a => a = n ∨ a = k) l _ hm fun a ha b hb => by
    split
    · exact .inl (hl b hb)
    · exact ha

/-- The next REQ taken is handed on, if it may be. -/
theorem State.fabServe_of_ready {s : State} {p : Pkg} {m : FabIn} {kept l : List FabIn} (n : Nat)
    (hnext : ((s.fab.taken.filter fun x => x.1 == p.val).map (·.2)).drop kept.length = m :: l) (hready : s.fabReady p kept m = true) :
    State.fabServe p (n + 1) kept s =
      State.fabServe p n kept ((s.withFab { s.fab with taken := s.fab.taken.filter fun x => !(x.1 == p.val && x.2.pseq == m.pseq) }).fabHand p m) := by
  rw [State.fabServe]
  split
  · rename_i hnone
    cases hnone.symm.trans hnext
  · rename_i m' l' hsome
    cases hsome.symm.trans hnext
    exact if_pos hready

/-- A REQ that waits alone is handed on, if it may be. -/
theorem State.fabServe_one {s : State} {p : Pkg} {m : FabIn} {f : FabSt} (hf : f.taken = []) (hready : s.fabReady p [] m = true) :
    (s.withFab { f with taken := [(p.val, m)] }).fabServeAll p = (s.withFab f).fabHand p m := by
  have hready' (g : FabSt) : (s.withFab g).fabReady p [] m = true := hready
  have hnext : (([(p.val, m)].filter fun x => x.1 == p.val).map (·.2)).drop ([] : List FabIn).length = [m] := by simp
  have hleft : [(p.val, m)].filter (fun x => !(x.1 == p.val && x.2.pseq == m.pseq)) = f.taken := by simp [hf]
  refine (State.fabServe_of_ready 0 hnext (hready' _)).trans ?_
  exact congrArg (fun l => (s.withFab { f with taken := l }).fabHand p m) hleft

section
variable {s : State} {h : FabHdr} (ht : s.InTurn h)
include ht

/-- The REQ taken waits alone. -/
theorem State.fabTake_of_turn (body : FabBody) : (s.withFab (s.heardFab h.src)).fabTake h.src (fabReq h body) =
    s.withFab { s.turnFab h s.fab.sent with taken := [(h.src.val, fabReq h body)] } := by
  have hstay (x : FabPair) : ((s.withFab (s.heardFab h.src)).setPair h.src x).fabState ≠ FabS.LEAVING := ht.leaving
  simp only [State.fabTake, State.pair_heardFab ht.alive]
  rw [if_neg (hstay _), State.heardFab_of_alive ht.alive, ht.early]
  change s.withFab { s.fab with
    heard := Sparse.set h.src s.spanNow s.fab.heard
    pairs := Sparse.set h.src { s.pair h.src with expectIn := (h.pseq.toNat + 1) % 2 ^ 24, early := [] } s.fab.pairs
    taken := s.fab.taken ++ [(h.src.val, fabReq h body)] } = _
  rw [ht.taken, ← ht.early]
  rfl

theorem fabArrive_of_turn {body : FabBody} (hready : s.fabReady h.src [] (fabReq h body) = true) :
    fabArrive h body s = ((s.turnState h).fabHand h.src (fabReq h body)).rcptDue h.src := by
  have hearly : ((s.withFab { s.turnFab h s.fab.sent with taken := [(h.src.val, fabReq h body)] }).pair h.src).early = [] := by
    rw [State.pair_of_turned (s := s) (sent := s.fab.sent) rfl]
    exact ht.early
  rw [fabArrive_of_member ht.off ht.member ht.alive]
  dsimp only
  rw [if_pos ht.next, State.fabTake_of_turn ht, hearly]
  exact congrArg (State.rcptDue · h.src) (State.fabServe_one (f := s.turnFab h s.fab.sent) ht.taken hready)

/-- With one REQ taken since the last receipt, none is due at once. -/
theorem State.rcptDue_of_turned {t : State} {sent : List FabOut} (hfab : t.fab = s.turnFab h sent) (hw : ∀ w ∈ t.mem.wrs, w.pseq = some h.pseq.toNat) :
    t.rcptDue h.src = t := by
  have htaken : t.fab.taken = [] := by rw [hfab]; exact ht.taken
  have hdone : t.fabDone h.src = h.pseq.toNat ∨ t.fabDone h.src = (h.pseq.toNat + 1) % 2 ^ 24 := by
    rw [State.fabDone, htaken, State.pair_of_turned (congrArg FabSt.pairs hfab)]
    refine foldl_pseq (fun x hx => ?_) (.inr rfl)
    obtain ⟨w, hmem, rfl⟩ := List.mem_map.mp hx
    rw [hw w (List.mem_of_mem_filter hmem), Option.getD_some]
  refine if_neg ?_
  rw [State.pair_of_turned (congrArg FabSt.pairs hfab)]
  dsimp only
  rw [ht.rcpt, pseqAhead]
  rcases hdone with hd | hd <;> rw [hd] <;> omega

end

section
variable {s : State} {h : FabHdr}

/-- The REQ has been taken, and memory's bytes are as they were. -/
def State.Turned (s : State) (h : FabHdr) (t : State) : Prop := t.fab = s.turnFab h t.fab.sent ∧ t.mem.cells = s.mem.cells

/-- The REQ has been refused: counted, its source told, and memory as it was (R285, R444). -/
def State.Refused (s : State) (h : FabHdr) (t : State) : Prop :=
  s.Turned h t ∧ t.fab.sent = s.fab.sent ++ [.refuse h.src h.pseq.toNat] ∧
    t.fld R.FAB_REFUSED_RX F.CTR.COUNT = (s.fld R.FAB_REFUSED_RX F.CTR.COUNT + 1) % 2 ^ 48 ∧ t.mem = s.mem

/-- What a REQ in its turn leaves is what handing it on leaves. -/
theorem Answers.of_turn {c : Instr} {body : FabBody} {t : State} {P : State → Prop} (ht : s.InTurn h) (hc : exec c s = .next (fabArrive h body s))
    (hready : s.fabReady h.src [] (fabReq h body) = true) (hhand : (s.turnState h).fabHand h.src (fabReq h body) = t) (hturn : s.Turned h t)
    (hw : ∀ w ∈ t.mem.wrs, w.pseq = some h.pseq.toNat) (hP : P t) : Answers c s P := by
  rw [fabArrive_of_turn ht hready, hhand, State.rcptDue_of_turned ht hturn.1 hw] at hc
  exact .of hc hP

/-- As `Answers.of_turn`, where memory and the writes on their way are as they were. -/
theorem Answers.of_turn_mem {c : Instr} {body : FabBody} {t : State} {P : State → Prop} (ht : s.InTurn h) (hc : exec c s = .next (fabArrive h body s))
    (hready : s.fabReady h.src [] (fabReq h body) = true) (hhand : (s.turnState h).fabHand h.src (fabReq h body) = t)
    (hfab : t.fab = s.turnFab h t.fab.sent) (hmem : t.mem = s.mem) (hP : P t) : Answers c s P := by
  refine .of_turn ht hc hready hhand ⟨hfab, by rw [hmem]⟩ (fun w hw => ?_) hP
  rw [hmem, ht.wrs] at hw
  cases hw

/-- Nothing holds back a REQ that comes alone, but for a read of held memory. -/
theorem State.fabReady_alone {body : FabBody} (hw : s.mem.wrs = [])
    (hrd : ∀ off k, body = .rd off k → ∀ pa, s.exportAddr off false = some pa → s.held (s.region pa) = false) :
    s.fabReady h.src [] (fabReq h body) = true := by
  have hearlier (p n : Nat) : s.earlierWrites p n = [] := by rw [State.earlierWrites, hw, List.filter_nil]
  cases body with
  | rd off k =>
    simp only [State.fabReady, fabReq, hearlier, List.any_nil, Bool.not_false, Bool.and_true]
    split
    · rename_i pa hpa
      rw [hrd off k rfl pa hpa, Bool.not_false]
    · rfl
  | _ => simp [State.fabReady, fabReq, hearlier]

/-- A REQ refused with nothing else done to the fabric engine, to its count or to memory. -/
theorem State.Refused.of_fabRefuse {u : State} (hfab : u.fab = s.turnFab h s.fab.sent)
    (hcount : u.fld R.FAB_REFUSED_RX F.CTR.COUNT = s.fld R.FAB_REFUSED_RX F.CTR.COUNT) (hmem : u.mem = s.mem) :
    s.Refused h (u.fabRefuse h.src h.pseq.toNat) := by
  have hfab' : (u.fabRefuse h.src h.pseq.toNat).fab = s.turnFab h (s.fab.sent ++ [.refuse h.src h.pseq.toNat]) := by
    rw [State.fabRefuse_fab, hfab]
    rfl
  refine ⟨⟨?_, ?_⟩, ?_, ?_, ?_⟩
  · rw [hfab']
    rfl
  · rw [State.fabRefuse_mem, hmem]
  · rw [hfab']
    rfl
  · rw [State.fld_fabRefuse, hcount]
  · rw [State.fabRefuse_mem, hmem]

theorem State.Refused.turn {t : State} (hr : s.Refused h t) : t.fab = s.turnFab h t.fab.sent := hr.1.1
theorem State.Refused.mem {t : State} (hr : s.Refused h t) : t.mem = s.mem := hr.2.2.2

end

/-! ## FAB_EXPORT_n (R284, R285) -/

/-- The FAB_EXPORT_n entry an offset of the fabric window selects, and the address its place names. -/
def State.exportWord (s : State) (off : Nat) : Word := s.reg (R.FAB_EXPORT (off / 2 ^ 30))
def State.exportPlace (s : State) (off : Nat) : Nat := (s.exportWord off).get 55 30 * 2 ^ 30 + off % 2 ^ 30

/-- FAB_EXPORT_n takes the access to memory. -/
def State.ExportOpen (s : State) (off : Nat) (write : Bool) : Prop :=
  off / 2 ^ 30 ≠ 4095 ∧ (s.exportWord off).bit 0 = true ∧ (write = true → (s.exportWord off).bit 1 = true) ∧ (s.region (s.exportPlace off)).isMem = true

/-- FAB_EXPORT_n refuses the access. -/
def State.ExportShut (s : State) (off : Nat) (write : Bool) : Prop :=
  (off / 2 ^ 30 ≠ 4095 ∧ ((s.exportWord off).bit 0 = false ∨ (write = true ∧ (s.exportWord off).bit 1 = false) ∨ (s.region (s.exportPlace off)).isMem = false)) ∨
    (off / 2 ^ 30 = 4095 ∧ 2 ^ 20 ≤ off % 2 ^ 30)

section
variable {s : State} {off : Nat} {write : Bool}

theorem State.exportAddr_eq (s : State) (off : Nat) (write : Bool) : s.exportAddr off write =
    if off / 2 ^ 30 = 4095 then (if off % 2 ^ 30 < 2 ^ 20 then some (0x7E000000000000 + off % 2 ^ 30) else none)
    else if (s.exportWord off).bit 0 && (!write || (s.exportWord off).bit 1) then
      (if (s.region (s.exportPlace off)).isMem then some (s.exportPlace off) else none)
    else none := rfl

theorem State.exportAddr_of_open (h : s.ExportOpen off write) : s.exportAddr off write = some (s.exportPlace off) := by
  obtain ⟨he, hvalid, hwrite, hmem⟩ := h
  have hgrant : (!write || (s.exportWord off).bit 1) = true := by
    cases write with
    | false => rfl
    | true => exact hwrite rfl
  rw [State.exportAddr_eq, if_neg he, if_pos (by rw [hvalid, hgrant]; rfl), if_pos hmem]

theorem State.ExportOpen.isMem (h : s.ExportOpen off write) : (s.region (s.exportPlace off)).isMem = true := h.2.2.2

theorem State.exportAddr_of_shut (h : s.ExportShut off write) : s.exportAddr off write = none := by
  rw [State.exportAddr_eq]
  rcases h with ⟨he, hrefused⟩ | ⟨he, hpast⟩
  · rw [if_neg he]
    rcases hrefused with hinvalid | ⟨rfl, hro⟩ | hmem
    · exact if_neg (by simp [hinvalid])
    · exact if_neg (by simp [hro])
    · simp [hmem]
  · rw [if_pos he, if_neg (Nat.not_lt.mpr hpast)]

/-- The last entry names the quires. -/
theorem State.exportAddr_of_quires (he : off / 2 ^ 30 = 4095) (hin : off % 2 ^ 30 < 2 ^ 20) :
    s.exportAddr off write = some (0x7E000000000000 + off % 2 ^ 30) := by
  rw [State.exportAddr_eq, if_pos he, if_pos hin]

theorem State.region_of_quires (hin : off % 2 ^ 30 < 2 ^ 20) : s.region (0x7E000000000000 + off % 2 ^ 30) = .quire (off % 2 ^ 30) := by
  unfold State.region
  rw [if_neg (by omega), if_neg (by omega), if_pos (by omega), if_pos (by omega), Nat.add_sub_cancel_left]

end

/-! ## A REQ FAB_EXPORT_n refuses (R285) -/

section
variable (s : State) (p off : Nat)

theorem State.exportRefuse_frame : s.exportRefuse p off =
    { s with regs := (s.exportRefuse p off).regs, faults := (s.exportRefuse p off).faults,
             span := { s.span with exportNoted := (s.exportRefuse p off).span.exportNoted } } := by
  obtain ⟨r, f, hcount⟩ : ∃ r f, s.count R.FAB_EXPORT_REFUSED 1 = { s with regs := r, faults := f } := ⟨_, _, s.count_frame _ _⟩
  unfold State.exportRefuse
  rw [hcount]
  dsimp only
  split <;> rfl

theorem State.exportRefuse_regs : (s.exportRefuse p off).regs = (s.count R.FAB_EXPORT_REFUSED 1).regs := by
  unfold State.exportRefuse
  dsimp only
  split <;> rfl

/-- The first refusal of a span is reported. -/
theorem State.exportRefuse_reported (h : s.span.exportNoted = []) :
    ∃ r ∈ (s.exportRefuse p off).faults.raised, r.status = St.EXPORT_REFUSED := by
  unfold State.exportRefuse
  rw [if_pos h]
  exact ⟨_, List.mem_append_right _ (List.mem_singleton_self _), rfl⟩

end

/-- The access has been refused by FAB_EXPORT_n: as a REQ is refused, counted, and reported once a span. -/
def State.Gated (s : State) (h : FabHdr) (t : State) : Prop :=
  s.Refused h t ∧ t.fld R.FAB_EXPORT_REFUSED F.CTR.COUNT = (s.fld R.FAB_EXPORT_REFUSED F.CTR.COUNT + 1) % 2 ^ 48 ∧
    (s.span.exportNoted = [] → (t.faults.raised.map (·.status)).contains St.EXPORT_REFUSED = true) ∧ RegsBut [R.FAB_REFUSED_RX, R.FAB_EXPORT_REFUSED] s t ∧
    t = { s with regs := t.regs, fab := t.fab, faults := t.faults, span := { s.span with exportNoted := t.span.exportNoted } }

/-- Records raised before a REQ is refused stay. -/
theorem State.mem_raised_fabRefuse {s : State} {r : FaultRec} (p n : Nat) (hr : r ∈ s.faults.raised) : r ∈ (s.fabRefuse p n).faults.raised := by
  have hwraps : OnlyWraps s (s.count R.FAB_REFUSED_RX 1) := (OnlyWraps.of_faults rfl).count _ _
  rw [State.fabRefuse_eq]
  exact hwraps.2.1.subset hr

theorem State.status_raised {t : State} {st : Nat} (h : ∃ r ∈ t.faults.raised, r.status = st) : (t.faults.raised.map (·.status)).contains st = true := by
  rw [List.contains_iff_mem]
  exact List.mem_map.mpr h

theorem State.gated_exportRefuse (s : State) (h : FabHdr) (off : Nat) :
    s.Gated h (((s.turnState h).exportRefuse h.src off).fabRefuse h.src h.pseq.toNat) := by
  set u := (s.turnState h).exportRefuse h.src off with hu
  have hframe : u = { s with regs := u.regs, fab := s.turnFab h s.fab.sent, faults := u.faults, span := { s.span with exportNoted := u.span.exportNoted } } :=
    (s.turnState h).exportRefuse_frame h.src off
  have hregs : RegsBut [R.FAB_EXPORT_REFUSED] s u := by
    refine RegsBut.of_regs ?_ ((s.turnState h).exportRefuse_regs h.src off)
    exact RegsBut.count 1 (.of_regs_eq _ rfl) (by simp)
  have hcount : u.fld R.FAB_EXPORT_REFUSED F.CTR.COUNT = (s.fld R.FAB_EXPORT_REFUSED F.CTR.COUNT + 1) % 2 ^ 48 := by
    rw [State.fld_of_regs_eq ((s.turnState h).exportRefuse_regs h.src off), State.fld_count]
    rfl
  have hother := (u.regsBut_fabRefuse h.src h.pseq.toNat)
  refine ⟨.of_fabRefuse (by rw [hframe]) (hregs.fld (by decide) _) (by rw [hframe]), ?_, fun hnoted => ?_, ?_, ?_⟩
  · rw [hother.fld (by decide), hcount]
  · obtain ⟨r, hr, hst⟩ := (s.turnState h).exportRefuse_reported h.src off hnoted
    exact State.status_raised ⟨r, State.mem_raised_fabRefuse _ _ hr, hst⟩
  · exact (hregs.mono (by simp)).trans (hother.mono (by simp))
  · rw [State.fabRefuse_frame, hframe]

/-! ## Sectors handed to their homes (R285, R426) -/

/-- The state with further writes on their way. -/
def State.withWrs (s : State) (l : List Wr) : State := { s with mem := { s.mem with wrs := s.mem.wrs ++ l, nextId := s.mem.nextId + l.length } }

/-- The `i`-th sector of a REQ from address `pa`, as the fabric's write to its home. -/
def State.sectorWr (s : State) (h : FabHdr) (pa i mask : Nat) (data : List Byte) (crc : Option Nat) : Wr :=
  { id := s.mem.nextId + i, src := .remote h.src, dst := (s.region (pa + 64 * i)).dst, addr := (s.region (pa + 64 * i)).key (pa + 64 * i) / 64 * 64, mask := mask, data := data, cmd := 2 ^ 32 + h.src.val * 2048 + h.unit.toNat, whole := mask == 2 ^ 64 - 1 && h.unit.toNat % 4 == 0, crc := crc, pseq := some h.pseq.toNat }

section
variable {s : State} {h : FabHdr}

theorem State.withWrs_nil (s : State) : s.withWrs [] = s := by
  rw [State.withWrs, List.append_nil]
  rfl

theorem State.withWrs_snoc (s : State) (l : List Wr) (w : Wr) :
    { s.withWrs l with mem := { (s.withWrs l).mem with wrs := (s.withWrs l).mem.wrs ++ [w], nextId := (s.withWrs l).mem.nextId + 1 } } = s.withWrs (l ++ [w]) := by
  simp only [State.withWrs, List.append_assoc, List.length_append, List.length_singleton, Nat.add_assoc]

/-- A sector whose memory is present goes to its home. -/
theorem State.handSector_present {body : FabBody} (l : List Wr) (pa mask : Nat) (data : List Byte) (crc : Option Nat)
    (hin : s.absent (s.region (pa + 64 * l.length)) = false) :
    (s.withWrs l).handSector h.src (fabReq h body) (pa + 64 * l.length) mask data crc = s.withWrs (l ++ [s.sectorWr h pa l.length mask data crc]) := by
  have hin' : (s.withWrs l).absent ((s.withWrs l).region (pa + 64 * l.length)) = false := hin
  rw [State.handSector]
  dsimp only
  rw [hin', ← State.withWrs_snoc]
  rfl

/-- A sector whose memory is absent is refused. -/
theorem State.handSector_absent {p : Pkg} {m : FabIn} {pa mask : Nat} {data : List Byte} {crc : Option Nat} (hout : s.absent (s.region pa) = true) :
    s.handSector p m pa mask data crc = s.fabRefuse p m.pseq := by
  rw [State.handSector]
  dsimp only
  rw [hout]
  rfl

/-- The sectors of a WR, each with its place in the byte mask. -/
def State.wrSectors (s : State) (h : FabHdr) (pa off : Nat) (mask : Option Nat) (data : List Byte) (k : Nat) : List Wr :=
  (List.range k).map fun i => s.sectorWr h pa i (wrMask off i mask) ((data.drop (64 * i)).take 64) none

/-- The sectors of a WR all of whose memory is present go to their homes. -/
theorem State.handWr_present {body : FabBody} {off : Nat} {mask : Option Nat} {data : List Byte} {pa : Nat} (haddr : s.exportAddr off true = some pa)
    (hmem : (s.region pa).isMem = true) (hin : ∀ i < data.length / 64, s.absent (s.region (pa + 64 * i)) = false) :
    s.handWr h.src (fabReq h body) off mask data = s.withWrs (s.wrSectors h pa off mask data (data.length / 64)) := by
  have hmem' (l : List Wr) : ((s.withWrs l).region pa).isMem = true := hmem
  rw [State.handWr, haddr]
  dsimp only
  generalize data.length / 64 = k at hin ⊢
  induction k with
  | zero => exact s.withWrs_nil.symm
  | succ k ih =>
    have hlen : (s.wrSectors h pa off mask data k).length = k := by simp [State.wrSectors]
    have hnext : s.absent (s.region (pa + 64 * (s.wrSectors h pa off mask data k).length)) = false := by
      rw [hlen]
      exact hin k (Nat.lt_succ_self k)
    have hput := State.handSector_present (h := h) (body := body) _ pa (wrMask off k mask) ((data.drop (64 * k)).take 64) none hnext
    rw [List.range_succ, List.foldl_append, ih fun i hi => hin i (Nat.lt_succ_of_lt hi), List.foldl_cons, List.foldl_nil, if_pos (hmem' _)]
    rw [hlen] at hput
    rw [hput, State.wrSectors, State.wrSectors, List.range_succ, List.map_append]
    rfl

/-- The mask of a sector, by division. -/
theorem wrMask_eq (off i : Nat) (mask : Option (BitVec 256)) : wrMask off i (mask.map (·.toNat)) =
    if mask.isNone then 2 ^ 64 - 1 else (mask.getD 0).toNat / 2 ^ ((off + 64 * i) % 256 / 64 * 64) % 2 ^ 64 := by
  cases mask with
  | none => rfl
  | some m => exact congrArg (· % 2 ^ 64) (Nat.shiftRight_eq_div_pow _ _)

/-- Sectors have gone to their homes, and nothing else is done. -/
def State.Sent (s : State) (h : FabHdr) (l : List Wr) (t : State) : Prop :=
  s.Turned h t ∧ t.fab.sent = s.fab.sent ∧ t = { s with fab := t.fab, mem := { s.mem with wrs := l, nextId := s.mem.nextId + l.length } }

/-- A REQ in its turn whose sectors go to their homes. -/
theorem Answers.of_sectors {c : Instr} {body : FabBody} {l : List Wr} (ht : s.InTurn h) (hc : exec c s = .next (fabArrive h body s))
    (hready : s.fabReady h.src [] (fabReq h body) = true) (hhand : (s.turnState h).fabHand h.src (fabReq h body) = (s.turnState h).withWrs l)
    (hl : ∀ w ∈ l, w.pseq = some h.pseq.toNat) : Answers c s (s.Sent h l) := by
  have hwrs : ((s.turnState h).withWrs l).mem = { s.mem with wrs := l, nextId := s.mem.nextId + l.length } := by
    rw [State.withWrs, show (s.turnState h).mem = s.mem from rfl, ht.wrs]
    rfl
  have hturn : s.Turned h ((s.turnState h).withWrs l) := ⟨rfl, rfl⟩
  refine .of_turn ht hc hready hhand hturn (fun w hw => hl w (by rwa [hwrs] at hw)) ⟨hturn, rfl, ?_⟩
  rw [← hwrs]
  rfl

end

/-! ## A WR, WCRC or RD in its turn (R285, R212, R429) -/

section
variable (s : State) (h : FabHdr)

@[simp] theorem State.region_turnState (pa : Nat) : (s.turnState h).region pa = s.region pa := rfl
@[simp] theorem State.absent_turnState (r : Region) : (s.turnState h).absent r = s.absent r := by cases r <;> rfl
@[simp] theorem State.exportAddr_turnState (off : Nat) (write : Bool) : (s.turnState h).exportAddr off write = s.exportAddr off write := rfl
@[simp] theorem State.ownerOf_turnState (l : Nat) : (s.turnState h).ownerOf l = s.ownerOf l := rfl

end

section
variable {s : State} {h : FabHdr} {off : BitVec 42} (ht : s.InTurn h)

section
variable (hon : s.On)
include hon

theorem exec_wr (mask : Option (BitVec 256)) (data : List Byte) :
    exec (.wr h off mask data) s = .next (fabArrive h (.wr off.toNat (mask.map (·.toNat)) data) s) := State.whileOn_on _ hon
theorem exec_wcrc (crc : BitVec 32) : exec (.wcrc h off crc) s = .next (fabArrive h (.wcrc off.toNat crc.toNat) s) := State.whileOn_on _ hon
theorem exec_rd (k : Fin 4) : exec (.rd h off k) s = .next (fabArrive h (.rd off.toNat (k.val + 1)) s) := State.whileOn_on _ hon
theorem exec_qsig (q : Quire) (op : QOp) (v : BitVec 32) : exec (.qsig h q op v) s = .next (fabArrive h (.qsig q.val op v.toNat) s) := State.whileOn_on _ hon
theorem exec_mirror (q : Quire) (v : BitVec 32) : exec (.mirror h q v) s = .next (fabArrive h (.mirror q.val v.toNat) s) := State.whileOn_on _ hon

end

include ht

/-- Nothing holds back a REQ that is no RD. -/
theorem State.InTurn.ready {body : FabBody} (hrd : ∀ off k, body ≠ .rd off k) : s.fabReady h.src [] (fabReq h body) = true :=
  State.fabReady_alone ht.wrs fun off k hb => absurd hb (hrd off k)

/-- Nothing holds back an RD of what is not held. -/
theorem State.InTurn.ready_rd {pa : Nat} {k : Fin 4} (haddr : s.exportAddr off.toNat false = some pa) (hheld : s.held (s.region pa) = false) :
    s.fabReady h.src [] (fabReq h (.rd off.toNat (k.val + 1))) = true := by
  refine State.fabReady_alone ht.wrs fun _ _ hb pa' hpa => ?_
  cases hb
  cases haddr.symm.trans hpa
  exact hheld

/-- A REQ refused for what its home or its quire is. -/
theorem Answers.of_refused {c : Instr} {body : FabBody} (hc : exec c s = .next (fabArrive h body s))
    (hready : s.fabReady h.src [] (fabReq h body) = true) (hhand : (s.turnState h).fabHand h.src (fabReq h body) = (s.turnState h).fabRefuse h.src h.pseq.toNat) :
    Answers c s (s.Refused h) := by
  have hrefused : s.Refused h ((s.turnState h).fabRefuse h.src h.pseq.toNat) := .of_fabRefuse rfl rfl rfl
  exact .of_turn_mem ht hc hready hhand hrefused.turn hrefused.mem hrefused

/-- A REQ FAB_EXPORT_n refuses. -/
theorem Answers.of_gated {c : Instr} {body : FabBody} {o : Nat} (hc : exec c s = .next (fabArrive h body s))
    (hready : s.fabReady h.src [] (fabReq h body) = true)
    (hhand : (s.turnState h).fabHand h.src (fabReq h body) = ((s.turnState h).exportRefuse h.src o).fabRefuse h.src h.pseq.toNat) :
    Answers c s (s.Gated h) := by
  have hgated := s.gated_exportRefuse h o
  exact .of_turn_mem ht hc hready hhand hgated.1.turn hgated.1.mem hgated

variable (hon : s.On)
include hon

section
variable (mask : Option (BitVec 256)) (data : List Byte)

/-- A WR to present memory goes to its homes, sector by sector. -/
theorem answers_wr_present {pa : Nat} (haddr : s.exportAddr off.toNat true = some pa) (hmem : (s.region pa).isMem = true)
    (hin : ∀ i < data.length / 64, s.absent (s.region (pa + 64 * i)) = false) :
    Answers (.wr h off mask data) s (s.Sent h (s.wrSectors h pa off.toNat (mask.map (·.toNat)) data (data.length / 64))) := by
  refine .of_sectors ht (exec_wr hon mask data) (ht.ready nofun) ?_ fun w hw => ?_
  · exact State.handWr_present (by simpa using haddr) (by simpa using hmem) (by simpa using hin)
  · obtain ⟨i, -, rfl⟩ := List.mem_map.mp hw
    rfl

/-- A WR of one sector to absent memory is refused. -/
theorem answers_wr_absent {pa : Nat} (haddr : s.exportAddr off.toNat true = some pa) (hmem : (s.region pa).isMem = true) (hlen : data.length = 64)
    (hout : s.absent (s.region pa) = true) : Answers (.wr h off mask data) s (s.Refused h) := by
  refine .of_refused ht (exec_wr hon mask data) (ht.ready nofun) ?_
  change (s.turnState h).handWr _ _ _ _ _ = _
  rw [State.handWr, State.exportAddr_turnState, haddr]
  dsimp only
  rw [hlen, show List.range (64 / 64) = [0] from rfl, List.foldl_cons, List.foldl_nil, State.region_turnState, if_pos hmem]
  exact State.handSector_absent (by simpa using hout)

/-- A WR FAB_EXPORT_n shuts out is refused. -/
theorem answers_wr_shut (haddr : s.exportAddr off.toNat true = none) : Answers (.wr h off mask data) s (s.Gated h) := by
  refine .of_gated ht (o := off.toNat) (exec_wr hon mask data) (ht.ready nofun) ?_
  change (s.turnState h).handWr _ _ _ _ _ = _
  rw [State.handWr, State.exportAddr_turnState, haddr]
  rfl

end

section
variable (crc : BitVec 32)

/-- A WCRC to present memory goes to its home. -/
theorem answers_wcrc_present {pa : Nat} (haddr : s.exportAddr off.toNat true = some pa) (hmem : (s.region pa).isMem = true) (hin : s.absent (s.region pa) = false) :
    Answers (.wcrc h off crc) s (s.Sent h [s.sectorWr h pa 0 0 [] (some crc.toNat)]) := by
  refine .of_sectors ht (exec_wcrc hon crc) (ht.ready nofun) ?_ fun w hw => ?_
  · have hput := State.handSector_present (s := s.turnState h) (h := h) (body := .wcrc off.toNat crc.toNat) [] pa 0 [] (some crc.toNat) (by simpa using hin)
    rw [State.withWrs_nil] at hput
    change (s.turnState h).handWcrc _ _ _ _ = _
    rw [State.handWcrc, State.exportAddr_turnState, haddr]
    dsimp only
    rw [State.region_turnState, if_pos hmem]
    exact hput
  · cases List.mem_singleton.mp hw
    rfl

/-- A WCRC FAB_EXPORT_n shuts out is refused. -/
theorem answers_wcrc_shut (haddr : s.exportAddr off.toNat true = none) : Answers (.wcrc h off crc) s (s.Gated h) := by
  refine .of_gated ht (o := off.toNat) (exec_wcrc hon crc) (ht.ready nofun) ?_
  change (s.turnState h).handWcrc _ _ _ _ = _
  rw [State.handWcrc, State.exportAddr_turnState, haddr]
  rfl

end

end

/-! ### Reads -/

/-- The lines an RD of `n` sectors from address `pa` reads. -/
def State.rdLines (s : State) (pa n : Nat) : List Nat := (List.range n).map fun i => (s.region (pa + 64 * i)).key (pa + 64 * i) / 64 * 64

/-- An RD has been answered with RD_DATA, and nothing else is done. -/
def State.Told (s : State) (h : FabHdr) (bytes : List Byte) (poison : Bool) (t : State) : Prop :=
  s.Turned h t ∧ t.fab.sent = s.fab.sent ++ [.rdData h.src h.pseq.toNat bytes poison] ∧ t = { s with fab := t.fab }

theorem State.homeShare_of_ownerOf {s : State} {l : Nat} (h : s.ownerOf l = none) : s.homeShare l = s := by
  refine State.homeShare_of_unowned fun a ha => ?_
  rw [State.ownerOf, ha] at h
  cases h

theorem State.foldl_homeShare {s : State} {lines : List Nat} (h : ∀ l ∈ lines, s.ownerOf l = none) : lines.foldl State.homeShare s = s :=
  List.foldlRecOn (motive := fun t => t = s) lines _ rfl fun t ht l hl => by rw [ht, State.homeShare_of_ownerOf (h l hl)]

section
variable {s : State} {h : FabHdr} {off : BitVec 42} {k : Fin 4} (ht : s.InTurn h) (hon : s.On)
include ht hon

/-- An RD answered with RD_DATA. -/
theorem Answers.of_rdData {bytes : List Byte} {poison : Bool} (hready : s.fabReady h.src [] (fabReq h (.rd off.toNat (k.val + 1))) = true)
    (hhand : (s.turnState h).answerRd h.src (fabReq h (.rd off.toNat (k.val + 1))) off.toNat (k.val + 1) = (s.turnState h).fabSend (.rdData h.src h.pseq.toNat bytes poison)) :
    Answers (.rd h off k) s (s.Told h bytes poison) :=
  .of_turn_mem ht (exec_rd hon k) hready hhand rfl rfl ⟨⟨rfl, rfl⟩, rfl, rfl⟩

theorem answers_rd_shut (haddr : s.exportAddr off.toNat false = none) : Answers (.rd h off k) s (s.Gated h) := by
  refine .of_gated ht (o := off.toNat) (exec_rd hon k) (State.fabReady_alone ht.wrs fun _ _ hb pa hpa => ?_) ?_
  · cases hb
    cases haddr.symm.trans hpa
  · change (s.turnState h).answerRd _ _ _ _ = _
    rw [State.answerRd, State.exportAddr_turnState, haddr]
    rfl

/-- An RD of the quires (R371). -/
theorem answers_rd_quires (he : off.toNat / 2 ^ 30 = 4095) (hin : off.toNat % 2 ^ 30 < 2 ^ 20) :
    Answers (.rd h off k) s (s.Told h (s.quireBytes (off.toNat % 2 ^ 20 / 64 * 64) (64 * (k.val + 1))) false) := by
  have hreg : s.region (0x7E000000000000 + off.toNat % 2 ^ 30) = .quire (off.toNat % 2 ^ 30) := State.region_of_quires hin
  refine .of_rdData ht hon (ht.ready_rd (State.exportAddr_of_quires he hin) (by rw [hreg]; rfl)) ?_
  rw [State.answerRd, State.exportAddr_turnState, State.exportAddr_of_quires he hin]
  dsimp only
  rw [State.region_turnState, hreg]
  rfl

section
variable {pa : Nat} (haddr : s.exportAddr off.toNat false = some pa) (hmem : (s.region pa).isMem = true) (hheld : s.held (s.region pa) = false)
include haddr hmem hheld

/-- An RD of present memory that no agent owns. -/
theorem answers_rd_present (hin : s.absent (s.region pa) = false) (hown : ∀ l ∈ s.rdLines pa (k.val + 1), s.ownerOf l = none) :
    Answers (.rd h off k) s (s.Told h ((s.rdLines pa (k.val + 1)).flatMap s.ice) ((s.rdLines pa (k.val + 1)).any s.poisoned)) := by
  have hshare : (s.rdLines pa (k.val + 1)).foldl State.homeShare (s.turnState h) = s.turnState h := State.foldl_homeShare (by simpa using hown)
  refine .of_rdData ht hon (ht.ready_rd haddr hheld) ?_
  rw [State.answerRd, State.exportAddr_turnState, haddr]
  dsimp only
  rw [State.region_turnState, hmem, State.absent_turnState, hin]
  exact congrArg (fun t : State => t.fabSend (.rdData h.src h.pseq.toNat ((s.rdLines pa (k.val + 1)).flatMap t.ice) ((s.rdLines pa (k.val + 1)).any t.poisoned))) hshare

/-- An RD of absent memory is refused. -/
theorem answers_rd_absent (hout : s.absent (s.region pa) = true) : Answers (.rd h off k) s (s.Refused h) := by
  refine .of_refused ht (exec_rd hon k) (ht.ready_rd haddr hheld) ?_
  change (s.turnState h).answerRd _ _ _ _ = _
  rw [State.answerRd, State.exportAddr_turnState, haddr]
  dsimp only
  rw [State.region_turnState, hmem, State.absent_turnState, hout]
  rfl

end

end

/-! ## A WR to the quires (R371) -/

section
variable (x : StoreSrc) (s : State)

/-- A masked write of one word of a quire's record is a store of it. -/
theorem quireSector_word (off : Nat) (i : Fin 8) (data : List Byte) :
    quireSector x off (0xFF <<< (8 * i.val)) data s =
      quireStore x (off + 8 * i) (BitVec.ofNat 64 (((data.drop (8 * i)).take 8).reverse.foldl (fun a b => a * 256 + b.toNat) 0)) s := by
  rw [quireSector, show List.range 8 = [0, 1, 2, 3, 4, 5, 6, 7] from rfl]
  fin_cases i <;> rfl

/-- A number from its bytes, the most significant taken first. -/
theorem leNat_eq (l : List Byte) : l.reverse.foldl (fun a b => a * 256 + b.toNat) 0 = leNat l := by
  induction l with
  | nil => rfl
  | cons b l ih =>
    rw [List.reverse_cons, List.foldl_append, ih, List.foldl_cons, List.foldl_nil, leNat]
    omega

/-- The number a store of a word carries. -/
def storeWord (data : List Byte) (i : Nat) : BitVec 32 := BitVec.ofNat 32 (leNat ((data.drop (8 * i)).take 8))

theorem storeWord_eq (data : List Byte) (i : Nat) :
    BitVec.ofNat 32 (BitVec.ofNat 64 (((data.drop (8 * i)).take 8).reverse.foldl (fun a b => a * 256 + b.toNat) 0)).toNat = storeWord data i := by
  rw [leNat_eq, storeWord]
  apply BitVec.eq_of_toNat_eq
  simp only [BitVec.toNat_ofNat]
  omega

section
variable (q : Quire) (v : Word)

theorem quire_of_offset {n : Nat} (hn : n < 64) : (⟨(64 * q.val + n) / 64 % 16384, Nat.mod_lt _ (by decide)⟩ : Quire) = q := by
  have := q.isLt
  exact Fin.ext (by change (64 * q.val + n) / 64 % 16384 = q.val; omega)

/-- A store of word 0 of a quire's record is an ADD. -/
theorem quireStore_add : quireStore x (64 * q.val + 8 * 0) v s = storeAdd x q (BitVec.ofNat 32 v.toNat) s := by
  unfold quireStore
  rw [quire_of_offset q (by decide), show (64 * q.val + 8 * 0) % 64 / 8 = 0 by omega]
  rfl

/-- A store of word 1 is a SUB. -/
theorem quireStore_sub : quireStore x (64 * q.val + 8 * 1) v s = storeSub x q (BitVec.ofNat 32 v.toNat) s := by
  unfold quireStore
  rw [quire_of_offset q (by decide), show (64 * q.val + 8 * 1) % 64 / 8 = 1 by omega]
  rfl

end

theorem quireSector_add (q : Quire) (data : List Byte) : quireSector x (64 * q.val) 0xFF data s = storeAdd x q (storeWord data 0) s := by
  rw [← storeWord_eq, ← quireStore_add]
  exact quireSector_word x s _ 0 data

theorem quireSector_sub (q : Quire) (data : List Byte) : quireSector x (64 * q.val) 0xFF00 data s = storeSub x q (storeWord data 1) s := by
  rw [← storeWord_eq, ← quireStore_sub]
  exact quireSector_word x s _ 1 data

end

/-! ### Stores change neither memory nor the fabric engine -/

section
variable (s : State)

@[simp] theorem State.quireSub_mem (x : QSource) (q v slot : Nat) : (s.quireSub x q v slot).mem = s.mem := by
  unfold State.quireSub
  dsimp only
  split_ifs <;> simp

@[simp] theorem State.quireDeny_mem (x : StoreSrc) (q op arg : Nat) : (s.quireDeny x q op arg).mem = s.mem := State.quireRecord_mem ..

variable (p : Pkg) (q : Quire) (v : BitVec 32)

@[simp] theorem storeAdd_mem (x : StoreSrc) : (storeAdd x q v s).mem = s.mem := by
  unfold storeAdd
  split <;> simp

@[simp] theorem storeSub_mem (x : StoreSrc) : (storeSub x q v s).mem = s.mem := by
  unfold storeSub
  split <;> simp

theorem storeAdd_fab : (storeAdd (.remote p) q v s).fab = s.fab := by
  have hself := storeAdd_withFab s s.fab p q v
  rw [State.withFab_self] at hself
  rw [hself, State.withFab_fab]
theorem storeSub_fab : (storeSub (.remote p) q v s).fab = s.fab := by
  have hself := storeSub_withFab s s.fab p q v
  rw [State.withFab_self] at hself
  rw [hself, State.withFab_fab]

end

section
variable {s : State} {h : FabHdr} {off : BitVec 42} (ht : s.InTurn h) (hon : s.On) {m : BitVec 256} {data : List Byte} {q : Quire}
  (he : off.toNat / 2 ^ 30 = 4095) (hlen : data.length = 64) (hal : off.toNat % 64 = 0) (hq : q.val = off.toNat % 2 ^ 30 / 64)

/-- A WR of one sector to the quires is a masked write of its quire's record. -/
theorem State.handWr_quires {s : State} {body : FabBody} (h : FabHdr) (he : off.toNat / 2 ^ 30 = 4095) (hlen : data.length = 64) (hal : off.toNat % 64 = 0)
    (hq : q.val = off.toNat % 2 ^ 30 / 64) : s.handWr h.src (fabReq h body) off.toNat (some m.toNat) data =
      quireSector (.remote h.src) (64 * q.val) (m.toNat / 2 ^ (off.toNat % 256) % 2 ^ 64) data s := by
  have hin : off.toNat % 2 ^ 30 < 2 ^ 20 := by
    have := q.isLt
    change q.val < 16384 at this
    omega
  have hplace : (0x7E000000000000 + off.toNat % 2 ^ 30 + 64 * 0) % 0x100000 / 64 * 64 = 64 * q.val := by omega
  have hmask : wrMask off.toNat 0 (some m.toNat) = m.toNat / 2 ^ (off.toNat % 256) % 2 ^ 64 := by
    rw [wrMask, Nat.shiftRight_eq_div_pow, show (off.toNat + 64 * 0) % 256 / 64 * 64 = off.toNat % 256 by omega]
  rw [State.handWr, State.exportAddr_of_quires he hin]
  dsimp only
  rw [hlen, show List.range (64 / 64) = [0] from rfl, List.foldl_cons, List.foldl_nil, State.region_of_quires hin, hplace, hmask,
    show (data.drop (64 * 0)).take 64 = data by rw [Nat.mul_zero, List.drop_zero, ← hlen, List.take_length]]
  rfl

/-- What a store of another package leaves, but for the fabric engine's record, is what the store by itself leaves. -/
def State.Stored (s : State) (h : FabHdr) (c : Instr) (t : State) : Prop :=
  s.Turned h t ∧ t.fab.sent = s.fab.sent ∧ exec c s = .next { t with fab := s.fab }

include ht hon in
theorem Answers.of_store {c : Instr} {u : State} (hfab : u.fab = s.fab) (hmem : u.mem = s.mem) (hc : exec c s = .next u)
    (hhand : (s.turnState h).handWr h.src (fabReq h (.wr off.toNat (some m.toNat) data)) off.toNat (some m.toNat) data = u.withFab (s.turnFab h s.fab.sent)) :
    Answers (.wr h off (some m) data) s (s.Stored h c) := by
  refine .of_turn_mem ht (exec_wr hon (some m) data) (ht.ready nofun) hhand rfl hmem ⟨⟨rfl, congrArg MemSt.cells hmem⟩, rfl, ?_⟩
  rw [hc, ← hfab]
  rfl

include ht hon he hlen hal hq

theorem answers_wr_add (hmask : m.toNat / 2 ^ (off.toNat % 256) % 2 ^ 64 = 0xFF) :
    Answers (.wr h off (some m) data) s (s.Stored h (.quireAdd (.remote h.src) q (storeWord data 0))) := by
  refine .of_store ht hon (storeAdd_fab s h.src q _) (storeAdd_mem ..) (State.whileOn_on _ hon) ?_
  rw [State.handWr_quires h he hlen hal hq, hmask, quireSector_add]
  exact storeAdd_withFab ..

theorem answers_wr_sub (hmask : m.toNat / 2 ^ (off.toNat % 256) % 2 ^ 64 = 0xFF00) :
    Answers (.wr h off (some m) data) s (s.Stored h (.quireSub (.remote h.src) q (storeWord data 1))) := by
  refine .of_store ht hon (storeSub_fab s h.src q _) (storeSub_mem ..) (State.whileOn_on _ hon) ?_
  rw [State.handWr_quires h he hlen hal hq, hmask, quireSector_sub]
  exact storeSub_withFab ..

end

/-! ## A QSIG in its turn (R372, R374, R381) -/

section
variable {s : State} {h : FabHdr} {q : Quire} {v : BitVec 32}

/-- The operation of a QSIG took effect: its quire has record `r`, with words 2 and 3. -/
def State.Took (s : State) (h : FabHdr) (q : Quire) (v : BitVec 32) (r : QuireRec) (op : Nat) (t : State) : Prop :=
  s.Turned h t ∧ t.fab.sent = s.fab.sent ∧ t.quire q = { r with src := s.srcWord (.src (.remote h.src)) op v.toNat, stamp := s.spanNow } ∧
    QuiresBut [q] s t ∧ t.mem = s.mem

/-- An arrival counted at the tally of gathering head `q`. -/
def State.Counted (s : State) (h : FabHdr) (q : Quire) (t : State) : Prop :=
  s.Turned h t ∧ t.quire (q + 1) = { s.quire (q + 1) with value := (s.quire (q + 1)).value + 1 } ∧ (t.quire q).value = (s.quire q).value ∧
    QuiresBut [q.val, q.val + 1] s t ∧ t.mem = s.mem

section
variable {u : State} (hmem : u.mem = s.mem)
include hmem

theorem State.Took.of_withFab {r : QuireRec} {op : Nat} (hq : u.quire q = { r with src := s.srcWord (.src (.remote h.src)) op v.toNat, stamp := s.spanNow })
    (hbut : QuiresBut [q] s u) : s.Took h q v r op (u.withFab (s.turnFab h s.fab.sent)) :=
  ⟨⟨rfl, congrArg MemSt.cells hmem⟩, rfl, hq, hbut, hmem⟩

theorem State.Counted.of_withFab (hnext : u.quire (q + 1) = { s.quire (q + 1) with value := (s.quire (q + 1)).value + 1 })
    (hvalue : (u.quire q).value = (s.quire q).value) (hbut : QuiresBut [q.val, q.val + 1] s u) : s.Counted h q (u.withFab (s.turnFab h s.fab.sent)) :=
  ⟨⟨rfl, congrArg MemSt.cells hmem⟩, hnext, hvalue, hbut, hmem⟩

end

section
variable (ht : s.InTurn h) (hon : s.On) (hok : s.remoteOk q = true)
include ht hon hok

/-- A QSIG whose quire's range admits it. -/
theorem Answers.of_signal {op : QOp} {u : State} {P : State → Prop} (hsig : (s.turnState h).quireSignal (.src (.remote h.src)) op q v.toNat 0 = u.withFab (s.turnFab h s.fab.sent))
    (hmem : u.mem = s.mem) (hP : P (u.withFab (s.turnFab h s.fab.sent))) : Answers (.qsig h q op v) s P := by
  refine .of_turn_mem (t := u.withFab (s.turnFab h s.fab.sent)) ht (exec_qsig hon q op v) (ht.ready nofun) ?_ rfl hmem hP
  have hok' : (s.turnState h).remoteOk q = true := hok
  exact (if_pos hok').trans hsig

theorem Answers.of_effective {op : QOp} {k : Nat} {r : QuireRec} (hcons : s.noConsumer q)
    (hsig : (s.turnState h).quireSignal (.src (.remote h.src)) op q v.toNat 0 = (s.turnState h).effective (.src (.remote h.src)) k v.toNat q r) :
    Answers (.qsig h q op v) s (s.Took h q v r k) := by
  have hmem := s.effective_mem (.src (.remote h.src)) k v.toNat q r
  obtain ⟨hq, hbut⟩ := State.quire_effective (s := s) (x := .src (.remote h.src)) (op := k) (arg := v.toNat) (q := q) (r := r) (.inl hcons)
  exact .of_signal ht hon hok (hsig.trans (State.effective_withFab ..)) hmem (.of_withFab hmem hq hbut)

section
variable (hmode : (s.quire q).mode = Qm.NATIVE ∨ (s.quire q).mode = Qm.COMPAT) (hcons : s.noConsumer q)
include hmode hcons

theorem answers_qsig_add (hfit : (s.quire q).value + v.toNat < 2 ^ 32) :
    Answers (.qsig h q .add v) s (s.Took h q v { s.quire q with value := (s.quire q).value + v.toNat } Qo.ADD) := by
  refine .of_effective ht hon hok hcons ?_
  have hq : (s.turnState h).quire q = s.quire q := rfl
  rw [State.quireSignal, State.quireAdd, hq]
  dsimp only
  rw [if_pos hfit, if_pos hfit]
  rcases hmode with hm | hm
  · exact if_pos hm
  · exact (if_neg (by rw [hm]; decide)).trans (if_pos hm)

theorem answers_qsig_sub (hfit : v.toNat ≤ (s.quire q).value) :
    Answers (.qsig h q .sub v) s (s.Took h q v { s.quire q with value := (s.quire q).value - v.toNat } Qo.SUB) := by
  refine .of_effective ht hon hok hcons ?_
  have hq : (s.turnState h).quire q = s.quire q := rfl
  rw [State.quireSignal, State.quireSub, hq]
  dsimp only
  rw [if_pos hfit, if_pos hfit]
  rcases hmode with hm | hm
  · exact if_pos hm
  · exact (if_neg (by rw [hm]; decide)).trans (if_pos hm)

end
end

/-! ### Arrivals -/

/-- The state once an arrival that does not complete the open round has been counted. -/
def State.arrived (s : State) (x : QSource) (q r : Nat) : State :=
  ((s.setQuire (q + 1) { s.quire (q + 1) with value := (s.quire (q + 1)).value + 1 }).effective x Qo.ARRIVE r q (s.quire q)).afterOp (q + 1)

theorem State.completeRounds_of_open {s : State} {q : Nat} (n : Nat) (hopen : (s.quire (q + 1)).value < (s.quire q).participants) :
    State.completeRounds q n s = s := by
  cases n with
  | zero => rfl
  | succ n => exact if_pos hopen

/-- An arrival for the open round, of which more are wanted. -/
theorem State.arriveHead_of_open {s : State} {x : QSource} {q r slot : Nat} (hr : BitVec.ofNat 32 r = BitVec.ofNat 32 (s.quire q).value)
    (hopen : (s.quire (q + 1)).value + 1 < (s.quire q).participants) : s.arriveHead x q r slot = s.arrived x q r := by
  set u := s.setQuire (q + 1) { s.quire (q + 1) with value := (s.quire (q + 1)).value + 1 } with hu
  have hhead : u.quire q = s.quire q := State.quire_setQuire_of_ne _ _ (by omega)
  have hrounds : State.completeRounds q 3 u = u := by
    refine State.completeRounds_of_open 3 ?_
    rw [hhead, hu, State.quire_setQuire]
    exact hopen
  unfold State.arriveHead
  dsimp only
  rw [if_pos (by rw [hr, BitVec.sub_self]; rfl), ← hu, hrounds, hhead]
  rfl

theorem State.arrived_mem (s : State) (x : QSource) (q r : Nat) : (s.arrived x q r).mem = s.mem := by
  simp [State.arrived, State.afterOp, State.evalWaiters_mem]

theorem State.arrived_withFab (s : State) (f : FabSt) (x : QSource) (q r : Nat) : (s.withFab f).arrived x q r = (s.arrived x q r).withFab f := by
  simp only [State.arrived, State.quire_withFab, State.setQuire_withFab, State.effective_withFab, State.afterOp_withFab]

/-- An arrival counts in the tally, and leaves the head's number. -/
theorem State.quire_arrived {s : State} {x : QSource} {q r : Nat} (hhead : (s.quire q).mode = Qm.GATHER) (htally : (s.quire (q + 1)).mode = Qm.GATHER) :
    (s.arrived x q r).quire (q + 1) = { s.quire (q + 1) with value := (s.quire (q + 1)).value + 1 } ∧
      ((s.arrived x q r).quire q).value = (s.quire q).value ∧ QuiresBut [q, q + 1] s (s.arrived x q r) := by
  set u := s.setQuire (q + 1) { s.quire (q + 1) with value := (s.quire (q + 1)).value + 1 } with hu
  obtain ⟨hq, hbut⟩ := State.quire_effective (s := u) (x := x) (op := Qo.ARRIVE) (arg := r) (q := q) (r := s.quire q) (.inr (.inl hhead))
  have hnext : (u.effective x Qo.ARRIVE r q (s.quire q)).quire (q + 1) = { s.quire (q + 1) with value := (s.quire (q + 1)).value + 1 } := by
    rw [hbut (q + 1) (by simp), hu, State.quire_setQuire]
  have hafter (p : Nat) : (s.arrived x q r).quire p = (u.effective x Qo.ARRIVE r q (s.quire q)).quire p :=
    State.quire_afterOp (.inr (.inl (by rw [hnext]; exact htally))) p
  refine ⟨(hafter _).trans hnext, ?_, fun p hp => ?_⟩
  · rw [hafter, hq]
  · obtain ⟨hp, hp'⟩ : p ≠ q ∧ p ≠ q + 1 := by simpa using hp
    rw [hafter, hbut p (by simpa using hp), hu, State.quire_setQuire_of_ne _ _ hp']

section
variable (ht : s.InTurn h) (hon : s.On)
include ht hon

theorem answers_qsig_arrive (hok : s.remoteOk q = true) (hhead : s.isHead q = true) (htally : (s.quire (q + 1)).mode = Qm.GATHER) (hv : v = BitVec.ofNat 32 (s.quire q).value)
    (hopen : (s.quire (q + 1)).value + 1 < (s.quire q).participants) : Answers (.qsig h q .arrive v) s (s.Counted h q) := by
  obtain ⟨hmode, hflag⟩ : (s.quire q).mode = Qm.GATHER ∧ (s.quire q).head = true := by simpa [State.isHead] using hhead
  have hhead' : ((s.turnState h).quire q).mode = Qm.GATHER ∧ ((s.turnState h).quire q).head = true := ⟨hmode, hflag⟩
  have hnumber : BitVec.ofNat 32 v.toNat = BitVec.ofNat 32 (s.quire q).value := by rw [BitVec.ofNat_toNat, BitVec.setWidth_eq, hv]
  have hsig : (s.turnState h).quireSignal (.src (.remote h.src)) .arrive q v.toNat 0 = (s.arrived (.src (.remote h.src)) q v.toNat).withFab (s.turnFab h s.fab.sent) := by
    rw [State.quireSignal, State.quireArrive, if_pos hhead', State.arriveHead_of_open (s := s.turnState h) hnumber hopen]
    exact State.arrived_withFab ..
  have hmem := s.arrived_mem (.src (.remote h.src)) q v.toNat
  obtain ⟨hnext, hvalue, hbut⟩ := State.quire_arrived (s := s) (x := .src (.remote h.src)) (q := q) (r := v.toNat) hmode htally
  exact .of_signal ht hon hok hsig hmem (.of_withFab hmem hnext hvalue hbut)

/-! ### Refused signals -/

/-- The state once a signal of package `p` has been denied: REFUSED in its quire, and a record. -/
def State.denied (s : State) (p : Pkg) (q op arg : Nat) : State :=
  (s.setQuire q ((s.quire q).setFlag Qf.REFUSED)).quireRecord (.src (.remote p)) St.QUIRE_DENIED Sev.INFO q op arg

omit ht hon in
theorem State.raised_denied (s : State) (p : Pkg) (q op arg : Nat) : ∃ r ∈ (s.denied p q op arg).faults.raised, r.status = St.QUIRE_DENIED :=
  ⟨_, List.mem_append_right _ (List.mem_singleton_self _), rfl⟩

/-- A QSIG to a quire whose range has REMOTE = 0 is refused. -/
theorem answers_qsig_refused (hno : s.remoteOk q = false) (op : QOp) : Answers (.qsig h q op v) s fun t =>
    s.Refused h t ∧ t.quire q = (s.quire q).setFlag Qf.REFUSED ∧ QuiresBut [q] s t ∧ (t.faults.raised.map (·.status)).contains St.QUIRE_DENIED = true ∧
      RegsBut [R.FAB_REFUSED_RX] s t := by
  obtain ⟨k, hk⟩ : ∃ k, (s.turnState h).fabHand h.src (fabReq h (.qsig q.val op v.toNat)) =
      ((s.turnState h).denied h.src q k v.toNat).fabRefuse h.src h.pseq.toNat := by
    have hno' : ¬ (s.turnState h).remoteOk q = true := by
      change ¬ s.remoteOk q = true
      simp [hno]
    exact ⟨_, if_neg hno'⟩
  set u := (s.turnState h).denied h.src q k v.toNat with hu
  have hrefused : s.Refused h (u.fabRefuse h.src h.pseq.toNat) := .of_fabRefuse rfl rfl rfl
  have hquire (p : Nat) : (u.fabRefuse h.src h.pseq.toNat).quire p = (s.setQuire q ((s.quire q).setFlag Qf.REFUSED)).quire p := by
    rw [State.fabRefuse_frame]
    rfl
  refine .of_turn_mem ht (exec_qsig hon q op v) (ht.ready nofun) hk hrefused.turn hrefused.mem ⟨hrefused, ?_, fun p hp => ?_, ?_, ?_⟩
  · rw [hquire, State.quire_setQuire]
  · rw [hquire, State.quire_setQuire_of_ne _ _ (by simpa using hp)]
  · obtain ⟨r, hr, hst⟩ := (s.turnState h).raised_denied h.src q k v.toNat
    exact State.status_raised ⟨r, State.mem_raised_fabRefuse _ _ hr, hst⟩
  · exact (RegsBut.of_regs_eq _ rfl).trans (u.regsBut_fabRefuse h.src h.pseq.toNat)

end
end

/-! ## Any REQ, whatever it asks for (R426, R427, R444) -/

/-- `P` holds of every REQ with header `h`, and of its bytes in the reorder buffer (R424). -/
def EveryReq (h : FabHdr) (P : Instr → Nat → Prop) : Prop :=
  (∀ (off : BitVec 42) (mask : Option (BitVec 256)) (data : List Byte), P (.wr h off mask data) (16 + (if mask.isSome then 32 else 0) + data.length)) ∧
  (∀ (off : BitVec 42) (crc : BitVec 32), P (.wcrc h off crc) 32) ∧ (∀ (off : BitVec 42) (k : Fin 4), P (.rd h off k) 16) ∧
  (∀ (q : Quire) (op : QOp) (v : BitVec 32), P (.qsig h q op v) 32) ∧ (∀ (q : Quire) (v : BitVec 32), P (.mirror h q v) 32)

section
variable {s : State} {h : FabHdr}

theorem EveryReq.of_arrive {P : Instr → Nat → Prop} (hon : s.On) (hP : ∀ c body, exec c s = .next (fabArrive h body s) → P c body.bytes) : EveryReq h P := by
  refine ⟨fun off mask data => ?_, fun off crc => hP _ _ (exec_wcrc hon crc), fun off k => hP _ _ (exec_rd hon k),
    fun q op v => hP _ _ (exec_qsig hon q op v), fun q v => hP _ _ (exec_mirror hon q v)⟩
  have hbytes := hP _ _ (exec_wr (h := h) (off := off) hon mask data)
  rwa [FabBody.bytes, Option.isSome_map] at hbytes

variable (hon : s.On) (hin : s.fabState ≠ FabS.OFF)
include hon hin

theorem everyReq_stranger (hm : s.isMember h.src = false) : EveryReq h fun c _ => Answers c s fun t =>
    t.fab = { s.heardFab h.src with sent := (s.heardFab h.src).sent ++ [.refuse h.src h.pseq.toNat] } ∧
      t.fld R.FAB_REFUSED_RX F.CTR.COUNT = (s.fld R.FAB_REFUSED_RX F.CTR.COUNT + 1) % 2 ^ 48 ∧ RegsBut [R.FAB_REFUSED_RX] s t ∧
      t = { s with regs := t.regs, fab := t.fab, faults := t.faults } := by
  refine .of_arrive hon fun c body hc => ?_
  rw [fabArrive_of_stranger hin hm] at hc
  exact .of hc ⟨State.fabRefuse_fab .., State.fld_fabRefuse .., State.regsBut_fabRefuse _ _ _, State.fabRefuse_frame ..⟩

variable (hm : s.isMember h.src = true)
include hm

theorem everyReq_dead (hd : s.isDead h.src = true) : EveryReq h fun c _ => exec c s = .next (s.withFab (s.heardFab h.src)) :=
  .of_arrive hon fun c body hc => by rw [hc, fabArrive_of_dead hin hm hd]

variable (hd : s.isDead h.src = false) (hn : h.pseq.toNat ≠ (s.pair h.src).expectIn)
include hd hn

/-- A REQ has come before: its number is behind the next, or is held. -/
def State.Repeated (s : State) (h : FabHdr) : Prop :=
  (0 < pseqAhead h.pseq.toNat (s.pair h.src).expectIn ∧ pseqAhead h.pseq.toNat (s.pair h.src).expectIn < 2 ^ 23) ∨
    ((s.pair h.src).early.any fun e => e.pseq == h.pseq.toNat) = true

omit hon hin hm hd hn in
theorem State.repeated_iff : s.Repeated h ↔ pseqBefore h.pseq.toNat (s.pair h.src).expectIn = true ∨
    ((s.pair h.src).early.any fun e => e.pseq == h.pseq.toNat) = true := by
  rw [pseqBefore, decide_eq_true_iff]
  rfl

theorem everyReq_repeated (hrep : s.Repeated h) : EveryReq h fun c _ => exec c s = .next (s.withFab (s.heardFab h.src)) :=
  .of_arrive hon fun c body hc => by rw [hc, fabArrive_of_repeated hin hm hd hn (State.repeated_iff.mp hrep)]

variable (hnew : ¬ s.Repeated h)
include hnew

theorem everyReq_early : EveryReq h fun c b =>
    (s.earlyBytes + b ≤ 2 ^ 24 → Answers c s fun t => (t.pair h.src).early.map (·.pseq) = (s.pair h.src).early.map (·.pseq) ++ [h.pseq.toNat] ∧
      (t.pair h.src).expectIn = (s.pair h.src).expectIn ∧ t.fab = { s.heardFab h.src with pairs := t.fab.pairs } ∧ t = { s with fab := t.fab }) ∧
    (2 ^ 24 < s.earlyBytes + b → exec c s = .next (s.withFab { s.heardFab h.src with sent := s.fab.sent ++ [.nak h.src (s.pair h.src).expectIn] })) := by
  have hnew' := mt State.repeated_iff.mpr hnew
  refine .of_arrive hon fun c body hc => ⟨fun hroom => ?_, fun hfull => ?_⟩
  · rw [fabArrive_of_early hin hm hd hn hnew' hroom] at hc
    have hpair : ((s.withFab (s.heardFab h.src)).setPair h.src { s.pair h.src with early := (s.pair h.src).early ++ [fabReq h body] }).pair h.src =
        { s.pair h.src with early := (s.pair h.src).early ++ [fabReq h body] } := Sparse.get_set_same _ _ _ _
    refine .of hc ⟨?_, ?_, rfl, rfl⟩
    · rw [hpair, List.map_append]
      rfl
    · rw [hpair]
  · rw [hc, fabArrive_of_full hin hm hd hn hnew' (Nat.not_le.mpr hfull), State.heardFab_of_alive hd]
    rfl

end

/-- Settles O50: the REQ's source decides first, then its number; in its turn, each kind of REQ by what its target is. -/
theorem fabricRequests : Obligations.FabricRequests := by
  unfold Obligations.FabricRequests
  intro s h hon hin p n x resyncs sends heard all ahead repeated
  refine ⟨everyReq_stranger hon hin, everyReq_dead hon hin, fun hm hd hn => ⟨everyReq_repeated hon hin hm hd hn, everyReq_early hon hin hm hd hn⟩, ?_⟩
  intro hm hd hn hrcpt hearly htaken hwrs hstay turned refused gated
  have ht : s.InTurn h := ⟨hin, hstay, hm, hd, hn, hrcpt, hearly, htaken, hwrs⟩
  refine ⟨fun off => ?_, fun q v => ?_⟩
  · intro e w pa open_ put sent shut
    have hopenAddr {write : Bool} (hopen : open_ write) := State.exportAddr_of_open (s := s) (off := off.toNat) hopen
    have hmem {write : Bool} (hopen : open_ write) := State.ExportOpen.isMem (s := s) (off := off.toNat) hopen
    have hshutAddr {write : Bool} (hshut : shut write) := State.exportAddr_of_shut (s := s) (off := off.toNat) hshut
    refine ⟨fun mask data _ => ⟨fun hopen hpresent => ?_, fun hopen => ?_, fun hshut => ?_, fun he _ hlen hal m hmask q hq => ?_⟩,
      fun crc => ⟨fun hopen => ?_, fun hshut => ?_⟩, fun k => ⟨fun hopen hpresent hheld => ?_, fun hopen habsent hheld => ?_, fun hshut => ?_, ?_⟩⟩
    · have hsent := answers_wr_present ht hon mask data (hopenAddr hopen) (hmem hopen) fun i hi => (hpresent i hi).2
      simp only [State.wrSectors, wrMask_eq] at hsent
      exact hsent
    · exact answers_wr_absent ht hon mask data (hopenAddr hopen) (hmem hopen)
    · exact answers_wr_shut ht hon mask data (hshutAddr hshut)
    · cases hmask
      exact ⟨answers_wr_add ht hon he hlen hal hq, answers_wr_sub ht hon he hlen hal hq⟩
    · exact answers_wcrc_present ht hon crc (hopenAddr hopen) (hmem hopen)
    · exact answers_wcrc_shut ht hon crc (hshutAddr hshut)
    · exact answers_rd_present ht hon (hopenAddr hopen) (hmem hopen) hheld hpresent
    · exact answers_rd_absent ht hon (hopenAddr hopen) (hmem hopen) hheld habsent
    · exact answers_rd_shut ht hon (hshutAddr hshut)
    · exact answers_rd_quires ht hon
  · intro r src took
    refine ⟨fun hok hmode hcons => ⟨?_, ?_⟩, ?_, ?_⟩
    · exact answers_qsig_add ht hon hok hmode hcons
    · exact answers_qsig_sub ht hon hok hmode hcons
    · exact answers_qsig_arrive ht hon
    · exact answers_qsig_refused ht hon

end Sys2Proof.Machine
end

section
/-!
Writes accepted at their home, and the signals behind them (11_coherence.md, 12_ordering.md): O34.
-/

namespace Sys2Proof.Machine

/-! ## Bytes written under a mask (R341) -/

/-- A byte outside a masked write reads as before. -/
theorem Memory.read_writeMask_outside (bs : List Byte) {m : List Host.Cell} {a mask i b : Nat} (h : Memory.wf m = true)
    (hb : b < a + i ∨ a + i + bs.length ≤ b) : Memory.read b (Memory.writeMask a mask i bs m) = Memory.read b m := by
  induction bs generalizing i m with
  | nil => rfl
  | cons x r ih =>
    rw [List.length_cons] at hb
    rw [Memory.writeMask]
    split
    · rw [ih (Memory.write_wf _ x h) (by omega), Memory.read_write_of_ne x h (by omega)]
    · exact ih h (by omega)

/-- A byte inside a masked write is the byte written where the mask has a one, and reads as before where it has none. -/
theorem Memory.read_writeMask_inside (bs : List Byte) {m : List Host.Cell} {a mask i j : Nat} (h : Memory.wf m = true) (hj : j < bs.length) :
    Memory.read (a + (i + j)) (Memory.writeMask a mask i bs m) = if mask.testBit (i + j) then bs.getD j 0 else Memory.read (a + (i + j)) m := by
  induction bs generalizing i j m with
  | nil => exact absurd hj (Nat.not_lt_zero j)
  | cons x r ih =>
    rw [Memory.writeMask]
    cases j with
    | zero =>
      rw [Nat.add_zero, List.getD_cons_zero]
      split
      · rw [Memory.read_writeMask_outside r (Memory.write_wf _ x h) (.inl (by omega)), Memory.read_write_same _ x h]
      · rw [Memory.read_writeMask_outside r h (.inl (by omega))]
    | succ k =>
      rw [show i + (k + 1) = i + 1 + k by omega, List.getD_cons_succ]
      split
      · rw [ih (Memory.write_wf _ x h) (Nat.lt_of_succ_lt_succ hj), Memory.read_write_of_ne x h (by omega)]
      · exact ih h (Nat.lt_of_succ_lt_succ hj)

/-! ## A plain write at its home (R231, R237) -/

/-- Memory's bytes with the settled entries of a sector merged. -/
def State.mergedCells (s : State) (sec : Nat) : List Host.Cell :=
  if s.firn.entries.any fun e => e.settled && e.sector == sec then Memory.writeBytes sec (s.ice sec) s.mem.cells else s.mem.cells

theorem State.mergedCells_wf {s : State} (hm : s.memOk) (sec : Nat) : Memory.wf (s.mergedCells sec) = true := by
  unfold State.mergedCells
  split
  · exact Memory.writeBytes_wf _ _ hm
  · exact hm

/-- Merging makes memory's bytes of the sector ice's. -/
theorem State.read_mergedCells_inside {s : State} (hm : s.memOk) (sec : Nat) {i : Nat} (hi : i < 64) :
    Memory.read (sec + i) (s.mergedCells sec) = (s.ice sec).getD i 0 := by
  have hlen : i < (s.ice sec).length := by rwa [State.length_ice]
  unfold State.mergedCells
  split
  · rw [Memory.read_writeBytes_inside _ hm hlen, List.getD_eq_getElem _ _ hlen]
  · rename_i hnone
    have hice : s.ice sec = s.cells sec 64 := State.ice_of_merged fun y hy hset hsec =>
      hnone (List.any_eq_true.mpr ⟨y, hy, by simp [hset, hsec]⟩)
    rw [hice]
    simp [State.cells, hi]

theorem State.read_mergedCells_outside {s : State} (hm : s.memOk) {sec b : Nat} (hb : b < sec ∨ sec + 64 ≤ b) :
    Memory.read b (s.mergedCells sec) = Memory.read b s.mem.cells := by
  unfold State.mergedCells
  split
  · exact Memory.read_writeBytes_of_outside _ hm (by rwa [State.length_ice])
  · rfl

section
variable (s : State) (a mask : Nat) (data : List Byte) (whole : Bool) (cmd : Nat) (poison : Bool)

theorem State.mem_writeIce : (s.writeIce a mask data whole cmd poison).mem = { s.mem with
    cells := Memory.writeMask a mask 0 data (s.mergedCells a), blocks := (s.writeIce a mask data whole cmd poison).mem.blocks } := by
  unfold State.writeIce
  extract_lets merged m0 s1 s2 s3
  split_ifs <;> rfl

end

/-! ## A line nobody holds a copy of (R312, R315) -/

theorem Sparse.del_of_find_eq_none {α : Type} {k : Nat} {l : List (Nat × α)} (h : Sparse.find k l = none) : Sparse.del k l = l := by
  induction l with
  | nil => rfl
  | cons x r ih =>
    obtain ⟨j, v⟩ := x
    rw [Sparse.find] at h
    split at h
    · cases h
    · rename_i hne
      rw [Sparse.del, if_neg hne, ih h]

theorem State.copies_of_dirOf_eq_none {s : State} {line : Nat} (h : s.dirOf line = none) : s.copies line = [] := by
  rw [State.copies, h]

/-- With no copy there is nothing to take back. -/
theorem State.homeInval_of_dirOf_eq_none {s : State} {line : Nat} (h : s.dirOf line = none) : s.homeInval line none = s := by
  have hshare : s.homeShare line = s := State.homeShare_of_unowned fun a ha => by rw [h] at ha; cases ha
  have hdel : Sparse.del line s.mem.dir = s.mem.dir := Sparse.del_of_find_eq_none h
  simp [State.homeInval, hshare, State.copies_of_dirOf_eq_none h, State.setDir, hdel]

/-- A write of memory with no copy in the way writes ice and breaks the reservations on its granule. -/
theorem State.acceptAt_of_uncached {s : State} {line : Nat} (hmem : (s.region line).isMem = true) (hdir : s.dirOf line = none) (mask : Nat)
    (data : List Byte) (whole : Bool) (cmd : Nat) (poison : Bool) :
    s.acceptAt line mask data whole cmd poison = (s.writeIce line mask data whole cmd poison).breakResv line none := by
  cases hr : s.region line <;> simp only [hr, Region.isMem, Bool.false_eq_true] at hmem
  · simp only [State.acceptAt, hr, State.homeInval_of_dirOf_eq_none hdir]
  · simp only [State.acceptAt, hr, State.homeInval_of_dirOf_eq_none hdir]

/-! ## A home takes a write (R315, R341, R342) -/

/-- The write `w` is accepted at its home: memory has the bytes of its mask, ice's where it has none, and no other byte has changed. -/
def State.Accepted (s : State) (w : Wr) (t : State) : Prop :=
  t.wr w.id = some { w with stage := .accepted } ∧ t.memOk ∧
    (∀ i < 64, Memory.read (w.addr + i) t.mem.cells = if w.mask.testBit i then w.data.getD i 0 else (s.ice w.addr).getD i 0) ∧
    ∀ a, a < w.addr ∨ w.addr + 64 ≤ a → Memory.read a t.mem.cells = Memory.read a s.mem.cells

section
variable {s : State} {w : Wr}

theorem State.accepted_acceptWr (hwr : s.wr w.id = some w) (hm : s.memOk) (hlen : w.data.length = 64) (hmem : (s.region w.addr).isMem = true)
    (hdir : s.dirOf w.addr = none) : s.Accepted w (s.acceptWr w) := by
  have hice := s.mem_writeIce w.addr w.mask w.data w.whole w.cmd w.poison
  have hcells : (s.acceptWr w).mem.cells = Memory.writeMask w.addr w.mask 0 w.data (s.mergedCells w.addr) := by
    rw [State.acceptWr, State.acceptAt_of_uncached hmem hdir]
    exact congrArg MemSt.cells hice
  have hwf := State.mergedCells_wf hm w.addr
  have hkept : ((s.writeIce w.addr w.mask w.data w.whole w.cmd w.poison).breakResv w.addr none).wr w.id = some w := by
    have hwrs : (s.writeIce w.addr w.mask w.data w.whole w.cmd w.poison).mem.wrs = s.mem.wrs := by rw [hice]
    rw [← hwr, State.wr, State.wr, ← hwrs]
    rfl
  refine ⟨?_, ?_, fun i hi => ?_, fun a ha => ?_⟩
  · rw [State.acceptWr, State.acceptAt_of_uncached hmem hdir]
    exact State.wr_setWr (fun _ => rfl) hkept
  · rw [State.memOk, hcells]
    exact Memory.writeMask_wf _ _ _ _ hwf
  · have hread := Memory.read_writeMask_inside w.data (a := w.addr) (mask := w.mask) (i := 0) (j := i) hwf (by omega)
    rw [Nat.zero_add, State.read_mergedCells_inside hm _ hi] at hread
    rw [hcells, hread]
  · rw [hcells, Memory.read_writeMask_outside _ hwf (by omega), State.read_mergedCells_outside hm ha]

section
variable (hdst : w.dst.isPkg = false) (hin : s.absent (s.region w.addr) = false)
include hdst hin

/-- A write to memory that is the oldest of its source, to a free line with no copy, is accepted. -/
theorem State.takeWrite_of_free (hcrc : w.crc = none) (hmem : (s.region w.addr).isMem = true) (hheld : s.held (s.region w.addr) = false)
    (hpend : s.wrPending w.id = false) (hfirst : s.wrFirst w = true) (hsame : s.wrSameHome w = true) (hdir : s.dirOf w.addr = none)
    (hbusy : s.lineBusy w.addr = false) (htrack : s.trackersUsed (s.region w.addr).home < homeTrackers (s.region w.addr).home)
    (hfence : s.fenced (s.region w.addr).home w.src.requester = false) : s.takeWrite w = s.acceptWr w := by
  have hcopies := State.copies_of_dirOf_eq_none hdir
  unfold State.takeWrite
  cases hd : w.dst <;> simp only [hd, Dst.isPkg, Bool.true_eq_false] at hdst
  all_goals
    simp only [hin, hheld, hpend, hfirst, hsame, hcrc, Bool.not_true, Bool.or_self, Bool.false_eq_true, if_false]
    cases hr : s.region w.addr <;> simp only [hr, Region.isMem, Bool.false_eq_true] at hmem
    all_goals
      rw [hr] at htrack hfence
      simp [hcopies, hbusy, htrack, hfence]

/-- A write behind an earlier one of its source waits. -/
theorem State.takeWrite_of_behind (hfirst : s.wrFirst w = false) : s.takeWrite w = s := by
  unfold State.takeWrite
  cases hd : w.dst <;> simp only [hd, Dst.isPkg, Bool.true_eq_false] at hdst
  all_goals simp only [hin, hfirst, Bool.not_false, Bool.or_true, Bool.true_or, Bool.false_eq_true, if_false, if_true]

end

/-! ## WR_LINE, WR_PART and ACK (R315) -/

section
variable (hon : s.On) (hwr : s.wr w.id = some w)
include hon hwr

theorem exec_ack : exec (.ack w.id) s = .next (if w.stage = .accepted then s.dropWr w.id else s) := by
  change s.whileOn _ = _
  rw [State.whileOn_on _ hon, hwr]

variable (hfirn : w.firn = none) (hsent : w.stage = .sent)
include hfirn hsent

theorem exec_wrLine : exec (.wrLine w.id) s = .next (if w.mask = fullMask then s.takeWrite w else s) := by
  change s.whileOn _ = _
  rw [State.whileOn_on _ hon, hwr]
  simp only [hfirn, hsent, and_true]

theorem exec_wrPart : exec (.wrPart w.id) s = .next (if w.mask ≠ fullMask then s.takeWrite w else s) := by
  change s.whileOn _ = _
  rw [State.whileOn_on _ hon, hwr]
  simp only [hfirn, hsent, and_true]

end
end

/-! ## Quire signals of the package (R317, R343) -/

@[simp] theorem State.afterOp_qsigs (s : State) (q : Nat) : (s.afterOp q).sync.qsigs = s.sync.qsigs := by
  have heval (n : Nat) (u : State) : (State.evalWaiters q n u).sync.qsigs = u.sync.qsigs := by
    induction n generalizing u with
    | zero => rfl
    | succ n ih =>
      have htaken : (u.gatesTaken q).sync.qsigs = u.sync.qsigs := by rw [State.gatesTaken_sync]
      rw [State.evalWaiters_succ]
      split
      · exact htaken
      · split
        · exact htaken
        · rw [ih, State.unitGranted, State.wakeWaiter_sync]
          dsimp only [State.withSync]
          rw [State.count_sync]
          exact htaken
  rw [State.afterOp, State.syncShow_sync, State.ringDoorbells_sync, heval]

theorem State.effective_qsigs (s : State) (x : QSource) (op arg q : Nat) (r : QuireRec) : (s.effective x op arg q r).sync.qsigs = s.sync.qsigs := by
  rw [State.effective, State.afterOp_qsigs, State.count_sync]
  rfl

/-- The state with a signal gone from those under way. -/
def State.qsigTaken (s : State) (id : Nat) : State := { s with sync := { s.sync with qsigs := s.sync.qsigs.filter fun q => q.id != id } }

section
variable {s : State} {g : QSig} (hg : s.sync.qsigs.find? (fun q => q.id == g.id) = some g)
include hg

theorem linkQsig_of_behind (hbefore : s.allAccepted g.before = false) : linkQsig g.id s = s := by
  simp [linkQsig, hg, hbefore]

/-- The first signal of its source to a quire, with every earlier write accepted, takes effect. -/
theorem linkQsig_of_ready (hpkg : g.pkg = none) (hfirst : (s.sync.qsigs.find? fun h => h.src == g.src && h.pkg == g.pkg && h.q == g.q) = some g)
    (hbefore : s.allAccepted g.before = true) : linkQsig g.id s = (s.qsigTaken g.id).quireSignal (.src g.src) g.op g.q g.arg g.slot := by
  have hhere : s.signalHere g = true := by rw [State.signalHere, hpkg]
  have heffect (u : State) : u.signalEffect g = u.quireSignal (.src g.src) g.op g.q g.arg g.slot := by simp [State.signalEffect, hpkg]
  simp only [linkQsig, hg, hhere, hbefore, hfirst, beq_self_eq_true, Bool.and_self, if_true, heffect]
  rfl

end

/-- An ADD that fits, at a NATIVE quire nobody waits to CONSUME from. -/
theorem State.quireAdd_frame {s : State} {q v : Nat} (x : QSource) (slot : Nat) (hmode : (s.quire q).mode = Qm.NATIVE)
    (hfit : (s.quire q).value + v < 2 ^ 32) (hcons : s.noConsumer q) : let t := s.quireAdd x q v slot
    (t.quire q).value = (s.quire q).value + v ∧ t.sync.qsigs = s.sync.qsigs ∧ (∀ p, p ≠ q → t.quire p = s.quire p) ∧ t.mem = s.mem := by
  have hadd : s.quireAdd x q v slot = s.effective x Qo.ADD v q { s.quire q with value := (s.quire q).value + v } := by
    rw [State.quireAdd]
    dsimp only
    rw [if_pos hmode, if_pos hfit]
  obtain ⟨hq, hbut⟩ := State.quire_effective (s := s) (x := x) (op := Qo.ADD) (arg := v) (q := q) (r := { s.quire q with value := (s.quire q).value + v }) (.inl hcons)
  rw [hadd]
  exact ⟨by rw [hq], s.effective_qsigs _ _ _ _ _, fun p hp => hbut p (by simpa using hp), s.effective_mem _ _ _ _ _⟩

/-- Settles O34: a write by its place in its source's order and the state of its line, its receipt, and a signal by the writes before it. -/
theorem writesAtHome : Obligations.WritesAtHome := by
  unfold Obligations.WritesAtHome
  refine ⟨fun s w hon hwr hfirn => ⟨?_, ?_, fun hacc => ?_, fun hsent => ?_⟩, fun s g hon hg hpkg hfirst => ⟨fun hbefore => ?_, ?_⟩⟩
  · intro hsent hcrc hm hlen _ hregion hdst hin hheld hpend hord hsame hdir hbusy htrack hfence
    have hmem : (s.region w.addr).isMem = true := by
      rcases hregion with ⟨j, lin, hr, -⟩ | ⟨off, hr⟩ <;> rw [hr] <;> rfl
    have htaken := State.takeWrite_of_free hdst hin hcrc hmem hheld hpend hord hsame hdir hbusy htrack hfence
    have hline := exec_wrLine hon hwr hfirn hsent
    have hpart := exec_wrPart hon hwr hfirn hsent
    have haccepted := State.accepted_acceptWr hwr hm hlen hmem hdir
    refine ⟨fun hfull => ⟨.of (hline.trans ?_) haccepted, hpart.trans ?_⟩, fun hpartial => ⟨.of (hpart.trans ?_) haccepted, hline.trans ?_⟩⟩
    · rw [if_pos hfull, htaken]
    · rw [if_neg (not_not.mpr hfull)]
    · rw [if_pos hpartial, htaken]
    · rw [if_neg hpartial]
  · intro hsent hdst hin hord
    have hwaits := State.takeWrite_of_behind hdst hin hord
    exact ⟨by rw [exec_wrLine hon hwr hfirn hsent, hwaits, ite_self], by rw [exec_wrPart hon hwr hfirn hsent, hwaits, ite_self]⟩
  · rw [exec_ack hon hwr, if_pos hacc]
  · rw [exec_ack hon hwr, if_neg (by rw [hsent]; decide)]
  · exact (State.whileOn_on _ hon).trans (congrArg _ (linkQsig_of_behind hg hbefore))
  · intro hbefore hop hmode hfit hwaiters
    have hcons : (s.qsigTaken g.id).noConsumer g.q := fun w hw => by
      rw [show (s.qsigTaken g.id).sync.waiters = [] from hwaiters] at hw
      cases hw
    have hlink := linkQsig_of_ready hg hpkg hfirst hbefore
    rw [hop] at hlink
    exact .of ((State.whileOn_on _ hon).trans (congrArg _ hlink)) (State.quireAdd_frame (s := s.qsigTaken g.id) _ _ hmode hfit hcons)

end Sys2Proof.Machine
end

section
/-!
The remote cache's registers (11_coherence.md): O35.
-/

namespace Sys2Proof.Machine

/-! ## RC_CFG and RC_STATUS (R336) -/

theorem dieRegs_find_RC_CFG : (dieRegs.find? (·.holds 0x88000)).map (·.fields) = some F.RC_CFG.all := by decide

theorem regFields_RC_CFG (d : Die) : regFields (R.RC_CFG d) = some F.RC_CFG.all := (regFields_die d.isLt (by decide)).trans dieRegs_find_RC_CFG

theorem fieldsApart_RC_CFG : FieldsApart F.RC_CFG.all := by unfold FieldsApart; decide

theorem RC_CFG_ne_RC_STATUS (d : Nat) : R.RC_CFG d ≠ R.RC_STATUS d := by
  unfold R.RC_CFG R.RC_STATUS
  omega

/-- Every field of RC_CFG takes the value written. -/
theorem State.fld_plainWrite_RC_CFG (s : State) (v : Word) (d : Die) {f : Fld} (hf : f ∈ F.RC_CFG.all) :
    (s.plainWrite (R.RC_CFG d) v).fld (R.RC_CFG d) f = v.get f.hi f.lo := by
  have hrw : ∀ f ∈ F.RC_CFG.all, f.ty = .rw := by decide
  rw [State.fld, State.reg_plainWrite, regFields_RC_CFG, Option.getD_some]
  exact get_writeFields_of_rw fieldsApart_RC_CFG _ v hf (hrw f hf)

/-- A write of RC_CFG leaves RC_STATUS. -/
theorem State.fld_RC_STATUS_plainWrite (s : State) (v : Word) (d : Die) (f : Fld) :
    (s.plainWrite (R.RC_CFG d) v).fld (R.RC_STATUS d) f = s.fld (R.RC_STATUS d) f :=
  s.fld_setReg_of_ne _ f (RC_CFG_ne_RC_STATUS d).symm

/-! ## RC_CFG written (R327) -/

section
variable {s : State} {v : Word} {d : Die}

/-- ENABLE of a cache that has been invalidated. -/
theorem rcCfgAct_enables (hen : v.bit 0 = true) (hinv : s.flag (R.RC_STATUS d) F.RC_STATUS.INVALIDATED = true) : let t := rcCfgAct d v s
    t.fld (R.RC_CFG d) F.RC_CFG.ENABLE = 1 ∧ t.fld (R.RC_STATUS d) F.RC_STATUS.ENABLED = 1 ∧ t.fld (R.RC_CFG d) F.RC_CFG.ACQ_ALL_MIB = v.get 21 14 ∧
      t = { s with regs := t.regs } ∧ RegsBut [R.RC_CFG d, R.RC_STATUS d] s t := by
  have hact : rcCfgAct d v s = (s.plainWrite (R.RC_CFG d) v).setFld (R.RC_STATUS d) F.RC_STATUS.ENABLED 1 := by simp only [rcCfgAct, hen, hinv, if_true]
  have hcfg {f : Fld} (hf : f ∈ F.RC_CFG.all) : (rcCfgAct d v s).fld (R.RC_CFG d) f = v.get f.hi f.lo := by
    rw [hact, State.fld_setFld_of_ne _ _ _ _ (RC_CFG_ne_RC_STATUS d), State.fld_plainWrite_RC_CFG _ _ _ hf]
  have hbit : v.get 0 0 = 1 := by rw [Word.get_bit, hen]; rfl
  refine ⟨(hcfg (f := F.RC_CFG.ENABLE) (by decide)).trans hbit, ?_, hcfg (f := F.RC_CFG.ACQ_ALL_MIB) (by decide), ?_, ?_⟩ <;> rw [hact]
  · exact State.fld_setFld_of_le _ _ _ (by decide) (by decide)
  · rfl
  · exact ((RegsBut.refl _ s).setReg _ (by simp)).setFld _ _ (by simp)

/-- ENABLE of a cache that has not been invalidated is refused. -/
theorem rcCfgAct_refused (hen : v.bit 0 = true) (hinv : s.flag (R.RC_STATUS d) F.RC_STATUS.INVALIDATED = false) : let t := rcCfgAct d v s
    t.fld (R.RC_CFG d) F.RC_CFG.ENABLE = s.fld (R.RC_CFG d) F.RC_CFG.ENABLE ∧ t.fld (R.RC_STATUS d) F.RC_STATUS.ENABLED = s.fld (R.RC_STATUS d) F.RC_STATUS.ENABLED ∧
      t.fld (R.RC_STATUS d) F.RC_STATUS.REFUSED = 1 ∧ t.lastRaised.map (fun r => (r.status, r.sev)) = some (St.RC_ENABLE_REFUSED, Sev.INFO) ∧
      t = { s with regs := t.regs, faults := t.faults } ∧ RegsBut [R.RC_CFG d, R.RC_STATUS d] s t := by
  have hact : rcCfgAct d v s = ((s.plainWriteBut (R.RC_CFG d) v [F.RC_CFG.ENABLE]).setFld (R.RC_STATUS d) F.RC_STATUS.REFUSED 1).raise
      { status := St.RC_ENABLE_REFUSED, sev := Sev.INFO, kind := Uk.HOMERC, die := d, index := 0 } := by
    simp only [rcCfgAct, hen, hinv, if_true, Bool.false_eq_true, if_false]
  obtain ⟨-, hkept⟩ := s.plainWriteBut_frame (R.RC_CFG d) v [F.RC_CFG.ENABLE]
  rw [hact]
  refine ⟨?_, ?_, ?_, ?_, rfl, ?_⟩
  · rw [State.fld_raise, State.fld_setFld_of_ne _ _ _ _ (RC_CFG_ne_RC_STATUS d)]
    exact s.fld_plainWriteBut_kept _ v _ (by decide)
  · rw [State.fld_raise, State.fld_setFld_of_disjoint _ _ _ _ _ (by decide) (by decide)]
    exact hkept.fld (by simpa using (RC_CFG_ne_RC_STATUS d).symm) _
  · rw [State.fld_raise, State.fld_setFld_of_le _ _ _ (by decide) (by decide)]
  · rw [State.lastRaised_raise]
    rfl
  · exact ((hkept.mono (by simp)).setFld _ _ (by simp)).raise _

/-- Without ENABLE the cache is off, and no longer counts as invalidated. -/
theorem rcCfgAct_disables (hen : v.bit 0 = false) : let t := rcCfgAct d v s
    t.fld (R.RC_CFG d) F.RC_CFG.ENABLE = 0 ∧ t.fld (R.RC_STATUS d) F.RC_STATUS.ENABLED = 0 ∧ t.fld (R.RC_STATUS d) F.RC_STATUS.INVALIDATED = 0 ∧
      t = { s with regs := t.regs } ∧ RegsBut [R.RC_CFG d, R.RC_STATUS d] s t := by
  have hact : rcCfgAct d v s = ((s.plainWrite (R.RC_CFG d) v).setFld (R.RC_STATUS d) F.RC_STATUS.ENABLED 0).setFld (R.RC_STATUS d) F.RC_STATUS.INVALIDATED 0 := by
    simp only [rcCfgAct, hen, Bool.false_eq_true, if_false]
  have hbit : v.get 0 0 = 0 := by rw [Word.get_bit, hen]; rfl
  rw [hact]
  refine ⟨?_, ?_, State.fld_setFld_of_le _ _ _ (by decide) (by decide), rfl, ?_⟩
  · rw [State.fld_setFld_of_ne _ _ _ _ (RC_CFG_ne_RC_STATUS d), State.fld_setFld_of_ne _ _ _ _ (RC_CFG_ne_RC_STATUS d)]
    exact (s.fld_plainWrite_RC_CFG v d (f := F.RC_CFG.ENABLE) (by decide)).trans hbit
  · rw [State.fld_setFld_of_disjoint _ _ _ _ _ (by decide) (by decide)]
    exact State.fld_setFld_of_le _ _ _ (by decide) (by decide)
  · exact (((RegsBut.refl _ s).setReg _ (by simp)).setFld _ _ (by simp)).setFld _ _ (by simp)

end

/-! ## INVALIDATE and its end (R327) -/

theorem rcInvalidateAct_frame {v : Word} (h : v.bit 0 = true) (d : Die) (s : State) : let t := rcInvalidateAct d v s
    (t.rc d).tags = [] ∧ (t.rc d).invalidating = true ∧ t.fld (R.RC_STATUS d) F.RC_STATUS.BUSY = 1 ∧
      t = { s with regs := t.regs, mem := { s.mem with rc := t.mem.rc } } ∧ RegsBut [R.RC_STATUS d] s t := by
  have hact : rcInvalidateAct d v s = (s.setRc d { tags := [], invalidating := true }).setFld (R.RC_STATUS d) F.RC_STATUS.BUSY 1 := if_pos h
  have hrc : (rcInvalidateAct d v s).rc d = { tags := [], invalidating := true } := by
    rw [hact]
    exact s.rc_setRc d _
  refine ⟨by rw [hrc], by rw [hrc], ?_, ?_, ?_⟩ <;> rw [hact]
  · exact State.fld_setFld_of_le _ _ _ (by decide) (by decide)
  · rfl
  · exact RegsBut.setFld (t := s.setRc d _) _ _ (RegsBut.of_regs_eq _ rfl) (by simp)

/-- A die cleared from the sharer vectors is in none. -/
theorem State.not_mem_sharers_clearSharer (s : State) (d : Die) : ∀ p ∈ (s.clearSharer d).mem.dir, ∀ l, p.2 = .sharers l → CAgent.cd d ∉ l := by
  intro p hp l hl
  obtain ⟨⟨k, x⟩, -, hx⟩ := List.mem_filterMap.mp hp
  cases x with
  | owner a =>
    cases hx
    cases hl
  | sharers m =>
    dsimp only at hx
    split at hx
    · cases hx
    · cases hx
      cases hl
      simp

theorem rcInvalidateDone_frame {s : State} {d : Die} (h : (s.rc d).invalidating = true) : let t := rcInvalidateDone d s
    (t.rc d).invalidating = false ∧ (t.rc d).tags = (s.rc d).tags ∧ t.fld (R.RC_STATUS d) F.RC_STATUS.BUSY = 0 ∧
      t.fld (R.RC_STATUS d) F.RC_STATUS.INVALIDATED = 1 ∧ (∀ p ∈ t.mem.dir, ∀ l, p.2 = .sharers l → CAgent.cd d ∉ l) ∧
      t = { s with regs := t.regs, mem := { s.mem with rc := t.mem.rc, dir := t.mem.dir } } ∧ RegsBut [R.RC_STATUS d] s t := by
  have hact : rcInvalidateDone d s = (((s.clearSharer d).setRc d { s.rc d with invalidating := false }).setFld (R.RC_STATUS d) F.RC_STATUS.BUSY 0).setFld
      (R.RC_STATUS d) F.RC_STATUS.INVALIDATED 1 := if_pos h
  have hrc : (rcInvalidateDone d s).rc d = { s.rc d with invalidating := false } := by
    rw [hact]
    exact (s.clearSharer d).rc_setRc d _
  refine ⟨by rw [hrc], by rw [hrc], ?_, ?_, ?_, ?_, ?_⟩ <;> rw [hact]
  · rw [State.fld_setFld_of_disjoint _ _ _ _ _ (by decide) (by decide)]
    exact State.fld_setFld_of_le _ _ _ (by decide) (by decide)
  · exact State.fld_setFld_of_le _ _ _ (by decide) (by decide)
  · exact s.not_mem_sharers_clearSharer d
  · rfl
  · exact (RegsBut.setFld (t := (s.clearSharer d).setRc d _) _ _ (RegsBut.of_regs_eq _ rfl) (by simp)).setFld _ _ (by simp)

/-- Settles O35: RC_CFG by ENABLE and INVALIDATED, and an invalidation's beginning and end. -/
theorem remoteCaches : Obligations.RemoteCaches := by
  unfold Obligations.RemoteCaches
  intro s w v d hon
  have hcfg (hw : s.Writes w (R.RC_CFG d) v) : exec (.rcCfgWrite w d) s = .next (rcCfgAct d v s) := State.whileOn_write _ hon hw
  have hdone : exec (.rcInvalidateDone d) s = .next (rcInvalidateDone d s) := State.whileOn_on _ hon
  exact ⟨fun hw hen hinv => .of (hcfg hw) (rcCfgAct_enables hen hinv), fun hw hen hinv => .of (hcfg hw) (rcCfgAct_refused hen hinv),
    fun hw hen => .of (hcfg hw) (rcCfgAct_disables hen), fun hw hv => .of (State.whileOn_write _ hon hw) (rcInvalidateAct_frame hv d s),
    fun hinv => .of hdone (rcInvalidateDone_frame hinv), fun hidle => hdone.trans (congrArg _ (if_neg (by simp [hidle])))⟩

end Sys2Proof.Machine
end

section
/-!
The service of a compute die (11_coherence.md): O36.
-/

namespace Sys2Proof.Machine

/-! ## A die's registers return with the image's values (R9, R331) -/

/-- CD0 is fenced, and the values kept of the binding image name CX_STATE of its context 0. -/
def imageNamesContext : State where
  regs := [(R.HUB_CD_STATUS 0, 2)]
  imageRegs := [(R.CX_STATE 0 0, 1)]

/-- REJOIN gives the register the value kept of the image, and the context is EMPTY. -/
theorem cxState_rejoin_imageNamesContext : (rejoinAct 0 4 imageNamesContext).cxState 0 0 = CxS.EMPTY := by decide

/-- Refutes O36: REJOIN resets a die's registers to their Reset column with the values kept of the binding image, whatever registers these
name. Where they name a context's CX_STATE the context is not OFF after it. No image that passes check 8 (R535) names that register, and the
statement has no premise that says so. -/
theorem not_dieService : ¬ Obligations.DieService := by
  unfold Obligations.DieService
  intro h
  obtain ⟨-, -, -, -, -, -, hrejoin, -⟩ := h imageNamesContext ⟨.host, .full, 4⟩ 4 0 rfl
  obtain ⟨t, ht, -, hoff, -⟩ := (hrejoin ⟨rfl, rfl⟩ (by decide)).1 (.inl (by decide))
  have htr : t = rejoinAct 0 4 imageNamesContext := (Host.Outcome.next.inj ht).symm
  have hstate := (hoff 0).2
  rw [htr, cxState_rejoin_imageNamesContext] at hstate
  cases hstate

end Sys2Proof.Machine
end

section
/-!
A core's registers, and a store of a core in a line the cores own (11_coherence.md, 14_cores.md).
-/

namespace Sys2Proof.Machine

/-! ## Numbers and their bytes (R3) -/

theorem leNat_lt (l : List Byte) : leNat l < 2 ^ (8 * l.length) := by
  induction l with
  | nil => exact Nat.one_pos
  | cons b l ih =>
    have hb := b.isLt
    rw [leNat, List.length_cons, Nat.mul_succ, Nat.pow_add]
    omega

/-- What an AMO stores is the exact meaning of its operation (R397). -/
theorem amoResult_eq_amoStored {op : AmoOp} (hop : op ≠ .cas) {w : Nat} (hw : 0 < w) (x y : BitVec w) :
    amoResult op w x.toNat y.toNat = (amoStored op x y).toNat := by
  have hsigned (z : BitVec w) : signedCode w z.toNat = z.toInt := by rw [signedCode_eq_toInt hw, BitVec.ofNat_toNat, BitVec.setWidth_eq]
  cases op with
  | cas => exact absurd rfl hop
  | min => simp only [amoResult, amoStored, hsigned, BitVec.sle_iff_toInt_le]; split_ifs <;> rfl
  | max => simp only [amoResult, amoStored, hsigned, BitVec.sle_iff_toInt_le]; split_ifs <;> rfl
  | minu => simp only [amoResult, amoStored, BitVec.ule_iff_toNat_le, Nat.min_def]; split_ifs <;> rfl
  | maxu => simp only [amoResult, amoStored, BitVec.ule_iff_toNat_le, Nat.max_def]; split_ifs <;> rfl
  | add => exact (BitVec.toNat_add x y).symm
  | and => exact (BitVec.toNat_and x y).symm
  | or => exact (BitVec.toNat_or x y).symm
  | xor => exact (BitVec.toNat_xor x y).symm
  | swap => rfl

/-! ## Bytes put in a sector (R344) -/

/-- An aligned word lies within its sector. -/
theorem mod_sector_add_le {a sz : Nat} (hsz : sz = 4 ∨ sz = 8 ∨ sz = 16) (h : a % sz = 0) : a % 64 + sz ≤ 64 := by
  rcases hsz with rfl | rfl | rfl <;> omega

theorem getD_overlay (mask i : Nat) (us os : List Byte) (h : us.length = os.length) (j : Nat) :
    (overlay mask i us os).getD j 0 = if mask.testBit (i + j) then os.getD j 0 else us.getD j 0 := by
  induction us generalizing i j os with
  | nil => rw [List.eq_nil_of_length_eq_zero h.symm]; exact (ite_self _).symm
  | cons u us ih =>
    cases os with
    | nil => cases h
    | cons o os =>
      rw [overlay]
      cases j with
      | zero => split <;> simp_all
      | succ j => rw [List.getD_cons_succ, ih (i + 1) os (Nat.succ.inj h), Nat.add_right_comm]; rfl

/-- A run of bytes put in a sector: its bytes in their place, and the sector's own beside them. -/
theorem getD_overlay_atOffset {us bs : List Byte} {o : Nat} (hus : us.length = 64) (h : o + bs.length ≤ 64) {i : Nat} (hi : i < 64) :
    (overlay (byteMask o bs.length) 0 us (atOffset o bs)).getD i 0 = if o ≤ i ∧ i < o + bs.length then bs.getD (i - o) 0 else us.getD i 0 := by
  have hlen : us.length = (atOffset o bs).length := by simp [atOffset, hus]; omega
  rw [getD_overlay _ _ _ _ hlen, Nat.zero_add, testBit_byteMask]
  by_cases hin : o ≤ i ∧ i < o + bs.length
  · rw [if_pos hin, if_pos (by simp [hi, hin]), atOffset, List.append_assoc, List.getD_append_right _ _ _ _ (by simp [hin]), List.length_replicate,
      List.getD_append _ _ _ _ (by omega)]
  · rw [if_neg hin, if_neg (by simpa [hi] using hin)]

/-! ## Integer registers of a core -/

/-- Of the state only core `n` has changed. -/
def CoreOnly (n : Fin 96) (s t : State) : Prop := t = { s with cores := t.cores } ∧ ∀ m : Fin 96, m ≠ n → t.core m = s.core m

theorem CoreOnly.trans {n : Fin 96} {s t u : State} (h : CoreOnly n s t) (h' : CoreOnly n t u) : CoreOnly n s u :=
  ⟨h'.1.trans (by rw [h.1]), fun m hm => (h'.2 m hm).trans (h.2 m hm)⟩

theorem State.onCore_coreOnly (s : State) (n : Fin 96) (g : CoreSt → CoreSt) : CoreOnly n s (s.onCore n g) :=
  ⟨rfl, fun _ hm => s.core_setCore_of_ne _ (fun h => hm (Fin.ext h))⟩

theorem State.setCoreX_coreOnly (s : State) (n : Fin 96) (r : Nat) (v : Word) : CoreOnly n s (s.setCoreX n r v) := by
  unfold State.setCoreX
  split
  · exact ⟨rfl, fun _ _ => rfl⟩
  · exact s.onCore_coreOnly n fun k => { k with x := Sparse.set r v k.x }

theorem State.putLoaded_coreOnly (s : State) (n : Fin 96) (rd sz v : Nat) (u : Bool) : CoreOnly n s (s.putLoaded n rd sz v u) := by
  unfold State.putLoaded
  split_ifs
  · exact ⟨rfl, fun _ _ => rfl⟩
  · exact (s.setCoreX_coreOnly ..).trans (State.setCoreX_coreOnly ..)
  · exact s.setCoreX_coreOnly ..
  · exact s.setCoreX_coreOnly ..

theorem State.coreX_setCoreX (s : State) (n : Fin 96) (r i : Nat) (v : Word) :
    (s.setCoreX n r v).coreX n i = if i = r ∧ r ≠ 0 then v else s.coreX n i := by
  by_cases hr : r = 0
  · simp [State.setCoreX, hr]
  · by_cases hi : i = r
    · simp [State.setCoreX, State.coreX, hr, hi, Sparse.get_set_same]
    · simp [State.setCoreX, State.coreX, hr, hi, Sparse.get_set_of_ne _ _ _ hi]

theorem State.coreX_setResv (s : State) (n : Fin 96) (r : Option Nat) (i : Nat) : (s.onCore n fun k => { k with resv := r }).coreX n i = s.coreX n i := by
  simp [State.onCore, State.coreX]

/-- Destination register `rd` of core `n` holds the value read, sign-extended, a pair of registers 16 bytes; no other register has changed. -/
def State.Loaded (s t : State) (n : Fin 96) (rd : Fin 32) {sz : Nat} (x : BitVec (8 * sz)) : Prop :=
  (rd ≠ 0 → t.regValue n rd sz = x.toNat ∧ (sz ≤ 8 → t.coreX n rd = x.signExtend 64)) ∧
  ∀ i, i ≠ rd.val → (sz = 16 → i ≠ rd.val + 1) → t.coreX n i = s.coreX n i

theorem State.regValue_congr {s t : State} {n : Fin 96} (h : ∀ i, t.coreX n i = s.coreX n i) (r sz : Nat) : t.regValue n r sz = s.regValue n r sz := by
  simp only [State.regValue, h]

theorem State.regValue_lt (s : State) (n : Fin 96) (r : Nat) {sz : Nat} : s.regValue n r sz < 2 ^ (8 * sz) := by
  unfold State.regValue
  split_ifs with h16 hr
  · exact Nat.two_pow_pos _
  · have hlo := (s.coreX n r).isLt
    have hhi := (s.coreX n (r + 1)).isLt
    subst h16
    omega
  · exact Nat.mod_lt _ (Nat.two_pow_pos _)

theorem State.Loaded.congr {s s' t t' : State} {n : Fin 96} {rd : Fin 32} {sz : Nat} {x : BitVec (8 * sz)} (h : s.Loaded t n rd x)
    (hs : ∀ i, s'.coreX n i = s.coreX n i) (ht : ∀ i, t'.coreX n i = t.coreX n i) : s'.Loaded t' n rd x := by
  refine ⟨fun hrd => ?_, fun i hi hi' => ?_⟩
  · rw [State.regValue_congr ht, ht]
    exact h.1 hrd
  · rw [ht, hs]
    exact h.2 i hi hi'

theorem setWidth_signExtend_of_le {w v : Nat} (h : w ≤ v) (x : BitVec w) : (x.signExtend v).setWidth w = x := by
  ext i hi
  rw [BitVec.getElem_setWidth, BitVec.getLsbD_signExtend, if_pos hi, decide_eq_true (lt_of_lt_of_le hi h), Bool.true_and, BitVec.getLsbD_eq_getElem]

/-- The value of a load reads back from its register, or pair. -/
theorem State.loaded_putLoaded (s : State) (n : Fin 96) (rd : Fin 32) {sz : Nat} (hsz : sz = 4 ∨ sz = 8 ∨ sz = 16) (x : BitVec (8 * sz)) :
    s.Loaded (s.putLoaded n rd sz x.toNat false) n rd x := by
  by_cases hrd : rd = 0
  · subst hrd
    exact ⟨fun h => absurd rfl h, fun i _ _ => by unfold State.putLoaded; split <;> simp [State.coreX_setCoreX]⟩
  have hne : rd.val ≠ 0 := fun h => hrd (Fin.ext h)
  by_cases h16 : sz = 16
  · subst h16
    have hput : s.putLoaded n rd 16 x.toNat false =
        (s.setCoreX n rd (BitVec.ofNat 64 x.toNat)).setCoreX n (rd + 1) (BitVec.ofNat 64 (x.toNat / 2 ^ 64)) := by
      rw [State.putLoaded, if_pos rfl, if_neg hne]
    rw [hput]
    refine ⟨fun _ => ⟨?_, fun h => absurd h (by decide)⟩, fun i hi hi' => ?_⟩
    · rw [State.regValue, if_pos rfl, if_neg hne, State.coreX_setCoreX, if_neg (by omega), State.coreX_setCoreX, if_pos ⟨rfl, hne⟩,
        State.coreX_setCoreX, if_pos ⟨rfl, Nat.succ_ne_zero _⟩, BitVec.toNat_ofNat, BitVec.toNat_ofNat]
      have hx := x.isLt
      omega
    · rw [State.coreX_setCoreX, if_neg (fun h => hi' rfl h.1), State.coreX_setCoreX, if_neg (fun h => hi h.1)]
  · have hput : s.putLoaded n rd sz x.toNat false = s.setCoreX n rd (x.signExtend 64) := by
      rw [State.putLoaded, if_neg h16, if_neg Bool.false_ne_true, signedCode_eq_toInt (by omega), BitVec.ofNat_toNat, BitVec.setWidth_eq]
      rfl
    rw [hput]
    refine ⟨fun _ => ?_, fun i hi _ => by rw [State.coreX_setCoreX, if_neg (fun h => hi h.1)]⟩
    rw [State.regValue, if_neg h16, State.coreX_setCoreX, if_pos ⟨rfl, hne⟩, ← BitVec.toNat_setWidth, setWidth_signExtend_of_le (by omega)]
    exact ⟨rfl, fun _ => rfl⟩

/-! ## A line the cores may hold (R312) -/

theorem State.dirOf_ne_owner {s : State} {line : Nat} (h : s.ownerOf line = none) (a : CAgent) : s.dirOf line ≠ some (.owner a) := fun hd => by
  rw [State.ownerOf, hd] at h
  cases h

/-- The cores own the line and hold its 64 bytes, or no agent owns it and any copy of the cores is the home's data. -/
def State.CoresOwnable (s : State) (line : Nat) : Prop :=
  (s.dirOf line = some (.owner .cores) ∧ ∃ x, s.heldLine .cores line = some x ∧ x.data.length = 64) ∨
  (s.ownerOf line = none ∧ s.coreBytes line = s.ice line)

theorem State.coresOwnable_of_coreOwns {s : State} {n : Fin 96} {a : Nat} (h : s.coreOwns n a) : s.CoresOwnable (a / 64 * 64) := by
  obtain ⟨-, ⟨hlen, hdir⟩ | ⟨hheld, hown⟩⟩ := h
  · obtain ⟨x, hx, hx64⟩ := Option.map_eq_some_iff.mp hlen
    exact .inl ⟨hdir, x, hx, hx64⟩
  · exact .inr ⟨hown, by rw [State.coreBytes, hheld]⟩

/-- The state with another directory and other lines held by the cores. -/
def State.withCopies (s : State) (dir : List (Nat × DirSt)) (lines : List (Nat × CLine)) : State :=
  { s with mem := { s.mem with dir := dir, coreLines := lines } }

section
variable (s : State) (dir : List (Nat × DirSt)) (lines : List (Nat × CLine))

@[simp] theorem State.region_withCopies (pa : Nat) : (s.withCopies dir lines).region pa = s.region pa := rfl
@[simp] theorem State.absent_withCopies (r : Region) : (s.withCopies dir lines).absent r = s.absent r := by cases r <;> rfl
@[simp] theorem State.held_withCopies (r : Region) : (s.withCopies dir lines).held r = s.held r := by cases r <;> rfl
@[simp] theorem State.poisoned_withCopies (line : Nat) : (s.withCopies dir lines).poisoned line = s.poisoned line := rfl
@[simp] theorem State.ice_withCopies (line : Nat) : (s.withCopies dir lines).ice line = s.ice line := rfl
@[simp] theorem State.coreOver_withCopies (n : Fin 96) (a : Nat) (b : Byte) : (s.withCopies dir lines).coreOver n a b = s.coreOver n a b := rfl
@[simp] theorem State.ownOver_withCopies (src : Src) (inst : Option (Nat × Nat)) (line : Nat) (b : List Byte) :
    (s.withCopies dir lines).ownOver src inst line b = s.ownOver src inst line b := rfl

end

/-- The cores have taken a line: it reads as before, their other lines and memory's bytes are as they were, and of the registers only the
count of back-invalidations may have changed. -/
def State.LineTaken (s : State) (line : Nat) (t : State) : Prop :=
  t.coreBytes line = s.coreBytes line ∧ t.mem.cells = s.mem.cells ∧ (∀ b, b ≠ line → t.heldLine .cores b = s.heldLine .cores b) ∧
  RegsBut [R.HL_BISNP] s t ∧ t = { s with regs := t.regs, faults := t.faults, mem := t.mem }

theorem State.LineTaken.refl (s : State) (line : Nat) : s.LineTaken line s := ⟨rfl, rfl, fun _ _ => rfl, .refl _ s, rfl⟩

theorem State.LineTaken.cores_eq {s t : State} {line : Nat} (h : s.LineTaken line t) : t.cores = s.cores := by
  obtain ⟨-, -, -, -, hframe⟩ := h
  rw [hframe]

/-- A store into a line the cores have taken is a store into the line as it was. -/
theorem State.LineTaken.coreWrote {s u t : State} {n : Fin 96} {a : Nat} {bs : List Byte} (h : s.LineTaken (a / 64 * 64) u) (hw : u.coreWrote t n a bs) :
    s.coreWrote t n a bs := by
  have hcore (m : Fin 96) : u.core m = s.core m := by rw [State.core, h.cores_eq, State.core]
  obtain ⟨hbytes, hcells, hlines, hregs, hframe⟩ := h
  obtain ⟨hdir, ⟨x, hx, hdirty, hby, hdata⟩, hcells', hlines', hregs', hresv, hxs, hframe'⟩ := hw
  refine ⟨hdir, ⟨x, hx, hdirty, hby, fun i hi => by rw [hdata i hi, hbytes]⟩, hcells'.trans hcells, fun b hb => (hlines' b hb).trans (hlines b hb),
    hregs.trans hregs', fun m hm hr => hresv m hm (by rw [hcore, hr]), fun m hm => (hxs m hm).trans (by rw [hcore]), ?_⟩
  rw [hframe', hframe]

/-- What core `n` then does with its own registers and reservation leaves a store as it is. -/
theorem State.coreWrote_of_coreOnly {s t u : State} {n : Fin 96} {a : Nat} {bs : List Byte} (hw : s.coreWrote t n a bs) (h : CoreOnly n t u) :
    s.coreWrote u n a bs := by
  obtain ⟨hframe, hcore⟩ := h
  obtain ⟨hdir, hheld, hcells, hlines, hregs, hresv, hxs, hframe'⟩ := hw
  have hmem : u.mem = t.mem := by rw [hframe]
  have hregs' : u.regs = t.regs := by rw [hframe]
  simp only [State.coreWrote, State.dirOf, State.heldLine, hmem] at hdir hheld hlines ⊢
  refine ⟨hdir, hheld, hcells, hlines, hregs.trans (.of_regs_eq _ hregs'), fun m hm hr => (congrArg _ (hcore m hm)).trans (hresv m hm hr),
    fun m hm => (congrArg _ (hcore m hm)).trans (hxs m hm), ?_⟩
  rw [hframe, hframe']

/-! ## The cores obtain a line (R314) -/

theorem State.dirOf_setDir_owner (s : State) (line : Nat) (a : CAgent) : (s.setDir line (some (.owner a))).dirOf line = some (.owner a) :=
  Sparse.find_set_same ..

theorem State.ownerOf_setDir_sharers (s : State) (line : Nat) {l : List CAgent} (h : l ≠ []) :
    (s.setDir line (some (.sharers l))).ownerOf line = none := by
  cases l with
  | nil => exact absurd rfl h
  | cons a l => simp [State.ownerOf, State.dirOf, State.setDir, Sparse.find_set_same]

/-- The cores made a sharer of a line that no agent owns. -/
theorem State.shared_cores {s : State} {line : Nat} (h : s.ownerOf line = none) : ∃ dir,
    (if (s.copies line).contains .cores then s else s.setDir line (some (.sharers (s.copies line ++ [.cores])))) = s.withCopies dir s.mem.coreLines ∧
    (s.withCopies dir s.mem.coreLines).ownerOf line = none := by
  split
  · exact ⟨s.mem.dir, rfl, h⟩
  · exact ⟨_, rfl, s.ownerOf_setDir_sharers line (List.append_ne_nil_of_right_ne_nil _ (List.cons_ne_nil _ _))⟩

/-- A shared copy taken for the cores: a directory entry and, where they hold none, the home's data. -/
theorem State.homeShared_cores {s : State} {line : Nat} (h : s.CoresOwnable line) : ∃ dir lines, s.homeShared .cores line = s.withCopies dir lines ∧
    (s.withCopies dir lines).CoresOwnable line ∧ s.LineTaken line (s.withCopies dir lines) := by
  rcases h with ⟨hdir, hheld⟩ | ⟨hown, hice⟩
  · exact ⟨s.mem.dir, s.mem.coreLines, if_pos hdir, .inl ⟨hdir, hheld⟩, .refl s line⟩
  have hne := State.dirOf_ne_owner hown
  obtain ⟨dir, hshare, hown'⟩ := State.shared_cores hown
  have hbegin : s.homeShared .cores line = match (s.withCopies dir s.mem.coreLines).heldLine .cores line with
      | some _ => s.withCopies dir s.mem.coreLines
      | none => (s.withCopies dir s.mem.coreLines).setHeld .cores line { data := s.ice line, dirty := false } := by
    rw [State.homeShared, if_neg (hne _)]
    dsimp only
    rw [State.homeShare_of_unowned hne, hshare]
    rfl
  cases hheld : s.heldLine .cores line with
  | some x => exact ⟨dir, s.mem.coreLines, by rw [hbegin, show (s.withCopies dir s.mem.coreLines).heldLine .cores line = some x from hheld],
      .inr ⟨hown', hice⟩, rfl, rfl, fun _ _ => rfl, .refl _ s, rfl⟩
  | none =>
    let lines := Sparse.set line { data := s.ice line, dirty := false } s.mem.coreLines
    have hbytes : (s.withCopies dir lines).coreBytes line = s.ice line := by
      rw [State.coreBytes, show (s.withCopies dir lines).heldLine .cores line = some _ from Sparse.find_set_same ..]
    exact ⟨dir, lines, by rw [hbegin, show (s.withCopies dir s.mem.coreLines).heldLine .cores line = none from hheld]; rfl,
      .inr ⟨hown', hbytes⟩, hbytes.trans hice.symm, rfl, fun b hb => Sparse.find_set_of_ne _ _ hb, .refl _ s, rfl⟩

/-! ## Other agents' copies taken back (R314) -/

/-- What taking other agents' copies back may change: the directory, the host's lines, the remote caches, and the count of back-invalidations. -/
def State.OthersDropped (s t : State) : Prop :=
  RegsBut [R.HL_BISNP] s t ∧
  t = { s with regs := t.regs, faults := t.faults, mem := { s.mem with dir := t.mem.dir, hostLines := t.mem.hostLines, rc := t.mem.rc } }

theorem State.OthersDropped.trans {s t u : State} (h : s.OthersDropped t) (h' : t.OthersDropped u) : s.OthersDropped u :=
  ⟨h.1.trans h'.1, h'.2.trans (by rw [h.2])⟩

theorem State.OthersDropped.refl (s : State) : s.OthersDropped s := ⟨.refl _ s, rfl⟩

theorem State.othersDropped_dropCopy (s : State) {a : CAgent} (ha : a ≠ .cores) (line : Nat) : s.OthersDropped (s.dropCopy a line) := by
  cases a with
  | cores => exact absurd rfl ha
  | host => exact ⟨.of_regs_eq _ rfl, rfl⟩
  | cd d => exact ⟨.of_regs_eq _ rfl, rfl⟩

theorem State.othersDropped_setDir (s : State) (line : Nat) (x : Option DirSt) : s.OthersDropped (s.setDir line x) := ⟨.of_regs_eq _ rfl, rfl⟩

theorem State.othersDropped_count (s : State) : s.OthersDropped (s.count R.HL_BISNP 1) :=
  ⟨(RegsBut.refl _ s).count 1 (by simp), by rw [State.count_frame]⟩

theorem State.othersDropped_homeInval {s : State} {line : Nat} (h : s.ownerOf line = none) : s.OthersDropped (s.homeInval line (some .cores)) := by
  unfold State.homeInval
  rw [State.homeShare_of_unowned (State.dirOf_ne_owner h)]
  dsimp only
  refine State.OthersDropped.trans ?_ (State.othersDropped_setDir ..)
  refine List.foldlRecOn (motive := s.OthersDropped) _ _ ?_ fun t ht a ha => ht.trans (t.othersDropped_dropCopy (fun hc => ?_) line)
  · split
    · exact s.othersDropped_count
    · exact .refl s
  · have hkept := (List.mem_filter.mp ha).2
    simp [hc] at hkept

/-! ## The cores own a line and store in it (R312, R402) -/

/-- The cores obtain a line they may own: it is theirs, 64 bytes that read as before. -/
theorem State.homeOwn_cores {s : State} {line : Nat} (h : s.CoresOwnable line) : let t := s.homeOwn .cores line
    s.LineTaken line t ∧ t.dirOf line = some (.owner .cores) ∧ ∃ x, t.heldLine .cores line = some x ∧ x.data.length = 64 := by
  intro t
  rcases h with ⟨hdir, hheld⟩ | ⟨hown, hice⟩
  · have ht : t = s := if_pos hdir
    rw [ht]
    exact ⟨.refl s line, hdir, hheld⟩
  obtain ⟨hregs, hframe⟩ := State.othersDropped_homeInval hown
  generalize hu : s.homeInval line (some .cores) = u at hregs hframe
  have ht : t = ((u.setHeld .cores line { data := u.ice line, dirty := false }).setBlock line ((u.block line).dataWrite false 0)).setDir line
      (some (.owner .cores)) := by
    rw [← hu]
    exact if_neg (State.dirOf_ne_owner hown _)
  have hheld : t.heldLine .cores line = some { data := u.ice line, dirty := false } := by
    rw [ht]
    exact Sparse.find_set_same ..
  have hdata : u.ice line = s.ice line := by rw [hframe]; rfl
  have hlines : u.mem.coreLines = s.mem.coreLines := by rw [hframe]
  refine ⟨⟨?_, ?_, fun b hb => ?_, ?_, ?_⟩, ?_, _, hheld, State.length_ice ..⟩
  · rw [State.coreBytes, hheld, hice]
    exact hdata
  · rw [ht, hframe]; rfl
  · rw [State.heldLine, State.heldLine, ← hlines, ht]
    exact Sparse.find_set_of_ne _ _ hb
  · rw [ht]
    exact hregs.trans (.of_regs_eq _ rfl)
  · rw [ht, hframe]; rfl
  · rw [ht]
    exact State.dirOf_setDir_owner ..

theorem Sparse.get_map {α : Type} {d : α} (g : Nat → α → α) (hd : ∀ k, g k d = d) (k : Nat) (l : List (Nat × α)) :
    Sparse.get d k (l.map fun p => (p.1, g p.1 p.2)) = g k (Sparse.get d k l) := by
  induction l with
  | nil => exact (hd k).symm
  | cons p l ih =>
    obtain ⟨j, v⟩ := p
    rw [List.map_cons, Sparse.get, Sparse.get]
    split
    · rename_i hj
      rw [hj]
    · exact ih

/-- The core after a write to the granule of a line by core `by_`, or by another agent (R402). -/
def CoreSt.resvBroken (k : CoreSt) (line : Nat) (by_ : Option Nat) (m : Nat) : CoreSt :=
  if k.resv = some (line / 128) ∧ by_ ≠ some m then { k with resv := none, waitWrs := none } else k

theorem State.core_breakResv (s : State) (line : Nat) (by_ : Option Nat) (m : Nat) :
    (s.breakResv line by_).core m = (s.core m).resvBroken line by_ m := by
  have hmap : (s.breakResv line by_).cores = s.cores.map fun p => (p.1, p.2.resvBroken line by_ p.1) := by
    refine List.map_congr_left fun p _ => ?_
    rw [CoreSt.resvBroken]
    split <;> rfl
  rw [State.core, hmap, Sparse.get_map (fun k (x : CoreSt) => x.resvBroken line by_ k) (fun k => if_neg (by simp))]
  rfl

theorem State.core_breakResv_self (s : State) (line : Nat) (n : Fin 96) : (s.breakResv line (some n.val)).core n = s.core n := by
  rw [State.core_breakResv, CoreSt.resvBroken, if_neg (fun h => h.2 rfl)]

/-- A store at key `a` is made at once: memory in service and not held, its line the cores' or no agent's. -/
def State.MayStore (s : State) (a : Nat) : Prop :=
  (s.region a).isMem = true ∧ s.absent (s.region a) = false ∧ s.held (s.region a) = false ∧ s.CoresOwnable (a / 64 * 64)

theorem State.mayStore_of_coreOwns {s : State} {n : Fin 96} {a : Nat} (h : s.coreOwns n a) : s.MayStore a := by
  obtain ⟨⟨hregion, -⟩, -⟩ := id h
  obtain ⟨hmem, hin, hfree⟩ := hregion a (List.mem_cons_self ..)
  exact ⟨hmem, hin, hfree, State.coresOwnable_of_coreOwns h⟩

/-- A store of a core to a line the cores may own is made there at once. -/
theorem State.MayStore.coreWrite {s : State} {a : Nat} (h : s.MayStore a) (n : Fin 96) {bs : List Byte} (hbs : a % 64 + bs.length ≤ 64) :
    ∃ t, s.coreWrite n a bs = some t ∧ s.coreWrote t n a bs ∧ t.core n = s.core n := by
  obtain ⟨hmem, hin, hfree, hown⟩ := h
  obtain ⟨htaken, hdir, x, hx, hlen⟩ := State.homeOwn_cores hown
  generalize hu : s.homeOwn .cores (a / 64 * 64) = u at htaken hdir hx
  have hcoreBytes : u.coreBytes (a / 64 * 64) = x.data := by rw [State.coreBytes, hx]
  have hcore : u.core n = s.core n := by rw [State.core, htaken.cores_eq, State.core]
  let y : CLine := { data := overlay (byteMask (a % 64) bs.length) 0 x.data (atOffset (a % 64) bs), dirty := true, owner := some n.val }
  refine ⟨(u.setHeld .cores (a / 64 * 64) y).breakResv (a / 64 * 64) (some n.val), ?_, htaken.coreWrote ?_, ?_⟩
  · simp only [State.coreWrite, hmem, hin, hfree, Bool.false_eq_true, if_true, if_false, hu, hx]
    rfl
  · refine ⟨hdir, ⟨y, Sparse.find_set_same .., rfl, rfl, fun i hi => ?_⟩, rfl, fun b hb => Sparse.find_set_of_ne _ _ hb, .of_regs_eq _ rfl,
      fun m hm hr => ?_, fun m hm => ?_, rfl⟩
    · rw [hcoreBytes]
      exact getD_overlay_atOffset hlen hbs hi
    · rw [State.core_breakResv, CoreSt.resvBroken, if_pos ⟨hr, fun h => hm (Fin.ext (Option.some.inj h).symm)⟩]
    · rw [State.core_breakResv, CoreSt.resvBroken]
      split <;> rfl
  · rw [State.core_breakResv_self]
    exact hcore

theorem State.MayStore.coreWrite_leBytes {s : State} {a sz : Nat} (h : s.MayStore a) (n : Fin 96) (hfits : a % 64 + sz ≤ 64) (v : Nat) :
    ∃ t, s.coreWrite n a (leBytes sz v) = some t ∧ s.coreWrote t n a (leBytes sz v) ∧ t.core n = s.core n :=
  h.coreWrite n (by rwa [length_leBytes])

end Sys2Proof.Machine
end

section
/-!
Atomics, reservations and waits of the cores (12_ordering.md, 14_cores.md): O40.
-/

namespace Sys2Proof.Machine

/-! ## A core with no store to perform reads a line (R400) -/

section
variable {s : State} {n : Fin 96} (hquiet : s.coreQuiet n)
include hquiet

theorem State.coreDrain_of_quiet (all : Bool) : s.coreDrain n all = s := by
  obtain ⟨hsb, hearly, hcomb, -⟩ := hquiet
  simp [State.coreDrain, hsb, hearly, State.drainStores, State.combAll, hcomb]

theorem State.storesPerformed_of_quiet : ((s.core n).sb != [] || (s.core n).early != []) = false := by
  obtain ⟨hsb, hearly, -, -⟩ := hquiet
  rw [hsb, hearly]
  rfl

theorem State.coreOver_of_quiet (a : Nat) (b : Byte) : s.coreOver n a b = b := by
  obtain ⟨hsb, -, hcomb, hl3⟩ := hquiet
  have hearly : (s.cores.flatMap fun p => p.2.early) = [] := List.flatMap_eq_nil_iff.mpr hl3
  simp [State.coreOver, hsb, hcomb, hearly]

/-- A line the core may read comes at once, as the cores or its home have it. -/
theorem State.coreSector_of_reads {a : Nat} (hreads : s.coreReads n a) (hown : s.CoresOwnable (a / 64 * 64)) : s.coreSector n (a / 64 * 64) =
    (.data ((List.range 64).map fun i => (s.coreBytes (a / 64 * 64)).getD i 0) false, s.homeShared .cores (a / 64 * 64)) := by
  obtain ⟨hregion, hclean, -, hwrs⟩ := hreads
  obtain ⟨hmem, hin, hfree⟩ := hregion (a / 64 * 64) (by simp)
  obtain ⟨dir, lines, hshared, -, hbytes, -⟩ := State.homeShared_cores hown
  have hclear : s.mem.wrs.all (fun w => !(w.src == .core n && w.addr == a / 64 * 64)) = true :=
    List.all_eq_true.mpr fun w hw => by simpa [imp_iff_not_or] using hwrs w hw
  cases hr : s.region (a / 64 * 64) <;> simp only [hr, Region.isMem, Bool.false_eq_true] at hmem hin hfree
  all_goals
    simp only [State.coreSector, hr, hin, hfree, Bool.false_eq_true, if_false, hshared, State.ice_withCopies, State.poisoned_withCopies, hclean,
      State.coreOver_withCopies, State.coreOver_of_quiet hquiet, State.ownOver_withCopies, State.ownOver_of_clear hclear]
    rw [← hbytes]
    rfl

end

/-- The `sz` bytes at key `a` as the cores or their home have them. -/
def State.coreWord (s : State) (a sz : Nat) : BitVec (8 * sz) :=
  BitVec.ofNat _ (leNat ((List.range sz).map fun i => (s.coreBytes (a / 64 * 64)).getD (a % 64 + i) 0))

/-- The bytes of a word within its sector. -/
theorem State.leNat_sector (s : State) {a sz : Nat} (h : a % 64 + sz ≤ 64) :
    leNat ((((List.range 64).map fun i => (s.coreBytes (a / 64 * 64)).getD i 0).drop (a % 64)).take sz) = (s.coreWord a sz).toNat := by
  have hbytes : (((List.range 64).map fun i => (s.coreBytes (a / 64 * 64)).getD i 0).drop (a % 64)).take sz =
      (List.range sz).map fun i => (s.coreBytes (a / 64 * 64)).getD (a % 64 + i) 0 :=
    List.ext_getElem (by simp; omega) fun i _ _ => by simp
  have hlt := leNat_lt ((List.range sz).map fun i => (s.coreBytes (a / 64 * 64)).getD (a % 64 + i) 0)
  rw [List.length_map, List.length_range] at hlt
  rw [hbytes, State.coreWord, BitVec.toNat_ofNat, Nat.mod_eq_of_lt hlt]

/-- What a core's read of a word in a line the cores may own leaves: the line is taken, the word is its, and a store there is made at once. -/
theorem State.coreSector_taken {s : State} {n : Fin 96} {a : Nat} (hquiet : s.coreQuiet n) (hown : s.coreOwns n a) : ∃ u b,
    s.coreSector n (a / 64 * 64) = (.data b false, u) ∧ (∀ sz, a % 64 + sz ≤ 64 → leNat ((b.drop (a % 64)).take sz) = (s.coreWord a sz).toNat) ∧
    s.LineTaken (a / 64 * 64) u ∧ u.MayStore a := by
  have hownable := State.coresOwnable_of_coreOwns hown
  obtain ⟨hreads, -⟩ := id hown
  obtain ⟨dir, lines, hshared, hownable', htaken⟩ := State.homeShared_cores hownable
  obtain ⟨hmem, hin, hfree, -⟩ := State.mayStore_of_coreOwns hown
  refine ⟨_, _, State.coreSector_of_reads hquiet hreads hownable, fun sz hsz => s.leNat_sector hsz, ?_⟩
  rw [hshared]
  exact ⟨htaken, by simpa using hmem, by simpa using hin, by simpa using hfree, hownable'⟩

theorem State.LineTaken.coreX_eq {s u : State} {line : Nat} (h : s.LineTaken line u) (n : Fin 96) (i : Nat) : u.coreX n i = s.coreX n i := by
  rw [State.coreX, State.coreX, State.core, State.core, h.cores_eq]

/-- The key of the memory at a physical address. -/
abbrev State.keyAt (s : State) (pa : Nat) : Nat := (s.region pa).key pa

/-! ## Where an atomic is refused (R400, R401) -/

section
variable {s : State} {n : Fin 96} {pa sz : Nat} (mis acc : Nat)

theorem State.amoTrap_of_misaligned (h : pa % sz ≠ 0) : s.amoTrap pa sz mis acc = some mis := if_pos h

theorem State.amoTrap_of_uncached (h : pa % sz = 0) (hc : coreCached (s.region pa) = false) : s.amoTrap pa sz mis acc = some acc := by
  rw [State.amoTrap, if_neg (not_not.mpr h), if_neg (by simp [hc])]

theorem State.amoTrap_of_cached (h : pa % sz = 0) (hc : coreCached (s.region pa) = true) : s.amoTrap pa sz mis acc = none := by
  rw [State.amoTrap, if_neg (not_not.mpr h), if_pos hc]

end

/-! ## Commands of a core that executes -/

section
variable {s : State} {n : Fin 96} (hon : s.On) (hrun : s.coreRuns n = true)
include hon hrun

theorem State.whileOn_onRun (act : State → State) : s.whileOn (s.onRun n act) = .next (act s) := by
  rw [State.whileOn_on _ hon, State.onRun, if_pos hrun]

theorem exec_coreAmo (op : AmoOp) (rd rs2 : Fin 32) (pa sz : Nat) : exec (.coreAmo n op rd rs2 pa sz) s = .next (coreAmo n op rd rs2 pa sz s) :=
  State.whileOn_onRun hon hrun _

theorem exec_lr (rd : Fin 32) (pa sz : Nat) : exec (.lr n rd pa sz) s = .next (lr n rd pa sz s) := State.whileOn_onRun hon hrun _

theorem exec_sc (rd rs2 : Fin 32) (pa sz : Nat) : exec (.sc n rd rs2 pa sz) s = .next (sc n rd rs2 pa sz s) := State.whileOn_onRun hon hrun _

/-- An atomic whose address is refused takes its exception and does nothing else. -/
theorem exec_atomics_trap {pa sz cs cl : Nat} (hstore : s.amoTrap pa sz Cause.STORE_MISALIGNED Cause.STORE_ACCESS = some cs)
    (hload : s.amoTrap pa sz Cause.LOAD_MISALIGNED Cause.LOAD_ACCESS = some cl) (op : AmoOp) (rd rs2 : Fin 32) :
    exec (.coreAmo n op rd rs2 pa sz) s = .next (s.coreTrap n cs pa) ∧ exec (.lr n rd pa sz) s = .next (s.coreTrap n cl pa) ∧
      exec (.sc n rd rs2 pa sz) s = .next (s.coreTrap n cs pa) := by
  rw [exec_coreAmo hon hrun, exec_lr hon hrun, exec_sc hon hrun, coreAmo, lr, sc, hstore, hload]
  exact ⟨rfl, rfl, rfl⟩

theorem exec_wrs (sto : Bool) : exec (.wrs n sto) s =
    .next (if (s.core n).resv = none then s else s.setCore n { s.core n with waitWrs := some (sto, s.now) }) := State.whileOn_onRun hon hrun _

end

/-! ## An atomic in a line the cores may own (R397, R402) -/

section
variable {s u : State} {n : Fin 96} {pa sz : Nat} {b : List Byte} (hquiet : s.coreQuiet n) (hal : pa % sz = 0) (hc : coreCached (s.region pa) = true)
include hal hc

/-- SC without the reservation of its granule stores nothing and returns 1. -/
theorem sc_unreserved {rd rs2 : Nat} (hresv : (s.core n).resv ≠ some (s.keyAt pa / 128)) :
    sc n rd rs2 pa sz s = (s.setCore n { s.core n with resv := none }).setCoreX n rd 1 := by
  rw [sc, State.amoTrap_of_cached _ _ hal hc]
  exact if_neg hresv

section
variable (hread : s.coreSector n (s.keyAt pa / 64 * 64) = (.data b false, u)) (hx : ∀ i, u.coreX n i = s.coreX n i) {x : BitVec (8 * sz)}
  (hword : leNat ((b.drop (s.keyAt pa % 64)).take sz) = x.toNat)
include hread hword

/-- LR puts the word in its register and reserves the granule. -/
theorem lr_reads (rd : Nat) : lr n rd pa sz s = (u.putLoaded n rd sz x.toNat false).onCore n fun k => { k with resv := some (s.keyAt pa / 128) } := by
  rw [lr, State.amoTrap_of_cached _ _ hal hc]
  simp only [hread, hword]

include hquiet hx

/-- An AMO, or a compare-and-swap that holds, stores its result and returns the old value. -/
theorem coreAmo_stores {op : AmoOp} {rd rs2 : Nat} (hdo : op ≠ .cas ∨ x.toNat = s.regValue n rd sz) (hpos : 0 < sz) {t : State}
    (hwrite : u.coreWrite n (s.keyAt pa) (leBytes sz (amoStored op x (BitVec.ofNat _ (s.regValue n rs2 sz))).toNat) = some t) :
    coreAmo n op rd rs2 pa sz s = t.putLoaded n rd sz x.toNat false := by
  have hy : (BitVec.ofNat (8 * sz) (s.regValue n rs2 sz)).toNat = s.regValue n rs2 sz := Nat.mod_eq_of_lt (s.regValue_lt n rs2)
  rw [coreAmo, State.amoTrap_of_cached _ _ hal hc]
  simp only [State.coreDrain_of_quiet hquiet, State.storesPerformed_of_quiet hquiet, Bool.false_eq_true, if_false, hread, hword,
    State.regValue_congr hx]
  by_cases hcas : op = .cas
  · subst hcas
    have heq : x.toNat = s.regValue n rd sz := hdo.resolve_left (fun h => h rfl)
    rw [amoStored, hy] at hwrite
    simp only [heq, ne_eq, not_true_eq_false, and_false, if_false, if_true, hwrite]
  · rw [← amoResult_eq_amoStored hcas (Nat.mul_pos (by decide) hpos), hy] at hwrite
    simp only [hcas, false_and, if_false, hwrite]

/-- A compare-and-swap that fails stores nothing and returns the old value. -/
theorem coreAmo_compareFails {rd rs2 : Nat} (hne : x.toNat ≠ s.regValue n rd sz) : coreAmo n .cas rd rs2 pa sz s = u.putLoaded n rd sz x.toNat false := by
  rw [coreAmo, State.amoTrap_of_cached _ _ hal hc]
  simp only [State.coreDrain_of_quiet hquiet, State.storesPerformed_of_quiet hquiet, Bool.false_eq_true, if_false, hread, hword,
    State.regValue_congr hx, hne, ne_eq, not_false_eq_true, and_true, if_true]

end

include hquiet

/-- SC on the granule reserved stores, returns 0 and ends the reservation. -/
theorem sc_stores {rd rs2 : Nat} (hresv : (s.core n).resv = some (s.keyAt pa / 128)) {t : State}
    (hwrite : s.coreWrite n (s.keyAt pa) (leBytes sz (s.regValue n rs2 sz)) = some t) :
    sc n rd rs2 pa sz s = (t.onCore n fun k => { k with resv := none }).setCoreX n rd 0 := by
  rw [sc, State.amoTrap_of_cached _ _ hal hc]
  simp only [hresv, if_true, State.coreDrain_of_quiet hquiet, State.storesPerformed_of_quiet hquiet, Bool.false_eq_true, if_false, hwrite]

section
variable (hon : s.On) (hrun : s.coreRuns n = true) (hsz : sz = 4 ∨ sz = 8 ∨ sz = 16) (hin : s.keyAt pa % sz = 0)
  (hown : s.coreOwns n (s.keyAt pa)) (rd rs2 : Fin 32)
include hon hrun hsz hin hown

theorem answers_coreAmo_stores {op : AmoOp} (hdo : op ≠ .cas ∨ (s.coreWord (s.keyAt pa) sz).toNat = s.regValue n rd sz) :
    Answers (.coreAmo n op rd rs2 pa sz) s fun t => s.Loaded t n rd (s.coreWord (s.keyAt pa) sz) ∧
      s.coreWrote t n (s.keyAt pa)
        (leBytes sz (amoStored op (s.coreWord (s.keyAt pa) sz) (BitVec.ofNat _ (s.regValue n rs2 sz))).toNat) := by
  have hfits := mod_sector_add_le hsz hin
  obtain ⟨u, b, hread, hword, htaken, hstore⟩ := State.coreSector_taken hquiet hown
  obtain ⟨t, hwrite, hwrote, hself⟩ := hstore.coreWrite_leBytes n hfits
    (amoStored op (s.coreWord (s.keyAt pa) sz) (BitVec.ofNat _ (s.regValue n rs2 sz))).toNat
  have hx (i : Nat) : t.coreX n i = s.coreX n i := by rw [← htaken.coreX_eq n i, State.coreX, State.coreX, hself]
  exact .of ((exec_coreAmo hon hrun op rd rs2 pa sz).trans
      (congrArg _ (coreAmo_stores hquiet hal hc hread (htaken.coreX_eq n) (hword sz hfits) hdo (by omega) hwrite)))
    ⟨(t.loaded_putLoaded n rd hsz _).congr (fun i => (hx i).symm) fun _ => rfl, State.coreWrote_of_coreOnly (htaken.coreWrote hwrote) (t.putLoaded_coreOnly ..)⟩

theorem answers_cas_compareFails (hne : (s.coreWord (s.keyAt pa) sz).toNat ≠ s.regValue n rd sz) :
    Answers (.coreAmo n .cas rd rs2 pa sz) s fun t => s.Loaded t n rd (s.coreWord (s.keyAt pa) sz) ∧
      t.coreBytes (s.keyAt pa / 64 * 64) = s.coreBytes (s.keyAt pa / 64 * 64) ∧ t.mem.cells = s.mem.cells ∧
      RegsBut [R.HL_BISNP] s t := by
  obtain ⟨u, b, hread, hword, htaken, -⟩ := State.coreSector_taken hquiet hown
  have hx := htaken.coreX_eq n
  obtain ⟨hframe, -⟩ := u.putLoaded_coreOnly n rd sz (s.coreWord (s.keyAt pa) sz).toNat false
  have hloaded := u.loaded_putLoaded n rd hsz (s.coreWord (s.keyAt pa) sz)
  refine .of ((exec_coreAmo hon hrun .cas rd rs2 pa sz).trans
    (congrArg _ (coreAmo_compareFails hquiet hal hc hread hx (hword sz (mod_sector_add_le hsz hin)) hne)))
    ⟨hloaded.congr (fun i => (hx i).symm) fun _ => rfl, ?_⟩
  obtain ⟨hbytes, hcells, -, hregs, -⟩ := htaken
  rw [hframe]
  exact ⟨hbytes, hcells, hregs.trans (.of_regs_eq _ rfl)⟩

theorem answers_lr : Answers (.lr n rd pa sz) s fun t => s.Loaded t n rd (s.coreWord (s.keyAt pa) sz) ∧
    (t.core n).resv = some (s.keyAt pa / 128) ∧ t.mem.cells = s.mem.cells ∧ RegsBut [R.HL_BISNP] s t := by
  obtain ⟨u, b, hread, hword, htaken, -⟩ := State.coreSector_taken hquiet hown
  have hx := htaken.coreX_eq n
  have hloaded := u.loaded_putLoaded n rd hsz (s.coreWord (s.keyAt pa) sz)
  have hput := u.putLoaded_coreOnly n rd sz (s.coreWord (s.keyAt pa) sz).toNat false
  obtain ⟨hframe, -⟩ := hput.trans (State.onCore_coreOnly _ n fun k => { k with resv := some (s.keyAt pa / 128) })
  refine .of ((exec_lr hon hrun rd pa sz).trans (congrArg _ (lr_reads hal hc hread (hword sz (mod_sector_add_le hsz hin)) rd)))
    ⟨hloaded.congr (fun i => (hx i).symm) (State.coreX_setResv _ n _), by simp [State.onCore], ?_⟩
  obtain ⟨-, hcells, -, hregs, -⟩ := htaken
  rw [hframe]
  exact ⟨hcells, hregs.trans (.of_regs_eq _ rfl)⟩

theorem answers_sc_stores (hresv : (s.core n).resv = some (s.keyAt pa / 128)) : Answers (.sc n rd rs2 pa sz) s fun t =>
    s.coreWrote t n (s.keyAt pa) (leBytes sz (BitVec.ofNat (8 * sz) (s.regValue n rs2 sz)).toNat) ∧ t.coreX n rd = 0 ∧
      (t.core n).resv = none := by
  have hy : (BitVec.ofNat (8 * sz) (s.regValue n rs2 sz)).toNat = s.regValue n rs2 sz := Nat.mod_eq_of_lt (s.regValue_lt n rs2)
  obtain ⟨t, hwrite, hwrote, -⟩ := (State.mayStore_of_coreOwns hown).coreWrite_leBytes n (mod_sector_add_le hsz hin)
    (s.regValue n rs2 sz)
  refine .of ((exec_sc hon hrun rd rs2 pa sz).trans (congrArg _ (sc_stores hquiet hal hc hresv hwrite))) ⟨?_, ?_, ?_⟩
  · rw [hy]
    exact State.coreWrote_of_coreOnly hwrote ((t.onCore_coreOnly n _).trans (State.setCoreX_coreOnly ..))
  · rw [State.coreX_setCoreX]
    split
    · rfl
    · rename_i hzero
      rw [show rd.val = 0 by simpa using hzero]
      rfl
  · unfold State.setCoreX
    split <;> simp [State.onCore]

end

end

/-! ## wrs (R397) -/

section
variable {s : State} {n : Fin 96}

theorem wrsTimeout_due {z : Nat} (hw : (s.core n).waitWrs = some (true, z)) (hdue : z + 16000 ≤ s.now) :
    wrsTimeout n s = s.setCore n { s.core n with waitWrs := none } := by
  rw [wrsTimeout, hw]
  exact if_pos hdue

theorem wrsTimeout_early (h : ∀ z, (s.core n).waitWrs = some (true, z) → s.now < z + 16000) : wrsTimeout n s = s := by
  unfold wrsTimeout
  split
  · rename_i z hz
    exact if_neg (Nat.not_le.mpr (h z hz))
  · rfl

end

/-- Settles O40: each atomic by what its address, the reservation and the comparison are; wrs, its end after 1 µs, and an interrupt. -/
theorem coreAtomics : Obligations.CoreAtomics := by
  unfold Obligations.CoreAtomics
  intro s n hon
  refine ⟨fun hrun hquiet op rd rs2 pa sz hsz' => ?_, fun hrun sto => ⟨fun hnone => ?_, fun hsome => ?_⟩, fun m => ⟨fun z hz hdue => ?_, fun hearly => ?_⟩,
    fun hst => ?_, fun _ _ => rfl⟩
  · have hsz : sz = 4 ∨ sz = 8 ∨ sz = 16 := hsz'.imp_right (.imp_right And.left)
    refine ⟨fun hal hc hin hown => ⟨?_, ?_, ?_, ?_⟩, fun hal hc _ hresv => ?_, fun hmis => ?_, fun hal hc => ?_⟩
    · exact answers_coreAmo_stores hquiet hal hc hon hrun hsz hin hown rd rs2
    · rintro rfl hne
      exact answers_cas_compareFails hquiet hal hc hon hrun hsz hin hown rd rs2 hne
    · exact fun _ => answers_lr hquiet hal hc hon hrun hsz hin hown rd
    · exact fun _ hresv => answers_sc_stores hquiet hal hc hon hrun hsz hin hown rd rs2 hresv
    · rw [exec_sc hon hrun, sc_unreserved hal hc hresv]
    · exact exec_atomics_trap hon hrun (State.amoTrap_of_misaligned _ _ hmis) (State.amoTrap_of_misaligned _ _ hmis) op rd rs2
    · exact exec_atomics_trap hon hrun (State.amoTrap_of_uncached _ _ hal hc) (State.amoTrap_of_uncached _ _ hal hc) op rd rs2
  · rw [exec_wrs hon hrun, if_pos hnone]
  · rw [exec_wrs hon hrun, if_neg hsome]
  · exact (State.whileOn_on _ hon).trans (congrArg _ (wrsTimeout_due (s := s.atTime m) hz (hdue.trans (le_max_right _ _))))
  · exact (State.whileOn_on _ hon).trans (congrArg _ (wrsTimeout_early (s := s.atTime m) fun z hz =>
      max_lt ((hearly z hz).2.trans_lt (hearly z hz).1) (hearly z hz).1))
  · exact (State.whileOn_on _ hon).trans (congrArg _ (if_pos hst))

/-! ## A state the statement speaks of -/

/-- Stack 0 and its die are in service, core 0 runs, and core 1 has reserved granule 0. -/
def besideReservation : State where
  regs := [(R.HUB_CD_STATUS 0, 8), (R.HS_STATUS 0, 8), (R.C_STATUS 0, 0)]
  cores := [(0, { x := [(5, 3)] }), (1, { resv := some 0 })]

theorem coreOwns_besideReservation : besideReservation.On ∧ besideReservation.coreRuns 0 = true ∧ besideReservation.coreQuiet 0 ∧
    besideReservation.coreOwns 0 8 := by decide

/-- An AMO of core 0 beside the word core 1 has reserved ends that reservation (R402). -/
theorem answers_coreAmo_besideReservation : Answers (.coreAmo 0 .add 6 5 8 8) besideReservation fun t => (t.core (1 : Fin 96)).resv = none := by
  obtain ⟨hon, hrun, hquiet, hown⟩ := coreOwns_besideReservation
  obtain ⟨hatomic, -⟩ := coreAtomics besideReservation 0 hon
  obtain ⟨hcached, -⟩ := hatomic hrun hquiet .add 6 5 8 8 (.inr (.inl rfl))
  obtain ⟨hamo, -⟩ := hcached (by decide) (by decide) (by decide) hown
  obtain ⟨t, ht, -, -, -, -, -, -, hresv, -⟩ := hamo (.inl (by decide))
  exact .of ht (hresv 1 (by decide) (by decide))

end Sys2Proof.Machine
end

section
/-! The step and the clocks' standstill (00_scope.md, 18_power.md, O1, O4). -/

namespace Sys2Proof.Machine

/-- Settles O1. -/
theorem stepRunsFront : Obligations.StepRunsFront := by
  unfold Obligations.StepRunsFront
  exact ⟨fun _ _ _ => rfl, fun s h => by simp [step, h]⟩

theorem exec_of_off (c : Instr) (s : State) (h : s.off = true) (hc : actsWhileOff c = false) : exec c s = .next s := by
  cases c with
  | entdaa addr => exact congrArg Host.Outcome.next (if_pos (by simp [h]))
  | setdasa static_ addr => exact congrArg Host.Outcome.next (if_pos (by simp [h]))
  | startUp _ _ _ _ | resetN _ _ | railUndervoltage _ _ | sysclkLoss _ | refclkLoss _ _ | powerUp _ | powerDown _ | perstN _ _ _
  | perstNDeassert _ _ | throttleN _ _ | testLogicReset | extest | idcode | sample _ | preload _ | clamp | highz | extestPulse
  | extestTrain | bypass _ => exact absurd hc (by simp [actsWhileOff])
  | _ => exact State.whileOn_off _ h

/-- Settles O4: every other command's meaning runs only while the part does. -/
theorem clocksStill : Obligations.ClocksStill := by
  unfold Obligations.ClocksStill
  exact exec_of_off

end Sys2Proof.Machine
end

section
/-! What the operations at homes and the host link leave of the pins, and the trip (17_host_link.md, 18_power.md, 21_pins.md, O5). -/

namespace Sys2Proof.Machine

/-! ## Operations at homes leave the pins (R312, R315) -/

@[simp] theorem State.count_pins (s : State) (o n : Nat) : (s.count o n).pins = s.pins := by rw [State.count_frame]

@[simp] theorem State.setDir_pins (s : State) (line : Nat) (x : Option DirSt) : (s.setDir line x).pins = s.pins := rfl

@[simp] theorem State.setHeld_pins (s : State) (a : CAgent) (line : Nat) (x : CLine) : (s.setHeld a line x).pins = s.pins := by
  cases a <;> rfl

@[simp] theorem State.dropCopy_pins (s : State) (a : CAgent) (line : Nat) : (s.dropCopy a line).pins = s.pins := by
  cases a <;> rfl

@[simp] theorem State.returnData_pins (s : State) (line : Nat) (data : List Byte) : (s.returnData line data).pins = s.pins := rfl

@[simp] theorem State.homeShare_pins (s : State) (line : Nat) : (s.homeShare line).pins = s.pins := by
  have hcount (a : CAgent) : (if a = .host then s.count R.HL_BISNP 1 else s).pins = s.pins := by split <;> simp
  unfold State.homeShare
  split
  · dsimp only
    split
    · rw [State.setDir_pins, State.setHeld_pins]
      split
      · exact hcount _
      · exact hcount _
    · exact hcount _
  · rfl

@[simp] theorem State.homeInval_pins (s : State) (line : Nat) (keep : Option CAgent) : (s.homeInval line keep).pins = s.pins := by
  unfold State.homeInval
  dsimp only
  refine List.foldlRecOn (motive := fun t : State => t.pins = s.pins) _ _ ?_ fun t ht a _ => by rw [State.dropCopy_pins, ht]
  split <;> simp

@[simp] theorem State.writeIce_pins (s : State) (a mask : Nat) (data : List Byte) (whole : Bool) (cmd : Nat) (poison : Bool) :
    (s.writeIce a mask data whole cmd poison).pins = s.pins := by
  unfold State.writeIce
  dsimp only
  split
  · rfl
  · split <;> rfl

@[simp] theorem State.breakResv_pins (s : State) (line : Nat) (by_ : Option Nat) : (s.breakResv line by_).pins = s.pins := rfl

@[simp] theorem State.acceptAt_pins (s : State) (line mask : Nat) (data : List Byte) (whole : Bool) (cmd : Nat) (poison : Bool) :
    (s.acceptAt line mask data whole cmd poison).pins = s.pins := by
  unfold State.acceptAt
  split
  · simp
  · simp
  · dsimp only
    split
    · rfl
    · split <;> rfl
  · rfl

@[simp] theorem State.acceptWr_pins (s : State) (w : Wr) : (s.acceptWr w).pins = s.pins := s.acceptAt_pins ..

@[simp] theorem State.sendMsg_pins (s : State) (k : MsgKind) (a : Requester) (h : Home) (line txn : Nat) (data : List Byte) (p : Bool) :
    (s.sendMsg k a h line txn data p).pins = s.pins := by
  unfold State.sendMsg
  dsimp only
  split <;> simp

@[simp] theorem State.dropMsg_pins (s : State) (id : Nat) : (s.dropMsg id).pins = s.pins := rfl
@[simp] theorem State.setTxn_pins (s : State) (id : Nat) (g : Txn → Txn) : (s.setTxn id g).pins = s.pins := rfl
@[simp] theorem State.dropTxn_pins (s : State) (id : Nat) : (s.dropTxn id).pins = s.pins := rfl
@[simp] theorem State.dropWr_pins (s : State) (id : Nat) : (s.dropWr id).pins = s.pins := rfl

@[simp] theorem State.finishTxn_pins (s : State) (t : Txn) : (s.finishTxn t).pins = s.pins := by
  unfold State.finishTxn
  split
  · split <;> simp
  · rfl
  · rw [State.setTxn_pins, State.sendMsg_pins]
    split
    · rfl
    · split <;> rfl
    · rfl

@[simp] theorem State.answered_pins (s : State) (tid : Nat) : (s.answered tid).pins = s.pins := by
  unfold State.answered
  split
  · split <;> simp
  · rfl

/-! ## The host's answers and its link leave the pins (R460, R462, R468) -/

@[simp] theorem snpInv_pins (m : Msg) (s : State) : (snpInv m s).pins = s.pins := by
  unfold snpInv
  split <;> simp

@[simp] theorem snpShare_pins (m : Msg) (s : State) : (snpShare m s).pins = s.pins := by
  unfold snpShare
  split
  · split <;> simp
  · simp

@[simp] theorem snpGet_pins (m : Msg) (s : State) : (snpGet m s).pins = s.pins := by
  unfold snpGet
  split
  · split <;> simp
  · simp

@[simp] theorem invAck_pins (m : Msg) (s : State) : (invAck m s).pins = s.pins := by
  unfold invAck
  dsimp only
  split <;> simp

@[simp] theorem snpData_pins (m : Msg) (s : State) : (snpData m s).pins = s.pins := by
  unfold snpData
  dsimp only
  split <;> simp

@[simp] theorem State.snoopDone_pins (s : State) (m : Msg) : (s.snoopDone m).pins = s.pins := by
  unfold State.snoopDone
  split <;> simp

@[simp] theorem biRsp_pins (m : Msg) (s : State) : (biRsp m s).pins = s.pins := by
  have hsnoop : (match m.kind with
      | .snpInv => snpInv m s
      | .snpShare => snpShare m s
      | .snpGet => snpGet m s
      | _ => s).pins = s.pins := by split <;> simp
  unfold biRsp
  dsimp only
  split_ifs
  · rfl
  · simp
  · split
    · rw [State.snoopDone_pins]
      exact hsnoop
    · exact hsnoop
  · rfl

@[simp] theorem State.dropHost_pins (s : State) : s.dropHost.pins = s.pins :=
  List.foldlRecOn (motive := fun t : State => t.pins = s.pins) _ _ rfl fun t ht m _ => (biRsp_pins m t).trans ht

@[simp] theorem State.loseWrite_pins (s : State) (src : Src) (cmd : Nat) (p : Pkg) : (s.loseWrite src cmd p).pins = s.pins := by
  unfold State.loseWrite
  split
  · rfl
  · dsimp only
    split <;> rfl
  · rfl

@[simp] theorem State.lostWr_pins (s : State) (w : Wr) (p : Pkg) : (s.lostWr w p).pins = s.pins := by
  unfold State.lostWr
  split
  · rfl
  · simp

@[simp] theorem State.loseWritesTo_pins (s : State) (p : Wr → Bool) : (s.loseWritesTo p).pins = s.pins :=
  List.foldlRecOn (motive := fun t : State => t.pins = s.pins) _ _ rfl fun t ht w _ => by rw [State.dropWr_pins, State.lostWr_pins, ht]

@[simp] theorem State.windowErrors_pins (s : State) (line : Option Nat) : (s.windowErrors line).pins = s.pins := s.loseWritesTo_pins _

@[simp] theorem State.resetHostRegs_pins (s : State) : s.resetHostRegs.pins = s.pins := rfl

@[simp] theorem State.hostDown_pins (s : State) (dirty : List Nat) : (s.hostDown dirty).pins = s.pins := by
  unfold State.hostDown
  extract_lets n s1 s2 op bind s3 s4
  have h3 : s3.pins = s.pins := (State.windowErrors_pins ..).trans s.dropHost_pins
  have h4 : s4.pins = s.pins := by
    simp only [s4]
    split <;> exact h3
  exact h4

@[simp] theorem State.linkTrained_pins (s : State) (u : HostUp) : (s.linkTrained u).pins = s.pins := by
  unfold State.linkTrained
  split <;> rfl

/-! ## What acts while the part is off keeps the trip (R482, R567) -/

theorem State.tripped_of_pins {s t : State} (h : t.pins = s.pins) (hs : s.tripped) : t.tripped := by
  rw [State.tripped, h]
  exact hs

theorem State.off_of_tripped {s : State} (h : s.tripped) : s.off = true := by
  simp [State.off, h.2]

theorem State.thermtripLow_of_tripped {s : State} (h : s.tripped) : s.thermtripLow = true := by
  simp [State.thermtripLow, h.1, h.2]

theorem State.packageReset_tripped {s : State} (h : s.tripped) : s.packageReset.tripped := h

theorem startUp_tripped {s : State} (h : s.tripped) (v : TrustVerdict) (b : BringUp) (link : Option HostUp) : (startUp v b link s).tripped := by
  have hstay : startUp v b link s = s := if_pos (by simp [h.2])
  rw [hstay]
  exact h

theorem resetN_tripped {s : State} (h : s.tripped) (width : Nat) : (resetN width s).tripped := by
  unfold resetN
  extract_lets x s1 s2
  have h1 : s1.tripped := by
    simp only [s1]
    split <;> exact h
  split <;> exact h1

theorem railUndervoltage_tripped {s : State} (h : s.tripped) (dur : Nat) : (railUndervoltage dur s).tripped := by
  unfold railUndervoltage
  split <;> exact h

theorem sysclkLoss_tripped {s : State} (h : s.tripped) : (sysclkLoss s).tripped := by
  unfold sysclkLoss
  split <;> exact h

theorem refclkLoss_tripped {s : State} (h : s.tripped) (dirty : List Nat) : (refclkLoss dirty s).tripped := by
  unfold refclkLoss
  split
  · exact State.tripped_of_pins (s.hostDown_pins dirty) h
  · exact h

theorem powerDown_pins (s : State) : (powerDown s).pins = { throttle := s.pins.throttle, powered := false } := rfl

theorem powerUp_tripped {s : State} (h : s.tripped) : (powerUp s).tripped := by
  rw [powerUp, if_pos h.1]
  exact h

theorem perstN_tripped {s : State} (h : s.tripped) (k : LinkDown) (dirty : List Nat) : (perstN k dirty s).tripped := by
  cases k with
  | linkDown => exact refclkLoss_tripped h dirty
  | busReset => exact refclkLoss_tripped (s := { s with host := { s.host with lostHold := false } }) h dirty
  | perst =>
    exact refclkLoss_tripped (s := { s with pins := { s.pins with perstLow := true }, host := { s.host with lostHold := false } }) h dirty

theorem perstDeassert_tripped {s : State} (h : s.tripped) (u : HostUp) : (perstDeassert u s).tripped := by
  unfold perstDeassert
  dsimp only
  split
  · exact h
  · exact State.tripped_of_pins (State.linkTrained_pins _ u) h

theorem testLoad_tripped {s : State} (h : s.tripped) (ir : BitVec 8) (drive : TestDrive) : (testLoad ir drive s).tripped := by
  unfold testLoad
  split_ifs <;> exact h

/-! ## The throttle pin (R475, R544) -/

@[simp] theorem State.askClock_pins (s : State) (dom : Nat) : (s.askClock dom).pins = s.pins := by
  unfold State.askClock State.showPending
  dsimp only
  split_ifs <;> rfl

@[simp] theorem State.setGrant_pins (s : State) (d f : Nat) : (s.setGrant d f).pins = s.pins := by
  unfold State.setGrant
  split <;> simp

theorem PowerOnly.pins {l : List Nat} {s t : State} (h : PowerOnly l s t) : t.pins = s.pins := by rw [h.frame]

theorem throttleN_tripped {s : State} (h : s.tripped) (l : Level) : (throttleN l s).tripped := by
  unfold throttleN
  dsimp only
  split
  · exact List.foldlRecOn (motive := State.tripped) _ _ h fun t ht d _ => State.tripped_of_pins (t.setGrant_pins ..) ht
  · exact h

theorem State.powerStep_tripped {s : State} {act : State → State} (h : s.tripped) (hact : ∀ u : State, u.tripped → (act u).tripped) (t : Moment) :
    (s.powerStep t act).tripped :=
  State.tripped_of_pins (State.trShow_powerOnly _).pins (hact _ (State.tripped_of_pins (State.trAccrue_powerOnly _).pins h))

/-- A command that reads the test register beside selecting it keeps the trip. -/
theorem testRead_tripped {s t u : State} (ht : t.tripped) (hu : u.tripped) : (if s.pins.powered then u else t).tripped := by
  split
  · exact hu
  · exact ht

/-- No command but the removal of the supplies ends the trip: those that act on a part that is off keep it, and no other does anything. -/
theorem exec_tripped {c : Instr} {s t : State} (h : s.tripped) (hc : ∀ m, c ≠ .powerDown m) (hexec : exec c s = .next t) : t.tripped := by
  cases hact : actsWhileOff c with
  | false =>
    rw [exec_of_off c s (State.off_of_tripped h) hact] at hexec
    cases hexec
    exact h
  | true =>
    have hat (m : Moment) : (s.atTime m).tripped := h
    cases c with
    | startUp m v b link => exact Host.Outcome.next.inj hexec ▸ startUp_tripped (hat m) v b link
    | resetN m width => exact Host.Outcome.next.inj hexec ▸ resetN_tripped (hat m) width
    | railUndervoltage m dur => exact Host.Outcome.next.inj hexec ▸ railUndervoltage_tripped (hat m) dur
    | sysclkLoss m => exact Host.Outcome.next.inj hexec ▸ sysclkLoss_tripped (hat m)
    | refclkLoss m dirty => exact Host.Outcome.next.inj hexec ▸ refclkLoss_tripped (hat m) dirty
    | powerUp m => exact Host.Outcome.next.inj hexec ▸ powerUp_tripped (hat m)
    | powerDown m => exact absurd rfl (hc m)
    | perstN m k dirty => exact Host.Outcome.next.inj hexec ▸ perstN_tripped (hat m) k dirty
    | perstNDeassert m u => exact Host.Outcome.next.inj hexec ▸ perstDeassert_tripped (hat m) u
    | throttleN m l => exact Host.Outcome.next.inj hexec ▸ State.powerStep_tripped h (fun u hu => throttleN_tripped hu l) m
    | testLogicReset | extest | clamp | highz | extestPulse | extestTrain | bypass code =>
      exact Host.Outcome.next.inj hexec ▸ testLoad_tripped h _ _
    | idcode | sample cells | preload cells =>
      have ht := testLoad_tripped h
      exact Host.Outcome.next.inj hexec ▸ testRead_tripped (ht _ _) (ht _ _)
    | _ => exact absurd hact Bool.false_ne_true

/-- Settles O5: a step carries out its front command, which keeps the trip; the removal of the supplies resets the pins. -/
theorem tripHolds : Obligations.TripHolds := by
  unfold Obligations.TripHolds
  refine ⟨fun s t hs hhead hstep => ?_, fun s m => ⟨powerDown (s.atTime m), rfl, by rw [powerDown_pins], ?_⟩⟩
  swap
  · rw [State.thermtripLow, powerDown_pins]
    rfl
  have ht : t.tripped := by
    cases hq : s.pending with
    | nil =>
      rw [step, hq] at hstep
      cases hstep
      exact hs
    | cons c r =>
      have hexec : exec c { s with pending := r } = .next t := by rwa [step, hq] at hstep
      have hrest : State.tripped { s with pending := r } := hs
      refine exec_tripped hrest (fun m hm => hhead m ?_) hexec
      rw [hq, hm]
      rfl
  exact ⟨ht, State.off_of_tripped ht, State.thermtripLow_of_tripped ht⟩

end Sys2Proof.Machine
end

section
/-! The fault queue (19_faults.md, O11, O12). -/

namespace Sys2Proof.Machine

/-! ## FQ_STATUS shows the queue (R524) -/

theorem RegsBut.fqShow {l : List Nat} {s t : State} (h : RegsBut l s t) (hl : R.FQ_STATUS ∈ l) : RegsBut l s t.fqShow :=
  (h.setFld _ _ hl).setFld _ _ hl

/-- OVF and POP_MISS are not COUNT or MIN_SEV. -/
theorem State.fld_fqShow (s : State) {f : Fld} (h : 16 ≤ f.lo) : s.fqShow.fld R.FQ_STATUS f = s.fld R.FQ_STATUS f := by
  have hmin : F.FQ_STATUS.MIN_SEV.hi < f.lo := h
  have hcount : F.FQ_STATUS.COUNT.hi < f.lo := Nat.lt_of_lt_of_le (by decide) h
  rw [State.fqShow, State.fld_setFld_of_disjoint _ _ _ _ _ (by decide) (.inr hmin),
    State.fld_setFld_of_disjoint _ _ _ _ _ (by decide) (.inr hcount)]

/-- The state with another queue. -/
def State.withQueue (s : State) (q : List FaultRec) : State := { s with faults := { s.faults with queue := q } }

theorem State.regs_withQueue (s : State) (q : List FaultRec) : (s.withQueue q).regs = s.regs := rfl
@[simp] theorem State.reg_withQueue (s : State) (q : List FaultRec) (o : Nat) : (s.withQueue q).reg o = s.reg o := rfl
@[simp] theorem State.withQueue_faults (s : State) (q : List FaultRec) : (s.withQueue q).faults = { s.faults with queue := q } := rfl
@[simp] theorem State.fqShow_faults (s : State) : s.fqShow.faults = s.faults := rfl

/-! ## The removal of the head (R514) -/

theorem fqPopAct_of_head {s : State} {v : Word} {r : FaultRec} {rest : List FaultRec} (hq : s.faults.queue = r :: rest)
    (hr : r.seq = v.get 47 0) : fqPopAct v s = (s.withQueue rest).fqShow := by
  rw [fqPopAct, hq]
  exact if_pos hr

theorem fqPopAct_of_miss {s : State} {v : Word} (h : ∀ r ∈ s.faults.queue.head?, r.seq ≠ v.get 47 0) :
    fqPopAct v s = s.setFld R.FQ_STATUS F.FQ_STATUS.POP_MISS 1 := by
  unfold fqPopAct
  cases hq : s.faults.queue with
  | nil => rfl
  | cons r rest => exact if_neg (h r (by rw [hq]; rfl))

/-- Settles O12. -/
theorem faultQueuePop : Obligations.FaultQueuePop := by
  unfold Obligations.FaultQueuePop
  intro s w v hon hw
  have hexec : exec (.fqPop w) s = .next (fqPopAct v s) := State.whileOn_write fqPopAct hon hw
  have hl : R.FQ_STATUS ∈ [R.FQ_STATUS] := List.mem_singleton_self _
  constructor
  · intro r rest hq hr
    rw [fqPopAct_of_head hq hr] at hexec
    exact .of hexec ⟨rfl, State.fld_fqShow _ (by decide), rfl, ((RegsBut.refl [R.FQ_STATUS] s).of_regs (s.regs_withQueue rest)).fqShow hl⟩
  · intro hmiss
    rw [fqPopAct_of_miss hmiss] at hexec
    exact .of hexec ⟨rfl, State.fld_setFld _ _ _ _ (by decide), rfl, (RegsBut.refl _ s).setFld _ _ hl⟩

/-! ## Life counters (R519) -/

theorem RegsBut.life {l : List Nat} {s t : State} {i : Nat} (n : Nat) (h : RegsBut l s t) (hi : R.COLO_LIFE i ∈ l) (hsat : R.COLO_LIFE_SAT ∈ l) :
    RegsBut l s (t.life i n) := by
  unfold State.life
  extract_lets c s1
  have h1 := h.setReg 0xFFFFFFFFFFFFFFFF#64 hi
  split_ifs
  · exact h.setReg _ hi
  · exact h1
  · exact (h1.setReg _ hsat).raise _

theorem State.reg_life_of_ne (s : State) {i o : Nat} (n : Nat) (hi : o ≠ R.COLO_LIFE i) (hsat : o ≠ R.COLO_LIFE_SAT) :
    (s.life i n).reg o = s.reg o :=
  ((RegsBut.refl [R.COLO_LIFE i, R.COLO_LIFE_SAT] s).life n (by simp) (by simp)) o (by simp [hi, hsat])

theorem State.reg_life_self (s : State) (i n : Nat) :
    ((s.life i n).reg (R.COLO_LIFE i)).toNat = min (2 ^ 64 - 1) ((s.reg (R.COLO_LIFE i)).toNat + n) := by
  have hne : R.COLO_LIFE i ≠ R.COLO_LIFE_SAT := by simp only [R.COLO_LIFE, R.COLO_LIFE_SAT]; omega
  unfold State.life
  extract_lets c s1
  have h1 : 2 ^ 64 - 1 ≤ c → (s1.reg (R.COLO_LIFE i)).toNat = min (2 ^ 64 - 1) c := fun hc => by
    rw [State.reg_setReg, Nat.min_eq_left hc]
    rfl
  split_ifs with hlt
  · rw [State.reg_setReg, BitVec.toNat_ofNat]
    omega
  · exact h1 (by omega)
  · rw [State.reg_raise, State.reg_setReg_of_ne _ _ hne]
    exact h1 (by omega)

theorem State.life_faults (s : State) (i n : Nat) : (s.life i n).faults = { s.faults with raised := (s.life i n).faults.raised } := by
  unfold State.life
  extract_lets c s1
  split_ifs <;> rfl

theorem State.count_faults (s : State) (o n : Nat) : (s.count o n).faults = { s.faults with raised := (s.count o n).faults.raised } := by
  unfold State.count
  extract_lets c s1 s2
  split_ifs <;> rfl

/-! ## A record on its way to the queue (R509, R510, R511, R519, R465) -/

/-- What the fault path may change: registers, the fault path's own state and the colophon. -/
def FaultPathOnly (s t : State) : Prop := t = { s with regs := t.regs, faults := t.faults, colo := t.colo }

theorem FaultPathOnly.trans {s t u : State} (h : FaultPathOnly s t) (h' : FaultPathOnly t u) : FaultPathOnly s u := by
  rw [FaultPathOnly, h', h]

theorem State.life_faultPathOnly (s : State) (i n : Nat) : FaultPathOnly s (s.life i n) := by
  rw [s.life_frame i n, FaultPathOnly]

theorem State.count_faultPathOnly (s : State) (o n : Nat) : FaultPathOnly s (s.count o n) := by
  rw [s.count_frame o n, FaultPathOnly]

theorem State.withQueue_faultPathOnly (s : State) (q : List FaultRec) : FaultPathOnly s (s.withQueue q) := rfl

theorem State.fqShow_faultPathOnly (s : State) : FaultPathOnly s s.fqShow := rfl

/-- The record taken from those raised, the next SEQ moved on. -/
def State.recordTaken (s : State) (rest : List FaultRec) : State :=
  State.setReg { s with faults := { s.faults with raised := rest, nextSeq := (s.faults.nextSeq + 1) % 2 ^ 48 } } R.FQ_NEXT_SEQ
    (BitVec.ofNat 64 ((s.faults.nextSeq + 1) % 2 ^ 48))

theorem State.hostEvent_regs (s : State) (r : FaultRec) : (s.hostEvent r).regs = s.regs := by
  unfold State.hostEvent
  dsimp only
  split <;> rfl

theorem State.hostEvent_faultPathOnly (s : State) (r : FaultRec) : FaultPathOnly s (s.hostEvent r) := by
  unfold State.hostEvent
  dsimp only
  split <;> rfl

theorem State.hostEvent_queue (s : State) (r : FaultRec) :
    (s.hostEvent r).faults.queue = s.faults.queue ∧ (s.hostEvent r).faults.nextSeq = s.faults.nextSeq := by
  unfold State.hostEvent
  dsimp only
  split <;> exact ⟨rfl, rfl⟩

/-- A record is in its host log, or the log shows overflow. -/
def FaultSt.Offered (f : FaultSt) (r : FaultRec) : Prop := (eventLog r.sev, r) ∈ f.hostLogs ∨ eventLog r.sev ∈ f.hostOvf

theorem State.hostEvent_offered (s : State) (r : FaultRec) : (s.hostEvent r).faults.Offered r := by
  unfold State.hostEvent FaultSt.Offered
  dsimp only
  split
  · exact .inl (by simp)
  · right
    dsimp only
    split
    · rename_i hovf
      simpa using hovf
    · simp

/-- The record with its SEQ offered to the host and told to the colophon: what the queue then takes it from. -/
def State.recordNoted (s : State) (r : FaultRec) (rest : List FaultRec) : State :=
  ((s.recordTaken rest).hostEvent { r with seq := s.faults.nextSeq }).coloRecord { r with seq := s.faults.nextSeq }

theorem faultAccept_of_picked {s : State} {r : FaultRec} {rest : List FaultRec} (h : pickRaised s.faults.raised = some (r, rest)) :
    faultAccept s = ((s.recordNoted r rest).fqPut { r with seq := s.faults.nextSeq }).fqShow := by
  rw [faultAccept, h]
  rfl

section
variable (s : State) (r : FaultRec) (rest : List FaultRec)

theorem State.recordNoted_faultPathOnly : FaultPathOnly s (s.recordNoted r rest) := by
  have htaken : FaultPathOnly s (s.recordTaken rest) := rfl
  have hcolo (t : State) (x : FaultRec) : FaultPathOnly t (t.coloRecord x) := (t.life_faultPathOnly (6 + x.sev) 1).trans rfl
  exact (htaken.trans (State.hostEvent_faultPathOnly _ _)).trans (hcolo _ _)

theorem State.recordNoted_faults :
    (s.recordNoted r rest).faults.queue = s.faults.queue ∧ (s.recordNoted r rest).faults.nextSeq = (s.faults.nextSeq + 1) % 2 ^ 48 ∧
      (s.recordNoted r rest).faults.Offered { r with seq := s.faults.nextSeq } := by
  have hhost := State.hostEvent_queue (s.recordTaken rest) { r with seq := s.faults.nextSeq }
  have hoffered := State.hostEvent_offered (s.recordTaken rest) { r with seq := s.faults.nextSeq }
  have hlife : (s.recordNoted r rest).faults = _ := State.life_faults ((s.recordTaken rest).hostEvent { r with seq := s.faults.nextSeq }) (6 + r.sev) 1
  rw [hlife]
  exact ⟨hhost.1, hhost.2, hoffered⟩

/-- Of the registers, FQ_NEXT_SEQ and the life counters of the severity have changed. -/
theorem State.reg_recordNoted {o : Nat} (hseq : o ≠ R.FQ_NEXT_SEQ) (hlife : o ≠ R.COLO_LIFE (6 + r.sev)) (hsat : o ≠ R.COLO_LIFE_SAT) :
    (s.recordNoted r rest).reg o = s.reg o :=
  calc (s.recordNoted r rest).reg o
    _ = ((s.recordTaken rest).hostEvent { r with seq := s.faults.nextSeq }).reg o := State.reg_life_of_ne _ 1 hlife hsat
    _ = (s.recordTaken rest).reg o := State.reg_of_regs_eq (State.hostEvent_regs ..) o
    _ = s.reg o := State.reg_setReg_of_ne _ _ hseq

theorem State.life_recordNoted :
    ((s.recordNoted r rest).reg (R.COLO_LIFE (6 + r.sev))).toNat = min (2 ^ 64 - 1) ((s.reg (R.COLO_LIFE (6 + r.sev))).toNat + 1) := by
  have hne : R.COLO_LIFE (6 + r.sev) ≠ R.FQ_NEXT_SEQ := by simp only [R.COLO_LIFE, R.FQ_NEXT_SEQ]; omega
  have hreg : ((s.recordTaken rest).hostEvent { r with seq := s.faults.nextSeq }).reg (R.COLO_LIFE (6 + r.sev)) = s.reg (R.COLO_LIFE (6 + r.sev)) :=
    (State.reg_of_regs_eq (State.hostEvent_regs ..) _).trans (State.reg_setReg_of_ne _ _ hne)
  exact hreg ▸ State.reg_life_self ((s.recordTaken rest).hostEvent { r with seq := s.faults.nextSeq }) (6 + r.sev) 1

end

/-! ## At the queue (R509, R511) -/

/-- The queue after a record at a full queue: dropped, or in the place of the oldest of the lowest severity (R511). -/
def fullQueueAfter (q : List FaultRec) (r : FaultRec) : List FaultRec :=
  if r.sev ≠ Sev.CRITICAL ∧ r.sev ≤ minSev q then q else dropOldest (minSev q) q ++ [r]

theorem State.fqPut_of_room {s : State} (r : FaultRec) (h : s.faults.queue.length < 4096) :
    s.fqPut r = s.withQueue (s.faults.queue ++ [r]) := if_pos h

theorem State.fqPut_of_full {s : State} {r : FaultRec} (h : 4096 ≤ s.faults.queue.length) (hr : r.sev ≤ 4) :
    s.fqPut r = (s.withQueue (fullQueueAfter s.faults.queue r)).fqDrop := by
  have hsev : r.sev < Sev.CRITICAL ↔ r.sev ≠ Sev.CRITICAL := by simp only [Sev.CRITICAL]; omega
  unfold State.fqPut
  extract_lets q
  rw [if_neg (Nat.not_lt.mpr h), fullQueueAfter]
  by_cases hdrop : r.sev ≠ Sev.CRITICAL ∧ r.sev ≤ minSev q
  · rw [if_pos hdrop, if_pos ⟨hsev.mpr hdrop.1, hdrop.2⟩]
    rfl
  · rw [if_neg hdrop, if_neg (by rwa [hsev])]
    rfl

section
variable (s : State)

theorem State.fqDrop_faultPathOnly : FaultPathOnly s s.fqDrop :=
  ((s.count_faultPathOnly R.FQ_DROPPED 1).trans (u := (s.count R.FQ_DROPPED 1).setFld R.FQ_STATUS F.FQ_STATUS.OVF 1) rfl).trans
    (State.life_faultPathOnly _ 11 1)

theorem State.fqDrop_faults : s.fqDrop.faults = { s.faults with raised := s.fqDrop.faults.raised } := by
  have hlife : s.fqDrop.faults = _ := State.life_faults ((s.count R.FQ_DROPPED 1).setFld R.FQ_STATUS F.FQ_STATUS.OVF 1) 11 1
  rw [hlife, State.setFld_faults, State.count_faults]

theorem State.fld_fqDrop_dropped : s.fqDrop.fld R.FQ_DROPPED F.CTR.COUNT = (s.fld R.FQ_DROPPED F.CTR.COUNT + 1) % 2 ^ 48 := by
  rw [State.fqDrop, State.fld_life _ _ _ _ (by decide), State.fld_setFld_of_ne _ _ _ _ (by decide), State.fld_count]

theorem State.fld_fqDrop_ovf : s.fqDrop.fld R.FQ_STATUS F.FQ_STATUS.OVF = 1 := by
  rw [State.fqDrop, State.fld_life _ _ _ _ (by decide), State.fld_setFld _ _ _ _ (by decide)]
  rfl

theorem State.reg_fqDrop {o : Nat} (h : R.COLO_LIFE_SAT < o) (hne : o ≠ R.COLO_LIFE 11) : s.fqDrop.reg o = s.reg o := by
  have hd : o ≠ R.FQ_DROPPED := Nat.ne_of_gt (Nat.lt_trans (by decide) h)
  have hst : o ≠ R.FQ_STATUS := Nat.ne_of_gt (Nat.lt_trans (by decide) h)
  rw [State.fqDrop, State.reg_life_of_ne _ _ hne (Nat.ne_of_gt h), State.reg_setFld_of_ne _ _ _ hst]
  exact (RegsBut.refl [R.FQ_DROPPED] s).count 1 (List.mem_singleton_self _) o (by simpa using hd)

theorem State.life_fqDrop : (s.fqDrop.reg (R.COLO_LIFE 11)).toNat = min (2 ^ 64 - 1) ((s.reg (R.COLO_LIFE 11)).toNat + 1) := by
  have hreg : ((s.count R.FQ_DROPPED 1).setFld R.FQ_STATUS F.FQ_STATUS.OVF 1).reg (R.COLO_LIFE 11) = s.reg (R.COLO_LIFE 11) := by
    rw [State.reg_setFld_of_ne _ _ _ (by decide)]
    exact (RegsBut.refl [R.FQ_DROPPED] s).count 1 (List.mem_singleton_self _) _ (by decide)
  exact hreg ▸ State.reg_life_self ((s.count R.FQ_DROPPED 1).setFld R.FQ_STATUS F.FQ_STATUS.OVF 1) 11 1

end

theorem State.reg_fqShow (s : State) {o : Nat} (h : o ≠ R.FQ_STATUS) : s.fqShow.reg o = s.reg o :=
  (RegsBut.refl [R.FQ_STATUS] s).fqShow (List.mem_singleton_self _) o (by simpa using h)

/-- Settles O11: the record is noted, and the queue then has room for it or is full. -/
theorem faultQueueAccept : Obligations.FaultQueueAccept := by
  unfold Obligations.FaultQueueAccept
  intro s r rest hon hpick hsev q r'
  have hexec : exec .faultRecordAccept s = .next (faultAccept s) := State.whileOn_on _ hon
  rw [faultAccept_of_picked hpick] at hexec
  obtain ⟨hqueue, hnext, hoffered⟩ := s.recordNoted_faults r rest
  have hnoted := s.recordNoted_faultPathOnly r rest
  constructor
  · intro hroom
    rw [State.fqPut_of_room _ (hqueue.symm ▸ hroom), hqueue] at hexec
    exact .of hexec ⟨rfl, hnext, hnoted.trans ((State.withQueue_faultPathOnly _ _).trans (State.fqShow_faultPathOnly _))⟩
  · intro hfull
    rw [State.fqPut_of_full (r := { r with seq := s.faults.nextSeq }) (by rw [hqueue]; exact hfull) hsev, hqueue] at hexec
    refine .of hexec ⟨?_, ?_, ?_, ?_, ?_, ?_, ?_⟩
    · rw [State.fqShow_faults, State.fqDrop_faults, State.withQueue_faults]
      rfl
    · have hreg := s.reg_recordNoted r rest (o := R.FQ_DROPPED) (by decide) (by simp only [R.FQ_DROPPED, R.COLO_LIFE]; omega) (by decide)
      rw [State.fld, State.reg_fqShow _ (by decide), ← State.fld, State.fld_fqDrop_dropped, State.fld, State.reg_withQueue, hreg, State.fld]
    · rw [State.fld_fqShow _ (by decide)]
      exact State.fld_fqDrop_ovf _
    · have hreg := s.reg_recordNoted r rest (o := R.COLO_LIFE 11) (by decide) (by simp only [R.COLO_LIFE]; omega) (by decide)
      rw [State.reg_fqShow _ (by decide), State.life_fqDrop, State.reg_withQueue, hreg]
    · rw [State.reg_fqShow _ (by simp only [R.COLO_LIFE, R.FQ_STATUS]; omega),
        State.reg_fqDrop _ (by simp only [R.COLO_LIFE, R.COLO_LIFE_SAT]; omega) (by simp only [R.COLO_LIFE]; omega), State.reg_withQueue]
      exact s.life_recordNoted r rest
    · rw [State.fqShow_faults, State.fqDrop_faults, State.withQueue_faults]
      exact hoffered
    · exact hnoted.trans ((State.withQueue_faultPathOnly _ _).trans ((State.fqDrop_faultPathOnly _).trans (State.fqShow_faultPathOnly _)))

end Sys2Proof.Machine
end

section
/-! The counter snapshot and the colophon's checkpoints (19_faults.md, 20_binding.md, O13). -/

namespace Sys2Proof.Machine

/-! ## The snapshot (R517) -/

/-- Every counter reads zero at reset. -/
theorem resetWord_of_isCounter {o : Nat} (h : isCounter o = true) : resetWord o = 0 := by
  rw [isCounter, Bool.or_eq_true, beq_iff_eq, beq_iff_eq] at h
  rcases h with rfl | h
  · decide
  · have hne : o ≠ 0x97FF8 := by
      rintro rfl
      exact absurd h (by decide)
    rw [resetWord, if_neg hne, h]
    rfl

theorem Sparse.get_eq_find_getD {α : Type} (d : α) (k : Nat) (l : List (Nat × α)) :
    Sparse.get d k l = (Sparse.find k l).getD d := by
  induction l with
  | nil => rfl
  | cons x l ih =>
    rw [Sparse.get, Sparse.find]
    split
    · rfl
    · exact ih

/-- The counters latched read what they counted. -/
theorem State.get_counters (s : State) {o : Nat} (h : isCounter o = true) :
    Sparse.get 0 o (s.regs.filter fun p => isCounter p.1) = s.reg o := by
  rw [Sparse.get_filter_of_kept 0 h, Sparse.get_eq_find_getD, State.reg]
  cases Sparse.find o s.regs with
  | none => exact (resetWord_of_isCounter h).symm
  | some w => rfl

/-- Every counter latched, with the span time. -/
def State.snapshot (s : State) : State :=
  State.setReg { s with faults := { s.faults with snap := s.regs.filter (fun p => isCounter p.1), snapTaken := true } } R.CNT_SNAP_AT s.spanNow

theorem takeAct_of_take {s : State} {v : Word} (h : v.bit 0 = true) : takeAct v s = s.trAccrue.snapshot := if_pos h

/-! ## A checkpoint (R522, R549) -/

theorem State.powerOnUp_faultPathOnly (s : State) : FaultPathOnly s s.powerOnUp := by
  unfold State.powerOnUp
  extract_lets n
  split
  · rfl
  · exact (s.life_faultPathOnly 0 n).trans rfl

theorem State.life_colo (s : State) (i n : Nat) : (s.life i n).colo = s.colo := by rw [State.life_frame]

/-- What POWER_ON_S brought up to now and the count of checkpoints leave of the banks. -/
theorem State.powerOnUp_colo (s : State) : s.powerOnUp.colo = { s.colo with powerAt := s.powerOnUp.colo.powerAt } := by
  unfold State.powerOnUp
  dsimp only
  split
  · rfl
  · rw [State.life_colo]

/-- A checkpoint that is written: the bank whose turn it was has it, the other is as it was, and the turn is the other's. -/
structure CheckpointWrote (s t : State) (closing : Bool) : Prop where
  bank0 : s.colo.nextBank = 0 → t.colo.nextBank = 1 ∧ t.colo.bank1 = s.colo.bank1 ∧ t.colo.bank0.map (·.closing) = some closing
  bank1 : s.colo.nextBank ≠ 0 → t.colo.nextBank = 0 ∧ t.colo.bank0 = s.colo.bank0 ∧ t.colo.bank1.map (·.closing) = some closing
  frame : t = { s with regs := t.regs, colo := t.colo, faults := t.faults }
  closed : closing = true → t.colo.closed = true

theorem State.writeCheckpoint_wrote {s : State} (h : s.bind.spFailed = false) (closing : Bool) :
    CheckpointWrote s (s.writeCheckpoint closing false) closing := by
  unfold State.writeCheckpoint
  rw [if_neg (by simp [h]), if_neg Bool.false_ne_true]
  extract_lets s1 k c c1
  have hc : c = { s.colo with powerAt := s.powerOnUp.colo.powerAt } := (State.life_colo ..).trans s.powerOnUp_colo
  have hframe : FaultPathOnly s s1 := s.powerOnUp_faultPathOnly.trans (State.life_faultPathOnly _ 23 1)
  have hk : k.closing = closing := rfl
  refine ⟨fun hbank => ?_, fun hbank => ?_, hframe.trans rfl, fun hclosing => ?_⟩
  · have hc1 : c1 = { c with bank0 := some k, slot0 := (c.slot0 + 1) % 512, nextBank := 1 } := if_pos (by rw [hc]; exact hbank)
    exact ⟨by rw [hc1], by rw [hc1, hc], by rw [hc1]; exact congrArg some hk⟩
  · have hc1 : c1 = { c with bank1 := some k, slot1 := (c.slot1 + 1) % 512, nextBank := 0 } := if_neg (by rw [hc]; exact hbank)
    exact ⟨by rw [hc1], by rw [hc1, hc], by rw [hc1]; exact congrArg some hk⟩
  · rw [hclosing, Bool.or_true]

/-- What a checkpoint that fails leaves and shows. -/
structure CheckpointFailed (s t : State) : Prop where
  bank0 : t.colo.bank0 = s.colo.bank0
  bank1 : t.colo.bank1 = s.colo.bank1
  shown : t.fld R.COLO_STATUS F.COLO_STATUS.WRITE_FAIL = 1
  recorded : t.lastRaised.map (·.status) = some St.COLO_WRITE_FAIL
  frame : t = { s with regs := t.regs, colo := t.colo, faults := t.faults }

theorem State.writeCheckpoint_failed {s : State} (h : s.bind.spFailed = false) (closing : Bool) :
    CheckpointFailed s (s.writeCheckpoint closing true) := by
  unfold State.writeCheckpoint
  rw [if_neg (by simp [h]), if_pos rfl]
  exact ⟨rfl, rfl, State.fld_setFld s _ _ _ (by decide), by simp, rfl⟩

theorem State.writeCheckpoint_of_spFailed {s : State} (h : s.bind.spFailed = true) (closing fails : Bool) : s.writeCheckpoint closing fails = s :=
  if_pos h

/-- A checkpoint the timer has written is noted with the moment. -/
def State.timerNoted (u s : State) : State := { u with colo := { u.colo with lastAt := s.now, urgentAt := none } }

theorem coloTimer_of_due {s : State} {fails : Bool} (h : s.coloPeriodDue = true) :
    coloTimer fails s = (s.writeCheckpoint false fails).timerNoted s := if_pos h

section
variable {s : State} {w : RegW} {v : Word} (hon : s.On) (hw : s.Writes w R.COLO_CTL v)
include hon hw

theorem exec_checkpoint (hv : v.bit 0 = true) (fails : Bool) : exec (.checkpoint w fails) s = .next (s.writeCheckpoint false fails) :=
  (State.whileOn_write (checkpointAct fails) hon hw).trans (congrArg _ (if_pos hv))

theorem exec_close (hv : v.bit 1 = true) (fails : Bool) : exec (.close w fails) s = .next (s.writeCheckpoint true fails) :=
  (State.whileOn_write (closeAct fails) hon hw).trans (congrArg _ (if_pos hv))

end

/-- Settles O13. -/
theorem snapshotAndCheckpoints : Obligations.SnapshotAndCheckpoints := by
  unfold Obligations.SnapshotAndCheckpoints
  intro s w v hon wrote failed
  have hwrote {u t : State} {closing : Bool} (h : CheckpointWrote u t closing) : wrote u t closing := ⟨h.bank0, h.bank1, h.frame⟩
  have hfailed {t : State} (h : CheckpointFailed s t) : failed s t := ⟨h.bank0, h.bank1, h.shown, h.recorded, h.frame⟩
  refine ⟨fun hw hv hregs => ?_, fun hsp hw hv => ⟨?_, ?_⟩, fun hsp hw hv => ⟨?_, ?_⟩, fun m hsp hdue => ?_, fun hsp hw => ⟨?_, ?_⟩⟩
  · have hexec : exec (.take w) s = .next s.trAccrue.snapshot := (State.whileOn_write takeAct hon hw).trans (congrArg _ (takeAct_of_take hv))
    have hreg (o : Nat) : s.trAccrue.reg o = s.reg o := State.reg_of_regs_eq hregs o
    refine .of hexec ⟨?_, fun o ho => (State.get_counters _ ho).trans (hreg o), ?_⟩
    · exact (State.reg_setReg ..).trans s.trAccrue_powerOnly.spanNow
    · exact ((RegsBut.refl _ s).of_regs hregs).setReg _ (List.mem_singleton_self _)
  · exact .of (exec_checkpoint hon hw hv false) (hwrote (State.writeCheckpoint_wrote hsp false))
  · exact .of (exec_checkpoint hon hw hv true) (hfailed (State.writeCheckpoint_failed hsp false))
  · have h := State.writeCheckpoint_wrote hsp true
    exact .of (exec_close hon hw hv false) ⟨hwrote h, h.closed rfl⟩
  · exact .of (exec_close hon hw hv true) (hfailed (State.writeCheckpoint_failed hsp true))
  · have h := State.writeCheckpoint_wrote (s := s.atTime m) hsp false
    have hexec : exec (.coloCheckpointTimer m false) s = .next (coloTimer false (s.atTime m)) := State.whileOn_on _ hon
    rw [coloTimer_of_due hdue] at hexec
    exact .of hexec ⟨⟨h.bank0, h.bank1, FaultPathOnly.trans h.frame rfl⟩, rfl⟩
  · have hexec : exec (.checkpoint w false) s = .next (checkpointAct false v s) := State.whileOn_write (checkpointAct false) hon hw
    rwa [checkpointAct, State.writeCheckpoint_of_spFailed hsp, ite_self] at hexec
  · have hexec : exec (.close w false) s = .next (closeAct false v s) := State.whileOn_write (closeAct false) hon hw
    rwa [closeAct, State.writeCheckpoint_of_spFailed hsp, ite_self] at hexec

end Sys2Proof.Machine
end

section
/-! The mailbox (17_host_link.md, 20_binding.md, O55). -/

namespace Sys2Proof.Machine

/-! ## When a command is taken (R463, R464, R544) -/

section
variable {s : State} (needs : Bool) (act : State → State)

theorem State.mailbox_of_down (h : s.hostUp = false) : s.mailbox needs act = s := if_pos (by simp [h])

theorem State.mailbox_of_loading (hup : s.hostUp = true) (h : s.hcpLoading 2 = true) : s.mailbox needs act = s.mboxDone .busy .none := by
  rw [State.mailbox, if_neg (by simp [hup]), if_pos h]

theorem State.mailbox_of_unbound (hup : s.hostUp = true) (hl : s.hcpLoading 2 = false) (h : s.bound = false) :
    s.mailbox true act = s.mboxDone .unsupported .none := by
  rw [State.mailbox, if_neg (by simp [hup]), if_neg (by simp [hl]), if_pos (by simp [h])]

theorem State.mailbox_of_taken (hup : s.hostUp = true) (hl : s.hcpLoading 2 = false) (h : needs = true → s.bound = true) :
    s.mailbox needs act = act s := by
  have hneeds : (needs && !s.bound) = false := by cases needs <;> simp_all
  rw [State.mailbox, if_neg (by simp [hup]), if_neg (by simp [hl]), hneeds, if_neg Bool.false_ne_true]

end

/-- The mailbox answers the command, which needs a bound part or not. -/
def IsMailbox (c : Instr) (needs : Bool) : Prop := ∃ act : State → State, ∀ s, exec c s = s.whileOn (s.mailbox needs act)

/-- What holds of every command the mailbox answers holds of each by name. -/
theorem forall_mailbox {P : Instr → Bool → Prop} (h : ∀ c needs, IsMailbox c needs → P c needs) :
    P .identify false ∧ (∀ l, P (.getEventRecords l) false) ∧ (∀ l a q, P (.clearEventRecords l a q) false) ∧ P .getEventInterruptPolicy false ∧
    (∀ x y z w, P (.setEventInterruptPolicy x y z w) false) ∧ P .getFwInfo false ∧ (∀ a o d, P (.transferFw a o d) false) ∧
    (∀ o, P (.activateFw o) false) ∧ P .getTimestamp false ∧ (∀ v, P (.setTimestamp v) false) ∧ P .getSupportedLogs false ∧
    (∀ l, P (.getLog l) false) ∧ P .getBindingState false ∧ (∀ o d, P (.recoveryTransfer o d) false) ∧ P .recoveryApply false ∧
    (∀ u, P (.setWakeBudget u) true) ∧ P .getWakeBudget true ∧ P .getServiceMap true ∧ ∀ w, P (.setPowerLimit w) true := by
  refine ⟨?_, fun l => ?_, fun l a q => ?_, ?_, fun x y z w => ?_, ?_, fun a o d => ?_, fun o => ?_, ?_, fun v => ?_, ?_, fun l => ?_, ?_,
    fun o d => ?_, ?_, fun u => ?_, ?_, ?_, fun w => ?_⟩
  all_goals exact h _ _ ⟨_, fun _ => rfl⟩

/-! ## The service map (R548) -/

theorem bit_two_pow (k : Nat) {i : Nat} (hi : i < 64) : Word.bit (BitVec.ofNat 64 (1 <<< k)) i = decide (k = i) := by
  rw [Word.bit, BitVec.toNat_ofNat, Nat.testBit_mod_two_pow, Nat.one_shiftLeft, Nat.testBit_two_pow]
  simp [hi]

theorem bit_foldl_mapBits (l : List (Nat × Bool)) (w : Word) {i : Nat} (hi : i < 64) :
    (l.foldl (fun w p => if p.2 then w ||| BitVec.ofNat 64 (1 <<< p.1) else w) w).bit i = (w.bit i || l.any fun p => p.2 && decide (p.1 = i)) := by
  induction l generalizing w with
  | nil => simp
  | cons p l ih =>
    rw [List.foldl_cons, ih, List.any_cons, ← Bool.or_assoc]
    congr 1
    cases p.2 with
    | false => simp
    | true => rw [if_pos rfl, Word.bit_or, bit_two_pow p.1 hi, Bool.true_and]

theorem bit_mapBits (l : List (Nat × Bool)) {i : Nat} (hi : i < 64) : (mapBits l).bit i = l.any fun p => p.2 && decide (p.1 = i) := by
  rw [mapBits, bit_foldl_mapBits l 0 hi]
  simp [Word.bit]

/-- The bits of a run of units from bit `base` on. -/
theorem any_range_at (base n : Nat) (f : Nat → Bool) (i : Nat) :
    (((List.range n).map fun k => (base + k, f k)).any fun p => p.2 && decide (p.1 = i)) =
      (decide (base ≤ i) && decide (i < base + n) && f (i - base)) := by
  rw [Bool.eq_iff_iff]
  simp only [List.any_map, List.any_eq_true, List.mem_range, Function.comp_apply, Bool.and_eq_true, decide_eq_true_eq]
  constructor
  · rintro ⟨k, hk, hf, rfl⟩
    exact ⟨⟨by omega, by omega⟩, by rwa [Nat.add_sub_cancel_left]⟩
  · rintro ⟨⟨hlo, hhi⟩, hf⟩
    exact ⟨i - base, by omega, hf, by omega⟩

theorem any_range (n : Nat) (f : Nat → Bool) (i : Nat) :
    (((List.range n).map fun k => (k, f k)).any fun p => p.2 && decide (p.1 = i)) = (decide (i < n) && f i) := by
  simpa using any_range_at 0 n f i

section
variable (s : State)

/-- The first word of the service map, bit by bit: dies, stacks, optical engines, ports, channels. -/
theorem State.bit_serviceMap {i : Nat} (hi : i < 64) : (s.serviceMap.getD 0 0).bit i =
    ((decide (i < 4) && s.dieIn i) || (decide (4 ≤ i) && decide (i < 24) && (s.stackIn (i - 4) && s.dieIn ((i - 4) / 5))) ||
      (decide (24 ≤ i) && decide (i < 32) && (s.bound && !s.fab.oeOut.contains (i - 24))) || (decide (32 ≤ i) && decide (i < 48) && s.portUp (i - 32)) ||
      (decide (48 ≤ i) && decide (i < 60) && s.flag (R.DC_STATUS (i - 48)) F.DC_STATUS.IN_SERVICE)) := by
  have hword : s.serviceMap.getD 0 0 = mapBits ((List.range 4).map (fun d => (d, s.dieIn d)) ++
      (List.range 20).map (fun j => (4 + j, s.stackIn j && s.dieIn (j / 5))) ++ (List.range 8).map (fun i => (24 + i, s.bound && !s.fab.oeOut.contains i)) ++
      (List.range 16).map (fun n => (32 + n, s.portUp n)) ++ (List.range 12).map (fun n => (48 + n, s.flag (R.DC_STATUS n) F.DC_STATUS.IN_SERVICE))) := rfl
  rw [hword, bit_mapBits _ hi, List.any_append, List.any_append, List.any_append, List.any_append, any_range, any_range_at, any_range_at,
    any_range_at, any_range_at]

theorem State.bit_serviceMap_die (d : Die) : (s.serviceMap.getD 0 0).bit d = s.dieIn d := by
  rw [s.bit_serviceMap (by omega)]
  have h4 : ¬ 4 ≤ d.val := by omega
  have h24 : ¬ 24 ≤ d.val := by omega
  have h32 : ¬ 32 ≤ d.val := by omega
  have h48 : ¬ 48 ≤ d.val := by omega
  simp [h4, h24, h32, h48]

theorem State.bit_serviceMap_port (n : Fin 16) : (s.serviceMap.getD 0 0).bit (32 + n) = s.portUp n := by
  rw [s.bit_serviceMap (by omega)]
  have h4 : ¬ 32 + n.val < 4 := by omega
  have h24 : ¬ 32 + n.val < 24 := by omega
  have h32 : 32 + n.val < 48 := by omega
  have h48 : ¬ 48 ≤ 32 + n.val := by omega
  simp [h4, h24, h32, h48]

theorem State.bit_serviceMap_channel (n : Fin 12) : (s.serviceMap.getD 0 0).bit (48 + n) = s.flag (R.DC_STATUS n) F.DC_STATUS.IN_SERVICE := by
  rw [s.bit_serviceMap (by omega)]
  have h4 : ¬ 48 + n.val < 4 := by omega
  have h24 : ¬ 48 + n.val < 24 := by omega
  have h32 : ¬ 48 + n.val < 32 := by omega
  have h48 : 48 + n.val < 60 := by omega
  simp [h4, h24, h32, h48]

end

/-! ## The host's envelope (R463, R475) -/

theorem State.envelope_congr {s t : State} (hlimit : t.reg R.PWR_LIMIT = s.reg R.PWR_LIMIT) (hfused : t.reg R.PKG_FUSED = s.reg R.PKG_FUSED)
    (hpins : t.pins = s.pins) : t.envelope = s.envelope := by
  simp only [State.envelope, State.limits, State.fld, hlimit, hfused, hpins]

theorem RegsBut.envShow {l : List Nat} {s t : State} (h : RegsBut l s t) (hl : R.PWR_STATUS ∈ l) : RegsBut l s t.envShow :=
  (h.setFld _ _ hl).setFld _ _ hl

theorem State.reg_envShow (s : State) {o : Nat} (h : o ≠ R.PWR_STATUS) : s.envShow.reg o = s.reg o :=
  (RegsBut.refl [R.PWR_STATUS] s).envShow (List.mem_singleton_self _) o (by simpa using h)

theorem State.envelope_envShow (s : State) : s.envShow.envelope = s.envelope :=
  State.envelope_congr (s.reg_envShow (by decide)) (s.reg_envShow (by decide)) rfl

/-- EFF_W tells the envelope. -/
theorem State.fld_envShow (s : State) : s.envShow.fld R.PWR_STATUS F.PWR_STATUS.EFF_W = s.envShow.envelope.1 % 2 ^ 16 := by
  rw [s.envelope_envShow, State.envShow, State.fld_setFld_of_disjoint _ _ _ _ _ (by decide) (by decide), State.fld_setFld _ _ _ _ (by decide)]
  rfl

theorem setPowerLimit_of_legal {s : State} {w : Nat} (h : w = 0 ∨ 400 ≤ w) :
    setPowerLimit w s = (s.setFld R.PWR_LIMIT F.PWR_LIMIT.HOST_W w).envShow.mboxDone .success .none := by
  rw [setPowerLimit, State.setLimit, if_neg (by omega)]
  rfl

theorem setPowerLimit_of_refused {s : State} {w : Nat} (h0 : 0 < w) (h : w < 400) :
    setPowerLimit w s = (s.raiseReg St.PWR_LIMIT_BAD R.PWR_LIMIT).mboxDone .invalidInput .none := by
  rw [setPowerLimit, State.setLimit, if_pos (by omega)]
  rfl

/-! ## Event records (R465) -/

theorem mem_clearEvents {s : State} {l : Fin 4} {seqs : List (BitVec 48)} {p : Nat × FaultRec} (hp : p ∈ s.faults.hostLogs) :
    p ∈ (clearEvents l false seqs s).faults.hostLogs ↔ p.1 ≠ l.val ∨ ∀ x ∈ seqs, x.toNat ≠ p.2.seq := by
  have hlogs : (clearEvents l false seqs s).faults.hostLogs =
      s.faults.hostLogs.filter fun p => !(p.1 == l.val && (false || seqs.any fun q => q.toNat == p.2.seq)) := rfl
  rw [hlogs, List.mem_filter]
  simp [hp, Decidable.imp_iff_not_or]

theorem clearEvents_all (s : State) (l : Fin 4) (seqs : List (BitVec 48)) :
    (∀ p ∈ (clearEvents l true seqs s).faults.hostLogs, p.1 ≠ l.val) ∧
    (∀ p ∈ s.faults.hostLogs, p.1 ≠ l.val → p ∈ (clearEvents l true seqs s).faults.hostLogs) ∧
    l.val ∉ (clearEvents l true seqs s).faults.hostOvf := by
  have hlogs : (clearEvents l true seqs s).faults.hostLogs =
      s.faults.hostLogs.filter fun p => !(p.1 == l.val && (true || seqs.any fun q => q.toNat == p.2.seq)) := rfl
  have hovf : (clearEvents l true seqs s).faults.hostOvf = s.faults.hostOvf.filter (· != l.val) := rfl
  rw [hlogs, hovf]
  refine ⟨fun p hp => ?_, fun p hp hne => ?_, fun hl => ?_⟩
  · simpa using (List.mem_filter.mp hp).2
  · exact List.mem_filter.mpr ⟨hp, by simpa using hne⟩
  · simpa using (List.mem_filter.mp hl).2

/-! ## The transfer of an image (R463, R464, R539) -/

/-- The bytes of an image gathered so far. -/
def State.transferGathered (s : State) (m : List Host.Cell) : State := { s with bind := { s.bind with transfer := m } }

/-- The write of a gathered image to flash under way. -/
def State.transferBegun (s : State) (m : List Host.Cell) : State :=
  { s with bind := { s.bind with op := .transfer m (m.foldl (fun (b : Nat) (c : Host.Cell) => max b (c.1 + 1)) 0), transfer := [] } }

section
variable {s : State} (off : Nat) (data : List Byte)

theorem transferFw_of_busy (h : s.bind.op ≠ .none) (a : FwAction) : transferFw a off data s = s.mboxDone .busy .none := if_pos h

theorem transferFw_full (h : s.bind.op = .none) :
    transferFw .full off data s = (s.transferBegun (Memory.writeBytes off data [])).mboxDone .background .none := if_neg (not_not.mpr h)

theorem transferFw_init (h : s.bind.op = .none) :
    transferFw .init off data s = (s.transferGathered (Memory.writeBytes off data [])).mboxDone .success .none := if_neg (not_not.mpr h)

theorem transferFw_cont (h : s.bind.op = .none) :
    transferFw .cont off data s = (s.transferGathered (Memory.writeBytes off data s.bind.transfer)).mboxDone .success .none :=
  if_neg (not_not.mpr h)

theorem transferFw_last (h : s.bind.op = .none) :
    transferFw .last off data s = (s.transferBegun (Memory.writeBytes off data s.bind.transfer)).mboxDone .background .none :=
  if_neg (not_not.mpr h)

theorem transferFw_abort (h : s.bind.op = .none) : transferFw .abort off data s = (s.transferGathered []).mboxDone .success .none :=
  if_neg (not_not.mpr h)

/-- A part of a recovery image in staging, the binding state RECOVERY. -/
def State.recoveryStaged (s : State) (off : Nat) (data : List Byte) : State :=
  State.setFld { s with bind := { s.bind with staging := Memory.writeBytes off data s.bind.staging } } R.BIND_STATUS F.BIND_STATUS.STATE 1

theorem recoveryTransfer_of_invalid (h : s.bound = true ∨ 0xA000000 < off + data.length) :
    recoveryTransfer off data s = s.mboxDone .invalidInput .none := if_pos h

theorem recoveryTransfer_of_busy (hb : s.bound = false) (hlen : off + data.length ≤ 0xA000000) (h : s.bind.op ≠ .none) :
    recoveryTransfer off data s = s.mboxDone .busy .none := by
  rw [recoveryTransfer, if_neg (by simp [hb, hlen]), if_pos h]

theorem recoveryTransfer_of_idle (hb : s.bound = false) (hlen : off + data.length ≤ 0xA000000) (h : s.bind.op = .none) :
    recoveryTransfer off data s = (s.recoveryStaged off data).mboxDone .success .none := by
  rw [recoveryTransfer, if_neg (by simp [hb, hlen]), if_neg (not_not.mpr h)]
  rfl

theorem State.fld_recoveryStaged : (s.recoveryStaged off data).fld R.BIND_STATUS F.BIND_STATUS.STATE = 1 ∧
    (s.recoveryStaged off data).fld R.BIND_STATUS F.BIND_STATUS.FAIL = s.fld R.BIND_STATUS F.BIND_STATUS.FAIL := by
  constructor
  · exact State.fld_setFld _ _ _ _ (by decide)
  · exact State.fld_setFld_of_disjoint _ _ _ _ _ (by decide) (by decide)

theorem recoveryApply_of_bound (hb : s.bound = true) : recoveryApply s = s.mboxDone .invalidInput .none := if_pos hb

theorem recoveryApply_of_busy (hb : s.bound = false) (h : s.bind.op ≠ .none) : recoveryApply s = s.mboxDone .busy .none := by
  rw [recoveryApply, if_neg (by simp [hb]), if_pos h]

theorem recoveryApply_of_idle (hb : s.bound = false) (h : s.bind.op = .none) :
    recoveryApply s = State.mboxDone { s with bind := { s.bind with op := .recovery } } .background .none := by
  rw [recoveryApply, if_neg (by simp [hb]), if_neg (not_not.mpr h)]

end

/-! ## The mailbox (R463-R466, R475, R544, R548) -/

theorem State.hostUp_iff (s : State) : s.hostUp = true ↔ s.fld R.HL_STATUS F.HL_STATUS.LINK_UP = 1 := by
  have htop := s.fld_le_top R.HL_STATUS F.HL_STATUS.LINK_UP
  have hone : F.HL_STATUS.LINK_UP.top = 1 := rfl
  rw [State.hostUp, State.flag, bne_iff_ne]
  omega

theorem State.bound_iff (s : State) : s.bound = true ↔ s.fld R.BIND_STATUS F.BIND_STATUS.STATE = 2 := beq_iff_eq

/-- An opcode the part does not answer, or not while unbound. -/
theorem exec_mailboxUnsupported {s : State} (hon : s.On) (hup : s.hostUp = true) (hl : s.hcpLoading 2 = false) {op : BitVec 16}
    (h : op.toNat ∉ mboxOpcodes ∨ (op.toNat ∈ mboxBound ∧ s.bound = false)) :
    exec (.mailboxUnsupported op) s = .next (s.mboxDone .unsupported .none) := by
  have hcond : s.hostUp = true ∧ (¬ mboxOpcodes.contains op.toNat = true ∨ (mboxBound.contains op.toNat = true ∧ ¬ s.bound = true)) :=
    ⟨hup, by simpa only [List.contains_iff_mem, Bool.not_eq_true] using h⟩
  have hact := State.mailbox_of_taken false (fun t => t.mboxDone .unsupported .none) hup hl nofun
  exact (State.whileOn_on _ hon).trans (congrArg _ ((if_pos hcond).trans hact))

/-- A command that is taken does what its meaning says. -/
theorem exec_of_mailbox {s : State} {c : Instr} {needs : Bool} {act : State → State} (hon : s.On) (hup : s.hostUp = true)
    (hl : s.hcpLoading 2 = false) (hb : needs = true → s.bound = true) (hc : exec c s = s.whileOn (s.mailbox needs act)) :
    exec c s = .next (act s) := by
  rw [hc, State.whileOn_on _ hon, State.mailbox_of_taken needs act hup hl hb]

/-- Settles O55. -/
theorem mailbox : Obligations.Mailbox := by
  unfold Obligations.Mailbox
  intro s hon h b up bound saying all
  have hall (P : Instr → Bool → Prop) (hP : ∀ c needs, IsMailbox c needs → P c needs) : all P := forall_mailbox hP
  have hup (hu : up) : s.hostUp = true := s.hostUp_iff.mpr hu
  have hbound (hb : ¬ bound) : s.bound = false := by
    rw [Bool.eq_false_iff, Ne, s.bound_iff]
    exact hb
  refine ⟨fun hu => ?_, fun hu hl => ?_, fun hu hl hb => ?_, fun hu hl op hop => ?_, fun hu hl => ?_⟩
  · have hdown : s.hostUp = false := by
      rw [Bool.eq_false_iff, Ne, s.hostUp_iff]
      exact hu
    refine hall (fun c _ => exec c s = .next s) fun c needs ⟨act, hc⟩ => ?_
    rw [hc, State.mailbox_of_down needs act hdown, State.whileOn_on _ hon]
  · refine hall (fun c _ => exec c s = .next (saying .busy .none)) fun c needs ⟨act, hc⟩ => ?_
    rw [hc, State.mailbox_of_loading needs act (hup hu) hl]
    exact State.whileOn_on _ hon
  · refine hall (fun c needs => needs = true → exec c s = .next (saying .unsupported .none)) fun c needs ⟨act, hc⟩ hneeds => ?_
    rw [hc, hneeds, State.mailbox_of_unbound act (hup hu) hl (hbound hb)]
    exact State.whileOn_on _ hon
  · exact exec_mailboxUnsupported hon (hup hu) hl (hop.imp_right fun ⟨hmem, hb⟩ => ⟨hmem, hbound hb⟩)
  intro staged
  have run {c : Instr} {act : State → State} (hc : exec c s = s.whileOn (s.mailbox false act)) : exec c s = .next (act s) :=
    exec_of_mailbox hon (hup hu) hl (absurd · Bool.false_ne_true) hc
  have runs {c : Instr} {act : State → State} {r : State} (hc : exec c s = s.whileOn (s.mailbox false act)) (hr : act s = r) :
      exec c s = .next r := (run hc).trans (congrArg _ hr)
  refine ⟨?_, fun l => .of (run rfl) rfl, fun l q => ⟨?_, ?_⟩, runs rfl rfl, fun x y z w => runs rfl rfl, runs rfl rfl, runs rfl rfl,
    runs rfl rfl, fun o d => ?_,
    fun hb => ?_, fun hb hop => ?_, fun hb hop => ?_, fun ht => ?_, fun ht => ?_, fun v => runs rfl rfl,
    runs rfl rfl, runs rfl rfl, runs rfl rfl, runs rfl rfl, fun hb => ?_⟩
  · exact .of (run rfl) ⟨rfl, _, rfl, rfl, by simp, by simp⟩
  · obtain ⟨hgone, hkept, hovf⟩ := clearEvents_all s l q
    exact .of (run rfl) ⟨hgone, hkept, hovf, rfl⟩
  · exact .of (run rfl) ⟨fun p hp => mem_clearEvents hp, rfl, rfl⟩
  · have hfw (a : FwAction) : exec (.transferFw a o d) s = .next (transferFw a o.toNat d s) := run rfl
    have hrec : exec (.recoveryTransfer o d) s = .next (recoveryTransfer o.toNat d s) := run rfl
    have hregs {t : State} (ht : t.regs = s.regs) : RegsBut [R.BIND_STATUS] s t := .of_regs_eq _ ht
    refine ⟨fun hop a => ?_, fun hop => ⟨?_, ?_, ?_, ?_, ?_⟩, fun hbad => ?_, fun hb hlen hop => ?_, fun hb hlen hop => ?_⟩
    · exact (hfw a).trans (congrArg _ (transferFw_of_busy _ _ hop a))
    · exact .of ((hfw _).trans (congrArg _ (transferFw_full _ _ hop))) ⟨⟨rfl, hregs rfl⟩, rfl, ⟨_, rfl⟩, rfl⟩
    · exact .of ((hfw _).trans (congrArg _ (transferFw_init _ _ hop))) ⟨⟨rfl, hregs rfl⟩, rfl, hop, rfl⟩
    · exact .of ((hfw _).trans (congrArg _ (transferFw_cont _ _ hop))) ⟨⟨rfl, hregs rfl⟩, rfl, hop, rfl⟩
    · exact .of ((hfw _).trans (congrArg _ (transferFw_last _ _ hop))) ⟨⟨rfl, hregs rfl⟩, rfl, ⟨_, rfl⟩, rfl⟩
    · exact .of ((hfw _).trans (congrArg _ (transferFw_abort _ _ hop))) ⟨⟨rfl, hregs rfl⟩, rfl, hop, rfl⟩
    · exact hrec.trans (congrArg _ (recoveryTransfer_of_invalid _ _ (hbad.imp_left s.bound_iff.mpr)))
    · exact hrec.trans (congrArg _ (recoveryTransfer_of_busy _ _ (hbound hb) hlen hop))
    · obtain ⟨hstate, hfail⟩ := State.fld_recoveryStaged (s := s) o.toNat d
      refine .of (hrec.trans (congrArg _ (recoveryTransfer_of_idle _ _ (hbound hb) hlen hop))) ⟨⟨rfl, ?_⟩, rfl, rfl, hstate, hfail⟩
      exact (RegsBut.refl _ s).of_regs (u := s.transferGathered []) rfl |>.setFld _ _ (List.mem_singleton_self _)
  · exact runs rfl (recoveryApply_of_bound (s.bound_iff.mpr hb))
  · exact runs rfl (recoveryApply_of_busy (hbound hb) hop)
  · exact runs rfl (recoveryApply_of_idle (hbound hb) hop)
  · exact runs rfl (congrArg (fun x => s.mboxDone .success (.words [x])) (if_neg ht))
  · exact runs rfl (congrArg (fun x => s.mboxDone .success (.words [x])) (if_pos ht))
  have runBound {c : Instr} {act : State → State} (hc : exec c s = s.whileOn (s.mailbox true act)) : exec c s = .next (act s) :=
    exec_of_mailbox hon (hup hu) hl (fun _ => s.bound_iff.mpr hb) hc
  refine ⟨fun u => ?_, .of (runBound rfl) rfl, ?_, fun w => ⟨fun hw => ?_, fun h0 hw => ?_⟩⟩
  · refine .of (runBound rfl) ⟨?_, (RegsBut.refl _ s).setFld _ _ (List.mem_singleton_self _), rfl⟩
    exact State.fld_setFld_of_le s R.HL_WAKE_BUDGET F.HL_WAKE_BUDGET.BUDGET_US (by decide) (Nat.le_sub_one_of_lt u.isLt)
  · exact .of (runBound rfl) ⟨rfl, s.serviceMap, rfl, rfl, s.bit_serviceMap_die, s.bit_serviceMap_port, s.bit_serviceMap_channel, rfl⟩
  · have hexec : exec (.setPowerLimit w) s = .next (setPowerLimit w.toNat s) := runBound rfl
    have hlimit : RegsBut [R.PWR_LIMIT, R.PWR_STATUS] s (s.setFld R.PWR_LIMIT F.PWR_LIMIT.HOST_W w.toNat) := (RegsBut.refl _ s).setFld _ _ (by simp)
    rw [setPowerLimit_of_legal (hw.imp_left fun h0 => by rw [h0]; rfl)] at hexec
    have hreg : (s.setFld R.PWR_LIMIT F.PWR_LIMIT.HOST_W w.toNat).envShow.reg R.PWR_LIMIT = _ := State.reg_envShow _ (by decide)
    refine .of hexec ⟨?_, ?_, State.fld_envShow _, hlimit.envShow (by simp), rfl⟩
    · exact (congrArg (Word.get · 31 16) hreg).trans
        (State.fld_setFld_of_le s R.PWR_LIMIT F.PWR_LIMIT.HOST_W (by decide) (Nat.le_sub_one_of_lt w.isLt))
    · exact (congrArg (Word.get · 15 0) hreg).trans
        (State.fld_setFld_of_disjoint s R.PWR_LIMIT F.PWR_LIMIT.HOST_W F.PWR_LIMIT.MGMT_W _ (by decide) (by decide))
  · have hexec : exec (.setPowerLimit w) s = .next (setPowerLimit w.toNat s) := runBound rfl
    rw [setPowerLimit_of_refused h0 hw] at hexec
    have hraised : (s.raiseReg St.PWR_LIMIT_BAD R.PWR_LIMIT).lastRaised = _ := State.lastRaised_raise _ _
    exact .of hexec ⟨rfl, congrArg (Option.map fun y => (y.status, y.sev)) hraised, rfl⟩

end Sys2Proof.Machine
end

section
/-! The fabric ports: what an operation at a port does there, and that it leaves every other port (15_fabric.md, O49, O59). -/

namespace Sys2Proof.Machine

/-! ## One port's registers and link logic (R449) -/

@[simp] theorem State.port_setPort (s : State) (n : Nat) (x : PortSt) : (s.setPort n x).port n = x := Sparse.get_set_same ..

theorem State.port_setPort_of_ne (s : State) {n m : Nat} (x : PortSt) (h : m ≠ n) : (s.setPort n x).port m = s.port m := Sparse.get_set_of_ne _ _ _ h

@[simp] theorem State.reg_setPort (s : State) (n : Nat) (x : PortSt) (o : Nat) : (s.setPort n x).reg o = s.reg o := rfl

@[simp] theorem State.fld_setPort (s : State) (n : Nat) (x : PortSt) (o : Nat) (f : Fld) : (s.setPort n x).fld o f = s.fld o f := rfl

@[simp] theorem State.port_setReg (s : State) (o : Nat) (w : Word) (n : Nat) : (s.setReg o w).port n = s.port n := rfl

@[simp] theorem State.port_setFld (s : State) (o : Nat) (f : Fld) (v n : Nat) : (s.setFld o f v).port n = s.port n := rfl

theorem FAB_PORT_ne {n m : Nat} (h : n ≠ m) : R.FAB_PORT n ≠ R.FAB_PORT m := by
  simp only [R.FAB_PORT]
  omega

theorem FAB_PORT_not_mem {n : Nat} {l : List Nat} (h : n ∉ l) : R.FAB_PORT n ∉ l.map R.FAB_PORT := by
  intro hmem
  obtain ⟨m, hm, he⟩ := List.mem_map.mp hmem
  by_cases hne : m = n
  · exact h (hne ▸ hm)
  · exact FAB_PORT_ne hne he

/-- A register outside the ports' block is none of theirs. -/
theorem not_mem_ports {o : Nat} {l : List Nat} (hl : ∀ n ∈ l, n < 16) (h : o < R.FAB_PORT 0 ∨ R.FAB_PORT 16 ≤ o) : o ∉ l.map R.FAB_PORT := by
  intro hmem
  obtain ⟨m, hm, he⟩ := List.mem_map.mp hmem
  have h16 := hl m hm
  simp only [R.FAB_PORT] at he h
  omega

/-! ## What operations at ports leave -/

/-- Of the ports those of `l` alone have changed, of the registers theirs and those of `r`, and records may have been raised. -/
structure PortsOnly (l r : List Nat) (s t : State) : Prop where
  port : ∀ k, k ∉ l → t.port k = s.port k
  regs : RegsBut (l.map R.FAB_PORT ++ r) s t
  fab : t.fab = { s.fab with ports := t.fab.ports }
  frame : t = { s with regs := t.regs, fab := t.fab, faults := t.faults }

section
variable {l r : List Nat} {s t : State}

theorem PortsOnly.refl (l r : List Nat) (s : State) : PortsOnly l r s s := ⟨fun _ _ => rfl, .refl _ s, rfl, rfl⟩

theorem PortsOnly.trans {u : State} (h : PortsOnly l r s t) (h' : PortsOnly l r t u) : PortsOnly l r s u where
  port k hk := (h'.port k hk).trans (h.port k hk)
  regs := h.regs.trans h'.regs
  fab := by rw [h'.fab, h.fab]
  frame := by rw [h'.frame, h.frame]

theorem PortsOnly.mono {l' r' : List Nat} (h : PortsOnly l r s t) (hl : ∀ n ∈ l, n ∈ l') (hr : ∀ o ∈ r, o ∈ r') : PortsOnly l' r' s t where
  port k hk := h.port k fun hm => hk (hl k hm)
  regs := h.regs.mono fun o ho => by
    rw [List.mem_append] at ho ⊢
    exact ho.imp (fun hm => List.map_subset _ (fun n hn => hl n hn) hm) (hr o)
  fab := h.fab
  frame := h.frame

theorem PortsOnly.setPort {n : Nat} (x : PortSt) (h : PortsOnly l r s t) (hn : n ∈ l) : PortsOnly l r s (t.setPort n x) where
  port k hk := (t.port_setPort_of_ne x fun e => hk (by rwa [e])).trans (h.port k hk)
  regs := h.regs
  fab := by
    have hfab : (t.setPort n x).fab = { t.fab with ports := (t.setPort n x).fab.ports } := rfl
    rw [hfab, h.fab]
  frame := by
    have hframe : t.setPort n x = { t with fab := (t.setPort n x).fab } := rfl
    rw [hframe, h.frame]

theorem PortsOnly.setReg {o : Nat} (w : Word) (h : PortsOnly l r s t) (ho : o ∈ l.map R.FAB_PORT ++ r) : PortsOnly l r s (t.setReg o w) where
  port k hk := h.port k hk
  regs := h.regs.setReg w ho
  fab := h.fab
  frame := by
    have hframe : t.setReg o w = { t with regs := (t.setReg o w).regs } := rfl
    rw [hframe, h.frame]

theorem PortsOnly.setFldPort {n : Nat} (f : Fld) (v : Nat) (h : PortsOnly l r s t) (hn : n ∈ l) : PortsOnly l r s (t.setFld (R.FAB_PORT n) f v) :=
  h.setReg _ (List.mem_append_left _ (List.mem_map_of_mem hn))

theorem PortsOnly.setFldBeside {o : Nat} (f : Fld) (v : Nat) (h : PortsOnly l r s t) (ho : o ∈ r) : PortsOnly l r s (t.setFld o f v) :=
  h.setReg _ (List.mem_append_right _ ho)

theorem PortsOnly.raise (x : FaultRec) (h : PortsOnly l r s t) : PortsOnly l r s (t.raise x) where
  port k hk := h.port k hk
  regs := h.regs.raise x
  fab := h.fab
  frame := by
    have hframe : t.raise x = { t with faults := (t.raise x).faults } := rfl
    rw [hframe, h.frame]

theorem PortsOnly.count {o : Nat} (n : Nat) (h : PortsOnly l r s t) (ho : o ∈ r) : PortsOnly l r s (t.count o n) := by
  have hc := h.setFldBeside F.CTR.COUNT (t.fld o F.CTR.COUNT + n) ho
  have hovf := hc.setFldBeside F.CTR.OVF 1 ho
  unfold State.count
  extract_lets c s1 s2
  split_ifs
  · exact hc
  · exact hovf.raise _
  · exact hovf

theorem PortsOnly.portDown {n : Nat} (h : PortsOnly l r s t) (hn : n ∈ l) : PortsOnly l r s (t.portDown n) :=
  ((h.setFldPort F.FAB_PORT.STATE PortS.DOWN hn).setFldPort F.FAB_PORT.LANES 0 hn).setPort _ hn

theorem PortsOnly.portTrain {n : Nat} (again : Bool) (h : PortsOnly l r s t) (hn : n ∈ l) : PortsOnly l r s (t.portTrain n again) := by
  have htrain := (h.setFldPort F.FAB_PORT.STATE PortS.TRAINING hn).setPort { t.port n with training := true, expect := 0, awaiting := false, fails := 0 } hn
  unfold State.portTrain
  split
  · extract_lets x s1
    split
    · exact htrain.setFldPort _ _ hn
    · exact htrain
  · exact h

/-- A port beside those of `l` reads as before in its register. -/
theorem PortsOnly.reg_port {n : Nat} (h : PortsOnly l [] s t) (hn : n ∉ l) : t.reg (R.FAB_PORT n) = s.reg (R.FAB_PORT n) :=
  h.regs _ (by rw [List.append_nil]; exact FAB_PORT_not_mem hn)

/-- A register outside the ports' block and not of `r` reads as before. -/
theorem PortsOnly.reg_beside {o : Nat} (h : PortsOnly l r s t) (hl : ∀ n ∈ l, n < 16) (ho : o < R.FAB_PORT 0 ∨ R.FAB_PORT 16 ≤ o) (hr : o ∉ r) :
    t.reg o = s.reg o :=
  h.regs o (by rw [List.mem_append]; exact fun hm => hm.elim (not_mem_ports hl ho) hr)

theorem PortsOnly.fld_beside {o : Nat} (h : PortsOnly l r s t) (hl : ∀ n ∈ l, n < 16) (ho : o < R.FAB_PORT 0 ∨ R.FAB_PORT 16 ≤ o) (hr : o ∉ r)
    (f : Fld) : t.fld o f = s.fld o f := by
  rw [State.fld, h.reg_beside hl ho hr, State.fld]

theorem PortsOnly.oeOut (h : PortsOnly l r s t) : t.fab.oeOut = s.fab.oeOut := by rw [h.fab]

/-- A frame in which nothing was raised. -/
theorem PortsOnly.frame_of_faults (h : PortsOnly l r s t) (hf : t.faults = s.faults) : t = { s with regs := t.regs, fab := t.fab } := by
  have hframe := h.frame
  rw [hf] at hframe
  exact hframe

end

theorem State.portMay_iff (s : State) (n : Nat) : s.portMay n = true ↔
    (s.fabState ≠ FabS.OFF ∧ s.laserOn = true) ∧ s.fab.oeOut.contains (n / 2) = false ∧ (s.port n).dark = false := by
  simp only [State.portMay, Bool.and_eq_true, bne_iff_ne, Bool.not_eq_true']
  tauto

/-- Whether a port may train after operations at ports turns on its light alone. -/
theorem PortsOnly.portMay_iff {l r : List Nat} {s t : State} (h : PortsOnly l r s t) (hl : ∀ m ∈ l, m < 16)
    (hr : ∀ o ∈ [R.FAB_STATUS, R.BIND_STATUS, R.FAB_CFG], o ∉ r) (n : Nat) : t.portMay n = true ↔
      (s.fabState ≠ FabS.OFF ∧ s.laserOn = true) ∧ s.fab.oeOut.contains (n / 2) = false ∧ (t.port n).dark = false := by
  have hst := h.fld_beside hl (o := R.FAB_STATUS) (by decide) (hr _ (by decide)) F.FAB_STATUS.STATE
  have hbind := h.fld_beside hl (o := R.BIND_STATUS) (by decide) (hr _ (by decide)) F.BIND_STATUS.STATE
  have hcfg := h.fld_beside hl (o := R.FAB_CFG) (by decide) (hr _ (by decide)) F.FAB_CFG.LASER_ON
  rw [State.portMay_iff, State.fabState, State.laserOn, State.bound, State.flag, hst, hbind, hcfg, h.oeOut]
  rfl

/-! ## A port leaves service, or begins to train (R418, R419, R423) -/

section
variable (s : State) (n : Nat)

@[simp] theorem State.portDown_faults : (s.portDown n).faults = s.faults := rfl

@[simp] theorem State.port_portDown :
    (s.portDown n).port n = { s.port n with training := false, expect := 0, awaiting := false, fails := 0 } := State.port_setPort ..

/-- DOWN, with no lane. -/
theorem State.fld_portDown : (s.portDown n).fld (R.FAB_PORT n) F.FAB_PORT.STATE = PortS.DOWN ∧ (s.portDown n).fld (R.FAB_PORT n) F.FAB_PORT.LANES = 0 := by
  constructor
  · rw [State.portDown, State.fld_setPort, State.fld_setFld_of_disjoint _ _ _ _ _ (by decide) (by decide), State.setPortState,
      State.fld_setFld _ _ _ _ (by decide)]
    rfl
  · rw [State.portDown, State.fld_setPort, State.fld_setFld _ _ _ _ (by decide)]
    rfl

/-- The fields of the port beside its state and lanes read as before. -/
theorem State.fld_portDown_beside {f : Fld} (h : 6 ≤ f.lo) : (s.portDown n).fld (R.FAB_PORT n) f = s.fld (R.FAB_PORT n) f := by
  have hlanes : F.FAB_PORT.LANES.hi < f.lo := h
  have hstate : F.FAB_PORT.STATE.hi < f.lo := Nat.lt_of_lt_of_le (by decide) h
  rw [State.portDown, State.fld_setPort, State.fld_setFld_of_disjoint _ _ _ _ _ (by decide) (.inr hlanes), State.setPortState,
    State.fld_setFld_of_disjoint _ _ _ _ _ (by decide) (.inr hstate)]

theorem State.portDown_only : PortsOnly [n] [] s (s.portDown n) := (PortsOnly.refl [n] [] s).portDown (List.mem_singleton_self n)

@[simp] theorem State.portTrain_faults (again : Bool) : (s.portTrain n again).faults = s.faults := by
  unfold State.portTrain
  split
  · extract_lets x s1
    split <;> rfl
  · rfl

theorem State.portTrain_only (again : Bool) : PortsOnly [n] [] s (s.portTrain n again) :=
  (PortsOnly.refl [n] [] s).portTrain again (List.mem_singleton_self n)

variable {s n}

theorem State.portTrain_of_may {again : Bool} (h : s.portMay n = true) :
    (s.portTrain n again).port n = { s.port n with training := true, expect := 0, awaiting := false, fails := 0 } ∧
    (s.portTrain n again).fld (R.FAB_PORT n) F.FAB_PORT.STATE = PortS.TRAINING ∧
    (again = true → (s.portTrain n again).fld (R.FAB_PORT n) F.FAB_PORT.LINK_ERR = 1) := by
  unfold State.portTrain
  rw [if_pos h]
  extract_lets x s1
  have hport : s1.port n = { s.port n with training := true, expect := 0, awaiting := false, fails := 0 } := State.port_setPort ..
  have hstate : s1.fld (R.FAB_PORT n) F.FAB_PORT.STATE = PortS.TRAINING := State.fld_setFld s _ _ _ (by decide)
  cases again with
  | true =>
    rw [if_pos rfl]
    refine ⟨hport, ?_, fun _ => State.fld_setFld _ _ _ _ (by decide)⟩
    rw [State.fld_setFld_of_disjoint _ _ _ _ _ (by decide) (by decide), hstate]
  | false => exact ⟨hport, hstate, fun hf => absurd hf Bool.false_ne_true⟩

theorem State.portTrain_of_may_not {again : Bool} (h : s.portMay n = false) : s.portTrain n again = s := if_neg (by simp [h])

end

/-- An operation at one port leaves what another shows. -/
theorem PortsOnly.fld_port {s t : State} {n m : Nat} (h : PortsOnly [n] [] s t) (hne : m ≠ n) (f : Fld) :
    t.fld (R.FAB_PORT m) f = s.fld (R.FAB_PORT m) f := by
  rw [State.fld, h.reg_port (by simpa using hne), State.fld]

section
variable (s : State) {a b : Nat} (hne : a ≠ b)

theorem State.portDown_pair_only (a b : Nat) : PortsOnly [a, b] [] s ((s.portDown a).portDown b) :=
  ((PortsOnly.refl _ [] s).portDown (by simp)).portDown (by simp)

include hne

/-- Two ports leave service. -/
theorem State.portDown_pair {n : Nat} (hn : n ∈ [a, b]) :
    ((s.portDown a).portDown b).fld (R.FAB_PORT n) F.FAB_PORT.STATE = PortS.DOWN ∧ ((s.portDown a).portDown b).fld (R.FAB_PORT n) F.FAB_PORT.LANES = 0 ∧
      ((s.portDown a).portDown b).port n = { s.port n with training := false, expect := 0, awaiting := false, fails := 0 } := by
  have hb := (s.portDown a).portDown_only b
  rw [List.mem_cons, List.mem_singleton] at hn
  obtain rfl | rfl := hn
  · obtain ⟨hstate, hlanes⟩ := s.fld_portDown n
    rw [hb.fld_port hne, hb.fld_port hne, hb.port n (by simpa using hne)]
    exact ⟨hstate, hlanes, s.port_portDown n⟩
  · obtain ⟨hstate, hlanes⟩ := (s.portDown a).fld_portDown n
    refine ⟨hstate, hlanes, ?_⟩
    rw [State.port_portDown, (s.portDown_only a).port n (by simpa using hne.symm)]

/-- Of two ports each that may train does. -/
theorem State.portTrain_pair (hlt : a < 16) {n : Nat} (hn : n ∈ [a, b]) (hmay : s.portMay n = true) :
    ((s.portTrain a false).portTrain b false).fld (R.FAB_PORT n) F.FAB_PORT.STATE = PortS.TRAINING ∧
      (((s.portTrain a false).portTrain b false).port n).training = true := by
  have honly := s.portTrain_only a false
  have honly' := (s.portTrain a false).portTrain_only b false
  rw [List.mem_cons, List.mem_singleton] at hn
  obtain rfl | rfl := hn
  · obtain ⟨hport, hstate, -⟩ := State.portTrain_of_may (again := false) hmay
    rw [honly'.fld_port hne, honly'.port n (by simpa using hne), hport]
    exact ⟨hstate, rfl⟩
  · have hmay' : (s.portTrain a false).portMay n = true := by
      rw [honly.portMay_iff (by simpa using hlt) (by simp), honly.port n (by simpa using hne.symm)]
      exact (s.portMay_iff n).mp hmay
    obtain ⟨hport, hstate, -⟩ := State.portTrain_of_may (again := false) hmay'
    rw [hport]
    exact ⟨hstate, rfl⟩

end

end Sys2Proof.Machine
end

section
/-! Re-trims, optical-engine service and the SPDM responder (20_binding.md, O59). -/

namespace Sys2Proof.Machine

/-! ## A service action begins (R546, R553) -/

/-- A low bit of a word is that bit of its low six bits. -/
theorem Word.low_bit (v : Word) {b : Nat} (hb : b < 6) (h : v.bit b = true) : v.get 5 0 % (2 * 2 ^ b) / 2 ^ b = 1 := by
  have hbit : v.toNat / 2 ^ b % 2 = 1 := by
    rw [Word.bit, Nat.testBit_eq_decide_div_mod_eq] at h
    exact of_decide_eq_true h
  have hget : v.get 5 0 = v.toNat % 64 := rfl
  rw [hget]
  interval_cases b <;> omega

theorem Word.bit_alone (b : Nat) : 2 ^ b % (2 * 2 ^ b) / 2 ^ b ≠ 0 := by
  have hpos : 0 < 2 ^ b := Nat.two_pow_pos b
  rw [Nat.mod_eq_of_lt (by omega), Nat.div_self hpos]
  decide

/-- The action noted and BUSY shown. -/
def State.svcBegun (s : State) (a : SvcAct) (u : Nat) : State :=
  let s1 := s.setFld R.SVC_STATUS F.SVC_STATUS.BUSY 1
  { s1 with bind := { s1.bind with svc := some (a, u) } }

/-- What an action does as it begins. -/
def State.svcStart (s : State) (a : SvcAct) (u : Nat) : State :=
  match a with
  | .oeOffline => ({ s with fab := { s.fab with oeOut := if s.fab.oeOut.contains u then s.fab.oeOut else s.fab.oeOut ++ [u] } }.portDown (2 * u)).portDown (2 * u + 1)
  | .portRecal => s.portDown u
  | _ => s

section
variable {s : State} {v : Word} {b : Nat} {a : SvcAct}

theorem svcCtl_of_alone (hv : v.get 5 0 = 2 ^ b) (hu : v.get 12 8 < svcUnits a) (hbusy : s.fld R.SVC_STATUS F.SVC_STATUS.BUSY = 0) :
    svcCtl b a v s = (s.svcBegun a (v.get 12 8)).svcStart a (v.get 12 8) := by
  unfold svcCtl
  extract_lets bits u s1
  have hflag : s.flag R.SVC_STATUS F.SVC_STATUS.BUSY = false := by simp [State.flag, hbusy]
  rw [if_neg (by rw [show bits = 2 ^ b from hv]; exact Word.bit_alone b), if_neg (by simp only [bits, hv, hflag]; simp [u, hu])]
  cases a <;> rfl

theorem svcCtl_of_refused (hb : b < 6) (hv : v.bit b = true)
    (hbad : v.get 5 0 ≠ 2 ^ b ∨ svcUnits a ≤ v.get 12 8 ∨ s.fld R.SVC_STATUS F.SVC_STATUS.BUSY = 1) :
    svcCtl b a v s = s.raiseReg St.SVC_CTL_REFUSED R.SVC_CTL := by
  unfold svcCtl
  extract_lets bits u s1
  have hset : ¬ bits % (2 * 2 ^ b) / 2 ^ b = 0 := by
    rw [Word.low_bit v hb hv]
    decide
  rw [if_neg hset, if_pos]
  rcases hbad with h | h | h
  · exact .inl h
  · exact .inr (.inr h)
  · exact .inr (.inl (by simp [State.flag, h]))

end

/-- What the begin of an action at a unit changes, beside what it does to ports `l`. -/
structure SvcStarted (s : State) (a : SvcAct) (u : Nat) (l : List Nat) (t : State) : Prop where
  busy : t.fld R.SVC_STATUS F.SVC_STATUS.BUSY = 1
  bind : t.bind = { s.bind with svc := some (a, u) }
  regs : RegsBut (R.SVC_STATUS :: l.map R.FAB_PORT) s t
  frame : t = { s with regs := t.regs, bind := t.bind, fab := { s.fab with ports := t.fab.ports, oeOut := t.fab.oeOut } }

theorem State.svcBegun_started (s : State) (a : SvcAct) (u : Nat) : SvcStarted s a u [] (s.svcBegun a u) where
  busy := State.fld_setFld s _ _ _ (by decide)
  bind := rfl
  regs := (RegsBut.refl [R.SVC_STATUS] s).setFld _ _ (List.mem_singleton_self _)
  frame := rfl

/-- Ports that leave service as an action begins. -/
theorem SvcStarted.of_ports {s s1 t : State} {a : SvcAct} {u : Nat} {l : List Nat} (h : SvcStarted s a u [] s1) (hl : ∀ n ∈ l, n < 16)
    (hp : PortsOnly l [] s1 t) (hf : t.faults = s1.faults) : SvcStarted s a u l t where
  busy := by rw [hp.fld_beside hl (by decide) List.not_mem_nil, h.busy]
  bind := by rw [hp.frame, h.bind]
  regs := (h.regs.mono (by simp)).trans (hp.regs.mono (by simp +contextual))
  frame := by
    have hframe := hp.frame_of_faults hf
    rw [hp.fab] at hframe
    rw [hframe, h.frame]

/-- The ports of `l` are out of service, and no other has changed. -/
def PortsDown (s : State) (l : List Nat) (t : State) : Prop :=
  (∀ n ∈ l, t.portState n = PortS.DOWN ∧ t.portLanes n = 0 ∧ (t.port n).training = false) ∧
  ∀ n : Fin 16, n.val ∉ l → t.port n = s.port n ∧ t.reg (R.FAB_PORT n) = s.reg (R.FAB_PORT n)

theorem svcStart_portRecal (s : State) {u : Nat} (hu : u < 16) :
    SvcStarted s .portRecal u [u] ((s.svcBegun .portRecal u).portDown u) ∧ PortsDown s [u] ((s.svcBegun .portRecal u).portDown u) := by
  have honly := (s.svcBegun .portRecal u).portDown_only u
  have hbegun : RegsBut [R.SVC_STATUS] s (s.svcBegun .portRecal u) := (s.svcBegun_started _ _).regs
  refine ⟨(s.svcBegun_started .portRecal u).of_ports (by simpa using hu) honly rfl, ?_, fun n hn => ⟨honly.port n hn, ?_⟩⟩
  · intro n hn
    obtain rfl := List.mem_singleton.mp hn
    obtain ⟨hstate, hlanes⟩ := (s.svcBegun .portRecal n).fld_portDown n
    refine ⟨hstate, hlanes, ?_⟩
    rw [State.port_portDown]
  · rw [honly.reg_port hn]
    exact hbegun _ (by simp only [R.FAB_PORT, R.SVC_STATUS, List.mem_singleton]; omega)

/-- The optical engines out of service with `u` among them. -/
def outWith (l : List Nat) (u : Nat) : List Nat := if l.contains u then l else l ++ [u]

theorem mem_outWith (l : List Nat) (u : Nat) : (outWith l u).contains u = true ∧ ∀ i ∈ l, i ∈ outWith l u := by
  unfold outWith
  split
  · exact ⟨‹_›, fun _ hi => hi⟩
  · exact ⟨by simp, fun _ hi => List.mem_append_left _ hi⟩

/-- An optical engine out of service. -/
def State.withOeOut (s : State) (u : Nat) : State := { s with fab := { s.fab with oeOut := outWith s.fab.oeOut u } }

theorem svcStart_oeOffline (s : State) {u : Nat} (hu : u < 8) :
    SvcStarted s .oeOffline u [2 * u, 2 * u + 1] ((s.svcBegun .oeOffline u).svcStart .oeOffline u) ∧
      PortsDown s [2 * u, 2 * u + 1] ((s.svcBegun .oeOffline u).svcStart .oeOffline u) ∧
      ((s.svcBegun .oeOffline u).svcStart .oeOffline u).fab.oeOut = outWith s.fab.oeOut u := by
  have hstart : (s.svcBegun .oeOffline u).svcStart .oeOffline u = (((s.svcBegun .oeOffline u).withOeOut u).portDown (2 * u)).portDown (2 * u + 1) := rfl
  rw [hstart]
  have honly := ((s.svcBegun .oeOffline u).withOeOut u).portDown_pair_only (2 * u) (2 * u + 1)
  have hbegun : RegsBut [R.SVC_STATUS] s (s.svcBegun .oeOffline u) := (s.svcBegun_started _ _).regs
  have hout : SvcStarted s .oeOffline u [] ((s.svcBegun .oeOffline u).withOeOut u) :=
    { s.svcBegun_started .oeOffline u with frame := rfl }
  refine ⟨hout.of_ports (by simp; omega) honly rfl, ⟨fun n hn => ?_, fun n hn => ⟨honly.port n hn, ?_⟩⟩, honly.oeOut⟩
  · obtain ⟨hstate, hlanes, hport⟩ := ((s.svcBegun .oeOffline u).withOeOut u).portDown_pair (a := 2 * u) (b := 2 * u + 1) (by omega) hn
    exact ⟨hstate, hlanes, by rw [hport]⟩
  · rw [honly.reg_port hn]
    exact hbegun _ (by simp only [R.FAB_PORT, R.SVC_STATUS, List.mem_singleton]; omega)

/-! ## A service action ends (R546, R553) -/

/-- No action runs, and BUSY shows it. -/
def State.svcEnded (s : State) : State :=
  { s.setFld R.SVC_STATUS F.SVC_STATUS.BUSY 0 with bind := { s.bind with svc := none } }

theorem State.fld_svcEnded (s : State) : s.svcEnded.fld R.SVC_STATUS F.SVC_STATUS.BUSY = 0 ∧
    s.svcEnded.fld R.SVC_STATUS F.SVC_STATUS.FAILED = s.fld R.SVC_STATUS F.SVC_STATUS.FAILED :=
  ⟨State.fld_setFld s _ _ _ (by decide), State.fld_setFld_of_disjoint s _ _ _ _ (by decide) (by decide)⟩

theorem RegsBut.draw {l : List Nat} {s t : State} (tag bits : Nat) (h : RegsBut l s t) : RegsBut l s (t.draw tag bits).2 := h

theorem svcActionDone_of_none {s : State} (h : s.bind.svc = none) (failed : Bool) : svcActionDone failed s = s := by
  rw [svcActionDone, h]

section
variable {s : State} {a : SvcAct} {u : Nat} (h : s.bind.svc = some (a, u))
include h

theorem svcActionDone_of_done : svcActionDone false s = s.svcEnded.svcEnd a u := by
  rw [svcActionDone, h]
  rfl

/-- A failure shows FAILED, with a record whose status the spec leaves open. -/
theorem svcActionDone_of_failed : svcActionDone true s =
    ((s.svcEnded.draw 6 16).2.setFld R.SVC_STATUS F.SVC_STATUS.FAILED 1).raise
      { status := (s.svcEnded.draw 6 16).1, sev := Sev.DEFERRED, kind := (svcUnit a u).1, die := (svcUnit a u).2.1, index := (svcUnit a u).2.2 } := by
  rw [svcActionDone, h]
  rfl

end

/-- A segment a target takes as it returns leaves the ports, the fabric and the running action. -/
structure PendingTaken (n : Nat) (s t : State) : Prop where
  regs : RegsBut [R.SEG_RUN n, R.BIND_STATUS] s t
  bindState : t.fld R.BIND_STATUS F.BIND_STATUS.STATE = s.fld R.BIND_STATUS F.BIND_STATUS.STATE
  svc : t.bind.svc = s.bind.svc
  frame : t = { s with regs := t.regs, bind := t.bind }

theorem State.takePending_taken (s : State) (n : Nat) (hn : n < 41) : PendingTaken n s (s.takePending n) := by
  unfold State.takePending
  split
  · rename_i g hg
    have hrun : RegsBut [R.SEG_RUN n, R.BIND_STATUS] s (s.runSeg n g true) := (RegsBut.refl _ s).setReg _ (by simp)
    refine ⟨hrun.setFld _ _ (by simp), ?_, rfl, rfl⟩
    rw [State.fld_setFld_of_disjoint _ _ _ _ _ (by decide) (by decide)]
    exact s.fld_setReg_of_ne _ _ (by simp only [R.BIND_STATUS, R.SEG_RUN]; omega)
  · exact ⟨.refl _ s, rfl, rfl, rfl⟩

/-- The optical engine back in service, with the segment it waited for. -/
def State.oeReturned (s : State) (u : Nat) : State :=
  let s1 : State := { s with fab := { s.fab with oeOut := s.fab.oeOut.filter (· != u) } }
  if s1.flag (R.SEG_RUN (32 + u)) F.SEG_RUN.PENDING then s1.takePending (32 + u) else s1

theorem State.svcEnd_oeOnline (s : State) (u : Nat) :
    s.svcEnd .oeOnline u = ((s.oeReturned u).portTrain (2 * u) false).portTrain (2 * u + 1) false := rfl

theorem State.oeReturned_taken (s : State) {u : Nat} (hu : u < 8) :
    PendingTaken (32 + u) { s with fab := { s.fab with oeOut := s.fab.oeOut.filter (· != u) } } (s.oeReturned u) := by
  unfold State.oeReturned
  extract_lets fab s1
  split
  · exact s1.takePending_taken _ (by omega)
  · exact ⟨.refl _ s1, rfl, rfl, rfl⟩

/-- What the end of an action leaves, and that none runs. -/
structure SvcOver (s t : State) : Prop where
  svc : t.bind.svc = none
  busy : t.fld R.SVC_STATUS F.SVC_STATUS.BUSY = 0
  mem : t.mem = s.mem

theorem State.svcEnded_over (s : State) : SvcOver s s.svcEnded := ⟨rfl, s.fld_svcEnded.1, rfl⟩

theorem SvcOver.of_ports {s s1 t : State} {l : List Nat} (h : SvcOver s s1) (hl : ∀ n ∈ l, n < 16) (hp : PortsOnly l [] s1 t) : SvcOver s t where
  svc := by rw [hp.frame, h.svc]
  busy := by rw [hp.fld_beside hl (by decide) List.not_mem_nil, h.busy]
  mem := by rw [hp.frame, h.mem]

theorem State.portMay_svcEnded (s : State) (n : Nat) : s.svcEnded.portMay n = s.portMay n := by
  have hfld {o : Nat} (f : Fld) (ho : o ≠ R.SVC_STATUS) : s.svcEnded.fld o f = s.fld o f := State.fld_setFld_of_ne s _ _ _ ho
  have hport : s.svcEnded.port n = s.port n := rfl
  have hout : s.svcEnded.fab.oeOut = s.fab.oeOut := rfl
  simp only [State.portMay, State.fabState, State.laserOn, State.bound, State.flag, hfld _ (o := R.FAB_STATUS) (by decide),
    hfld _ (o := R.BIND_STATUS) (by decide), hfld _ (o := R.FAB_CFG) (by decide), hport, hout]

/-- PORT_RECAL trains its port as it ends. -/
theorem svcEnd_portRecal (s : State) {u : Nat} (hu : u < 16) :
    SvcOver s (s.svcEnded.svcEnd .portRecal u) ∧ (s.svcEnded.svcEnd .portRecal u).fab.oeOut = s.fab.oeOut ∧
      (s.portMay u = true → (s.svcEnded.svcEnd .portRecal u).portState u = PortS.TRAINING ∧ ((s.svcEnded.svcEnd .portRecal u).port u).training = true) := by
  have hend : s.svcEnded.svcEnd .portRecal u = s.svcEnded.portTrain u false := rfl
  rw [hend]
  have honly := s.svcEnded.portTrain_only u false
  refine ⟨s.svcEnded_over.of_ports (by simpa using hu) honly, honly.oeOut, fun hmay => ?_⟩
  obtain ⟨hport, hstate, -⟩ := State.portTrain_of_may (again := false) ((s.portMay_svcEnded u).trans hmay)
  exact ⟨hstate, by rw [hport]⟩

theorem State.oeReturned_over (s : State) {u : Nat} (hu : u < 8) :
    SvcOver s (s.svcEnded.oeReturned u) ∧ (s.svcEnded.oeReturned u).fab = { s.fab with oeOut := s.fab.oeOut.filter (· != u) } := by
  have htaken := s.svcEnded.oeReturned_taken hu
  refine ⟨⟨htaken.svc, ?_, by rw [htaken.frame]; rfl⟩, by rw [htaken.frame]; rfl⟩
  have hbusy := htaken.regs.fld (o := R.SVC_STATUS) (by simp [R.SVC_STATUS, R.SEG_RUN, R.BIND_STATUS]; omega) F.SVC_STATUS.BUSY
  exact hbusy.trans s.fld_svcEnded.1

/-- The ports of an optical engine that returns may train once the fabric takes them and they have light. -/
theorem State.portMay_oeReturned (s : State) {u n : Nat} (hu : u < 8) (hn : n / 2 = u) (hfree : s.fabState ≠ FabS.OFF ∧ s.laserOn = true)
    (hdark : (s.port n).dark = false) : (s.svcEnded.oeReturned u).portMay n = true := by
  have htaken := s.svcEnded.oeReturned_taken hu
  obtain ⟨-, hfab⟩ := s.oeReturned_over hu
  have hfld {o : Nat} (f : Fld) (ho : o < R.FAB_PORT 0) : (s.svcEnded.oeReturned u).fld o f = s.fld o f := by
    have hne : o ∉ [R.SEG_RUN (32 + u), R.BIND_STATUS] := by
      simp only [R.FAB_PORT, R.SEG_RUN, R.BIND_STATUS, List.mem_cons, List.not_mem_nil, or_false] at ho ⊢
      omega
    have hsvc : o ≠ R.SVC_STATUS := by
      simp only [R.FAB_PORT, R.SVC_STATUS] at ho ⊢
      omega
    exact (htaken.regs.fld hne f).trans (State.fld_setFld_of_ne s _ f _ hsvc)
  have hbind : (s.svcEnded.oeReturned u).fld R.BIND_STATUS F.BIND_STATUS.STATE = s.fld R.BIND_STATUS F.BIND_STATUS.STATE :=
    htaken.bindState.trans (State.fld_setFld_of_ne s _ _ _ (by decide))
  rw [State.portMay_iff]
  refine ⟨⟨?_, ?_⟩, ?_, ?_⟩
  · rw [State.fabState, hfld _ (by decide)]
    exact hfree.1
  · rw [State.laserOn, State.bound, State.flag, hbind, hfld _ (by decide)]
    exact hfree.2
  · rw [hfab, hn]
    simp
  · rw [State.port, hfab]
    exact hdark

/-- OE_ONLINE trains the engine's two ports as it ends. -/
theorem svcEnd_oeOnline (s : State) {u : Nat} (hu : u < 8) :
    SvcOver s (s.svcEnded.svcEnd .oeOnline u) ∧ (s.svcEnded.svcEnd .oeOnline u).fab.oeOut = s.fab.oeOut.filter (· != u) ∧
      (s.fabState ≠ FabS.OFF ∧ s.laserOn = true → ∀ n ∈ [2 * u, 2 * u + 1], (s.port n).dark = false →
        (s.svcEnded.svcEnd .oeOnline u).portState n = PortS.TRAINING ∧ ((s.svcEnded.svcEnd .oeOnline u).port n).training = true) := by
  rw [State.svcEnd_oeOnline]
  obtain ⟨hover, hfab⟩ := s.oeReturned_over hu
  have honly := ((PortsOnly.refl [2 * u, 2 * u + 1] [] (s.svcEnded.oeReturned u)).portTrain false (n := 2 * u) (by simp)).portTrain false
    (n := 2 * u + 1) (by simp)
  refine ⟨hover.of_ports (by simp; omega) honly, by rw [honly.oeOut, hfab], fun hfree n hn hdark => ?_⟩
  have hhalf : n / 2 = u := by
    rw [List.mem_cons, List.mem_singleton] at hn
    omega
  exact State.portTrain_pair _ (by omega) (by omega) hn (s.portMay_oeReturned hu hhalf hfree hdark)

/-! ## The SPDM responder (R540-R542) -/

/-- The answers of a request that needs the connection at `n`: none while the responder does not run, ERROR before, `r` from there on. -/
def SpdmAnswers (s : State) (n : Nat) (c : Instr) (r : BindSt) : Prop :=
  (¬ (s.bind.started = true ∧ s.bind.spFailed = false) → exec c s = .next s) ∧
  (s.bind.started = true ∧ s.bind.spFailed = false → s.bind.spdm < n → exec c s = .next { s with bind := { s.bind with spdmReply := .error } }) ∧
  (s.bind.started = true ∧ s.bind.spFailed = false → n ≤ s.bind.spdm → exec c s = .next { s with bind := r })

theorem SpdmAnswers.of {s : State} {n : Nat} {c : Instr} {act : State → State} {r : BindSt} (hon : s.On)
    (hc : exec c s = s.whileOn (s.spdmAsk n act)) (hr : act s = { s with bind := r }) : SpdmAnswers s n c r := by
  rw [State.whileOn_on _ hon] at hc
  refine ⟨fun hno => ?_, fun hrun hlt => ?_, fun hrun hle => ?_⟩
  · have hstop : (!s.bind.started || s.bind.spFailed) = true := by
      rw [Bool.or_eq_true, Bool.not_eq_true']
      by_contra hc
      rw [not_or, Bool.not_eq_false, Bool.not_eq_true] at hc
      exact hno hc
    rw [hc, State.spdmAsk, if_pos hstop]
  · rw [hc, State.spdmAsk, if_neg (by simp [hrun]), if_pos hlt]
    rfl
  · rw [hc, State.spdmAsk, if_neg (by simp [hrun]), if_neg (Nat.not_lt.mpr hle), hr]

/-- The entry of a key in a list of distinct keys, alone. -/
theorem filter_key_of_mem {l : List (Nat × Nat)} (hl : (l.map Prod.fst).Nodup) {p : Nat × Nat} (hp : p ∈ l) :
    l.filter (fun q => q.1 == p.1) = [p] := by
  induction l with
  | nil => cases hp
  | cons q l ih =>
    rw [List.map_cons, List.nodup_cons] at hl
    rcases List.mem_cons.mp hp with rfl | hmem
    · have hrest : l.filter (fun q => q.1 == p.1) = [] := by
        rw [List.filter_eq_nil_iff]
        intro q hq he
        exact hl.1 (List.mem_map.mpr ⟨q, hq, beq_iff_eq.mp he⟩)
      rw [List.filter_cons_of_pos (by simp), hrest]
    · have hne : (q.1 == p.1) = false := by
        rw [beq_eq_false_iff_ne]
        intro he
        exact hl.1 (List.mem_map.mpr ⟨p, hmem, he.symm⟩)
      rw [List.filter_cons_of_neg (by simp [hne]), ih hl.2 hmem]

/-- The numbers of the measurement blocks (R542). -/
def blockKeys : List Nat := [1, 2, 3, 4, 5] ++ (List.range 41).map (0x10 + ·)

theorem State.measurements_keys (s : State) : s.measurements.map Prod.fst = blockKeys := by
  rw [State.measurements, List.map_append, List.map_map]
  rfl

theorem blockKeys_nodup : blockKeys.Nodup := by decide

theorem blockKeys_range : ∀ k ∈ blockKeys, 0 < k ∧ k < 57 := by decide

/-- What GET_MEASUREMENTS answers. -/
def State.measured (s : State) (i : BitVec 8) : SpdmReply :=
  let l := if i = 0xFF then s.measurements else s.measurements.filter fun p => p.1 == i.toNat
  if l.isEmpty ∧ i ≠ 0 then .error else .measurements l

theorem State.measured_all (s : State) : s.measured 0xFF = .measurements s.measurements := by
  rw [State.measured, if_pos rfl]
  exact if_neg (by simp [State.measurements])

theorem State.measured_zero (s : State) : s.measured 0 = .measurements [] := by
  have hnone : s.measurements.filter (fun p => p.1 == (0 : BitVec 8).toNat) = [] := by
    rw [List.filter_eq_nil_iff]
    intro p hp he
    have hkey : p.1 ∈ blockKeys := s.measurements_keys ▸ List.mem_map_of_mem hp
    exact absurd (beq_iff_eq.mp he) (Nat.ne_of_gt (blockKeys_range _ hkey).1)
  rw [State.measured, if_neg (show ¬ (0 : BitVec 8) = 0xFF by decide), hnone]
  exact if_neg (by simp)

theorem State.measured_block (s : State) {p : Nat × Nat} (hp : p ∈ s.measurements) : s.measured (BitVec.ofNat 8 p.1) = .measurements [p] := by
  have hkey : p.1 ∈ blockKeys := s.measurements_keys ▸ List.mem_map_of_mem hp
  have hlt := (blockKeys_range _ hkey).2
  have hnat : (BitVec.ofNat 8 p.1).toNat = p.1 := by
    rw [BitVec.toNat_ofNat]
    omega
  have hff : BitVec.ofNat 8 p.1 ≠ 0xFF := fun he => by
    rw [he] at hnat
    exact absurd hnat (by simp; omega)
  rw [State.measured, if_neg hff, hnat, filter_key_of_mem (s.measurements_keys ▸ blockKeys_nodup) hp]
  exact if_neg (by simp)

theorem State.measured_other (s : State) {i : BitVec 8} (h0 : i ≠ 0) (hff : i ≠ 0xFF) (h : ∀ p ∈ s.measurements, p.1 ≠ i.toNat) :
    s.measured i = .error := by
  have hnone : s.measurements.filter (fun p => p.1 == i.toNat) = [] := by
    rw [List.filter_eq_nil_iff]
    exact fun p hp he => h p hp (beq_iff_eq.mp he)
  rw [State.measured, if_neg hff, hnone]
  exact if_pos ⟨rfl, h0⟩

/-! ## Service and attestation (R541, R542, R546, R549, R553) -/

theorem spFail_of_bound {s : State} (h : s.bound = true ∧ s.bind.spFailed = false) :
    spFail s = State.raiseHub { s with bind := { s.bind with spFailed := true } } Sev.CRITICAL St.SP_FAIL Uk.SECPROC := if_pos (by simp [h])

theorem spFail_of_not {s : State} (h : ¬ (s.bound = true ∧ s.bind.spFailed = false)) : spFail s = s := if_neg (by simpa using h)

section
variable {s : State} (hon : s.On) {w : RegW} {v : Word} (hw : s.Writes w R.SVC_CTL v) {b : Nat} {a : SvcAct} {c : Instr}
  (hc : exec c s = s.whileOn (s.onWrite w R.SVC_CTL (svcCtl b a)))
include hon hw hc

/-- An action alone in its write, at a unit it takes, with none running. -/
theorem exec_svc_of_alone (hv : v.get 5 0 = 2 ^ b) (hu : v.get 12 8 < svcUnits a) (hbusy : s.fld R.SVC_STATUS F.SVC_STATUS.BUSY = 0) :
    exec c s = .next ((s.svcBegun a (v.get 12 8)).svcStart a (v.get 12 8)) := by
  rw [hc, State.whileOn_write _ hon hw, svcCtl_of_alone hv hu hbusy]

theorem exec_svc_of_refused (hb : b < 6) (hv : v.bit b = true)
    (hbad : v.get 5 0 ≠ 2 ^ b ∨ svcUnits a ≤ v.get 12 8 ∨ s.fld R.SVC_STATUS F.SVC_STATUS.BUSY = 1) :
    exec c s = .next (s.raiseReg St.SVC_CTL_REFUSED R.SVC_CTL) := by
  rw [hc, State.whileOn_write _ hon hw, svcCtl_of_refused hb hv hbad]

end

/-- Settles O59. -/
theorem serviceAndSpdm : Obligations.ServiceAndSpdm := by
  unfold Obligations.ServiceAndSpdm
  intro s hon told down
  refine ⟨fun w v hw => ?_, fun m hm => ?_, ?_⟩
  · intro u refused begun does
    have hdoes (b : Nat) (a : SvcAct) {c : Instr} {P : State → Prop} (hb : b < 6) (hc : exec c s = s.whileOn (s.onWrite w R.SVC_CTL (svcCtl b a)))
        (hP : u < svcUnits a → P ((s.svcBegun a u).svcStart a u)) : does b (svcUnits a) c P := by
      refine ⟨fun hv hu hbusy => .of (exec_svc_of_alone hon hw hc hv hu hbusy) (hP hu), fun hv hbad => ?_⟩
      exact .of (exec_svc_of_refused hon hw hc hb hv hbad) ⟨congrArg (Option.map fun y => (y.status, y.sev)) (State.lastRaised_raise s _), rfl⟩
    have hbegun {a : SvcAct} {l : List Nat} {t : State} (h : SvcStarted s a u l t) : begun a l t := ⟨h.busy, h.bind, h.regs, h.frame⟩
    refine ⟨hdoes 0 .retrimSpan (by decide) rfl fun _ => ⟨hbegun (s.svcBegun_started _ u), rfl⟩,
      hdoes 1 .retrimDroop (by decide) rfl fun _ => ⟨hbegun (s.svcBegun_started _ u), rfl⟩,
      hdoes 2 .retrimSensors (by decide) rfl fun _ => ⟨hbegun (s.svcBegun_started _ u), rfl⟩, hdoes 3 .oeOffline (by decide) rfl fun hu => ?_,
      hdoes 4 .oeOnline (by decide) rfl fun _ => ⟨hbegun (s.svcBegun_started _ u), rfl⟩, hdoes 5 .portRecal (by decide) rfl fun hu => ?_⟩
    · obtain ⟨hstart, hdown, hout⟩ := svcStart_oeOffline s hu
      obtain ⟨hin, hkeep⟩ := mem_outWith s.fab.oeOut u
      exact ⟨hbegun hstart, hdown, by rw [hout, hin], by rw [hout]; exact hkeep⟩
    · obtain ⟨hstart, hdown⟩ := svcStart_portRecal s hu
      exact ⟨hbegun hstart, hdown, rfl⟩
  · intro s0 free
    have hdone (b : Bool) : exec (.svcActionDone m b) s = .next (svcActionDone b s0) := State.whileOn_on _ hon
    refine ⟨fun hnone b => by rw [hdone, svcActionDone_of_none (s := s0) hnone], fun a u hsvc => ?_, ?_⟩
    · have hsvc0 : s0.bind.svc = some (a, u) := hsvc
      have hended : RegsBut [R.SVC_STATUS] s s0.svcEnded := (RegsBut.refl _ s0).setFld _ _ (List.mem_singleton_self _)
      obtain ⟨hbusy, hfailed⟩ := s0.fld_svcEnded
      intro ended
      have hover {t : State} (h : SvcOver s0 t) : ended t := ⟨h.svc, h.busy⟩
      refine ⟨?_, fun ha => ?_, fun ha hu => ?_, fun ha hu => ?_⟩
      · have hexec := hdone true
        rw [svcActionDone_of_failed hsvc0] at hexec
        refine .of hexec ⟨⟨rfl, ?_⟩, State.fld_setFld _ _ _ _ (by decide), ?_, ?_, rfl⟩
        · exact (State.fld_setFld_of_disjoint _ _ _ _ _ (by decide) (by decide)).trans hbusy
        · exact congrArg (Option.map (·.sev)) (State.lastRaised_raise _ _)
        · exact ((hended.draw 6 16).setFld _ _ (List.mem_singleton_self _)).raise _
      · have hexec := hdone false
        have hstay : s0.svcEnded.svcEnd a u = s0.svcEnded := by
          cases a with
          | oeOnline | portRecal => exact absurd ha (by decide)
          | _ => rfl
        rw [svcActionDone_of_done hsvc0, hstay] at hexec
        exact .of hexec ⟨⟨rfl, hbusy⟩, hfailed, hended, rfl⟩
      · have hexec := hdone false
        subst ha
        rw [svcActionDone_of_done hsvc0] at hexec
        obtain ⟨h, hout, htrain⟩ := svcEnd_oeOnline s0 hu
        refine .of hexec ⟨hover h, by rw [hout]; simp, fun i hi hne => ?_, h.mem, htrain⟩
        rw [hout, List.mem_filter]
        exact ⟨hi, by simpa using hne⟩
      · have hexec := hdone false
        subst ha
        rw [svcActionDone_of_done hsvc0] at hexec
        obtain ⟨h, hout, htrain⟩ := svcEnd_portRecal s0 hu
        exact .of hexec ⟨hover h, hout, h.mem, fun hfree hin hdark => htrain ((s0.portMay_iff u).mpr ⟨hfree, hin, hdark⟩)⟩
    · intro fails
      have hfails : fails ↔ s0.bound = true ∧ s0.bind.spFailed = false := and_congr_left' s0.bound_iff.symm
      have hexec : exec (.spFail m) s = .next (spFail s0) := State.whileOn_on _ hon
      refine ⟨fun h => ?_, fun h => ?_⟩
      · rw [spFail_of_bound (hfails.mp h)] at hexec
        exact .of hexec ⟨congrArg (Option.map fun y => (y.status, y.sev)) (State.lastRaised_raiseHub _ _ _ _), rfl⟩
      · rw [hexec, spFail_of_not fun hf => h (hfails.mpr hf)]
  · intro b runs ask say on blocks
    have hblocks : s.measurements = blocks := by
      simp only [State.measurements, s.bound_iff]
      rfl
    have hask {n : Nat} {c : Instr} {act : State → State} {r : BindSt} (hc : exec c s = s.whileOn (s.spdmAsk n act))
        (hr : act s = { s with bind := r }) : ask n c r := SpdmAnswers.of hon hc hr
    have hmeasured (i : BitVec 8) : ask 3 (.getMeasurements i) (say (s.measured i)) := hask rfl rfl
    refine ⟨hask rfl rfl, hask rfl rfl, hask rfl rfl, hask rfl rfl, hask rfl rfl, fun slot => ⟨hask rfl rfl, hask rfl rfl, hask rfl ?_⟩, ?_, ?_,
      fun p hp => ?_, fun i h0 hff hi => ?_, fun ok => hask rfl ?_, hask rfl ?_⟩
    · by_cases h : slot = 0 ∧ b.session = 0
      · rw [if_pos h, if_pos h]
        rfl
      · rw [if_neg h, if_neg h]
        rfl
    · rw [← hblocks, ← s.measured_all]
      exact hmeasured 0xFF
    · rw [← s.measured_zero]
      exact hmeasured 0
    · rw [← s.measured_block (hblocks ▸ hp)]
      exact hmeasured _
    · rw [← s.measured_other h0 hff (hblocks ▸ hi)]
      exact hmeasured i
    · by_cases h1 : b.session ≠ 1
      · rw [if_pos h1, if_pos h1]
        rfl
      · rw [if_neg h1, if_neg h1]
        cases ok <;> rfl
    · by_cases h : b.session = 2
      · rw [if_pos h, if_pos h]
        rfl
      · rw [if_neg h, if_neg h]
        rfl

end Sys2Proof.Machine
end

section
/-! Light, flits, training and drift mode at the fabric ports (15_fabric.md, O49). -/

namespace Sys2Proof.Machine

/-! ## One operation at each of several ports -/

/-- What an operation at one port leaves: every other port, and the fault path. -/
structure PortStep (n : Nat) (s t : State) : Prop where
  only : PortsOnly [n] [] s t
  faults : t.faults = s.faults

/-- An operation done at the ports of a list one after another shows at each of them what it does to the port as it was. -/
theorem foldl_ports {s : State} {g : State → Nat → State} {Q : Nat → PortSt → Word → Prop} {l : List Nat} (hnd : l.Nodup)
    (hg : ∀ t n, n ∈ l → PortsOnly l [] s t → t.port n = s.port n → t.reg (R.FAB_PORT n) = s.reg (R.FAB_PORT n) →
      PortStep n t (g t n) ∧ Q n ((g t n).port n) ((g t n).reg (R.FAB_PORT n))) :
    PortsOnly l [] s (l.foldl g s) ∧ (l.foldl g s).faults = s.faults ∧
      ∀ n ∈ l, Q n ((l.foldl g s).port n) ((l.foldl g s).reg (R.FAB_PORT n)) := by
  have main : ∀ k : List Nat, k.Nodup → (∀ n ∈ k, n ∈ l) → PortsOnly k [] s (k.foldl g s) ∧ (k.foldl g s).faults = s.faults ∧
      ∀ n ∈ k, Q n ((k.foldl g s).port n) ((k.foldl g s).reg (R.FAB_PORT n)) := by
    intro k
    induction k using List.reverseRecOn with
    | nil => exact fun _ _ => ⟨.refl _ _ s, rfl, by simp⟩
    | append_singleton k n ih =>
      intro hk hsub
      rw [List.nodup_append] at hk
      obtain ⟨hknd, -, hdisj⟩ := hk
      have hn : n ∉ k := fun hm => hdisj n hm n (List.mem_singleton_self n) rfl
      obtain ⟨honly, hfaults, hQ⟩ := ih hknd fun m hm => hsub m (List.mem_append_left _ hm)
      have hwide : PortsOnly l [] s (k.foldl g s) := honly.mono (fun m hm => hsub m (List.mem_append_left _ hm)) (by simp)
      obtain ⟨hstep, hQn⟩ := hg (k.foldl g s) n (hsub n (by simp)) hwide (honly.port n hn) (honly.reg_port hn)
      rw [List.foldl_append, List.foldl_cons, List.foldl_nil]
      refine ⟨(honly.mono (by simp +contextual) (by simp)).trans (hstep.only.mono (by simp) (by simp)), hstep.faults.trans hfaults, fun m hm => ?_⟩
      rcases List.mem_append.mp hm with hmk | hmn
      · have hne : m ∉ [n] := fun he => hn (List.mem_singleton.mp he ▸ hmk)
        rw [hstep.only.port m hne, hstep.only.reg_port hne]
        exact hQ m hmk
      · rw [List.mem_singleton.mp hmn]
        exact hQn
  exact main l hnd fun _ hn => hn

/-- Fields of a port's register, read in its word. -/
def portField (w : Word) (f : Fld) : Nat := w.get f.hi f.lo

theorem State.portField_reg (s : State) (o : Nat) (f : Fld) : portField (s.reg o) f = s.fld o f := rfl

theorem State.portDown_step (s : State) (n : Nat) : PortStep n s (s.portDown n) := ⟨s.portDown_only n, rfl⟩

theorem State.portTrain_step (s : State) (n : Nat) (again : Bool) : PortStep n s (s.portTrain n again) := ⟨s.portTrain_only n again, s.portTrain_faults n again⟩

theorem State.setPort_step (s : State) (n : Nat) (x : PortSt) : PortStep n s (s.setPort n x) :=
  ⟨(PortsOnly.refl _ _ s).setPort x (List.mem_singleton_self n), rfl⟩

theorem State.setFld_step (s : State) (n : Nat) (f : Fld) (v : Nat) : PortStep n s (s.setFld (R.FAB_PORT n) f v) :=
  ⟨(PortsOnly.refl _ _ s).setFldPort f v (List.mem_singleton_self n), rfl⟩

theorem PortStep.trans {n : Nat} {s t u : State} (h : PortStep n s t) (h' : PortStep n t u) : PortStep n s u :=
  ⟨h.only.trans h'.only, h'.faults.trans h.faults⟩

/-! ## Light (R418) -/

/-- A port's light noted as lost. -/
def State.portDark (s : State) (n : Nat) : State := s.setPort n { s.port n with dark := true }

theorem lightLoss_of_lit {s : State} {oe : Fin 8} (hst : s.fabState ≠ FabS.OFF) (hin : s.fab.oeOut.contains oe.val = false)
    (hlit : (s.port (2 * oe.val)).dark = false) :
    lightLoss oe s = ([2 * oe.val, 2 * oe.val + 1].foldl State.portDark ([2 * oe.val, 2 * oe.val + 1].foldl State.portDown s)).raise
      { status := St.FAB_NO_LIGHT, sev := Sev.DEFERRED, kind := Uk.OE, index := oe.val } := if_neg (by simp [hst, hlit]; simpa using hin)

theorem lightLoss_of_dark {s : State} {oe : Fin 8} (h : (s.port (2 * oe.val)).dark = true) : lightLoss oe s = s := if_pos (.inl h)

/-- Light back at a port, which retrains. -/
def State.portLit (s : State) (n : Nat) : State := (s.setPort n { s.port n with dark := false }).portTrain n true

theorem lightReturn_of_dark {s : State} {oe : Fin 8} (h : (s.port (2 * oe.val)).dark = true) :
    lightReturn oe s = [2 * oe.val, 2 * oe.val + 1].foldl State.portLit s := if_pos h

theorem lightReturn_of_lit {s : State} {oe : Fin 8} (h : (s.port (2 * oe.val)).dark = false) : lightReturn oe s = s := if_neg (by simp [h])

section
variable (s : State) (u : Nat)

/-- Both ports of an engine out of service and dark. -/
theorem portsDark (l : List Nat) (hl : l.Nodup) : PortsOnly l [] s (l.foldl State.portDark (l.foldl State.portDown s)) ∧
    (l.foldl State.portDark (l.foldl State.portDown s)).faults = s.faults ∧
    ∀ n ∈ l, (l.foldl State.portDark (l.foldl State.portDown s)).fld (R.FAB_PORT n) F.FAB_PORT.STATE = PortS.DOWN ∧
      (l.foldl State.portDark (l.foldl State.portDown s)).fld (R.FAB_PORT n) F.FAB_PORT.LANES = 0 ∧
      (l.foldl State.portDark (l.foldl State.portDown s)).port n = { s.port n with dark := true, training := false, expect := 0, awaiting := false, fails := 0 } := by
  obtain ⟨hdown, hfaults, hshown⟩ := foldl_ports (s := s) (g := State.portDown)
    (Q := fun n p w => portField w F.FAB_PORT.STATE = PortS.DOWN ∧ portField w F.FAB_PORT.LANES = 0 ∧
      p = { s.port n with training := false, expect := 0, awaiting := false, fails := 0 }) hl fun t n _ _ hport _ =>
    ⟨t.portDown_step n, (t.fld_portDown n).1, (t.fld_portDown n).2, by rw [State.port_portDown, hport]⟩
  obtain ⟨hdark, hfaults', hshown'⟩ := foldl_ports (s := l.foldl State.portDown s) (g := State.portDark)
    (Q := fun n p w => p = { (l.foldl State.portDown s).port n with dark := true } ∧ w = (l.foldl State.portDown s).reg (R.FAB_PORT n)) hl
    fun t n _ _ hport hreg => ⟨t.setPort_step n _, by rw [State.portDark, State.port_setPort, hport], hreg⟩
  refine ⟨hdown.trans hdark, hfaults'.trans hfaults, fun n hn => ?_⟩
  obtain ⟨hstate, hlanes, hport⟩ := hshown n hn
  obtain ⟨hport', hreg'⟩ := hshown' n hn
  refine ⟨?_, ?_, by rw [hport', hport]⟩
  · rw [← State.portField_reg, hreg', hstate]
  · rw [← State.portField_reg, hreg', hlanes]

/-- The ports whose light returns train again. -/
theorem portsLit (l : List Nat) (hl : l.Nodup) (h16 : ∀ n ∈ l, n < 16)
    (hmay : ∀ n ∈ l, (s.fabState ≠ FabS.OFF ∧ s.laserOn = true) ∧ s.fab.oeOut.contains (n / 2) = false) :
    PortsOnly l [] s (l.foldl State.portLit s) ∧ (l.foldl State.portLit s).faults = s.faults ∧
    ∀ n ∈ l, (l.foldl State.portLit s).fld (R.FAB_PORT n) F.FAB_PORT.STATE = PortS.TRAINING ∧
      (l.foldl State.portLit s).fld (R.FAB_PORT n) F.FAB_PORT.LINK_ERR = 1 ∧ ((l.foldl State.portLit s).port n).dark = false ∧
      ((l.foldl State.portLit s).port n).training = true := by
  refine foldl_ports (Q := fun n p w => portField w F.FAB_PORT.STATE = PortS.TRAINING ∧ portField w F.FAB_PORT.LINK_ERR = 1 ∧ p.dark = false ∧
    p.training = true) hl fun t n hn honly hport _ => ?_
  have hset := t.setPort_step n { t.port n with dark := false }
  obtain ⟨⟨hst, hlaser⟩, hout⟩ := hmay n hn
  have hmay' : (t.setPort n { t.port n with dark := false }).portMay n = true := by
    rw [(honly.setPort _ hn).portMay_iff h16 (by simp), State.port_setPort]
    exact ⟨⟨hst, hlaser⟩, hout, rfl⟩
  obtain ⟨hport', hstate, herr⟩ := State.portTrain_of_may (again := true) hmay'
  refine ⟨hset.trans (State.portTrain_step _ n true), hstate, herr rfl, ?_, ?_⟩
  · rw [State.portLit, hport', State.port_setPort]
  · rw [State.portLit, hport']

end

end Sys2Proof.Machine
end

section
/-! Flits, training and the actions of FAB_CTL (15_fabric.md, O49). -/

namespace Sys2Proof.Machine

/-! ## Flits (R420, R421) -/

/-- The registers the flits of a port count in. -/
def flitRegs : List Nat := [R.FAB_FEC_CORR, R.FAB_REPLAYS]

theorem FAB_PORT_not_flitReg (n : Nat) : R.FAB_PORT n ∉ flitRegs := by
  simp only [flitRegs, R.FAB_PORT, R.FAB_FEC_CORR, R.FAB_REPLAYS, List.mem_cons, List.not_mem_nil, or_false]
  omega

@[simp] theorem State.port_count (s : State) (o c n : Nat) : (s.count o c).port n = s.port n := by
  rw [State.port, State.port, State.count_frame]

/-- Corrected codewords counted. -/
def State.fecCounted (s : State) (c : Nat) : State := if c = 0 then s else s.count R.FAB_FEC_CORR c

/-- What the flits of port `n` have shown since `s`: codewords corrected, and how many were asked for again. -/
structure FlitAt (n c r : Nat) (s t : State) : Prop where
  only : PortsOnly [n] flitRegs s t
  fec : t.fld R.FAB_FEC_CORR F.CTR.COUNT = (s.fld R.FAB_FEC_CORR F.CTR.COUNT + c) % 2 ^ 48
  replays : t.fld R.FAB_REPLAYS F.CTR.COUNT = (s.fld R.FAB_REPLAYS F.CTR.COUNT + r) % 2 ^ 48

theorem State.count_mod (s : State) (o : Nat) : (s.fld o F.CTR.COUNT + 0) % 2 ^ 48 = s.fld o F.CTR.COUNT := by
  have htop := s.fld_le_top o F.CTR.COUNT
  have hval : F.CTR.COUNT.top = 2 ^ 48 - 1 := rfl
  exact Nat.mod_eq_of_lt (by omega)

/-- A step at the port keeps what its flits have shown. -/
theorem FlitAt.step {n c r : Nat} {s t u : State} (h : FlitAt n c r s t) (hn : n < 16) (hs : PortStep n t u) : FlitAt n c r s u where
  only := h.only.trans (hs.only.mono (fun _ hm => hm) (by simp))
  fec := by rw [hs.only.fld_beside (by simpa using hn) (by decide) List.not_mem_nil, h.fec]
  replays := by rw [hs.only.fld_beside (by simpa using hn) (by decide) List.not_mem_nil, h.replays]

theorem State.fecCounted_at (s : State) (n c : Nat) : FlitAt n c 0 s (s.fecCounted c) ∧ (s.fecCounted c).port n = s.port n ∧
    (s.fecCounted c).reg (R.FAB_PORT n) = s.reg (R.FAB_PORT n) := by
  unfold State.fecCounted
  split
  · rename_i hc
    subst hc
    exact ⟨⟨.refl _ _ s, (s.count_mod _).symm, (s.count_mod _).symm⟩, rfl, rfl⟩
  · have honly := (PortsOnly.refl [n] flitRegs s).count c (o := R.FAB_FEC_CORR) (by decide)
    have hregs : RegsBut [R.FAB_FEC_CORR] s (s.count R.FAB_FEC_CORR c) := (RegsBut.refl _ s).count c (List.mem_singleton_self _)
    refine ⟨⟨honly, s.fld_count _ _, ?_⟩, s.port_count _ _ n, hregs _ fun hm => FAB_PORT_not_flitReg n (by simp_all [flitRegs])⟩
    rw [s.fld_count_of_ne _ _ (by decide), s.count_mod]

/-- What a flit does at its port, before a lane is removed. -/
def State.flitJudged (s : State) (n seq c : Nat) (intact : Bool) : State :=
  let x := s.port n
  if intact && seq == x.expect then (s.fecCounted c).setPort n { x with expect := (x.expect + 1) % 4096, awaiting := false, fails := 0 }
  else if x.awaiting && seq != x.expect then s.fecCounted c
  else
    let s2 := ((s.fecCounted c).setPort n { x with awaiting := true, fails := x.fails + 1 }).count R.FAB_REPLAYS 1
    if 8 ≤ x.fails + 1 then s2.portTrain n true else s2

section
variable {s : State} {n : Fin 16} {seq c : Nat} {intact : Bool}

theorem fabricFlit_of_down (h : s.portUp n = false) (lane : Option (Fin 4)) : fabricFlit n seq c intact lane s = s := if_neg (by simp [h])

theorem fabricFlit_of_up (h : s.portUp n = true) : fabricFlit n seq c intact none s = s.flitJudged n seq c intact := if_pos h

theorem fabricFlit_lane (h : s.portUp n = true) (i : Fin 4) :
    fabricFlit n seq c intact (some i) s = (s.flitJudged n seq c intact).laneOut n i := if_pos h

variable (s n c)

theorem flitJudged_of_good (hgood : intact = true ∧ seq = (s.port n).expect) : FlitAt n c 0 s (s.flitJudged n seq c intact) ∧
    (s.flitJudged n seq c intact).port n = { s.port n with expect := ((s.port n).expect + 1) % 4096, awaiting := false, fails := 0 } ∧
    (s.flitJudged n seq c intact).reg (R.FAB_PORT n) = s.reg (R.FAB_PORT n) := by
  obtain ⟨hat, hport, hreg⟩ := s.fecCounted_at n c
  unfold State.flitJudged
  rw [if_pos (by simp [hgood])]
  exact ⟨hat.step n.isLt (State.setPort_step _ _ _), State.port_setPort .., hreg⟩

section
variable (hbad : ¬ (intact = true ∧ seq = (s.port n).expect))
include hbad

theorem flitJudged_of_ignored (hwait : (s.port n).awaiting = true) (hseq : seq ≠ (s.port n).expect) :
    FlitAt n c 0 s (s.flitJudged n seq c intact) ∧ (s.flitJudged n seq c intact).port n = s.port n ∧
    (s.flitJudged n seq c intact).reg (R.FAB_PORT n) = s.reg (R.FAB_PORT n) := by
  unfold State.flitJudged
  rw [if_neg (by simpa using hbad), if_pos (by simp [hwait, hseq])]
  exact s.fecCounted_at n c

/-- The flit discarded and asked for again. -/
def State.flitNaked (s : State) (n c : Nat) : State :=
  ((s.fecCounted c).setPort n { s.port n with awaiting := true, fails := (s.port n).fails + 1 }).count R.FAB_REPLAYS 1

omit hbad in
theorem State.flitNaked_at : FlitAt n c 1 s (s.flitNaked n c) ∧
    (s.flitNaked n c).port n = { s.port n with awaiting := true, fails := (s.port n).fails + 1 } ∧
    (s.flitNaked n c).reg (R.FAB_PORT n) = s.reg (R.FAB_PORT n) := by
  obtain ⟨hat, -, hreg⟩ := s.fecCounted_at n c
  obtain ⟨honly, hfec, hreplays⟩ := hat.step n.isLt (State.setPort_step _ n.val { s.port n with awaiting := true, fails := (s.port n).fails + 1 })
  refine ⟨⟨honly.count 1 (by decide), ?_, ?_⟩, ?_, ?_⟩
  · rw [State.flitNaked, State.fld_count_of_ne _ _ _ (by decide), hfec]
  · rw [State.flitNaked, State.fld_count, hreplays, s.count_mod]
  · rw [State.flitNaked, State.port_count, State.port_setPort]
  · have hregs := (RegsBut.refl [R.FAB_REPLAYS] ((s.fecCounted c).setPort n { s.port n with awaiting := true, fails := (s.port n).fails + 1 })).count 1
      (List.mem_singleton_self _)
    exact (hregs _ fun hm => FAB_PORT_not_flitReg n (by simp_all [flitRegs])).trans hreg

theorem flitJudged_of_naked (hask : (s.port n).awaiting = false ∨ seq = (s.port n).expect) (hfails : (s.port n).fails < 7) :
    s.flitJudged n seq c intact = s.flitNaked n c := by
  unfold State.flitJudged
  rw [if_neg (by simpa using hbad), if_neg (by simpa [or_iff_not_imp_left] using hask)]
  exact if_neg (by omega)

theorem flitJudged_of_eighth (hask : (s.port n).awaiting = false ∨ seq = (s.port n).expect) (hfails : 7 ≤ (s.port n).fails) :
    s.flitJudged n seq c intact = (s.flitNaked n c).portTrain n true := by
  unfold State.flitJudged
  rw [if_neg (by simpa using hbad), if_neg (by simpa [or_iff_not_imp_left] using hask)]
  exact if_pos (by omega)

end

/-- The eighth failure in a row retrains the port that may. -/
theorem State.flitNaked_retrained (hmay : s.portMay n = true) : FlitAt n c 1 s ((s.flitNaked n c).portTrain n true) ∧
    ((s.flitNaked n c).portTrain n true).fld (R.FAB_PORT n) F.FAB_PORT.STATE = PortS.TRAINING ∧
    ((s.flitNaked n c).portTrain n true).fld (R.FAB_PORT n) F.FAB_PORT.LINK_ERR = 1 ∧
    (((s.flitNaked n c).portTrain n true).port n).training = true ∧ (((s.flitNaked n c).portTrain n true).port n).fails = 0 := by
  obtain ⟨hat, hport, -⟩ := s.flitNaked_at n c
  have hmay' : (s.flitNaked n c).portMay n = true := by
    rw [hat.only.portMay_iff (by simp) (by decide), hport]
    exact (s.portMay_iff n).mp hmay
  obtain ⟨hport', hstate, herr⟩ := State.portTrain_of_may (again := true) hmay'
  exact ⟨hat.step n.isLt (State.portTrain_step _ _ _), hstate, herr rfl, by rw [hport'], by rw [hport']⟩

end

/-! ## A lane removed (R419) -/

section
variable {s : State} {n i : Nat} (h : (s.portLanes n).testBit i = true)
include h

theorem two_pow_le_lanes : 2 ^ i ≤ s.portLanes n := Nat.ge_two_pow_of_testBit h

/-- The port narrows; with no lane left it leaves service. -/
theorem State.laneOut_of_in : PortStep n s (s.laneOut n i) ∧ (s.laneOut n i).fld (R.FAB_PORT n) F.FAB_PORT.LINK_ERR = 1 ∧
    (s.laneOut n i).fld (R.FAB_PORT n) F.FAB_PORT.LANES = s.portLanes n - 2 ^ i ∧
    (s.laneOut n i).fld (R.FAB_PORT n) F.FAB_PORT.STATE = if s.portLanes n = 2 ^ i then PortS.DOWN else s.fld (R.FAB_PORT n) F.FAB_PORT.STATE := by
  have hle := two_pow_le_lanes h
  have htop : s.portLanes n ≤ F.FAB_PORT.LANES.top := s.fld_le_top _ _
  unfold State.laneOut
  dsimp only
  rw [if_pos h]
  generalize hs1 : (s.setFld (R.FAB_PORT n) F.FAB_PORT.LANES (s.portLanes n - 2 ^ i)).setFld (R.FAB_PORT n) F.FAB_PORT.LINK_ERR 1 = s1
  have hstep : PortStep n s s1 := hs1 ▸ (s.setFld_step n _ _).trans (State.setFld_step _ n _ _)
  have herr : s1.fld (R.FAB_PORT n) F.FAB_PORT.LINK_ERR = 1 := by
    rw [← hs1, State.fld_setFld _ _ _ _ (by decide)]
    rfl
  have hlanes : s1.fld (R.FAB_PORT n) F.FAB_PORT.LANES = s.portLanes n - 2 ^ i := by
    rw [← hs1, State.fld_setFld_of_disjoint _ _ _ _ _ (by decide) (by decide), State.fld_setFld_of_le _ _ _ (by decide) ((Nat.sub_le _ _).trans htop)]
  have hstate : s1.fld (R.FAB_PORT n) F.FAB_PORT.STATE = s.fld (R.FAB_PORT n) F.FAB_PORT.STATE := by
    rw [← hs1, State.fld_setFld_of_disjoint _ _ _ _ _ (by decide) (by decide), State.fld_setFld_of_disjoint _ _ _ _ _ (by decide) (by decide)]
  by_cases hlast : s.portLanes n = 2 ^ i
  · obtain ⟨hdown, hnone⟩ := s1.fld_portDown n
    rw [if_pos (by omega), if_pos hlast]
    exact ⟨hstep.trans (s1.portDown_step n), (s1.fld_portDown_beside n (by decide)).trans herr, by rw [hnone, hlast, Nat.sub_self], hdown⟩
  · rw [if_neg (by omega), if_neg hlast]
    exact ⟨hstep, herr, hlanes, hstate⟩

end

/-! ## HELLO and the end of training (R419, R421, R423, R442) -/

section
variable {s : State} {n : Fin 16}

theorem hello_of_idle (h : (s.port n).training = false) (v : Word) : hello n v s = s := if_neg (by simp [h])

theorem hello_of_common (h : (s.port n).training = true) {v : Word} (hv : v.bit 0 = true) :
    hello n v s = s.setFld (R.FAB_PORT n) F.FAB_PORT.VERSION 1 := by
  rw [hello, if_pos h, if_pos hv]

/-- No version in common: the port stays down, with a record. -/
def State.versionBad (s : State) (n : Fin 16) : State :=
  ((s.portDown n).setFld (R.FAB_PORT n) F.FAB_PORT.VERSION 0).raise { status := St.FAB_VERSION, sev := Sev.DEFERRED, kind := Uk.PORT, index := n.val }

theorem hello_of_none (h : (s.port n).training = true) {v : Word} (hv : v.bit 0 = false) : hello n v s = s.versionBad n := by
  rw [hello, if_pos h, if_neg (by simp [hv])]
  rfl

theorem State.versionBad_shown (s : State) (n : Fin 16) : (s.versionBad n).fld (R.FAB_PORT n) F.FAB_PORT.STATE = PortS.DOWN ∧
    (s.versionBad n).fld (R.FAB_PORT n) F.FAB_PORT.LANES = 0 ∧ (s.versionBad n).fld (R.FAB_PORT n) F.FAB_PORT.VERSION = 0 ∧
    ((s.versionBad n).port n).training = false ∧ PortsOnly [n.val] [] s (s.versionBad n) := by
  obtain ⟨hstate, hlanes⟩ := s.fld_portDown n
  have hport : ((s.portDown n).port n).training = false := by rw [State.port_portDown]
  refine ⟨?_, ?_, State.fld_setFld (s.portDown n) _ _ _ (by decide), hport, ?_⟩
  · exact (State.fld_setFld_of_disjoint (s.portDown n) _ _ _ _ (by decide) (by decide)).trans hstate
  · exact (State.fld_setFld_of_disjoint (s.portDown n) _ _ _ _ (by decide) (by decide)).trans hlanes
  · exact ((s.portDown_only n).setFldPort _ _ (List.mem_singleton_self _)).raise _

theorem portTrainingDone_of_idle (h : (s.port n).training = false) (l : Nat) : portTrainingDone n l s = s := if_neg (by simp [h])

theorem portTrainingDone_of_none (h : (s.port n).training = true) {l : Nat} (hl : l = 0 ∨ s.fld (R.FAB_PORT n) F.FAB_PORT.VERSION = 0) :
    portTrainingDone n l s = s.portDown n := by
  unfold portTrainingDone
  rw [if_pos h, if_pos (hl.imp_right fun hv => by simp [State.flag, hv])]

/-- A port as its training ends: on the lanes that trained, or, in drift mode, on the lowest of them. -/
def State.portTrained (s : State) (n : Nat) (lanes : Nat) : State :=
  ((s.setPort n { s.port n with training := false }).setPortState n (if (s.port n).drift then PortS.DRIFT else PortS.UP)).setFld (R.FAB_PORT n)
    F.FAB_PORT.LANES (if (s.port n).drift then oneLane lanes else lanes)

theorem portTrainingDone_of_lanes (h : (s.port n).training = true) {l : Nat} (hl : l ≠ 0) (hv : s.fld (R.FAB_PORT n) F.FAB_PORT.VERSION ≠ 0) :
    portTrainingDone n l s = if l = 15 then s.portTrained n l else (s.portTrained n l).setFld (R.FAB_PORT n) F.FAB_PORT.LINK_ERR 1 := by
  unfold portTrainingDone
  rw [if_pos h, if_neg (by simp [State.flag, hl, hv])]
  rfl

theorem oneLane_le {l : Nat} : oneLane l ≤ 15 := by
  unfold oneLane
  split_ifs <;> omega

theorem State.portTrained_shown (s : State) (n : Nat) {l : Nat} (hl : l ≤ 15) : PortStep n s (s.portTrained n l) ∧
    (s.portTrained n l).port n = { s.port n with training := false } ∧
    (s.portTrained n l).fld (R.FAB_PORT n) F.FAB_PORT.STATE = (if (s.port n).drift then PortS.DRIFT else PortS.UP) ∧
    (s.portTrained n l).fld (R.FAB_PORT n) F.FAB_PORT.LANES = (if (s.port n).drift then oneLane l else l) ∧
    (s.portTrained n l).fld (R.FAB_PORT n) F.FAB_PORT.LINK_ERR = s.fld (R.FAB_PORT n) F.FAB_PORT.LINK_ERR := by
  have hstate : (if (s.port n).drift then PortS.DRIFT else PortS.UP) ≤ F.FAB_PORT.STATE.top := by split <;> decide
  have hlanes : (if (s.port n).drift then oneLane l else l) ≤ F.FAB_PORT.LANES.top := by
    split
    · exact oneLane_le
    · exact hl
  refine ⟨((s.setPort_step n _).trans (State.setFld_step _ n _ _)).trans (State.setFld_step _ n _ _), State.port_setPort .., ?_, ?_, ?_⟩
  · rw [State.portTrained, State.fld_setFld_of_disjoint _ _ _ _ _ (by decide) (by decide), State.setPortState, State.fld_setFld_of_le _ _ _ (by decide) hstate]
  · rw [State.portTrained, State.fld_setFld_of_le _ _ _ (by decide) hlanes]
  · rw [State.portTrained, State.fld_setFld_of_disjoint _ _ _ _ _ (by decide) (by decide), State.setPortState,
      State.fld_setFld_of_disjoint _ _ _ _ _ (by decide) (by decide), State.fld_setPort]

end

/-! ## Drift mode (R442) -/

theorem State.portUp_of_reg {s t : State} {n : Nat} (h : t.reg (R.FAB_PORT n) = s.reg (R.FAB_PORT n)) : t.portUp n = s.portUp n := by
  rw [State.portUp, State.portUp, State.portState, State.portState, State.fld, h, State.fld]

/-- What drift mode makes of a port. -/
def Drifted (s : State) (n : Nat) (p : PortSt) (w : Word) : Prop :=
  p = { s.port n with drift := true } ∧
  (s.portUp n = true → portField w F.FAB_PORT.STATE = PortS.DRIFT ∧ portField w F.FAB_PORT.LANES = oneLane (s.portLanes n)) ∧
  (s.portUp n = false → w = s.reg (R.FAB_PORT n))

theorem State.portDrift_drifted {s t : State} {n : Nat} (hport : t.port n = s.port n) (hreg : t.reg (R.FAB_PORT n) = s.reg (R.FAB_PORT n)) :
    PortStep n t (t.portDrift n) ∧ Drifted s n ((t.portDrift n).port n) ((t.portDrift n).reg (R.FAB_PORT n)) := by
  have hset := t.setPort_step n { t.port n with drift := true }
  have hup : (t.setPort n { t.port n with drift := true }).portUp n = s.portUp n := State.portUp_of_reg hreg
  have hlanes : (t.setPort n { t.port n with drift := true }).portLanes n = s.portLanes n := congrArg (Word.get · 5 2) hreg
  unfold State.portDrift
  dsimp only
  cases h : s.portUp n with
  | true =>
    rw [hup, h, if_pos rfl, hlanes]
    refine ⟨(hset.trans (State.setFld_step _ n _ _)).trans (State.setFld_step _ n _ _), ?_, fun _ => ⟨?_, ?_⟩, fun hf => absurd (h.symm.trans hf) (by decide)⟩
    · rw [State.port_setFld, State.setPortState, State.port_setFld, State.port_setPort, hport]
    · rw [State.portField_reg, State.fld_setFld_of_disjoint _ _ _ _ _ (by decide) (by decide), State.setPortState, State.fld_setFld _ _ _ _ (by decide)]
      rfl
    · rw [State.portField_reg, State.fld_setFld_of_le _ _ _ (by decide) oneLane_le]
  | false =>
    rw [hup, h, if_neg Bool.false_ne_true]
    exact ⟨hset, by rw [State.port_setPort, hport], fun hf => absurd (h.symm.trans hf) (by decide), fun _ => hreg⟩

theorem State.allDrift_drifted (s : State) : PortsOnly (List.range 16) [] s s.allDrift ∧ s.allDrift.faults = s.faults ∧
    ∀ n ∈ List.range 16, Drifted s n (s.allDrift.port n) (s.allDrift.reg (R.FAB_PORT n)) :=
  foldl_ports List.nodup_range fun _ _ _ _ hport hreg => State.portDrift_drifted hport hreg

/-- What full operation makes of a port. -/
def Fulled (s : State) (n : Nat) (p : PortSt) (w : Word) : Prop :=
  p.drift = false ∧ portField w F.FAB_PORT.STATE = s.portState n ∧ portField w F.FAB_PORT.LANES = s.portLanes n ∧
  (s.portState n = PortS.DRIFT → p.training = true ∧ portField w F.FAB_PORT.LINK_ERR = 1) ∧
  (s.portState n ≠ PortS.DRIFT → w = s.reg (R.FAB_PORT n) ∧ p.training = (s.port n).training)

theorem State.portFull_fulled {s t : State} {n : Nat} (hport : t.port n = s.port n) (hreg : t.reg (R.FAB_PORT n) = s.reg (R.FAB_PORT n)) :
    PortStep n t (t.portFull n) ∧ Fulled s n ((t.portFull n).port n) ((t.portFull n).reg (R.FAB_PORT n)) := by
  have hstate : t.portState n = s.portState n := congrArg (Word.get · 1 0) hreg
  have hlanes : t.portLanes n = s.portLanes n := congrArg (Word.get · 5 2) hreg
  unfold State.portFull
  dsimp only
  by_cases h : s.portState n = PortS.DRIFT
  · rw [if_pos (hstate.trans h)]
    refine ⟨(t.setPort_step n _).trans (State.setFld_step _ n _ _), ?_, ?_, ?_, fun _ => ⟨?_, ?_⟩, fun hne => absurd h hne⟩
    · rw [State.port_setFld, State.port_setPort]
    · rw [State.portField_reg, State.fld_setFld_of_disjoint _ _ _ _ _ (by decide) (by decide)]
      exact hstate
    · rw [State.portField_reg, State.fld_setFld_of_disjoint _ _ _ _ _ (by decide) (by decide)]
      exact hlanes
    · rw [State.port_setFld, State.port_setPort]
    · rw [State.portField_reg, State.fld_setFld _ _ _ _ (by decide)]
      rfl
  · rw [if_neg (hstate.trans_ne h)]
    refine ⟨t.setPort_step n _, ?_, hstate, hlanes, fun he => absurd he h, fun _ => ⟨hreg, ?_⟩⟩
    · rw [State.port_setPort]
    · rw [State.port_setPort, hport]

theorem State.allFull_fulled (s : State) : PortsOnly (List.range 16) [] s s.allFull ∧ s.allFull.faults = s.faults ∧
    ∀ n ∈ List.range 16, Fulled s n (s.allFull.port n) (s.allFull.reg (R.FAB_PORT n)) :=
  foldl_ports List.nodup_range fun _ _ _ _ hport hreg => State.portFull_fulled hport hreg

/-! ## FAB_CTL carries out one action (R447) -/

section
variable {s : State} {b : Nat} {act : Word → State → Option State} {v : Word}

theorem fabCtl_of_done {t : State} (hv : v.get 5 0 = 2 ^ b) (h : act v s = some t) : fabCtl b act v s = t := by
  rw [fabCtl, if_pos hv, h]

theorem fabCtl_of_declined (hv : v.get 5 0 = 2 ^ b) (h : act v s = none) : fabCtl b act v s = s.raiseReg St.FAB_CTL_REFUSED R.FAB_CTL := by
  rw [fabCtl, if_pos hv, h]

theorem fabCtl_of_beside (hb : b < 6) (hv : v.bit b = true) (hne : v.get 5 0 ≠ 2 ^ b) :
    fabCtl b act v s = s.raiseReg St.FAB_CTL_REFUSED R.FAB_CTL := by
  have hlow := Word.low_bit v hb hv
  have hset : v.get 5 0 ≠ 0 := fun h0 => by
    rw [h0, Nat.zero_mod, Nat.zero_div] at hlow
    exact absurd hlow (by decide)
  rw [fabCtl, if_neg hne, if_pos ⟨hset, hv⟩]

end

end Sys2Proof.Machine
end

section
/-! Taking part in the fabric: a write of FAB_CFG (15_fabric.md, O49). -/

namespace Sys2Proof.Machine

/-! ## The register as written (R445) -/

theorem fieldsApart_FAB_CFG : FieldsApart F.FAB_CFG.all := by unfold FieldsApart; decide

theorem regFields_FAB_CFG : regFields R.FAB_CFG = some F.FAB_CFG.all := by decide

/-- Bits 0 to 51 are all of writable fields. -/
theorem FAB_CFG_writable : ∀ i : Fin 52, ∃ f ∈ F.FAB_CFG.all, f.has i = true ∧ f.ty = .rw := by decide

theorem bit_write_FAB_CFG (old v : Word) {i : Nat} (hi : i < 52) : (writeFields ((regFields R.FAB_CFG).getD []) old v).bit i = v.bit i := by
  obtain ⟨f, hf, hhas, hty⟩ := FAB_CFG_writable ⟨i, hi⟩
  rw [regFields_FAB_CFG, Option.getD_some, bit_writeFields_of_mem fieldsApart_FAB_CFG old v hf hhas, Fld.writeBit, hty]

/-- The identity fields, which change only while STATE is OFF. -/
def identityFields : List Fld := [F.FAB_CFG.PKG, F.FAB_CFG.VOTES, F.FAB_CFG.ANCHOR_ELIG]

theorem identityFields_has {i : Nat} : identityFields.any (·.has i) = true ↔ 2 ≤ i ∧ i ≤ 19 := by
  simp only [identityFields, List.any_cons, List.any_nil, Bool.or_false, Bool.or_eq_true, Fld.has, Bool.and_eq_true, decide_eq_true_eq,
    F.FAB_CFG.PKG, F.FAB_CFG.VOTES, F.FAB_CFG.ANCHOR_ELIG]
  omega

/-- FAB_CFG as a write leaves it. -/
def State.fabCfgWritten (s : State) (v : Word) : State :=
  if s.fabState == FabS.OFF then s.plainWrite R.FAB_CFG v else s.plainWriteBut R.FAB_CFG v identityFields

theorem State.fabCfgWritten_only (s : State) (v : Word) : RegsBut [R.FAB_CFG] s (s.fabCfgWritten v) ∧
    s.fabCfgWritten v = { s with regs := (s.fabCfgWritten v).regs } := by
  unfold State.fabCfgWritten
  split
  · exact (s.plainWrite_frame _ v).symm
  · exact (s.plainWriteBut_frame _ v _).symm

/-- A bit beside the identity fields takes the value written, and in OFF every bit does. -/
theorem State.bit_fabCfgWritten (s : State) (v : Word) {i : Nat} (hi : i < 52) (h : s.fabState = FabS.OFF ∨ i < 2 ∨ 19 < i) :
    ((s.fabCfgWritten v).reg R.FAB_CFG).bit i = v.bit i := by
  unfold State.fabCfgWritten
  split
  · rw [State.reg_plainWrite, bit_write_FAB_CFG _ _ hi]
  · rename_i hst
    have hout : ¬ identityFields.any (·.has i) = true := by
      rw [identityFields_has]
      have hoff : ¬ s.fabState = FabS.OFF := by simpa using hst
      omega
    rw [State.bit_plainWriteBut _ _ _ (by decide), if_neg hout, bit_write_FAB_CFG _ _ hi]

theorem State.get_fabCfgWritten_identity (s : State) (v : Word) (h : s.fabState ≠ FabS.OFF) :
    ((s.fabCfgWritten v).reg R.FAB_CFG).get 19 2 = (s.reg R.FAB_CFG).get 19 2 := by
  unfold State.fabCfgWritten
  rw [if_neg (by simpa using h)]
  refine Word.get_eq_of_bit fun i hlo hhi => ?_
  rw [State.bit_plainWriteBut _ _ _ (by decide), if_pos (identityFields_has.mpr ⟨hlo, hhi⟩)]

theorem State.flag_fabCfgWritten (s : State) (v : Word) :
    (s.fabCfgWritten v).flag R.FAB_CFG F.FAB_CFG.ENABLE = v.bit 0 ∧ (s.fabCfgWritten v).flag R.FAB_CFG F.FAB_CFG.LASER_ON = v.bit 1 := by
  have hflag {i : Nat} (hi : i < 2) : (((s.fabCfgWritten v).reg R.FAB_CFG).get i i != 0) = v.bit i := by
    rw [Word.get_bit, s.bit_fabCfgWritten v (by omega) (.inr (.inl hi))]
    cases v.bit i <;> rfl
  exact ⟨hflag (i := 0) (by omega), hflag (i := 1) (by omega)⟩

/-- A change of the identity fields outside OFF is told. -/
def State.fabCfgNoted (s : State) (v : Word) : State :=
  if !(s.fabState == FabS.OFF) && v.get 19 2 != (s.reg R.FAB_CFG).get 19 2 then (s.fabCfgWritten v).raiseReg St.FAB_CFG_BUSY R.FAB_CFG
  else s.fabCfgWritten v

theorem State.fabCfgNoted_regs (s : State) (v : Word) : (s.fabCfgNoted v).regs = (s.fabCfgWritten v).regs := by
  unfold State.fabCfgNoted
  split <;> rfl

theorem State.fabCfgNoted_frame (s : State) (v : Word) :
    s.fabCfgNoted v = { s with regs := (s.fabCfgNoted v).regs, faults := (s.fabCfgNoted v).faults } := by
  unfold State.fabCfgNoted
  split
  · rw [(s.fabCfgWritten_only v).2]
    rfl
  · rw [(s.fabCfgWritten_only v).2]

theorem State.fabCfgNoted_of_kept {s : State} {v : Word} (h : s.fabState = FabS.OFF ∨ v.get 19 2 = (s.reg R.FAB_CFG).get 19 2) :
    (s.fabCfgNoted v).faults = s.faults := by
  unfold State.fabCfgNoted
  rw [if_neg (by rcases h with h | h <;> simp [h]), (s.fabCfgWritten_only v).2]

theorem State.fabCfgNoted_of_changed {s : State} {v : Word} (hst : s.fabState ≠ FabS.OFF) (h : v.get 19 2 ≠ (s.reg R.FAB_CFG).get 19 2) :
    (s.fabCfgNoted v).lastRaised.map (fun y => (y.status, y.sev)) = some (St.FAB_CFG_BUSY, Sev.INFO) := by
  unfold State.fabCfgNoted
  rw [if_pos (by simp [hst, h])]
  exact congrArg (Option.map _) (State.lastRaised_raise _ _)

/-! ## Ports start (R423, R438) -/

/-- What the start of a port makes of it. -/
def Started (s : State) (n : Nat) (p : PortSt) (w : Word) : Prop :=
  p.drift = (s.port n).drift ∧
  (s.portState n = PortS.DOWN → s.portMay n = true → portField w F.FAB_PORT.STATE = PortS.TRAINING ∧ p.training = true)

theorem State.portsStart_started (s : State) : PortsOnly (List.range 16) [] s s.portsStart ∧ s.portsStart.faults = s.faults ∧
    ∀ n ∈ List.range 16, Started s n (s.portsStart.port n) (s.portsStart.reg (R.FAB_PORT n)) := by
  refine foldl_ports List.nodup_range fun t n _ honly hport hreg => ?_
  have hstate : t.portState n = s.portState n := congrArg (Word.get · 1 0) hreg
  have hmay : t.portMay n = true ↔ s.portMay n = true := by
    rw [honly.portMay_iff (by simp) (by simp), hport, s.portMay_iff]
  split
  · by_cases hm : t.portMay n = true
    · obtain ⟨hport', hstate', -⟩ := State.portTrain_of_may (again := false) hm
      exact ⟨t.portTrain_step n false, by rw [hport', hport], fun _ _ => ⟨hstate', by rw [hport']⟩⟩
    · have hstay : t.portTrain n false = t := State.portTrain_of_may_not (by simpa using hm)
      rw [hstay]
      exact ⟨⟨.refl _ _ t, rfl⟩, by rw [hport], fun _ hms => absurd (hmay.mpr hms) hm⟩
  · rename_i hne
    exact ⟨⟨.refl _ _ t, rfl⟩, by rw [hport], fun hs _ => absurd (hstate.trans hs) hne⟩

/-- Every port out of service. -/
def State.allDown (s : State) : State := (List.range 16).foldl State.portDown s

theorem State.allDown_down (s : State) : PortsOnly (List.range 16) [] s s.allDown ∧ s.allDown.faults = s.faults ∧
    ∀ n ∈ List.range 16, portField (s.allDown.reg (R.FAB_PORT n)) F.FAB_PORT.STATE = PortS.DOWN ∧
      portField (s.allDown.reg (R.FAB_PORT n)) F.FAB_PORT.LANES = 0 ∧ (s.allDown.port n).drift = (s.port n).drift :=
  foldl_ports (Q := fun n p w => portField w F.FAB_PORT.STATE = PortS.DOWN ∧ portField w F.FAB_PORT.LANES = 0 ∧ p.drift = (s.port n).drift)
    List.nodup_range fun t n _ _ hport _ => ⟨t.portDown_step n, (t.fld_portDown n).1, (t.fld_portDown n).2, by rw [State.port_portDown, hport]⟩

/-! ## Joining (R438) -/

/-- The state of a package that begins to join. -/
def State.joinState (s : State) : State := if s.fabState = FabS.OFF then s.setFabState FabS.JOINING else s

theorem State.fabJoin_of_enabled {s : State} (h : s.bound = true ∧ s.flag R.FAB_CFG F.FAB_CFG.ENABLE = true) : s.fabJoin = s.joinState.portsStart :=
  if_pos (by simp [h])

theorem State.fabJoin_of_not {s : State} (h : ¬ (s.bound = true ∧ s.flag R.FAB_CFG F.FAB_CFG.ENABLE = true)) : s.fabJoin = s :=
  if_neg (by simpa using h)

theorem State.joinState_only (s : State) : PortsOnly (List.range 16) [R.FAB_STATUS] s s.joinState ∧ s.joinState.faults = s.faults ∧
    (s.joinState.reg R.FAB_STATUS).get 63 3 = (s.reg R.FAB_STATUS).get 63 3 ∧ (∀ n, s.joinState.port n = s.port n) := by
  unfold State.joinState
  split
  · refine ⟨(PortsOnly.refl _ _ s).setFldBeside _ _ (List.mem_singleton_self _), rfl, ?_, fun _ => rfl⟩
    rw [State.setFabState, State.reg_setFld, Word.get_put_of_disjoint _ _ _ _ _ _ (by decide) (by decide)]
  · exact ⟨.refl _ _ s, rfl, rfl, fun _ => rfl⟩

theorem State.fabState_joinState (s : State) : s.joinState.fabState = if s.fabState = FabS.OFF then FabS.JOINING else s.fabState := by
  unfold State.joinState
  split
  · exact State.fld_setFld _ _ _ _ (by decide)
  · rfl

/-- What the end of a write of FAB_CFG does: the package joins, and ports without their laser leave service. -/
def State.fabSettled (s : State) : State := if s.laserOn then s.fabJoin else s.fabJoin.allDown

structure FabSettled (s t : State) : Prop where
  only : PortsOnly (List.range 16) [R.FAB_STATUS] s t
  faults : t.faults = s.faults
  status : (t.reg R.FAB_STATUS).get 63 3 = (s.reg R.FAB_STATUS).get 63 3
  state : t.fabState = if s.bound = true ∧ s.flag R.FAB_CFG F.FAB_CFG.ENABLE = true ∧ s.fabState = FabS.OFF then FabS.JOINING else s.fabState
  drift : ∀ n < 16, (t.port n).drift = (s.port n).drift

theorem State.fabJoin_settled (s : State) : FabSettled s s.fabJoin := by
  by_cases h : s.bound = true ∧ s.flag R.FAB_CFG F.FAB_CFG.ENABLE = true
  · rw [State.fabJoin_of_enabled h]
    obtain ⟨honly, hfaults, hstatus, hport⟩ := s.joinState_only
    obtain ⟨honly', hfaults', hstarted⟩ := s.joinState.portsStart_started
    have hreg : s.joinState.portsStart.reg R.FAB_STATUS = s.joinState.reg R.FAB_STATUS :=
      honly'.reg_beside (by simp) (by decide) List.not_mem_nil
    refine ⟨honly.trans (honly'.mono (fun _ hm => hm) (by simp)), hfaults'.trans hfaults, by rw [hreg, hstatus], ?_, fun n hn => ?_⟩
    · have hstate : s.joinState.portsStart.fabState = s.joinState.fabState := congrArg (Word.get · 2 0) hreg
      rw [hstate, s.fabState_joinState]
      exact if_congr (by simp [h]) rfl rfl
    · rw [(hstarted n (List.mem_range.mpr hn)).1, hport]
  · rw [State.fabJoin_of_not h]
    exact ⟨.refl _ _ s, rfl, rfl, (if_neg fun hj => h ⟨hj.1, hj.2.1⟩).symm, fun _ _ => rfl⟩

theorem FabSettled.allDown {s t : State} (h : FabSettled s t) : FabSettled s t.allDown := by
  obtain ⟨honly, hfaults, hdown⟩ := t.allDown_down
  have hreg : t.allDown.reg R.FAB_STATUS = t.reg R.FAB_STATUS := honly.reg_beside (by simp) (by decide) List.not_mem_nil
  refine ⟨h.only.trans (honly.mono (fun _ hm => hm) (by simp)), hfaults.trans h.faults, by rw [hreg, h.status], ?_, fun n hn => ?_⟩
  · exact (congrArg (Word.get · 2 0) hreg).trans h.state
  · rw [(hdown n (List.mem_range.mpr hn)).2.2, h.drift n hn]

theorem State.fabSettled_settled (s : State) : FabSettled s s.fabSettled := by
  unfold State.fabSettled
  split
  · exact s.fabJoin_settled
  · exact s.fabJoin_settled.allDown

/-- Without the laser every port is down. -/
theorem State.fabSettled_dark {s : State} (h : s.laserOn = false) {n : Nat} (hn : n < 16) :
    s.fabSettled.fld (R.FAB_PORT n) F.FAB_PORT.STATE = PortS.DOWN ∧ s.fabSettled.fld (R.FAB_PORT n) F.FAB_PORT.LANES = 0 := by
  obtain ⟨-, -, hdown⟩ := s.fabJoin.allDown_down
  obtain ⟨hstate, hlanes, -⟩ := hdown n (List.mem_range.mpr hn)
  rw [State.fabSettled, if_neg (by simp [h])]
  exact ⟨hstate, hlanes⟩

/-- With it, a port that is down, of an engine in service and lit, trains as the package joins or takes part. -/
theorem State.fabSettled_trains {s : State} (hlaser : s.laserOn = true) (hen : s.flag R.FAB_CFG F.FAB_CFG.ENABLE = true) {n : Nat} (hn : n < 16)
    (hdown : s.portState n = PortS.DOWN) (hin : s.fab.oeOut.contains (n / 2) = false) (hlit : (s.port n).dark = false) :
    s.fabSettled.fld (R.FAB_PORT n) F.FAB_PORT.STATE = PortS.TRAINING ∧ (s.fabSettled.port n).training = true := by
  have hbound : s.bound = true := (Bool.and_eq_true _ _ ▸ hlaser).1
  obtain ⟨honly, -, -, hport⟩ := s.joinState_only
  obtain ⟨-, -, hstarted⟩ := s.joinState.portsStart_started
  have hstate : s.joinState.portState n = s.portState n := by
    have hreg : s.joinState.reg (R.FAB_PORT n) = s.reg (R.FAB_PORT n) := by
      unfold State.joinState
      split
      · exact State.reg_setFld_of_ne s _ _ (by simp only [R.FAB_PORT, R.FAB_STATUS]; omega)
      · rfl
    exact congrArg (Word.get · 1 0) hreg
  have hmay : s.joinState.portMay n = true := by
    have hlaser' : s.joinState.laserOn = s.laserOn := by
      unfold State.joinState
      split
      · rw [State.laserOn, State.laserOn, State.bound, State.bound, State.flag, State.flag, State.setFabState,
          State.fld_setFld_of_ne _ _ _ _ (by decide), State.fld_setFld_of_ne _ _ _ _ (by decide)]
      · rfl
    have hnot : s.joinState.fabState ≠ FabS.OFF := by
      rw [s.fabState_joinState]
      split
      · decide
      · assumption
    rw [State.portMay_iff, hlaser', honly.oeOut, hport]
    exact ⟨⟨hnot, hlaser⟩, hin, hlit⟩
  rw [State.fabSettled, if_pos hlaser, State.fabJoin_of_enabled ⟨hbound, hen⟩]
  exact (hstarted n (List.mem_range.mpr hn)).2 (hstate.trans hdown) hmay

/-! ## Leaving at once (R439, R445) -/

theorem State.reg_loseWrite (s : State) (src : Src) (cmd : Nat) (p : Pkg) {o : Nat} (h : o < 0x100000) : (s.loseWrite src cmd p).reg o = s.reg o := by
  unfold State.loseWrite
  split
  · rfl
  · rename_i n
    have hne := ne_C_FENCE_of_lt n h
    dsimp only
    split
    · rfl
    · rw [State.reg_setFld_of_ne _ _ _ hne, State.reg_setFld_of_ne _ _ _ hne]
      rfl
  · rfl

/-- REQs held toward a package are lost; registers below the cores' and memory's bytes stay. -/
theorem State.discardTo_keeps (s : State) (p : Pkg) :
    (∀ o < 0x100000, (s.discardTo p).reg o = s.reg o) ∧ (s.discardTo p).mem.cells = s.mem.cells := by
  let keeps (t : State) : Prop := (∀ o < 0x100000, t.reg o = s.reg o) ∧ t.mem.cells = s.mem.cells
  have hlose {t : State} (ht : keeps t) (src : Src) (cmd : Nat) : keeps (t.loseWrite src cmd p) :=
    ⟨fun o ho => (t.reg_loseWrite src cmd p ho).trans (ht.1 o ho), (congrArg MemSt.cells (t.loseWrite_mem src cmd p)).trans ht.2⟩
  have hwrs := List.foldlRecOn (motive := keeps) (s.mem.wrs.filter fun w => w.dst == Dst.pkg p && p.val != s.pkg)
    (fun t w => (t.loseWrite w.src w.cmd p).dropWr w.id) ⟨fun _ _ => rfl, rfl⟩ fun t ht w _ => hlose ht w.src w.cmd
  exact List.foldlRecOn (motive := keeps) (s.sync.qsigs.filter fun g => g.pkg == some p && p.val != s.pkg)
    (fun t g => t.loseWrite g.src 0 p) hwrs fun t ht g _ => hlose ht g.src 0

end Sys2Proof.Machine
end

section
/-! A package leaves the fabric at once: a write of FAB_CFG that clears ENABLE (15_fabric.md, O49). -/

namespace Sys2Proof.Machine

/-! ## The view emptied (R451) -/

theorem FAB_MEMBER_range (i : Nat) (h : i < 128) : R.FAB_PORT 16 ≤ R.FAB_MEMBER i ∧ R.FAB_MEMBER i < 0x100000 := by
  simp only [R.FAB_PORT, R.FAB_MEMBER]
  omega

theorem State.noMembers_empty (s : State) : RegsBut ((List.range 128).map R.FAB_MEMBER) s s.noMembers ∧ s.noMembers = { s with regs := s.noMembers.regs } ∧
    ∀ i < 128, s.noMembers.reg (R.FAB_MEMBER i) = 0 := by
  have main : ∀ n, RegsBut ((List.range n).map R.FAB_MEMBER) s ((List.range n).foldl (fun t i => t.setReg (R.FAB_MEMBER i) 0) s) ∧
      (List.range n).foldl (fun t i => t.setReg (R.FAB_MEMBER i) 0) s =
        { s with regs := ((List.range n).foldl (fun t i => t.setReg (R.FAB_MEMBER i) 0) s).regs } ∧
      ∀ i < n, ((List.range n).foldl (fun t i => t.setReg (R.FAB_MEMBER i) 0) s).reg (R.FAB_MEMBER i) = 0 := by
    intro n
    induction n with
    | zero => exact ⟨.refl _ s, rfl, fun i hi => absurd hi (Nat.not_lt_zero i)⟩
    | succ n ih =>
      obtain ⟨hregs, hframe, hzero⟩ := ih
      rw [List.range_succ, List.foldl_append, List.foldl_cons, List.foldl_nil]
      refine ⟨(hregs.mono (by simp +contextual)).setReg _ (by simp), ?_, fun i hi => ?_⟩
      · conv_lhs => rw [hframe]
        rfl
      · by_cases hin : i = n
        · rw [hin, State.reg_setReg]
        · have hne : R.FAB_MEMBER i ≠ R.FAB_MEMBER n := by
            simp only [R.FAB_MEMBER]
            omega
          rw [State.reg_setReg_of_ne _ _ hne, hzero i (by omega)]
  exact main 128

/-! ## What leaving sets (R439) -/

/-- The packages toward which REQs are held: writes, quire signals and reads. -/
def State.heldToward (s : State) : List Pkg :=
  (s.mem.wrs.filterMap fun w => match w.dst with | .pkg p => if p.val = s.pkg then none else some p | _ => none) ++ s.sync.qsigs.filterMap (·.pkg) ++
    (s.fab.rds.filterMap fun r => match (s.region r.addr).dst with | .pkg p => some p | _ => none)

/-- Every REQ held toward another package is lost. -/
def State.reqsLost (s : State) : State := s.heldToward.foldl State.discardTo s

theorem State.reqsLost_keeps (s : State) : (∀ o < 0x100000, s.reqsLost.reg o = s.reg o) ∧ s.reqsLost.mem.cells = s.mem.cells :=
  List.foldlRecOn (motive := fun t : State => (∀ o < 0x100000, t.reg o = s.reg o) ∧ t.mem.cells = s.mem.cells) s.heldToward State.discardTo
    ⟨fun _ _ => rfl, rfl⟩ fun t ht p _ =>
    ⟨fun o ho => ((t.discardTo_keeps p).1 o ho).trans (ht.1 o ho), (t.discardTo_keeps p).2.trans ht.2⟩

theorem State.reqsLost_of_none {s : State} (hr : s.fab.rds = []) (hq : s.sync.qsigs = []) (hw : s.mem.wrs = []) : s.reqsLost = s := by
  rw [State.reqsLost, State.heldToward, hr, hq, hw]
  rfl

/-- The tables of traffic and membership emptied. -/
def State.fabEmptied (s : State) : State := { s with fab := { s.fab with pairs := [], taken := [], views := [], joins := [], votes := [] } }

/-- FAB_STATUS and FAB_PENDING of a package outside the fabric. -/
def State.shownOff (s : State) : State :=
  ((((s.setFabState FabS.OFF).setFld R.FAB_STATUS F.FAB_STATUS.LEADER 0).setFld R.FAB_STATUS F.FAB_STATUS.ANCHOR 0).setFld R.FAB_STATUS
    F.FAB_STATUS.FROZEN 0).setReg R.FAB_PENDING 0

theorem State.fabLeft_eq (s : State) : s.fabLeft = s.reqsLost.noMembers.fabEmptied.shownOff.allDrift := rfl

theorem State.shownOff_status (s : State) : s.shownOff.fabState = FabS.OFF ∧ s.shownOff.fld R.FAB_STATUS F.FAB_STATUS.LEADER = 0 ∧
    s.shownOff.fld R.FAB_STATUS F.FAB_STATUS.ANCHOR = 0 ∧ s.shownOff.fld R.FAB_STATUS F.FAB_STATUS.FROZEN = 0 ∧ s.shownOff.reg R.FAB_PENDING = 0 := by
  have hfld (f : Fld) (t : State) : (t.setReg R.FAB_PENDING 0).fld R.FAB_STATUS f = t.fld R.FAB_STATUS f := by
    rw [State.fld, State.reg_setReg_of_ne _ _ (by decide), State.fld]
  refine ⟨?_, ?_, ?_, ?_, State.reg_setReg ..⟩
  · rw [State.fabState, State.shownOff, hfld, State.fld_setFld_of_disjoint _ _ _ _ _ (by decide) (by decide),
      State.fld_setFld_of_disjoint _ _ _ _ _ (by decide) (by decide), State.fld_setFld_of_disjoint _ _ _ _ _ (by decide) (by decide), State.setFabState,
      State.fld_setFld _ _ _ _ (by decide)]
    rfl
  · rw [State.shownOff, hfld, State.fld_setFld_of_disjoint _ _ _ _ _ (by decide) (by decide),
      State.fld_setFld_of_disjoint _ _ _ _ _ (by decide) (by decide), State.fld_setFld _ _ _ _ (by decide)]
    rfl
  · rw [State.shownOff, hfld, State.fld_setFld_of_disjoint _ _ _ _ _ (by decide) (by decide), State.fld_setFld _ _ _ _ (by decide)]
    rfl
  · rw [State.shownOff, hfld, State.fld_setFld _ _ _ _ (by decide)]
    rfl

theorem State.shownOff_regs (s : State) : RegsBut [R.FAB_STATUS, R.FAB_PENDING] s s.shownOff :=
  (((((RegsBut.refl _ s).setReg _ (by simp)).setReg _ (by simp)).setReg _ (by simp)).setReg _ (by simp)).setReg _ (by simp)

/-- What a package that left the fabric shows. -/
structure LeftFabric (s t : State) : Prop where
  state : t.fabState = FabS.OFF
  leader : t.fld R.FAB_STATUS F.FAB_STATUS.LEADER = 0
  anchor : t.fld R.FAB_STATUS F.FAB_STATUS.ANCHOR = 0
  frozen : t.fld R.FAB_STATUS F.FAB_STATUS.FROZEN = 0
  pending : t.reg R.FAB_PENDING = 0
  members : ∀ i < 128, t.reg (R.FAB_MEMBER i) = 0
  drift : ∀ n < 16, (t.port n).drift = true
  pairs : t.fab.pairs = []
  taken : t.fab.taken = []
  cells : t.mem.cells = s.mem.cells
  still : s.fab.rds = [] → s.sync.qsigs = [] → s.mem.wrs = [] → t.mem = s.mem ∧ t.cxs = s.cxs ∧ t.cores = s.cores

theorem PortsOnly.mem {l r : List Nat} {s t : State} (h : PortsOnly l r s t) : t.mem = s.mem := by rw [h.frame]

theorem PortsOnly.cxs {l r : List Nat} {s t : State} (h : PortsOnly l r s t) : t.cxs = s.cxs := by rw [h.frame]

theorem PortsOnly.cores {l r : List Nat} {s t : State} (h : PortsOnly l r s t) : t.cores = s.cores := by rw [h.frame]

/-- Once no package is in the view, the tables are emptied and the registers show it, the package has left. -/
theorem State.left_of_noMembers {s u : State} (hzero : ∀ i < 128, u.reg (R.FAB_MEMBER i) = 0) (hcells : u.mem.cells = s.mem.cells)
    (hstill : s.fab.rds = [] → s.sync.qsigs = [] → s.mem.wrs = [] → u.mem = s.mem ∧ u.cxs = s.cxs ∧ u.cores = s.cores) :
    LeftFabric s u.fabEmptied.shownOff.allDrift ∧ u.fabEmptied.shownOff.allDrift.reg R.FAB_CFG = u.reg R.FAB_CFG := by
  obtain ⟨hst, hlead, hanchor, hfrozen, hpend⟩ := u.fabEmptied.shownOff_status
  have hoff := u.fabEmptied.shownOff_regs
  obtain ⟨honly, -, hdrift⟩ := u.fabEmptied.shownOff.allDrift_drifted
  have hbeside {o : Nat} (ho : o < R.FAB_PORT 0 ∨ R.FAB_PORT 16 ≤ o) : u.fabEmptied.shownOff.allDrift.reg o = u.fabEmptied.shownOff.reg o :=
    honly.reg_beside (by simp) ho List.not_mem_nil
  have hstatus (f : Fld) : u.fabEmptied.shownOff.allDrift.fld R.FAB_STATUS f = u.fabEmptied.shownOff.fld R.FAB_STATUS f :=
    congrArg (Word.get · f.hi f.lo) (hbeside (by decide))
  refine ⟨⟨(hstatus _).trans hst, (hstatus _).trans hlead, (hstatus _).trans hanchor, (hstatus _).trans hfrozen, (hbeside (by decide)).trans hpend,
    fun i hi => ?_, fun n hn => ?_, ?_, ?_, ?_, fun hr hq hw => ?_⟩, ?_⟩
  · rw [hbeside (.inr (FAB_MEMBER_range i hi).1), hoff _ (by simp [R.FAB_STATUS, R.FAB_PENDING, R.FAB_MEMBER]; omega)]
    exact hzero i hi
  · rw [(hdrift n (List.mem_range.mpr hn)).1]
  · rw [honly.fab]
    rfl
  · rw [honly.fab]
    rfl
  · rw [honly.mem]
    exact hcells
  · rw [honly.mem, honly.cxs, honly.cores]
    exact hstill hr hq hw
  · rw [hbeside (by decide), hoff _ (by decide)]
    rfl

theorem State.fabLeft_left (s : State) : LeftFabric s s.fabLeft ∧ s.fabLeft.reg R.FAB_CFG = s.reg R.FAB_CFG := by
  obtain ⟨hkept, hcells⟩ := s.reqsLost_keeps
  obtain ⟨hmembers, hframe, hzero⟩ := s.reqsLost.noMembers_empty
  have hmem : s.reqsLost.noMembers.mem.cells = s.mem.cells := by
    rw [hframe]
    exact hcells
  obtain ⟨hleft, hcfg⟩ := State.left_of_noMembers hzero hmem fun hr hq hw => by
    rw [hframe, State.reqsLost_of_none hr hq hw]
    exact ⟨rfl, rfl, rfl⟩
  rw [s.fabLeft_eq]
  refine ⟨hleft, hcfg.trans ((hmembers R.FAB_CFG fun hm => ?_).trans (hkept R.FAB_CFG (by decide)))⟩
  obtain ⟨i, -, hi⟩ := List.mem_map.mp hm
  simp only [R.FAB_MEMBER, R.FAB_CFG] at hi
  omega

/-- With ENABLE clear the end of the write leaves a package outside the fabric as it left. -/
theorem LeftFabric.settled {s t : State} (h : LeftFabric s t) (hen : t.flag R.FAB_CFG F.FAB_CFG.ENABLE = false) : LeftFabric s t.fabSettled := by
  have hset := t.fabSettled_settled
  have hsame : t.fabJoin = t := State.fabJoin_of_not (by simp [hen])
  obtain ⟨hdown, -, -⟩ := t.allDown_down
  have honly : PortsOnly (List.range 16) [] t t.fabSettled := by
    unfold State.fabSettled
    rw [hsame]
    split
    · exact .refl _ _ t
    · exact hdown
  have hbeside {o : Nat} (ho : o < R.FAB_PORT 0 ∨ R.FAB_PORT 16 ≤ o) : t.fabSettled.reg o = t.reg o := honly.reg_beside (by simp) ho List.not_mem_nil
  have hstatus (f : Fld) : t.fabSettled.fld R.FAB_STATUS f = t.fld R.FAB_STATUS f := congrArg (Word.get · f.hi f.lo) (hbeside (by decide))
  exact {
    state := (hstatus _).trans h.state
    leader := (hstatus _).trans h.leader
    anchor := (hstatus _).trans h.anchor
    frozen := (hstatus _).trans h.frozen
    pending := (hbeside (by decide)).trans h.pending
    members := fun i hi => (hbeside (.inr (FAB_MEMBER_range i hi).1)).trans (h.members i hi)
    drift := fun n hn => (hset.drift n hn).trans (h.drift n hn)
    pairs := by rw [honly.fab]; exact h.pairs
    taken := by rw [honly.fab]; exact h.taken
    cells := (congrArg MemSt.cells honly.mem).trans h.cells
    still := fun hr hq hw => by
      obtain ⟨hm, hc, hk⟩ := h.still hr hq hw
      exact ⟨honly.mem.trans hm, honly.cxs.trans hc, honly.cores.trans hk⟩ }

/-! ## The write of FAB_CFG (R445) -/

section
variable {s : State} {v : Word}

theorem fabCfgAct_of_stay (h : s.fabState = FabS.OFF ∨ v.bit 0 = true) : fabCfgAct v s = (s.fabCfgNoted v).fabSettled := by
  have hflag : (s.fabCfgNoted v).flag R.FAB_CFG F.FAB_CFG.ENABLE = v.bit 0 := by
    rw [← (s.flag_fabCfgWritten v).1, State.flag, State.fld, State.reg, s.fabCfgNoted_regs]
    rfl
  have hstay : (s.fabState == FabS.OFF || (s.fabCfgNoted v).flag R.FAB_CFG F.FAB_CFG.ENABLE) = true := by
    rw [hflag]
    rcases h with h | h <;> simp [h]
  exact congrArg State.fabSettled (if_pos hstay)

theorem fabCfgAct_of_leave (hst : s.fabState ≠ FabS.OFF) (h : v.bit 0 = false) : fabCfgAct v s = (s.fabCfgNoted v).fabLeft.fabSettled := by
  have hflag : (s.fabCfgNoted v).flag R.FAB_CFG F.FAB_CFG.ENABLE = v.bit 0 := by
    rw [← (s.flag_fabCfgWritten v).1, State.flag, State.fld, State.reg, s.fabCfgNoted_regs]
    rfl
  have hgo : ¬ (s.fabState == FabS.OFF || (s.fabCfgNoted v).flag R.FAB_CFG F.FAB_CFG.ENABLE) = true := by
    rw [hflag, h]
    simp [hst]
  exact congrArg State.fabSettled (if_neg hgo)

end

end Sys2Proof.Machine
end

section
/-! The fabric ports, settled (15_fabric.md, O49). -/

namespace Sys2Proof.Machine

theorem State.portUp_iff (s : State) (n : Nat) : s.portUp n = true ↔
    s.fld (R.FAB_PORT n) F.FAB_PORT.STATE = PortS.UP ∨ s.fld (R.FAB_PORT n) F.FAB_PORT.STATE = PortS.DRIFT := by
  rw [State.portUp, Bool.or_eq_true, beq_iff_eq, beq_iff_eq, State.portState]

theorem State.laserOn_iff (s : State) : s.laserOn = true ↔
    s.fld R.BIND_STATUS F.BIND_STATUS.STATE = 2 ∧ s.fld R.FAB_CFG F.FAB_CFG.LASER_ON = 1 := by
  have htop : s.fld R.FAB_CFG F.FAB_CFG.LASER_ON ≤ 1 := s.fld_le_top _ _
  rw [State.laserOn, Bool.and_eq_true, State.bound_iff, State.flag, bne_iff_ne]
  omega

/-- The lowest lane of a set of lanes, by division. -/
theorem oneLane_eq (l : Nat) : oneLane l = if l % 2 = 1 then 1 else if l / 2 % 2 = 1 then 2 else if l / 4 % 2 = 1 then 4 else if l / 8 % 2 = 1 then 8 else 0 := by
  simp [oneLane, Nat.testBit_eq_decide_div_mod_eq]

/-- Of the ports of `l` alone, and the registers of `r`, an operation makes something else. -/
theorem PortsOnly.others {l r : List Nat} {s t : State} (h : PortsOnly l r s t) :
    (∀ k, k ∉ l → t.port k = s.port k) ∧ RegsBut (l.map R.FAB_PORT ++ r) s t ∧ t.fab = { s.fab with ports := t.fab.ports } :=
  ⟨h.port, h.regs, h.fab⟩

theorem State.refusedCtl_shown (s : State) :
    (s.raiseReg St.FAB_CTL_REFUSED R.FAB_CTL).lastRaised.map (fun y => (y.status, y.sev)) = some (St.FAB_CTL_REFUSED, Sev.INFO) :=
  congrArg (Option.map _) (State.lastRaised_raise s _)

/-- Two ports of an engine. -/
theorem enginePorts (oe : Fin 8) : [2 * oe.val, 2 * oe.val + 1].Nodup ∧ (∀ n ∈ [2 * oe.val, 2 * oe.val + 1], n < 16 ∧ n / 2 = oe.val) := by
  constructor
  · simp
  · simp only [List.mem_cons, List.not_mem_nil, or_false]
    omega

section
variable {s : State} (hon : s.On) {w : RegW} {v : Word}
include hon

/-- What an action of FAB_CTL that stands beside another does. -/
theorem fabCtl_beside_refused {c : Instr} {b : Nat} {act : Word → State → Option State} (hc : exec c s = s.whileOn (s.onWrite w R.FAB_CTL (fabCtl b act)))
    (hw : s.Writes w R.FAB_CTL v) (hb : b < 6) (hv : v.bit b = true) (hne : v.get 5 0 ≠ 2 ^ b) :
    Answers c s fun t => t.lastRaised.map (fun y => (y.status, y.sev)) = some (St.FAB_CTL_REFUSED, Sev.INFO) ∧ t = { s with faults := t.faults } := by
  have hexec : exec c s = .next (fabCtl b act v s) := hc.trans (State.whileOn_write _ hon hw)
  rw [fabCtl_of_beside hb hv hne] at hexec
  exact .of hexec ⟨s.refusedCtl_shown, rfl⟩

/-- What a lone action of FAB_CTL does. -/
theorem exec_fabCtl {c : Instr} {b : Nat} {act : Word → State → Option State} {t : State} (hc : exec c s = s.whileOn (s.onWrite w R.FAB_CTL (fabCtl b act)))
    (hw : s.Writes w R.FAB_CTL v) (hv : v.get 5 0 = 2 ^ b) (h : act v s = some t) : exec c s = .next t :=
  hc.trans ((State.whileOn_write _ hon hw).trans (congrArg Host.Outcome.next (fabCtl_of_done hv h)))

end

/-! ## The write of FAB_CFG, clause by clause (R438, R445) -/

section
variable (s : State) (v : Word)

theorem State.reg_fabCfgNoted (o : Nat) : (s.fabCfgNoted v).reg o = (s.fabCfgWritten v).reg o := by rw [State.reg, s.fabCfgNoted_regs, State.reg]

theorem State.fab_fabCfgNoted : (s.fabCfgNoted v).fab = s.fab := by rw [s.fabCfgNoted_frame v]

theorem State.fabCfgNoted_only : PortsOnly [] [R.FAB_CFG] s (s.fabCfgNoted v) where
  port n _ := by rw [s.fabCfgNoted_frame v]; rfl
  regs o ho := (s.reg_fabCfgNoted v o).trans ((s.fabCfgWritten_only v).1 o ho)
  fab := by rw [s.fab_fabCfgNoted v]
  frame := by
    rw [s.fab_fabCfgNoted v]
    exact s.fabCfgNoted_frame v

theorem State.fabState_fabCfgNoted : (s.fabCfgNoted v).fabState = s.fabState :=
  (s.fabCfgNoted_only v).fld_beside (by simp) (by decide) (by decide) _

theorem State.bound_fabCfgNoted : (s.fabCfgNoted v).bound = s.bound :=
  congrArg (· == 2) ((s.fabCfgNoted_only v).fld_beside (o := R.BIND_STATUS) (by simp) (by decide) (by decide) F.BIND_STATUS.STATE)

theorem State.flag_fabCfgNoted : (s.fabCfgNoted v).flag R.FAB_CFG F.FAB_CFG.ENABLE = v.bit 0 ∧ (s.fabCfgNoted v).flag R.FAB_CFG F.FAB_CFG.LASER_ON = v.bit 1 := by
  have hflag := s.flag_fabCfgWritten v
  simp only [State.flag, State.fld, s.reg_fabCfgNoted] at hflag ⊢
  exact hflag

/-- What a write of FAB_CFG shows that does not leave the fabric: the frame, the state and the ports. -/
structure FabCfgStay (t : State) : Prop where
  only : PortsOnly (List.range 16) [R.FAB_CFG, R.FAB_STATUS] s t
  status : (t.reg R.FAB_STATUS).get 63 3 = (s.reg R.FAB_STATUS).get 63 3
  cfg : t.reg R.FAB_CFG = (s.fabCfgWritten v).reg R.FAB_CFG
  faults : t.faults = (s.fabCfgNoted v).faults
  state : t.fabState = if s.bound = true ∧ v.bit 0 = true ∧ s.fabState = FabS.OFF then FabS.JOINING else s.fabState
  dark : ¬ (s.bound = true ∧ v.bit 1 = true) → ∀ n < 16, t.fld (R.FAB_PORT n) F.FAB_PORT.STATE = PortS.DOWN ∧ t.fld (R.FAB_PORT n) F.FAB_PORT.LANES = 0
  trains : s.bound = true → v.bit 1 = true → v.bit 0 = true → ∀ n < 16, s.portState n = PortS.DOWN → s.fab.oeOut.contains (n / 2) = false →
    (s.port n).dark = false → t.fld (R.FAB_PORT n) F.FAB_PORT.STATE = PortS.TRAINING ∧ (t.port n).training = true

theorem State.fabCfgNoted_stay : FabCfgStay s v (s.fabCfgNoted v).fabSettled := by
  have honly := s.fabCfgNoted_only v
  obtain ⟨henable, hlaser⟩ := s.flag_fabCfgNoted v
  have hlaserOn : (s.fabCfgNoted v).laserOn = (s.bound && v.bit 1) := by rw [State.laserOn, s.bound_fabCfgNoted, hlaser]
  have hset := (s.fabCfgNoted v).fabSettled_settled
  refine ⟨(honly.mono (by simp) (by simp)).trans (hset.only.mono (fun _ hm => hm) (by simp)), ?_, ?_, hset.faults, ?_, fun h n hn => ?_,
    fun hb hl he n hn hdown hin hlit => ?_⟩
  · rw [hset.status, honly.reg_beside (by simp) (by decide) (by decide)]
  · rw [hset.only.reg_beside (by simp) (by decide) (by decide), s.reg_fabCfgNoted]
  · rw [hset.state, s.bound_fabCfgNoted, henable, s.fabState_fabCfgNoted]
  · exact State.fabSettled_dark (by rw [hlaserOn]; simpa using h) hn
  · refine State.fabSettled_trains (by rw [hlaserOn, hb, hl]; rfl) (henable.trans he) hn (Eq.trans ?_ hdown) (by rw [honly.oeOut]; exact hin) ?_
    · exact congrArg (Word.get · 1 0) (honly.regs _ (by simp [R.FAB_PORT, R.FAB_CFG]; omega))
    · rw [honly.port n List.not_mem_nil]
      exact hlit

variable {s v}

theorem State.get_fabCfgWritten {hi lo : Nat} (hhi : hi < 52) (h : s.fabState = FabS.OFF ∨ hi < 2 ∨ 19 < lo) :
    ((s.fabCfgWritten v).reg R.FAB_CFG).get hi lo = v.get hi lo :=
  Word.get_eq_of_bit fun i _ _ => s.bit_fabCfgWritten v (by omega) (by omega)

end

/-- Settles O49. A walk over ports one after another does at each what it does to the port as it was (`foldl_ports`); each clause then reads
what one operation makes of its port. -/
theorem fabricPorts : Obligations.FabricPorts := by
  intro s hon taking may others shows err up lanes lowest told refused
  have htaking : taking → s.fabState ≠ FabS.OFF ∧ s.laserOn = true := fun ⟨hb, hl, hst⟩ => ⟨hst, s.laserOn_iff.mpr ⟨hb, hl⟩⟩
  have hup (n : Nat) : s.portUp n = true ↔ up n := s.portUp_iff n
  have hnup {n : Nat} (h : ¬ up n) : s.portUp n = false := by rw [← Bool.not_eq_true, hup]; exact h
  have hlowest (l : Nat) : oneLane l = lowest l := oneLane_eq l
  refine ⟨fun oe => ?_, fun n seq c intact => ?_, fun n => ?_, fun w v hw => ?_, fun w v hw => ?_⟩
  · intro l
    obtain ⟨hnd, hl⟩ := enginePorts oe
    have hloss : exec (.lightLoss oe) s = .next (lightLoss oe s) := State.whileOn_on _ hon
    have hback : exec (.lightReturn oe) s = .next (lightReturn oe s) := State.whileOn_on _ hon
    refine ⟨fun hst hin hlit => ?_, fun h => ?_, fun h hmay => ?_, fun h => ?_⟩
    · obtain ⟨honly, -, hshown⟩ := portsDark s l hnd
      rw [lightLoss_of_lit hst hin hlit] at hloss
      refine .of hloss ⟨fun n hn => ?_, congrArg (Option.map _) (State.lastRaised_raise _ _), (honly.raise _).others, (honly.raise _).frame⟩
      obtain ⟨hstate, hlanes, hport⟩ := hshown n hn
      exact ⟨⟨hstate, hlanes⟩, hport⟩
    · rw [hloss, lightLoss_of_dark h]
    · obtain ⟨honly, hfaults, hshown⟩ := portsLit s l hnd (fun n hn => (hl n hn).1) fun n hn => by
        rw [(hl n hn).2]
        exact ⟨htaking hmay.1, by simpa using hmay.2⟩
      rw [lightReturn_of_dark h] at hback
      exact .of hback ⟨hshown, honly.others, honly.frame_of_faults hfaults⟩
    · rw [hback, lightReturn_of_lit h]
  · intro x o good fec replays only
    have hexec (lane : Option (Fin 4)) : exec (.fabricFlit n seq c intact lane) s = .next (fabricFlit n seq.toNat c intact lane s) := State.whileOn_on _ hon
    have hreplays0 {t : State} {k : Nat} (h : FlitAt n k 0 s t) : replays t = replays s := h.replays.trans (s.count_mod _)
    have honly {t : State} {k r : Nat} (h : FlitAt n k r s t) : only t := ⟨h.only.others, h.only.frame⟩
    have hjudged (h : up n) : exec (.fabricFlit n seq c intact none) s = .next (s.flitJudged n seq.toNat c intact) := by
      rw [hexec, fabricFlit_of_up ((hup n).mpr h)]
    refine ⟨fun h lane => ?_, fun h hgood => ?_, fun h hbad hwait hseq => ?_, fun h hbad hask hfails => ?_, fun h hbad hask hfails hmay hlit => ?_,
      fun i h hgood hi => ?_⟩
    · rw [hexec, fabricFlit_of_down (hnup h)]
    · obtain ⟨hat, hport, hreg⟩ := flitJudged_of_good s n c hgood
      exact .of (hjudged h) ⟨hport, hat.fec, hreplays0 hat, hreg, honly hat⟩
    · obtain ⟨hat, hport, hreg⟩ := flitJudged_of_ignored s n c hbad hwait hseq
      exact .of (hjudged h) ⟨hport, hat.fec, hreplays0 hat, hreg, honly hat⟩
    · obtain ⟨hat, hport, hreg⟩ := s.flitNaked_at n c
      have hrun := hjudged h
      rw [flitJudged_of_naked s n c hbad hask hfails] at hrun
      exact .of hrun ⟨hport, hat.fec, hat.replays, hreg, honly hat⟩
    · obtain ⟨hat, hstate, herr, htrain, hzero⟩ := s.flitNaked_retrained n c ((s.portMay_iff n).mpr ⟨htaking hmay.1, hmay.2, hlit⟩)
      have hrun := hjudged h
      rw [flitJudged_of_eighth s n c hbad hask hfails] at hrun
      exact .of hrun ⟨hstate, herr, htrain, hzero, hat.fec, hat.replays, honly hat⟩
    · obtain ⟨hat, -, hreg⟩ := flitJudged_of_good s n c hgood
      have hlanes : (s.flitJudged n seq.toNat c intact).portLanes n = lanes n := congrArg (Word.get · 5 2) hreg
      have hstate0 : (s.flitJudged n seq.toNat c intact).fld o F.FAB_PORT.STATE = s.fld o F.FAB_PORT.STATE := congrArg (Word.get · 1 0) hreg
      obtain ⟨hstep, herr, hleft, hstate⟩ := State.laneOut_of_in (i := i) (hlanes ▸ hi)
      rw [hlanes] at hleft hstate
      rw [hstate0] at hstate
      have hat' := hat.step n.isLt hstep
      refine .of ((hexec _).trans (congrArg _ (fabricFlit_lane ((hup n).mpr h) i))) ⟨herr, ⟨hstate, hleft⟩, hat'.fec, honly hat'⟩
  · intro x o
    have hhello (versions : BitVec 16) : exec (.hello n versions) s = .next (hello n (BitVec.ofNat 64 versions.toNat) s) := State.whileOn_on _ hon
    have hdone (l : BitVec 4) : exec (.portTrainingDone n l) s = .next (portTrainingDone n l.toNat s) := State.whileOn_on _ hon
    have hbit (versions : BitVec 16) : Word.bit (BitVec.ofNat 64 versions.toNat) 0 = versions.getLsbD 0 := by
      rw [Word.bit, BitVec.testBit_toNat, BitVec.getLsbD_ofNat, BitVec.testBit_toNat]
      rfl
    refine ⟨fun htrain => ⟨fun versions => ⟨fun hv => ?_, fun hv => ?_⟩, fun l => ⟨fun hl hv => ?_, fun hl => ?_⟩⟩, fun hidle => ⟨fun versions => ?_, fun l => ?_⟩⟩
    · rw [← hbit] at hv
      have hrun := hhello versions
      rw [hello_of_common htrain hv] at hrun
      exact .of hrun ⟨State.fld_setFld _ _ _ _ (by decide), (RegsBut.refl _ s).setReg _ (List.mem_singleton_self _), rfl⟩
    · rw [← hbit] at hv
      have hrun := hhello versions
      rw [hello_of_none htrain hv] at hrun
      obtain ⟨hstate, hlanes, hversion, hport, honly⟩ := s.versionBad_shown n
      exact .of hrun ⟨⟨hstate, hlanes⟩, hversion, hport, congrArg (Option.map _) (State.lastRaised_raise _ _), honly.others, honly.frame⟩
    · have hl0 : l.toNat ≠ 0 := fun h0 => hl (BitVec.eq_of_toNat_eq h0)
      have hl15 : (l = 15) ↔ l.toNat = 15 := by rw [← BitVec.toNat_inj]; rfl
      have hrun := hdone l
      rw [portTrainingDone_of_lanes htrain hl0 hv] at hrun
      obtain ⟨hstep, hport, hstate, hlanes, herr⟩ := s.portTrained_shown n (l := l.toNat) (by omega)
      rw [hlowest] at hlanes
      by_cases h15 : l.toNat = 15
      · rw [if_pos h15] at hrun
        refine .of hrun ⟨⟨hstate, hlanes⟩, ?_, hport, hstep.only.others, hstep.only.frame_of_faults hstep.faults⟩
        rw [if_pos (hl15.mpr h15)]
        exact herr
      · rw [if_neg h15] at hrun
        have hstep' := hstep.trans (State.setFld_step _ n F.FAB_PORT.LINK_ERR 1)
        refine .of hrun ⟨⟨?_, ?_⟩, ?_, hport, hstep'.only.others, hstep'.only.frame_of_faults hstep'.faults⟩
        · rw [State.fld_setFld_of_disjoint _ _ _ _ _ (by decide) (by decide)]
          exact hstate
        · rw [State.fld_setFld_of_disjoint _ _ _ _ _ (by decide) (by decide)]
          exact hlanes
        · rw [if_neg fun h => h15 (hl15.mp h)]
          exact State.fld_setFld _ _ _ _ (by decide)
    · have hrun := hdone l
      rw [portTrainingDone_of_none htrain (hl.imp_left fun h0 => by rw [h0]; rfl)] at hrun
      have hstep := s.portDown_step n
      exact .of hrun ⟨s.fld_portDown n, by rw [State.port_portDown], hstep.only.others, hstep.only.frame_of_faults hstep.faults⟩
    · rw [hhello, hello_of_idle hidle]
    · rw [hdone, portTrainingDone_of_idle hidle]
  · refine ⟨fun hv => ?_, fun hv => ?_, fun hv hst => ?_, fun hv hst => ?_, fun hb hv => ?_, fun hb hv => ?_, fun hb hv => ?_, fun hb hv => ?_, fun hb hv => ?_,
      fun hb hv => ?_⟩
    · obtain ⟨honly, hfaults, hdrift⟩ := s.allDrift_drifted
      refine .of (exec_fabCtl hon rfl hw hv rfl) ⟨honly.others, honly.frame_of_faults hfaults, fun n => ?_⟩
      obtain ⟨hport, hin, hout⟩ := hdrift n (List.mem_range.mpr n.isLt)
      refine ⟨hport, fun h => ?_, fun h => hout (hnup h)⟩
      obtain ⟨hstate, hlanes⟩ := hin ((hup n).mpr h)
      exact ⟨hstate, hlanes.trans (hlowest _)⟩
    · obtain ⟨honly, hfaults, hfull⟩ := s.allFull_fulled
      refine .of (exec_fabCtl hon rfl hw hv rfl) ⟨honly.others, honly.frame_of_faults hfaults, fun n => ?_⟩
      obtain ⟨hdrift, hstate, hlanes, htrain, hstay⟩ := hfull n (List.mem_range.mpr n.isLt)
      exact ⟨hdrift, ⟨hstate, hlanes⟩, htrain, hstay⟩
    · refine .of (exec_fabCtl hon rfl hw hv (if_pos hst)) ⟨State.fld_setFld _ _ _ _ (by decide), ?_, (RegsBut.refl _ s).setReg _ (List.mem_singleton_self _), rfl⟩
      rw [State.fabState, State.fld_setFld_of_disjoint _ _ _ _ _ (by decide) (by decide)]
      exact hst
    · have hrun : exec (.thaw w) s = .next _ := State.whileOn_write _ hon hw
      rw [fabCtl_of_declined hv (if_neg hst)] at hrun
      exact .of hrun ⟨s.refusedCtl_shown, rfl⟩
    · exact fabCtl_beside_refused hon rfl hw (by decide) hb hv
    · exact fabCtl_beside_refused hon rfl hw (by decide) hb hv
    · exact fabCtl_beside_refused hon rfl hw (by decide) hb hv
    · exact fabCtl_beside_refused hon rfl hw (by decide) hb hv
    · exact fabCtl_beside_refused hon rfl hw (by decide) hb hv
    · exact fabCtl_beside_refused hon rfl hw (by decide) hb hv
  · intro bound ports frame
    have hexec : exec (.fabCfgWrite w) s = .next (fabCfgAct v s) := State.whileOn_write _ hon hw
    have hbound : s.bound = true ↔ bound := s.bound_iff
    have hstay := s.fabCfgNoted_stay v
    have hports : ports (s.fabCfgNoted v).fabSettled := fun n =>
      ⟨fun h => hstay.dark (by rwa [hbound]) n n.isLt, fun hb hl hdown hin hlit he => hstay.trains (hbound.mpr hb) hl he n n.isLt hdown hin hlit⟩
    have hframe : frame (s.fabCfgNoted v).fabSettled := ⟨hstay.only.others, hstay.only.frame, hstay.status⟩
    refine ⟨fun hst => ?_, fun hst he => ?_, fun hst he => ?_⟩
    · rw [fabCfgAct_of_stay (.inl hst)] at hexec
      refine .of hexec ⟨?_, ?_, hstay.faults.trans (State.fabCfgNoted_of_kept (.inl hst)), hports, hframe⟩
      · rw [hstay.cfg]
        exact State.get_fabCfgWritten (by decide) (.inl hst)
      · rw [hstay.state]
        refine if_congr ?_ rfl hst
        rw [hbound]
        exact and_congr_right' (and_iff_left hst)
    · rw [fabCfgAct_of_stay (.inr he)] at hexec
      refine .of hexec ⟨?_, ?_, ?_, fun h => ?_, fun h => hstay.faults.trans (State.fabCfgNoted_of_kept (.inr h)), ?_, hports, hframe⟩
      · rw [hstay.cfg]
        exact s.get_fabCfgWritten_identity v hst
      · rw [hstay.cfg]
        exact State.get_fabCfgWritten (by decide) (.inr (.inr (by decide)))
      · rw [hstay.cfg]
        exact State.get_fabCfgWritten (by decide) (.inr (.inl (by decide)))
      · have hraised := State.fabCfgNoted_of_changed hst h
        rw [State.lastRaised, hstay.faults]
        exact hraised
      · rw [hstay.state]
        exact if_neg fun h => hst h.2.2
    · rw [fabCfgAct_of_leave hst he] at hexec
      obtain ⟨hleft, hcfg⟩ := (s.fabCfgNoted v).fabLeft_left
      have honly := s.fabCfgNoted_only v
      have hflag : (s.fabCfgNoted v).fabLeft.flag R.FAB_CFG F.FAB_CFG.ENABLE = false := by
        rw [State.flag, State.fld, hcfg]
        exact (s.flag_fabCfgNoted v).1.trans he
      have ht := hleft.settled hflag
      refine .of hexec ⟨ht.state, fun p => ?_, fun n => ht.drift n n.isLt, ht.leader, ht.anchor, ht.frozen, ht.pending, ht.pairs, ht.taken, ?_,
        fun hr hq hw' => ?_⟩
      · rw [State.isMember, ht.members _ (by omega)]
        exact BitVec.getLsbD_zero
      · rw [ht.cells, honly.mem]
      · have hstill := ht.still (by rw [honly.fab]; exact hr) (by rw [honly.frame]; exact hq) (by rw [honly.mem]; exact hw')
        rwa [honly.mem, honly.cxs, honly.cores] at hstill

end Sys2Proof.Machine
end

section
/-! Full/empty operations at their word's home (13_quires.md, O24). -/

namespace Sys2Proof.Machine

/-! ## Copies of a line taken back at its home (R312, R315) -/

/-- Taking back a line's copies may count a snoop, and keeps the sync unit and the form of memory. -/
structure TakenBack (s t : State) : Prop where
  regs : RegsBut [R.HL_BISNP] s t
  sync : t.sync = s.sync
  memOk : s.memOk → t.memOk

section
variable {s t : State}

theorem TakenBack.refl (s : State) : TakenBack s s := ⟨.refl _ s, rfl, id⟩

theorem TakenBack.count (h : TakenBack s t) : TakenBack s (t.count R.HL_BISNP 1) :=
  ⟨h.regs.count 1 (List.mem_singleton_self _), (t.count_sync _ _).trans h.sync, fun hm => by
    rw [State.memOk, State.count_frame]
    exact h.memOk hm⟩

theorem TakenBack.setDir (h : TakenBack s t) (line : Nat) (x : Option DirSt) : TakenBack s (t.setDir line x) := ⟨h.regs, h.sync, h.memOk⟩

theorem TakenBack.setHeld (h : TakenBack s t) (a : CAgent) (line : Nat) (x : CLine) : TakenBack s (t.setHeld a line x) := by
  cases a <;> exact ⟨h.regs, h.sync, h.memOk⟩

theorem TakenBack.dropCopy (h : TakenBack s t) (a : CAgent) (line : Nat) : TakenBack s (t.dropCopy a line) := by
  cases a <;> exact ⟨h.regs, h.sync, h.memOk⟩

theorem TakenBack.returnData (h : TakenBack s t) (line : Nat) (bs : List Byte) : TakenBack s (t.returnData line bs) :=
  ⟨h.regs, h.sync, fun hm => Memory.writeBytes_wf _ _ (h.memOk hm)⟩

theorem State.homeShare_takenBack (s : State) (line : Nat) : TakenBack s (s.homeShare line) := by
  unfold State.homeShare
  split
  · rename_i a _
    have hcount : TakenBack s (if a = .host then s.count R.HL_BISNP 1 else s) := by
      split
      · exact (TakenBack.refl s).count
      · exact .refl s
    dsimp only
    split
    · refine TakenBack.setDir (TakenBack.setHeld ?_ _ _ _) _ _
      split
      · exact hcount.returnData _ _
      · exact hcount
    · exact hcount.setDir _ _
  · exact .refl s

theorem State.homeInval_takenBack (s : State) (line : Nat) (keep : Option CAgent) : TakenBack s (s.homeInval line keep) := by
  unfold State.homeInval
  dsimp only
  refine TakenBack.setDir ?_ _ _
  refine List.foldlRecOn (motive := TakenBack s) _ _ ?_ fun t ht a _ => ht.dropCopy a line
  split
  · exact (s.homeShare_takenBack line).count
  · exact s.homeShare_takenBack line

end

/-! ## A write of memory at its home (R315) -/

section
variable (s : State) (line mask : Nat) (data : List Byte) (whole : Bool) (cmd : Nat) (poison : Bool)

theorem State.writeIce_regs : (s.writeIce line mask data whole cmd poison).regs = s.regs := by
  unfold State.writeIce
  extract_lets merged m0 s1 s2 s3
  split_ifs <;> rfl

theorem State.writeIce_sync : (s.writeIce line mask data whole cmd poison).sync = s.sync := by
  unfold State.writeIce
  extract_lets merged m0 s1 s2 s3
  split_ifs <;> rfl

variable {s line}

theorem State.acceptAt_of_isMem (h : (s.region line).isMem = true) : s.acceptAt line mask data whole cmd poison =
    ((s.homeInval line none).writeIce line mask data whole cmd poison).breakResv line none := by
  unfold State.acceptAt
  cases hr : s.region line <;> simp [hr, Region.isMem] at h ⊢

theorem State.acceptAt_regs (h : (s.region line).isMem = true) : RegsBut [R.HL_BISNP] s (s.acceptAt line mask data whole cmd poison) := by
  rw [State.acceptAt_of_isMem _ _ _ _ _ h]
  exact (s.homeInval_takenBack line none).regs.of_regs (State.writeIce_regs ..)

theorem State.acceptAt_sync (h : (s.region line).isMem = true) : (s.acceptAt line mask data whole cmd poison).sync = s.sync := by
  rw [State.acceptAt_of_isMem _ _ _ _ _ h]
  exact (State.writeIce_sync ..).trans (s.homeInval_takenBack line none).sync

end

/-! ## A word and its bit (R260, R387) -/

/-- Eight bytes written at an aligned word are read back there. -/
theorem State.read_acceptAt_word {s : State} {k : Nat} (h : (s.region (k / 64 * 64)).isMem = true) (hk : k % 8 = 0) (hm : s.memOk) (v : Word) {i : Nat}
    (hi : i < 8) : Memory.read (k + i)
      (s.acceptAt (k / 64 * 64) (byteMask (k % 64) 8) (atOffset (k % 64) (leBytes 8 v.toNat)) false 0 false).mem.cells = BitVec.ofNat 8 (v.toNat >>> (8 * i)) := by
  have hlen : (leBytes 8 v.toNat).length = 8 := length_leBytes _ _
  have hwf := State.mergedCells_wf ((s.homeInval_takenBack (k / 64 * 64) none).memOk hm) (k / 64 * 64)
  have hcells : (s.acceptAt (k / 64 * 64) (byteMask (k % 64) 8) (atOffset (k % 64) (leBytes 8 v.toNat)) false 0 false).mem.cells =
      Memory.writeBytes k (leBytes 8 v.toNat) ((s.homeInval (k / 64 * 64) none).mergedCells (k / 64 * 64)) := by
    have hmask := Memory.writeMask_atOffset (k / 64 * 64) (k % 64) (bs := leBytes 8 v.toNat) (by omega)
      ((s.homeInval (k / 64 * 64) none).mergedCells (k / 64 * 64))
    rw [hlen, Nat.div_add_mod' k 64] at hmask
    rw [State.acceptAt_of_isMem _ _ _ _ _ h, ← hmask]
    exact congrArg MemSt.cells (State.mem_writeIce ..)
  rw [hcells, Memory.read_writeBytes_inside _ hwf (by omega)]
  simp [leBytes]

theorem State.wordFull_setWordFull (s : State) (k : Nat) (full : Bool) : (s.setWordFull k full).wordFull k = full := by
  have hfe : ((s.setWordFull k full).block k).fe =
      if full then (if (s.block k).fe.contains (k % 4096 / 8) then (s.block k).fe else k % 4096 / 8 :: (s.block k).fe)
      else (s.block k).fe.filter fun i => i != k % 4096 / 8 := congrArg BlockMeta.fe (Sparse.get_set_same ..)
  rw [State.wordFull, hfe]
  cases full with
  | false => simp
  | true =>
    by_cases hin : (s.block k).fe.contains (k % 4096 / 8) = true
    · rw [if_pos rfl, if_pos hin, hin]
    · rw [if_pos rfl, if_neg hin]
      simp

@[simp] theorem State.setWordFull_sync (s : State) (k : Nat) (full : Bool) : (s.setWordFull k full).sync = s.sync := rfl

/-- With no waiter nothing is served when a word's bit changes. -/
theorem State.feChanged_of_no_waiter {s : State} (h : s.sync.waiters = []) (k : Nat) : s.feChanged k = s := by
  have hnone : s.feNext k = none := by
    rw [State.feNext, h]
    rfl
  rw [State.feChanged, State.feServe, hnone]

/-! ## Where a word lies (R253 to R256, R388) -/

/-- A stack's memory lies under a linear address of the visible part of its slot, aligned as the address that names it. -/
theorem State.linear_of_hbm {s : State} {pa j lin : Nat} (h : s.region pa = .hbm j lin) :
    lin < 0x14000000000 ∧ lin % 0x1000000000 < 0xF00000000 ∧ lin % 8 = pa % 8 := by
  have of_lin {x : Nat} (hx : x < 0x14000000000) (hl : linRegion x = .hbm j lin) : lin = x ∧ x < 0x14000000000 ∧ x % 0x1000000000 < 0xF00000000 := by
    refine ⟨linRegion_eq_hbm hl, hx, ?_⟩
    by_contra hno
    rw [linRegion, if_neg hno] at hl
    cases hl
  unfold State.region at h
  split_ifs at h
  next hwin =>
    obtain ⟨hlin, hlt, hvis⟩ := of_lin (interleaved_lt (by omega) hwin.2) h
    have halign : interleaved ((pa - 0x40000000000) / 0x8000000000) ((pa - 0x40000000000) % 0x8000000000) % 8 = pa % 8 := by
      unfold interleaved
      omega
    rw [hlin]
    exact ⟨hlt, hvis, halign⟩
  next hlow =>
    obtain ⟨hlin, hlt, hvis⟩ := of_lin hlow h
    rw [hlin]
    exact ⟨hlt, hvis, rfl⟩

theorem State.offset_of_ddr {s : State} {pa off : Nat} (h : s.region pa = .ddr off) :
    0x100000000000 ≤ pa ∧ pa < 0x140000000000 ∧ pa - 0x100000000000 < s.fld R.DC_MAP F.DC_MAP.VISIBLE_GIB * 0x40000000 := by
  have hlin {x : Nat} (hl : linRegion x = .ddr off) : False := by
    unfold linRegion at hl
    split at hl <;> cases hl
  unfold State.region at h
  split_ifs at h
  next hlow hvis => exact ⟨hlow, hvis⟩
  next => exact (hlin h).elim
  next => exact (hlin h).elim

/-- The key of an aligned address of memory is aligned, and its sector lies in memory. -/
theorem State.key_of_aligned {s : State} {pa : Nat} (h : pa % 8 = 0) (hmem : (s.region pa).isMem = true) :
    (s.region pa).key pa % 8 = 0 ∧ (s.region ((s.region pa).key pa / 64 * 64)).isMem = true := by
  cases hr : s.region pa with
  | hbm j lin =>
    obtain ⟨hlt, hvis, halign⟩ := State.linear_of_hbm hr
    refine ⟨halign.trans h, ?_⟩
    have hline : s.region (lin / 64 * 64) = linRegion (lin / 64 * 64) := s.region_of_linear (by omega)
    rw [Region.key, hline, linRegion, if_pos (by omega)]
    rfl
  | ddr off =>
    obtain ⟨hlo, hhi, hvis⟩ := State.offset_of_ddr hr
    refine ⟨h, ?_⟩
    have hline : s.region (pa / 64 * 64) = .ddr (pa / 64 * 64 - 0x100000000000) := by
      rw [State.region, if_neg (by omega), if_neg (by omega), if_neg (by omega), if_neg (by omega), if_neg (by omega), if_pos (by omega),
        if_pos (by omega)]
    rw [Region.key, hline]
    · rfl
    · rintro _ _ ⟨⟩
  | _ => rw [hr] at hmem; exact absurd hmem Bool.false_ne_true

theorem State.isMem_of_feCheck {s : State} {pa : Nat} (h : s.feCheck pa = .ok) : (s.region pa).isMem = true := by
  by_contra hno
  have hdenied : s.feCheck pa = .fault St.PAGE_DENIED := if_pos (by simp [hno])
  rw [h] at hdenied
  cases hdenied

/-! ## FE_OP (R387) -/

section
variable {s : State} {k : Nat} {v : Word}

theorem State.feHome_of_fails {op : FeOp} (h : feWorks op (s.wordFull k) = false) : s.feHome op k v = s := if_neg (by simp [h])

/-- A word written and made full. -/
def State.wordWritten (s : State) (k : Nat) (v : Word) : State :=
  (s.acceptAt (k / 64 * 64) (byteMask (k % 64) 8) (atOffset (k % 64) (leBytes 8 v.toNat)) false 0 false).setWordFull k true

theorem State.feDo_wef : s.feDo .wef k v = ([], s.wordWritten k v) := rfl

theorem State.feDo_rfe (h : s.dirOf (k / 64 * 64) = none) : s.feDo .rfe k v = (s.feWord k, s.setWordFull k false) := by
  have hshare : s.homeShare (k / 64 * 64) = s := State.homeShare_of_unowned fun a ha => by rw [h] at ha; cases ha
  rw [State.feDo, hshare]

theorem State.feDo_rff (h : s.dirOf (k / 64 * 64) = none) : s.feDo .rff k v = (s.feWord k, s) := by
  have hshare : s.homeShare (k / 64 * 64) = s := State.homeShare_of_unowned fun a ha => by rw [h] at ha; cases ha
  rw [State.feDo, hshare]

theorem State.feDo_purge : s.feDo .purge k v = ([], s.setWordFull k false) := rfl

theorem State.wordWritten_sync (h : (s.region (k / 64 * 64)).isMem = true) : (s.wordWritten k v).sync = s.sync := State.acceptAt_sync _ _ _ _ _ h

/-- With nobody waiting for the word an operation that works does what `feDo` does, the requester receiving the value. -/
theorem State.feHome_of_works {op : FeOp} {bs : List Byte} {t : State} (h : feWorks op (s.wordFull k) = true) (hdo : s.feDo op k v = (bs, t))
    (hw : t.sync.waiters = []) : s.feHome op k v = if feReads op then { t with readData := wordAt bs 0 } else t := by
  have hserved (u : State) (hu : u.sync.waiters = []) : (if u.wordFull k = s.wordFull k then u else u.feChanged k) = u := by
    rw [State.feChanged_of_no_waiter hu, ite_self]
  unfold State.feHome
  rw [if_pos h, hdo]
  refine hserved _ ?_
  split <;> exact hw

end

/-- Settles O24, by the operations of `feDo` one by one: nobody waits for the word, so nothing is served when its bit changes. -/
theorem fullEmptyAtHome : Obligations.FullEmptyAtHome := by
  intro s pa v hon halign hcheck hm k
  obtain ⟨hk, hline⟩ := State.key_of_aligned halign (State.isMem_of_feCheck hcheck)
  have hexec (op : FeOp) : exec (.feOp op pa v) s = .next (s.feHome op k v) :=
    (State.whileOn_on _ hon).trans (congrArg Host.Outcome.next (if_pos ⟨halign, hcheck⟩))
  refine ⟨fun hempty hw => ⟨?_, ?_, ?_⟩, fun hfull hw hdir => ⟨?_, ?_, ?_, ?_⟩, fun q op hq => ?_⟩
  · have hrun := hexec .wef
    rw [State.feHome_of_works (by rw [hempty]; rfl) State.feDo_wef (by rw [State.wordWritten_sync hline, hw])] at hrun
    exact .of hrun ⟨State.wordFull_setWordFull _ _ _, fun i hi => State.read_acceptAt_word hline hk hm v hi⟩
  · rw [hexec, State.feHome_of_fails (by rw [hempty]; rfl)]
  · rw [hexec, State.feHome_of_fails (by rw [hempty]; rfl)]
  · rw [hexec, State.feHome_of_fails (by rw [hfull]; rfl)]
  · have hrun := hexec .rfe
    rw [State.feHome_of_works (by rw [hfull]; rfl) (State.feDo_rfe hdir) hw] at hrun
    exact .of hrun ⟨rfl, State.wordFull_setWordFull _ _ _, rfl, rfl⟩
  · rw [hexec, State.feHome_of_works (by rw [hfull]; rfl) (State.feDo_rff hdir) hw]
    rfl
  · have hrun := hexec .purge
    rw [State.feHome_of_works (by rw [hfull]; rfl) State.feDo_purge hw] at hrun
    exact .of hrun ⟨State.wordFull_setWordFull _ _ _, rfl⟩
  · refine (State.whileOn_on _ hon).trans (congrArg Host.Outcome.next (if_neg fun h => ?_))
    exact hq.elim (fun hbad => hbad h.1) fun hbad => hbad h.2

end Sys2Proof.Machine
end

section
/-! Full/empty commands of a context (13_quires.md, O25). -/

namespace Sys2Proof.Machine

/-! ## What the writes of a command leave of it -/

/-- The command at a context's slot is still in flight, and the waiters stand as they did. -/
structure CmdStays (d : Die) (c : Cx) (n : Nat) (s t : State) : Prop where
  flight : ∀ f, (s.cx d c).flight n = some f → ∃ g, (t.cx d c).flight n = some g
  waiters : t.sync.waiters = s.sync.waiters

/-- A change of a context's flights that leaves each at its slot leaves a command in flight. -/
theorem List.find_slot_map {l : List Flight} {n : Nat} {g : Flight → Flight} (hg : ∀ f, (g f).slot = f.slot) {f : Flight}
    (h : l.find? (fun e => e.slot == n) = some f) : (l.map g).find? (fun e => e.slot == n) = some (g f) := by
  have hkeep : ((fun e : Flight => e.slot == n) ∘ g) = fun e => e.slot == n := funext fun e => by simp [hg]
  rw [List.find?_map, hkeep, h]
  rfl

section
variable {d : Die} {c : Cx} {n : Nat} {s t u : State}

theorem CmdStays.refl (d : Die) (c : Cx) (n : Nat) (s : State) : CmdStays d c n s s := ⟨fun f h => ⟨f, h⟩, rfl⟩

theorem CmdStays.trans (h : CmdStays d c n s t) (h' : CmdStays d c n t u) : CmdStays d c n s u where
  flight f hf := by
    obtain ⟨g, hg⟩ := h.flight f hf
    exact h'.flight g hg
  waiters := h'.waiters.trans h.waiters

theorem CmdStays.of_cxs (hc : t.cxs = s.cxs) (hs : t.sync = s.sync) : CmdStays d c n s t :=
  ⟨fun f hf => ⟨f, by rw [State.cx, hc, ← State.cx]; exact hf⟩, by rw [hs]⟩

theorem State.setFlight_stays (s : State) (m : Nat) {g : Flight → Flight} (hg : ∀ f, (g f).slot = f.slot) : CmdStays d c n s (s.setFlight d c m g) where
  flight f hf := by
    refine ⟨if f.slot = m then g f else f, ?_⟩
    rw [State.cx_setFlight]
    refine List.find_slot_map (g := fun f : Flight => if f.slot = m then g f else f) (fun e => ?_) hf
    split
    · exact hg e
    · rfl
  waiters := rfl

theorem State.loseWrite_stays (s : State) (cmd : Nat) (p : Pkg) : CmdStays d c n s (s.loseWrite (.cx d c) cmd p) where
  flight f hf := by
    refine ⟨if f.id = cmd then { f with lostWrite := true } else f, ?_⟩
    rw [State.loseWrite, State.cx_setCx]
    refine List.find_slot_map (g := fun f : Flight => if f.id = cmd then { f with lostWrite := true } else f) (fun e => ?_) hf
    split <;> rfl
  waiters := rfl

end

section
variable (s : State)

theorem State.rcPass_sync (d : Die) (line mask : Nat) (data : List Byte) : (s.rcPass d line mask data).sync = s.sync := by
  unfold State.rcPass
  split
  · rfl
  · split <;> rfl

/-- A write at its home, whatever lies there, keeps the sync unit and every register but the count of snoops. -/
theorem State.acceptAt_keeps (line mask : Nat) (data : List Byte) (whole : Bool) (cmd : Nat) (poison : Bool) :
    (s.acceptAt line mask data whole cmd poison).sync = s.sync ∧ RegsBut [R.HL_BISNP] s (s.acceptAt line mask data whole cmd poison) := by
  cases h : (s.region line).isMem with
  | true => exact ⟨State.acceptAt_sync _ _ _ _ _ h, State.acceptAt_regs _ _ _ _ _ h⟩
  | false =>
    unfold State.acceptAt
    cases hr : s.region line <;> simp only [hr, Region.isMem, reduceCtorEq] at h ⊢
    case scr => split_ifs <;> exact ⟨rfl, .of_regs_eq _ rfl⟩
    all_goals exact ⟨trivial, .refl _ s⟩

theorem State.walkFrom_sync (va : Nat) (write : Bool) (fuel level base : Nat) : (State.walkFrom va write fuel level base s).2.sync = s.sync := by
  induction fuel generalizing level base s with
  | zero => rfl
  | succ n ih =>
    have hread (line : Nat) : (s.homeShare line).sync = s.sync := (s.homeShare_takenBack line).sync
    unfold State.walkFrom
    dsimp only
    split_ifs
    · rfl
    · rfl
    · rfl
    · rfl
    · exact hread _
    · exact hread _
    · exact hread _
    · exact hread _
    · exact hread _
    · exact (ih _ _ _).trans (hread _)

theorem State.walkFill_sync (d : Die) (c : Cx) (n va : Nat) (write : Bool) : (s.walkFill d c n va write).2.sync = s.sync := by
  have hwalk : (s.walk d c va write).2.sync = s.sync := (State.walkFrom_sync ..).trans (s.count_sync _ _)
  unfold State.walkFill
  split <;> rename_i h <;> rw [h] at hwalk <;> exact hwalk

/-- A translation leaves the sync unit. -/
theorem State.translate_sync (d : Die) (c : Cx) (n va : Nat) (write : Bool) : (s.translate d c n va write).2.sync = s.sync := by
  have hmiss := s.count_sync (R.XL_D_MISS d) 1
  unfold State.translate
  dsimp only
  split
  · split
    · rfl
    · exact State.walkFill_sync ..
  · split
    · split
      · exact hmiss
      · exact (State.walkFill_sync ..).trans hmiss
    · exact (State.walkFill_sync ..).trans hmiss

variable {d : Die} {c : Cx} {n : Nat}

/-- A context's sector write leaves its command in flight. -/
theorem State.sendWrite_stays {w : Wr} (hsrc : w.src = .cx d c) (hcrc : w.crc = none) : CmdStays d c n s (s.sendWrite w) := by
  cases hin : s.absent (s.region w.addr) with
  | true =>
    unfold State.sendWrite
    simp only [hsrc, hin, if_true]
    exact s.loseWrite_stays _ _
  | false =>
    refine .of_cxs (State.sendWrite_cxs hsrc hcrc hin) ?_
    unfold State.sendWrite
    simp only [hsrc, hcrc, hin, Bool.false_eq_true, if_false]
    refine iteInduction (motive := fun t : State => t.sync = s.sync) (fun _ => ?_) fun _ => ?_
    · exact (State.acceptAt_keeps ..).1.trans (State.rcPass_sync ..)
    · cases (s.region w.addr).dst <;> exact State.rcPass_sync ..

theorem State.translate_stays (k va : Nat) (write : Bool) : CmdStays d c n s (s.translate d c k va write).2 :=
  .of_cxs (s.translate_cxs d c k va write) (s.translate_sync d c k va write)

theorem State.writeSecs_stays (f : Flight) (p : Port) (runs : List (Nat × Nat)) (elem : Nat) (bad : List Nat) (fuel va : Nat) (bs : List Byte) :
    CmdStays d c n s (State.writeSecs d c f p runs elem bad fuel va bs s).2 := by
  induction fuel generalizing va bs s with
  | zero => exact .refl d c n s
  | succ m ih =>
    have htrans := s.translate_stays (d := d) (c := c) (n := n) p.stream (va % 2 ^ 57) true
    unfold State.writeSecs
    split
    · exact .refl d c n s
    · split <;> rename_i h <;> rw [h] at htrans
      · exact htrans
      · exact htrans
      · dsimp only
        split
        · exact htrans
        · exact (htrans.trans (State.sendWrite_stays _ rfl rfl)).trans (ih _ _ _)

theorem State.writeRun_stays (f : Flight) (p : Port) (runs : List (Nat × Nat)) (elem : Nat) (bad : List Nat) (va : Nat) (bs : List Byte) :
    CmdStays d c n s (State.writeRun d c f p runs elem bad va bs s).2 := by
  have hsecs := s.writeSecs_stays (d := d) (c := c) (n := n) f p runs elem bad (sectorCount va bs.length) va bs
  unfold State.writeRun
  split
  · rename_i h
    rw [h] at hsecs
    dsimp only
    split
    · exact hsecs.trans (State.setFlight_stays _ _ fun _ => rfl)
    · exact hsecs
  · exact hsecs

end

/-! ## A command ends (R389) -/

/-- What a command of a context shows at its end: its flight's work done, nobody waiting. -/
def FeEnded (d : Die) (c : Cx) (n : Nat) (t : State) : Prop := (∃ g, (t.cx d c).flight n = some g ∧ g.phase = .worked) ∧ t.sync.waiters = []

section
variable {d : Die} {c : Cx} {f g : Flight} {u : State}

theorem State.freeWaiterOf_regs (s : State) (d : Die) (c : Cx) (n : Nat) : RegsBut [R.SYNC_STATUS] s (s.freeWaiterOf d c n false) := by
  have hmem : R.SYNC_STATUS ∈ [R.SYNC_STATUS] := List.mem_singleton_self _
  exact (((RegsBut.of_regs_eq _ rfl).setFld _ _ hmem).setFld _ _ hmem).raiseFld _ _ hmem

theorem State.raiseFld_cxs (s : State) (o : Nat) (f : Fld) (v : Nat) : (s.raiseFld o f v).cxs = s.cxs := by
  unfold State.raiseFld
  split <;> rfl

theorem State.syncShow_cxs (s : State) : s.syncShow.cxs = s.cxs := State.raiseFld_cxs ..

theorem State.freeWaiterOf_cxs (s : State) (d : Die) (c : Cx) (n : Nat) : (s.freeWaiterOf d c n false).cxs = s.cxs := State.syncShow_cxs _

theorem State.freeWaiterOf_waiters {s : State} (h : s.sync.waiters = []) (d : Die) (c : Cx) (n : Nat) : (s.freeWaiterOf d c n false).sync.waiters = [] := by
  rw [State.freeWaiterOf, State.syncShow_sync]
  simp [h]

theorem CX_STATE_not_shown (d : Die) (c : Cx) : R.CX_STATE d c ∉ [R.SYNC_STATUS] ∧ R.CX_STATE d c ∉ [R.HL_BISNP] := by
  simp only [R.CX_STATE, R.dieBase, R.SYNC_STATUS, R.HL_BISNP, List.mem_singleton]
  omega

/-- A command that writes no value ends at once: its waiter is freed, its context goes on. -/
theorem State.feSuccess_ended (hf : (u.cx d c).flight f.slot = some g) (hw : u.sync.waiters = []) :
    FeEnded d c f.slot (u.feSuccess d c f []) ∧ (u.feSuccess d c f []).mem = u.mem ∧
    (u.cxState d c = CxS.READY → (u.feSuccess d c f []).cxState d c = CxS.READY) := by
  let s2 := (u.freeWaiterOf d c f.slot false).workDone d c f.slot
  let s3 := s2.setCx d c { s2.cx d c with polled := false, waitSince := s2.now }
  have heq : u.feSuccess d c f [] = if s3.cxState d c = CxS.WAIT_FE then s3.setCxState d c CxS.READY else s3 := rfl
  have hf1 : ((u.freeWaiterOf d c f.slot false).cx d c).flight f.slot = some g := by rw [State.cx, State.freeWaiterOf_cxs, ← State.cx]; exact hf
  have hf2 : (s3.cx d c).flight f.slot = some { g with phase := .worked, held := none } := by
    have hran : ((u.freeWaiterOf d c f.slot false).engRan d c f.slot).cx d c = (u.freeWaiterOf d c f.slot false).cx d c := by
      rw [State.cx, State.engRan_cxs, ← State.cx]
    have hcx : s2.cx d c = ((u.freeWaiterOf d c f.slot false).cx d c).mapFlight f.slot fun f => { f with phase := .worked, held := none } :=
      (State.cx_setFlight ..).trans (congrArg (Ctx.mapFlight · f.slot _) hran)
    have hmap := Ctx.flight_mapFlight (g := fun f : Flight => { f with phase := .worked, held := none }) (fun _ => rfl) hf1
    rw [State.cx_setCx, ← hmap, ← hcx]
    rfl
  have hframe := State.workDone_frame (u.freeWaiterOf d c f.slot false) d c f.slot
  have hmem : s2.mem = u.mem := (congrArg State.mem hframe).trans (u.freeWaiterOf_mem d c f.slot false)
  have hsync : s2.sync.waiters = [] := (congrArg (·.sync.waiters) hframe).trans (State.freeWaiterOf_waiters hw d c f.slot)
  have hsame : s2.regs = (u.freeWaiterOf d c f.slot false).regs := State.engRan_regs ..
  have hregs : RegsBut [R.SYNC_STATUS] u s2 := (u.freeWaiterOf_regs d c f.slot).of_regs hsame
  rw [heq]
  split
  · exact ⟨⟨⟨_, hf2, rfl⟩, hsync⟩, hmem, fun _ => State.cxState_setCxState _ d c (by decide)⟩
  · exact ⟨⟨⟨_, hf2, rfl⟩, hsync⟩, hmem, fun hr => (hregs.fld (CX_STATE_not_shown d c).1 _).trans hr⟩

/-- A command that writes the value it read ends as well, whatever its write meets. -/
theorem State.feSuccess_ends (hf : (u.cx d c).flight f.slot = some g) (hw : u.sync.waiters = []) (bs : List Byte) :
    FeEnded d c f.slot (u.feSuccess d c f bs) := by
  by_cases hbs : bs = []
  · rw [hbs]
    exact (State.feSuccess_ended hf hw).1
  · have hstays := u.writeRun_stays (d := d) (c := c) (n := f.slot) f (ctlPort c) [] 0 [] (f.cmd.w3.get 56 0) bs
    obtain ⟨g', hg'⟩ := hstays.flight g hf
    have heq : u.feSuccess d c f bs = (State.writeRun d c f (ctlPort c) [] 0 [] (f.cmd.w3.get 56 0) bs u).2.feSuccess d c f [] := by
      simp only [State.feSuccess, hbs, if_true, if_false]
    rw [heq]
    exact (State.feSuccess_ended hg' (hstays.waiters.trans hw)).1

/-! ## A command waits, or faults (R388, R389) -/

theorem State.feWait_waits (hw : u.sync.waiters = []) (hr : u.cxState d c = CxS.READY) (k : Nat) :
    (u.feWait d c f k).cxState d c = CxS.WAIT_FE ∧
    (∃ w ∈ (u.feWait d c f k).sync.waiters, w.kind = .fe k f.cmd.feOp ∧ w.die = d ∧ w.cx = c ∧ w.slot = f.slot) ∧ (u.feWait d c f k).mem = u.mem := by
  let s0 : State := { u with sync := { u.sync with waiters := u.sync.waiters ++ [{ index := u.freeWaiter, die := d, cx := c, slot := f.slot, kind := .fe k f.cmd.feOp }] } }
  have hplace : u.placeWaiter d c f.slot (.fe k f.cmd.feOp) = s0.syncShow := if_neg (by simp [hw])
  have hmem : R.SYNC_STATUS ∈ [R.SYNC_STATUS] := List.mem_singleton_self _
  have hregs : RegsBut [R.SYNC_STATUS] u s0.syncShow := (((RegsBut.of_regs_eq _ rfl).setFld _ _ hmem).setFld _ _ hmem).raiseFld _ _ hmem
  have hready : s0.syncShow.cxState d c = CxS.READY := (hregs.fld (CX_STATE_not_shown d c).1 _).trans hr
  have heq : u.feWait d c f k = s0.syncShow.setCxState d c CxS.WAIT_FE := by
    unfold State.feWait
    rw [hplace]
    exact if_pos hready
  rw [heq]
  refine ⟨State.cxState_setCxState _ d c (by decide), ⟨{ index := u.freeWaiter, die := d, cx := c, slot := f.slot, kind := .fe k f.cmd.feOp }, ?_, rfl, rfl, rfl, rfl⟩,
    s0.syncShow_mem⟩
  have hsync : (s0.syncShow.setCxState d c CxS.WAIT_FE).sync = s0.sync := s0.syncShow_sync
  rw [hsync]
  exact List.mem_append_right _ (List.mem_singleton_self _)

theorem State.flightFault_denied (hf : (u.cx d c).flight f.slot = some g) (st va code : Nat) :
    (∃ g, ((u.flightFault d c f.slot st va code).cx d c).flight f.slot = some g ∧ g.phase = .faulted ∧ g.fault = st) ∧
    (u.flightFault d c f.slot st va code).mem = u.mem := by
  have hran : (u.engRan d c f.slot).cx d c = u.cx d c := by rw [State.cx, State.engRan_cxs, ← State.cx]
  refine ⟨⟨{ g with phase := .faulted, fault := st, faultAddr := va, code := code, held := none }, ?_, rfl, rfl⟩, ?_⟩
  · rw [State.flightFault, State.cx_setFlight, hran]
    exact Ctx.flight_mapFlight (g := fun f : Flight => { f with phase := .faulted, fault := st, faultAddr := va, code := code, held := none })
      (fun _ => rfl) hf
  · unfold State.flightFault State.engRan
    split
    · split <;> rfl
    · rfl

/-! ## A command tried (R387, R388, R389) -/

theorem State.feAt_of_denied {pa st va : Nat} (h : u.feCheck pa = .fault st) : u.feAt d c f va pa = u.flightFault d c f.slot st va 0 := by
  rw [State.feAt, h]

/-- What a command whose word and destination can be acted on does. -/
def State.feTried (u : State) (d : Die) (c : Cx) (f : Flight) (k : Nat) : State :=
  match u.feTry d c f k with
  | some (changed, t) => if changed then t.feChanged k else t
  | none => u.feWait d c f k

theorem State.feAt_of_ok {pa va : Nat} (h : u.feCheck pa = .ok) (hop : feReads f.cmd.feOp = false) :
    u.feAt d c f va pa = u.feTried d c f ((u.region pa).key pa) := by
  rw [State.feAt, h]
  simp only [hop, Bool.false_eq_true, if_false]
  rfl

theorem State.feAt_of_read {pa va a : Nat} (h : u.feCheck pa = .ok) (hop : feReads f.cmd.feOp = true) (hdest : u.feDest d c f = (.ok, a, u)) :
    u.feAt d c f va pa = u.feTried d c f ((u.region pa).key pa) := by
  rw [State.feAt, h]
  simp only [hop, if_true, hdest]
  rfl

theorem State.feTried_of_fails {k : Nat} (h : feWorks f.cmd.feOp (u.wordFull k) = false) : u.feTried d c f k = u.feWait d c f k := by
  rw [State.feTried, State.feTry]
  simp [h]

/-- An operation that works ends its command; nobody waiting, nothing else is served. -/
theorem State.feTried_of_works {k : Nat} {bs : List Byte} {t : State} (h : feWorks f.cmd.feOp (u.wordFull k) = true)
    (hdo : u.feDo f.cmd.feOp k f.cmd.w3 = (bs, t)) (hend : FeEnded d c f.slot (t.feSuccess d c f bs)) : u.feTried d c f k = t.feSuccess d c f bs := by
  have hserved (b : Bool) : (if b then (t.feSuccess d c f bs).feChanged k else t.feSuccess d c f bs) = t.feSuccess d c f bs := by
    rw [State.feChanged_of_no_waiter hend.2, ite_self]
  rw [State.feTried, State.feTry]
  simp only [h, if_true, hdo]
  exact hserved _

variable {s : State}

/-- A full/empty command of a context reaches its word. -/
theorem feCommand_of_reached {op pa : Nat} (hfront : s.ctlFront d c op = some f) (hacc : s.allAccepted f.waitIds = true)
    (hno : ∀ w ∈ s.sync.waiters, w.of d c f.slot = false) (hpolled : (s.cx d c).polled = false)
    (htrans : s.translate d c (queueStream c) (f.cmd.w2.get 56 0) (op != 0x22) = (.ok pa, u)) :
    feCommand op d c s = u.feAt d c f (f.cmd.w2.get 56 0) pa := by
  have hany : (s.sync.waiters.any fun w => w.of d c f.slot) = false := by
    rw [List.any_eq_false]
    exact fun w hw => by simp [hno w hw]
  rw [feCommand, hfront]
  simp only [hacc, hany, hpolled, htrans, Bool.not_true, Bool.or_self, Bool.false_eq_true, if_false]

end

/-! ## Settled -/

section
variable {d : Die} {c : Cx} {f g : Flight} {u : State} {k : Nat}

/-- A read ends its command: its home takes back what an owner holds and keeps the command in flight. -/
theorem State.feTried_reads (hf : (u.cx d c).flight f.slot = some g) (hw : u.sync.waiters = []) (hop : f.cmd.feOp = .rfe ∨ f.cmd.feOp = .rff)
    (hfull : u.wordFull k = true) : FeEnded d c f.slot (u.feTried d c f k) := by
  have hshare := (u.homeShare_takenBack (k / 64 * 64)).sync
  have hf1 : ((u.homeShare (k / 64 * 64)).cx d c).flight f.slot = some g := by rw [State.cx, State.homeShare_cxs, ← State.cx]; exact hf
  have hw1 : (u.homeShare (k / 64 * 64)).sync.waiters = [] := by rw [hshare, hw]
  rcases hop with hop | hop
  · have hend := State.feSuccess_ends (u := (u.homeShare (k / 64 * 64)).setWordFull k false) (f := f) hf1 hw1 ((u.homeShare (k / 64 * 64)).feWord k)
    rw [State.feTried_of_works (by rw [hop, hfull]; rfl) (by rw [hop]; rfl) hend]
    exact hend
  · have hend := State.feSuccess_ends (f := f) hf1 hw1 ((u.homeShare (k / 64 * 64)).feWord k)
    rw [State.feTried_of_works (by rw [hop, hfull]; rfl) (by rw [hop]; rfl) hend]
    exact hend

end

/-- Settles O25: the command reaches its word (`feCommand_of_reached`); there it ends, waits or faults. -/
theorem fullEmptyCommands : Obligations.FullEmptyCommands := by
  intro s u d c f pa hon hf hkind hacc hno hpolled hw hready k ended waits denied reached
  have hcommand {op : Nat} {wr : Bool} (hwr : (op != 0x22) = wr) (h : reached op wr) :
      feCommand op d c s = u.feAt d c f (f.cmd.w2.get 56 0) pa ∧ f.cmd.op = op := by
    obtain ⟨hfront, hop, htrans⟩ := h
    exact ⟨feCommand_of_reached hfront hacc hno hpolled (hwr ▸ htrans), hop⟩
  have hwef : exec (.wef d c) s = .next (feCommand Op.WEF d c s) := State.whileOn_on _ hon
  have hrfe : exec (.rfe d c) s = .next (feCommand Op.RFE d c s) := State.whileOn_on _ hon
  have hrff : exec (.rff d c) s = .next (feCommand Op.RFF d c s) := State.whileOn_on _ hon
  have hpurge : exec (.purge d c) s = .next (feCommand Op.PURGE d c s) := State.whileOn_on _ hon
  have hwait {op : FeOp} (hop : f.cmd.feOp = op) (hfails : feWorks op (u.wordFull k) = false) : waits op (u.feTried d c f k) := by
    rw [State.feTried_of_fails (by rw [hop]; exact hfails)]
    obtain ⟨hst, hplaced, hmem⟩ := State.feWait_waits (f := f) (d := d) (c := c) hw hready k
    rw [hop] at hplaced
    exact ⟨hst, hplaced, by rw [hmem], by rw [State.wordFull, State.block, hmem]; rfl⟩
  have hread (hop : f.cmd.feOp = .rfe ∨ f.cmd.feOp = .rff) (hfull : u.wordFull k = true) : ended (u.feTried d c f k) :=
    (State.feTried_reads hf hw hop hfull).1
  refine ⟨fun hr hcheck => ?_, fun hr hcheck => ?_, fun a hdest hcheck => ⟨fun hr => ?_, fun hr => ?_⟩, fun hdenied => ?_⟩
  · obtain ⟨hcmd, hop⟩ := hcommand rfl hr
    have hfe : f.cmd.feOp = .wef := by rw [Cmd.feOp, hop]; rfl
    rw [hcmd, State.feAt_of_ok hcheck (by rw [hfe]; rfl)] at hwef
    refine ⟨fun hempty => ?_, fun hfull => .of hwef (hwait hfe (by rw [hfull]; rfl))⟩
    obtain ⟨hkept, hregs⟩ := State.acceptAt_keeps u (k / 64 * 64) (byteMask (k % 64) 8) (atOffset (k % 64) (leBytes 8 f.cmd.w3.toNat)) false 0 false
    have hf1 : ((u.wordWritten k f.cmd.w3).cx d c).flight f.slot = some f := by
      rw [← hf]
      exact congrArg (fun l => Ctx.flight (Sparse.get {} _ l) f.slot) (u.acceptAt_cxs ..)
    have hw1 : (u.wordWritten k f.cmd.w3).sync.waiters = [] := (congrArg SyncSt.waiters hkept).trans hw
    obtain ⟨hend, hmem, hst⟩ := State.feSuccess_ended hf1 hw1
    rw [State.feTried_of_works (by rw [hfe, hempty]; rfl) (by rw [hfe]; rfl) hend] at hwef
    refine .of hwef ⟨hend.1, ?_, hst ?_⟩
    · rw [State.wordFull, State.block, hmem]
      exact State.wordFull_setWordFull _ _ _
    · exact (hregs.fld (CX_STATE_not_shown d c).2 _).trans hready
  · obtain ⟨hcmd, hop⟩ := hcommand rfl hr
    have hfe : f.cmd.feOp = .purge := by rw [Cmd.feOp, hop]; rfl
    obtain ⟨hend, hmem, -⟩ := State.feSuccess_ended (u := u.setWordFull k false) (f := f) (d := d) (c := c) hf hw
    rw [hcmd, State.feAt_of_ok hcheck (by rw [hfe]; rfl), State.feTried_of_works (by rw [hfe]; rfl) (by rw [hfe]; rfl) hend] at hpurge
    refine .of hpurge ⟨hend.1, ?_, by rw [hmem]; rfl⟩
    rw [State.wordFull, State.block, hmem]
    exact State.wordFull_setWordFull _ _ _
  · obtain ⟨hcmd, hop⟩ := hcommand rfl hr
    have hfe : f.cmd.feOp = .rfe := by rw [Cmd.feOp, hop]; rfl
    rw [hcmd, State.feAt_of_read hcheck (by rw [hfe]; rfl) hdest] at hrfe
    exact ⟨fun hfull => .of hrfe (hread (.inl hfe) hfull), fun hempty => .of hrfe (hwait hfe (by rw [hempty]; rfl))⟩
  · obtain ⟨hcmd, hop⟩ := hcommand rfl hr
    have hfe : f.cmd.feOp = .rff := by rw [Cmd.feOp, hop]; rfl
    rw [hcmd, State.feAt_of_read hcheck (by rw [hfe]; rfl) hdest] at hrff
    exact ⟨fun hfull => .of hrff (hread (.inr hfe) hfull), fun hempty => .of hrff (hwait hfe (by rw [hempty]; rfl))⟩
  · have hfault : denied (u.feAt d c f (f.cmd.w2.get 56 0) pa) := by
      rw [State.feAt_of_denied hdenied]
      exact State.flightFault_denied hf _ _ _
    exact ⟨fun hr => .of (hwef.trans (congrArg _ (hcommand rfl hr).1)) hfault, fun hr => .of (hrfe.trans (congrArg _ (hcommand rfl hr).1)) hfault,
      fun hr => .of (hrff.trans (congrArg _ (hcommand rfl hr).1)) hfault, fun hr => .of (hpurge.trans (congrArg _ (hcommand rfl hr).1)) hfault⟩

end Sys2Proof.Machine
end

section
/-! What follows an effective operation at a quire (13_quires.md, O37). -/

namespace Sys2Proof.Machine

/-! ## A context's state register -/

theorem CX_STATE_inj {d e : Die} {c b : Cx} (h : R.CX_STATE e b = R.CX_STATE d c) : (e, b) = (d, c) := by
  simp only [R.CX_STATE, R.dieBase] at h
  have hc := c.isLt
  have hb := b.isLt
  exact Prod.ext (Fin.ext (by simp only; omega)) (Fin.ext (by simp only; omega))

theorem State.cxState_setCxState_of_ne (s : State) {d e : Die} {c b : Cx} (v : Nat) (h : (e, b) ≠ (d, c)) :
    (s.setCxState d c v).cxState e b = s.cxState e b :=
  State.fld_setFld_of_ne s _ _ _ fun he => h (CX_STATE_inj he)

theorem SYNC_STATUS_ne_CX_STATE (d c : Nat) : R.CX_STATE d c ≠ R.SYNC_STATUS := by
  simp only [R.CX_STATE, R.dieBase, R.SYNC_STATUS]
  omega

/-! ## Contexts woken (R62, R377) -/

/-- What waiters satisfied and contexts woken may change. -/
structure Woken (s t : State) : Prop where
  frame : t = { s with regs := t.regs, cxs := t.cxs, sync := { s.sync with waiters := t.sync.waiters } }
  regs : ∀ o, o ≠ R.SYNC_STATUS → (∀ d c, o ≠ R.CX_STATE d c) → t.reg o = s.reg o
  cx : ∀ d c, (∀ w ∈ s.sync.waiters, ¬ (w.die = d ∧ w.cx = c)) → s.cxState d c ≠ CxS.EMPTY → t.cx d c = s.cx d c ∧ t.cxState d c = s.cxState d c
  waiters : ∀ w ∈ t.sync.waiters, w ∈ s.sync.waiters

section
variable {s t u : State}

theorem Woken.refl (s : State) : Woken s s := ⟨rfl, fun _ _ _ => rfl, fun _ _ _ _ => ⟨rfl, rfl⟩, fun _ h => h⟩

theorem Woken.trans (h : Woken s t) (h' : Woken t u) : Woken s u where
  frame := by rw [h'.frame, h.frame]
  regs o ho hcx := (h'.regs o ho hcx).trans (h.regs o ho hcx)
  cx d c hnone hst := by
    obtain ⟨hcx, hkept⟩ := h.cx d c hnone hst
    obtain ⟨hcx', hkept'⟩ := h'.cx d c (fun w hw => hnone w (h.waiters w hw)) (hkept ▸ hst)
    exact ⟨hcx'.trans hcx, hkept'.trans hkept⟩
  waiters w hw := h.waiters w (h'.waiters w hw)

theorem Woken.sync (h : Woken s t) : t.sync = { s.sync with waiters := t.sync.waiters } := by rw [h.frame]

/-- The context of a waiter goes on. -/
theorem State.wakeWaiter_woken {w : Waiter} (g : Bool) (hw : w ∈ s.sync.waiters) (h : Woken s t) : Woken s (t.wakeWaiter w g) := by
  have hother {d : Die} {c : Cx} (hnone : ∀ w ∈ s.sync.waiters, ¬ (w.die = d ∧ w.cx = c)) : (d, c) ≠ (w.die, w.cx) := fun he =>
    hnone w hw ⟨(congrArg Prod.fst he).symm, (congrArg Prod.snd he).symm⟩
  have hset (x : Ctx) : Woken s (t.setCx w.die w.cx x) :=
    ⟨by rw [show t.setCx w.die w.cx x = { t with cxs := (t.setCx w.die w.cx x).cxs } from rfl, h.frame], h.regs,
      fun d c hnone hst => by rw [t.cx_setCx_of_ne x (hother hnone)]; exact h.cx d c hnone hst, h.waiters⟩
  have hstate {v : State} (hv : Woken s v) (n : Nat) : Woken s (v.setCxState w.die w.cx n) :=
    ⟨by rw [show v.setCxState w.die w.cx n = { v with regs := (v.setCxState w.die w.cx n).regs } from rfl, hv.frame],
      fun o ho hcx => (State.reg_setFld_of_ne v _ _ (hcx _ _)).trans (hv.regs o ho hcx),
      fun d c hnone hst => by rw [v.cxState_setCxState_of_ne n (hother hnone)]; exact hv.cx d c hnone hst, hv.waiters⟩
  unfold State.wakeWaiter
  dsimp only
  split
  · exact hset _
  · split
    · exact hstate (hset _) _
    · exact hset _

/-- A doorbell wakes a context that is EMPTY. -/
theorem State.cxWake_woken (d : Die) (c : Cx) (h : Woken s t) : Woken s (t.cxWake d c) := by
  by_cases hst : t.cxState d c = CxS.EMPTY
  · obtain ⟨hready, hcx, hframe, hbut, hregs⟩ := State.cxWake_of_empty hst
    have hwake : Woken t (t.cxWake d c) := by
      refine ⟨by rw [hframe], fun o _ ho => hregs o (by simpa using ho d c), fun e b _ hne => ?_, fun w hw => by rw [hframe] at hw; exact hw⟩
      have hother : (e, b) ≠ (d, c) := fun he => by
        cases he
        exact hne hst
      exact ⟨hbut e b hother, hregs.fld (by simpa using fun he => hother (CX_STATE_inj he)) _⟩
    exact h.trans hwake
  · rw [State.cxWake_of_not_empty hst]
    exact h

theorem State.ringDoorbells_woken (q : Nat) (s : State) : Woken s (s.ringDoorbells q) :=
  List.foldlRecOn (motive := Woken s) s.cxKeys _ (.refl s) fun t ht p _ => by
    split
    · exact State.cxWake_woken p.1 p.2 ht
    · exact ht

theorem State.gatesTaken_woken (q : Nat) (s : State) : Woken s (s.gatesTaken q) := by
  refine List.foldlRecOn (motive := Woken s) _ _ ?_ fun t ht w hw => State.wakeWaiter_woken false (List.mem_of_mem_filter hw) ht
  exact ⟨rfl, fun _ _ _ => rfl, fun _ _ _ _ => ⟨rfl, rfl⟩, fun _ hw => List.mem_of_mem_filter hw⟩

theorem State.syncShow_woken (s : State) : Woken s s.syncShow := by
  have hset (t : State) (f : Fld) (v : Nat) (h : Woken s t) : Woken s (t.setFld R.SYNC_STATUS f v) :=
    ⟨by rw [show t.setFld R.SYNC_STATUS f v = { t with regs := (t.setFld R.SYNC_STATUS f v).regs } from rfl, h.frame],
      fun o ho hcx => (State.reg_setFld_of_ne t _ _ ho).trans (h.regs o ho hcx),
      fun d c hnone hst => ⟨(h.cx d c hnone hst).1, (State.fld_setFld_of_ne t _ _ _ (SYNC_STATUS_ne_CX_STATE d c)).trans (h.cx d c hnone hst).2⟩, h.waiters⟩
  have hraise (t : State) (f : Fld) (v : Nat) (h : Woken s t) : Woken s (t.raiseFld R.SYNC_STATUS f v) := by
    unfold State.raiseFld
    split
    · exact hset _ _ _ h
    · exact h
  exact hraise _ _ _ (hset _ _ _ (hset _ _ _ (.refl s)))

/-- What follows an operation that grants no unit wakes contexts alone, and leaves no waiter whose gate is true. -/
theorem State.afterOp_woken {q : Nat} (h : s.NoGrant q) : Woken s (s.afterOp q) ∧ ∀ w ∈ (s.afterOp q).sync.waiters, w.ready q (s.quire q) = false := by
  have heval := State.evalWaiters_of_noGrant h s.sync.waiters.length
  have hsync : (s.afterOp q).sync = (s.gatesTaken q).sync := by
    rw [State.afterOp, State.syncShow_sync, State.ringDoorbells_sync, heval]
  refine ⟨?_, fun w hw => ?_⟩
  · rw [State.afterOp, heval]
    exact ((s.gatesTaken_woken q).trans (State.ringDoorbells_woken q _)).trans (State.syncShow_woken _)
  · rw [hsync, State.gatesTaken_sync] at hw
    simpa using (List.mem_filter.mp hw).2

/-! ## An effective operation (R374) -/

theorem SyncOnly.refl (s : State) : SyncOnly s s := ⟨rfl, fun _ _ _ => rfl, fun _ _ _ _ => ⟨rfl, rfl⟩, fun _ h => h⟩

theorem SyncOnly.woken (h : SyncOnly s t) (h' : Woken t u) : SyncOnly s u := by
  obtain ⟨hframe, hregs, hcx, hwaiters⟩ := h
  refine ⟨by rw [h'.frame, hframe], fun o ho hc => (h'.regs o (fun he => ho (by simp [he])) hc).trans (hregs o ho hc), fun d c hnone hst => ?_,
    fun w hw => hwaiters w (h'.waiters w hw)⟩
  obtain ⟨hsame, hkept⟩ := hcx d c hnone hst
  obtain ⟨hsame', hkept'⟩ := h'.cx d c (fun w hw => hnone w (hwaiters w hw)) (hkept ▸ hst)
  exact ⟨hsame'.trans hsame, hkept'.trans hkept⟩

theorem SyncOnly.setQuire (h : SyncOnly s t) (q : Nat) (r : QuireRec) : SyncOnly s (t.setQuire q r) := by
  obtain ⟨hframe, hregs, hcx, hwaiters⟩ := h
  refine ⟨?_, hregs, hcx, hwaiters⟩
  rw [show t.setQuire q r = { t with sync := { t.sync with quires := (t.setQuire q r).sync.quires } } from rfl, hframe]

/-- The sync unit's counters. -/
def syncCounters : List Nat := [R.SYNC_OPS, R.SYNC_ERRORS, R.SYNC_ROUNDS]

theorem CX_STATE_ne_syncCounter {o : Nat} (ho : o ∈ syncCounters) (d c : Nat) : R.CX_STATE d c ≠ o := by
  simp only [syncCounters, List.mem_cons, List.not_mem_nil, or_false, R.SYNC_OPS, R.SYNC_ERRORS, R.SYNC_ROUNDS, R.CX_STATE, R.dieBase] at ho ⊢
  omega

theorem SyncOnly.count (h : SyncOnly s t) {o : Nat} (ho : o ∈ syncCounters) : SyncOnly s (t.count o 1) := by
  obtain ⟨hframe, hregs, hcx, hwaiters⟩ := h
  have hcount := t.count_frame o 1
  have hbut : RegsBut [o] t (t.count o 1) := (RegsBut.refl _ t).count 1 (List.mem_singleton_self _)
  refine ⟨by rw [hcount, hframe], fun i hi hc => (hbut i fun hm => hi ?_).trans (hregs i hi hc), fun d c hnone hst => ?_, fun w hw => ?_⟩
  · rw [List.mem_singleton.mp hm]
    exact List.mem_of_mem_take (i := 3) ho
  · obtain ⟨hsame, hkept⟩ := hcx d c hnone hst
    exact ⟨by rw [hcount]; exact hsame, (hbut.fld (by simpa using CX_STATE_ne_syncCounter ho d c) _).trans hkept⟩
  · rw [hcount] at hw
    exact hwaiters w hw

/-- The state in which an effective operation is done, before what follows it. -/
def State.opDone (s : State) (x : QSource) (op arg q : Nat) (r : QuireRec) : State :=
  (s.setQuire q { r with src := s.srcWord x op arg, stamp := s.spanNow }).count R.SYNC_OPS 1

theorem State.effective_eq (s : State) (x : QSource) (op arg q : Nat) (r : QuireRec) : s.effective x op arg q r = (s.opDone x op arg q r).afterOp q := rfl

section
variable {x : QSource} {op arg q : Nat} {r : QuireRec}

theorem State.opDone_quire (p : Nat) : (s.opDone x op arg q r).quire p = if p = q then { r with src := s.srcWord x op arg, stamp := s.spanNow } else s.quire p := by
  rw [State.quire, State.opDone, State.count_sync, ← State.quire]
  split
  · rename_i he
    rw [he, State.quire_setQuire]
  · rename_i hne
    exact State.quire_setQuire_of_ne _ _ hne

theorem State.opDone_noGrant (h : s.noConsumer q ∨ r.mode = Qm.GATHER ∨ r.mode = Qm.MIRROR) : (s.opDone x op arg q r).NoGrant q := by
  unfold State.NoGrant State.noConsumer
  rw [State.opDone_quire, if_pos rfl, State.opDone, State.count_sync]
  exact h

theorem Woken.fld_counter (h : Woken s t) {o : Nat} (ho : o ∈ syncCounters) (f : Fld) : t.fld o f = s.fld o f := by
  have hne : o ≠ R.SYNC_STATUS := fun he => by
    rw [he] at ho
    exact absurd ho (by decide)
  rw [State.fld, h.regs o hne fun d c => (CX_STATE_ne_syncCounter ho d c).symm, State.fld]

/-- An effective operation that grants no unit: the quire's record, the count, its waiters, and nothing beside. -/
theorem State.effective_only (h : s.noConsumer q ∨ r.mode = Qm.GATHER ∨ r.mode = Qm.MIRROR) :
    SyncOnly s (s.effective x op arg q r) ∧ (s.effective x op arg q r).fld R.SYNC_OPS F.CTR.COUNT = (s.fld R.SYNC_OPS F.CTR.COUNT + 1) % 2 ^ 48 ∧
    ∀ w ∈ (s.effective x op arg q r).sync.waiters, w.ready q r = false := by
  obtain ⟨hwoken, hready⟩ := State.afterOp_woken (State.opDone_noGrant (x := x) (op := op) (arg := arg) h)
  rw [State.effective_eq]
  refine ⟨(((SyncOnly.refl s).setQuire _ _).count (by decide)).woken hwoken, (hwoken.fld_counter (by decide) _).trans (State.fld_count _ _ _), fun w hw => ?_⟩
  have hnot := hready w hw
  rw [State.opDone_quire, if_pos rfl] at hnot
  exact hnot

end

end

end Sys2Proof.Machine
end

section
/-! Stores at a quire: refused, denied and carried out (13_quires.md, O37). -/

namespace Sys2Proof.Machine

/-! ## Records about an operation (R375) -/

theorem State.srcWord_congr {s t : State} (h : t.pkg = s.pkg) (x : QSource) (op arg : Nat) : t.srcWord x op arg = s.srcWord x op arg := by
  unfold State.srcWord
  rw [h]

section
variable (s : State) (x : StoreSrc) (st sev q op arg : Nat)

/-- A store's source places a record of its own. -/
theorem State.quireRecord_store : ∃ y : FaultRec, s.quireRecord (.src (storeSource x)) st sev q op arg = s.raise y ∧ y.status = st ∧ y.sev = sev ∧
    y.arg0 = s.srcWord (.src (storeSource x)) op arg := by
  rcases x with (n | ⟨d, k⟩ | _) | p <;> exact ⟨_, rfl, rfl, rfl, rfl⟩

/-- A quire with a flag set, and the record about it. -/
def State.flagged (flag : Nat) : State := s.setQuire q ((s.quire q).setFlag flag)

theorem State.quireRefuse_store (flag slot : Nat) : s.quireRefuse (.src (storeSource x)) flag st q op arg slot =
    ((s.flagged q flag).count R.SYNC_ERRORS 1).quireRecord (.src (storeSource x)) st Sev.DEFERRED q op arg := by
  rcases x with (n | ⟨d, k⟩ | _) | p <;> rfl

end

/-- What a refused or denied operation shows: its flag and its record, and of the registers the count of errors alone. -/
structure QuireTold (s : State) (x : QSource) (q flag st sev op arg : Nat) (t : State) : Prop where
  quire : t.quire q = (s.quire q).setFlag flag
  others : QuiresBut [q] s t
  told : t.lastRaised.map (fun y => (y.status, y.sev, y.arg0)) = some (st, sev, s.srcWord x op arg)
  frame : t = { s with regs := t.regs, faults := t.faults, sync := { s.sync with quires := t.sync.quires } }
  regs : RegsBut [R.SYNC_ERRORS] s t

section
variable {s : State} {x : StoreSrc} {q flag st sev op arg : Nat}

/-- A record placed about an operation whose flag is set. -/
theorem QuireTold.of_record {u : State} (hquires : u.sync.quires = (s.flagged q flag).sync.quires)
    (hframe : u = { s with regs := u.regs, faults := u.faults, sync := { s.sync with quires := u.sync.quires } })
    (hregs : RegsBut [R.SYNC_ERRORS] s u) :
    QuireTold s (.src (storeSource x)) q flag st sev op arg (u.quireRecord (.src (storeSource x)) st sev q op arg) := by
  obtain ⟨y, hrecord, hst, hsev, harg⟩ := u.quireRecord_store x st sev q op arg
  have hpkg : u.pkg = s.pkg := hregs.fld (by decide) _
  have hquire (p : Nat) : (u.raise y).quire p = (s.flagged q flag).quire p := congrArg (fun z => Sparse.get ({} : QuireRec) p z) hquires
  rw [hrecord]
  refine ⟨?_, fun p hp => ?_, ?_, ?_, hregs.raise y⟩
  · rw [hquire, State.flagged, State.quire_setQuire]
  · rw [hquire, State.flagged, State.quire_setQuire_of_ne _ _ (by simpa using hp)]
  · rw [State.lastRaised_raise, ← State.srcWord_congr hpkg, ← hst, ← hsev, ← harg]
    rfl
  · have hraise (z : FaultSt) : { u with faults := z } = { s with regs := u.regs, faults := z, sync := { s.sync with quires := u.sync.quires } } := by
      conv_lhs => rw [hframe]
    exact hraise _

theorem State.quireRefuse_told (slot : Nat) : QuireTold s (.src (storeSource x)) q flag st Sev.DEFERRED op arg
    (s.quireRefuse (.src (storeSource x)) flag st q op arg slot) := by
  rw [State.quireRefuse_store]
  have hcount := (s.flagged q flag).count_frame R.SYNC_ERRORS 1
  have hsync : ((s.flagged q flag).count R.SYNC_ERRORS 1).sync = (s.flagged q flag).sync := State.count_sync _ _ _
  refine .of_record (by rw [hsync]) ?_ ((RegsBut.of_regs_eq (t := s.flagged q flag) _ rfl).count 1 (List.mem_singleton_self _))
  rw [hsync]
  exact hcount

theorem State.quireDeny_told : QuireTold s (.src (storeSource x)) q Qf.REFUSED St.QUIRE_DENIED Sev.INFO op arg (s.quireDeny x q op arg) ∧
    (s.quireDeny x q op arg).regs = s.regs := by
  refine ⟨.of_record rfl rfl (.of_regs_eq _ rfl), ?_⟩
  obtain ⟨y, hrecord, -⟩ := (s.flagged q Qf.REFUSED).quireRecord_store x St.QUIRE_DENIED Sev.INFO q op arg
  have hregs : (s.quireDeny x q op arg).regs = ((s.flagged q Qf.REFUSED).raise y).regs := congrArg State.regs hrecord
  exact hregs

end

/-! ## Operations carried out (R374) -/

/-- What an effective operation that grants no unit shows. -/
structure QuireTook (s : State) (x : QSource) (q op arg : Nat) (r : QuireRec) (t : State) : Prop where
  quire : t.quire q = { r with src := s.srcWord x op arg, stamp := s.spanNow }
  others : QuiresBut [q] s t
  only : SyncOnly s t
  ops : t.fld R.SYNC_OPS F.CTR.COUNT = (s.fld R.SYNC_OPS F.CTR.COUNT + 1) % 2 ^ 48
  waiters : ∀ w ∈ t.sync.waiters, w.ready q r = false

section
variable {s : State} {x : QSource} {q op arg : Nat} {r : QuireRec}

theorem State.effective_took (h : s.noConsumer q ∨ r.mode = Qm.GATHER ∨ r.mode = Qm.MIRROR) : QuireTook s x q op arg r (s.effective x op arg q r) := by
  obtain ⟨hq, hbut⟩ := State.quire_effective (s := s) (x := x) (op := op) (arg := arg) h
  obtain ⟨honly, hops, hready⟩ := State.effective_only (s := s) (x := x) (op := op) (arg := arg) h
  exact ⟨hq, hbut, honly, hops, hready⟩

/-- An operation held at the end of the range is counted among the errors as well. -/
theorem QuireTook.count_error {t : State} (h : QuireTook s x q op arg r t) : QuireTook s x q op arg r (t.count R.SYNC_ERRORS 1) := by
  have hsync := t.count_sync R.SYNC_ERRORS 1
  have hquire (p : Nat) : (t.count R.SYNC_ERRORS 1).quire p = t.quire p := by rw [State.quire, hsync, ← State.quire]
  exact ⟨(hquire q).trans h.quire, fun p hp => (hquire p).trans (h.others p hp), h.only.count (by decide),
    (State.fld_count_of_ne _ _ _ (by decide)).trans h.ops, by rw [hsync]; exact h.waiters⟩

end

section
variable {s : State} {x : QSource} {q v : Nat}

theorem State.quireAdd_of_fits (hmode : (s.quire q).mode = Qm.NATIVE ∨ (s.quire q).mode = Qm.COMPAT) (hfit : (s.quire q).value + v < 2 ^ 32) (slot : Nat) :
    s.quireAdd x q v slot = s.effective x Qo.ADD v q { s.quire q with value := (s.quire q).value + v } := by
  rcases hmode with hmode | hmode
  · rw [State.quireAdd, if_pos hmode, if_pos hfit]
  · rw [State.quireAdd, if_neg (by rw [hmode]; decide), if_pos hmode, if_pos hfit]

theorem State.quireSub_of_fits (hmode : (s.quire q).mode = Qm.NATIVE ∨ (s.quire q).mode = Qm.COMPAT) (hfit : v ≤ (s.quire q).value) (slot : Nat) :
    s.quireSub x q v slot = s.effective x Qo.SUB v q { s.quire q with value := (s.quire q).value - v } := by
  rcases hmode with hmode | hmode
  · rw [State.quireSub, if_pos hmode, if_pos hfit]
  · rw [State.quireSub, if_neg (by rw [hmode]; decide), if_pos hmode, if_pos hfit]

theorem State.quireAdd_of_over (hmode : (s.quire q).mode = Qm.NATIVE) (hover : 2 ^ 32 ≤ (s.quire q).value + v) (slot : Nat) :
    s.quireAdd x q v slot = s.quireRefuse x Qf.OVERFLOW St.QUIRE_OVERFLOW q Qo.ADD v slot := by
  rw [State.quireAdd, if_pos hmode, if_neg (by omega)]

theorem State.quireSub_of_under (hmode : (s.quire q).mode = Qm.NATIVE) (hunder : (s.quire q).value < v) (slot : Nat) :
    s.quireSub x q v slot = s.quireRefuse x Qf.UNDERFLOW St.QUIRE_UNDERFLOW q Qo.SUB v slot := by
  rw [State.quireSub, if_pos hmode, if_neg (by omega)]

theorem State.quireAdd_of_held (hmode : (s.quire q).mode = Qm.COMPAT) (hover : 2 ^ 32 ≤ (s.quire q).value + v) (slot : Nat) :
    s.quireAdd x q v slot = (s.effective x Qo.ADD v q ({ s.quire q with value := 2 ^ 32 - 1 }.setFlag Qf.SATURATED)).count R.SYNC_ERRORS 1 := by
  rw [State.quireAdd, if_neg (by rw [hmode]; decide), if_pos hmode, if_neg (by omega)]

theorem State.quireSub_of_held (hmode : (s.quire q).mode = Qm.COMPAT) (hunder : (s.quire q).value < v) (slot : Nat) :
    s.quireSub x q v slot = (s.effective x Qo.SUB v q ({ s.quire q with value := 0 }.setFlag Qf.SATURATED)).count R.SYNC_ERRORS 1 := by
  rw [State.quireSub, if_neg (by rw [hmode]; decide), if_pos hmode, if_neg (by omega)]

theorem State.quireAdd_of_mode (hmode : (s.quire q).mode = Qm.GATHER ∨ (s.quire q).mode = Qm.MIRROR) (slot : Nat) :
    s.quireAdd x q v slot = s.quireRefuse x Qf.REFUSED St.QUIRE_MODE q Qo.ADD v slot := by
  rcases hmode with hmode | hmode <;> rw [State.quireAdd, if_neg (by rw [hmode]; decide), if_neg (by rw [hmode]; decide)]

theorem State.quireSub_of_mode (hmode : (s.quire q).mode = Qm.GATHER ∨ (s.quire q).mode = Qm.MIRROR) (slot : Nat) :
    s.quireSub x q v slot = s.quireRefuse x Qf.REFUSED St.QUIRE_MODE q Qo.SUB v slot := by
  rcases hmode with hmode | hmode <;> rw [State.quireSub, if_neg (by rw [hmode]; decide), if_neg (by rw [hmode]; decide)]

/-- SET of a gathering head: its DONE, and its tally's arrivals gone. -/
theorem State.quireSet_head (hhead : s.isHead q = true) (hmode : (s.quire (q + 1)).mode = Qm.GATHER) :
    (s.quireSet x q v).quire q = { s.quire q with value := v, lateNoted := false, src := s.srcWord x Qo.SET v, stamp := s.spanNow } ∧
    (s.quireSet x q v).quire (q + 1) = { s.quire (q + 1) with value := 0, arrN1 := 0 } ∧ QuiresBut [q, q + 1] s (s.quireSet x q v) ∧
    SyncOnly s (s.quireSet x q v) := by
  obtain ⟨hgather, hh⟩ : (s.quire q).mode = Qm.GATHER ∧ (s.quire q).head = true := by
    rw [State.isHead, Bool.and_eq_true, beq_iff_eq] at hhead
    exact hhead
  let s1 := s.setQuire (q + 1) { s.quire (q + 1) with value := 0, arrN1 := 0 }
  let s2 := s1.effective x Qo.SET v q { s.quire q with value := v, lateNoted := false }
  have heq : s.quireSet x q v = s2.afterOp (q + 1) := by
    rw [State.quireSet, if_pos hgather, if_pos hh]
  obtain ⟨hq, hbut, honly, -, -⟩ : QuireTook s1 x q Qo.SET v { s.quire q with value := v, lateNoted := false } s2 := State.effective_took (.inr (.inl hgather))
  have htally : s2.quire (q + 1) = { s.quire (q + 1) with value := 0, arrN1 := 0 } :=
    (hbut (q + 1) (by simp)).trans (State.quire_setQuire s _ _)
  have hgrant : s2.NoGrant (q + 1) := .inr (.inl (by rw [htally]; exact hmode))
  have honly1 : SyncOnly s s2 := by
    obtain ⟨hframe, hregs, hcx, hwaiters⟩ := honly
    exact ⟨hframe, hregs, hcx, hwaiters⟩
  rw [heq]
  refine ⟨?_, ?_, fun p hp => ?_, honly1.woken (State.afterOp_woken hgrant).1⟩
  · rw [State.quire_afterOp hgrant, hq]
    rfl
  · rw [State.quire_afterOp hgrant, htally]
  · obtain ⟨hp0, hp1⟩ : p ≠ q ∧ p ≠ q + 1 := by simpa using hp
    rw [State.quire_afterOp hgrant, hbut p (by simpa using hp0)]
    exact State.quire_setQuire_of_ne s _ hp1

theorem State.quireSet_of_other (hmode : (s.quire q).mode ≠ Qm.GATHER) : s.quireSet x q v = s.effective x Qo.SET v q { s.quire q with value := v } := if_neg hmode

theorem State.quireSet_of_tally (hmode : (s.quire q).mode = Qm.GATHER) (hhead : (s.quire q).head = false) :
    s.quireSet x q v = s.quireRefuse x Qf.REFUSED St.QUIRE_MODE q Qo.SET v 0 := by
  rw [State.quireSet, if_pos hmode, if_neg (by simp [hhead])]

/-- A record written at a quire. -/
theorem State.setQuire_put (r : QuireRec) : (s.setQuire q r).quire q = r ∧ QuiresBut [q] s (s.setQuire q r) ∧
    s.setQuire q r = { s with sync := { s.sync with quires := (s.setQuire q r).sync.quires } } :=
  ⟨s.quire_setQuire q r, fun _ hp => s.quire_setQuire_of_ne r (by simpa using hp), rfl⟩

end

/-- Settles O37, store by store: each is an effective operation, a refusal or a denial, which leave what `QuireTook` and `QuireTold` say. -/
theorem quireStores : Obligations.QuireStores := by
  intro s x q v hon r n X took told denied
  have htook {op : Nat} {r' : QuireRec} {t : State} (h : QuireTook s X q op n r' t) : took op r' t := ⟨h.quire, h.others, h.only, h.ops, h.waiters⟩
  have htold {flag st sev op arg : Nat} {t : State} (h : QuireTold s X q flag st sev op arg t) : told flag st sev op arg t :=
    ⟨h.quire, h.others, h.told, h.frame, h.regs⟩
  have hrefused (flag st op arg slot : Nat) : told flag st Sev.DEFERRED op arg (s.quireRefuse X flag st q op arg slot) := htold (State.quireRefuse_told slot)
  have hdeny (op arg : Nat) : denied op arg (s.quireDeny x q op arg) := ⟨htold State.quireDeny_told.1, State.quireDeny_told.2⟩
  have hadd : exec (.quireAdd x q v) s = .next (storeAdd x q v s) := State.whileOn_on _ hon
  have hsub : exec (.quireSub x q v) s = .next (storeSub x q v s) := State.whileOn_on _ hon
  have hset : exec (.set x q v) s = .next (storeSet x q v s) := State.whileOn_on _ hon
  refine ⟨fun hmay hcons => ⟨fun hmode => ⟨fun hfit => ?_, fun hfit => ?_⟩, fun hmode => ⟨fun hover => ?_, fun hunder => ?_⟩,
    fun hmode => ⟨fun hover => ?_, fun hunder => ?_⟩, fun hmode => ⟨?_, ?_⟩⟩, fun hmay => ⟨?_, ?_⟩,
    fun hmay => ⟨fun hmode hcons => ?_, fun hhead hmode => ?_, fun hmode hhead => ?_⟩, fun hmay => ?_, fun y => ?_, fun off => ?_⟩
  · rw [storeAdd, if_pos hmay, State.quireAdd_of_fits hmode hfit] at hadd
    exact .of hadd (htook (State.effective_took (.inl hcons)))
  · rw [storeSub, if_pos hmay, State.quireSub_of_fits hmode hfit] at hsub
    exact .of hsub (htook (State.effective_took (.inl hcons)))
  · rw [storeAdd, if_pos hmay, State.quireAdd_of_over hmode hover] at hadd
    exact .of hadd (hrefused _ _ _ _ _)
  · rw [storeSub, if_pos hmay, State.quireSub_of_under hmode hunder] at hsub
    exact .of hsub (hrefused _ _ _ _ _)
  · rw [storeAdd, if_pos hmay, State.quireAdd_of_held hmode hover] at hadd
    exact .of hadd (htook (State.effective_took (.inl hcons)).count_error)
  · rw [storeSub, if_pos hmay, State.quireSub_of_held hmode hunder] at hsub
    exact .of hsub (htook (State.effective_took (.inl hcons)).count_error)
  · rw [storeAdd, if_pos hmay, State.quireAdd_of_mode hmode] at hadd
    exact .of hadd (hrefused _ _ _ _ _)
  · rw [storeSub, if_pos hmay, State.quireSub_of_mode hmode] at hsub
    exact .of hsub (hrefused _ _ _ _ _)
  · rw [storeAdd, if_neg (by simp [hmay])] at hadd
    exact .of hadd (hdeny _ _)
  · rw [storeSub, if_neg (by simp [hmay])] at hsub
    exact .of hsub (hdeny _ _)
  · rw [storeSet, if_pos hmay, State.quireSet_of_other hmode] at hset
    exact .of hset (htook (State.effective_took (.inl hcons)))
  · rw [storeSet, if_pos hmay] at hset
    exact .of hset (State.quireSet_head hhead hmode)
  · rw [storeSet, if_pos hmay, State.quireSet_of_tally hmode hhead] at hset
    exact .of hset (hrefused _ _ _ _ _)
  · rw [storeSet, if_neg (by simp [hmay])] at hset
    exact .of hset (hdeny _ _)
  · intro put
    have hput (r' : QuireRec) : put r' (s.setQuire q r') := State.setQuire_put r'
    have hdl : exec (.deadlineStore x q y) s = .next (storeDeadline x q y s) := State.whileOn_on _ hon
    have hstep : exec (.dlStepStore x q y) s = .next (storeDlStep x q y s) := State.whileOn_on _ hon
    have hclear : exec (.flagClear x q y) s = .next (storeFlags x q y s) := State.whileOn_on _ hon
    refine ⟨fun hmay => ⟨fun hhead => ⟨?_, ?_⟩, fun hhead => ⟨?_, ?_⟩, fun _ => ?_⟩, fun hmay => ⟨?_, ?_, ?_⟩⟩
    · rw [storeDeadline, if_pos hmay, if_pos hhead] at hdl
      exact .of hdl (hput _)
    · rw [storeDlStep, if_pos hmay, if_pos hhead] at hstep
      exact .of hstep (hput _)
    · rw [storeDeadline, if_pos hmay, if_neg (by simp [hhead])] at hdl
      exact .of hdl (hrefused _ _ _ _ _)
    · rw [storeDlStep, if_pos hmay, if_neg (by simp [hhead])] at hstep
      exact .of hstep (hrefused _ _ _ _ _)
    · have hbits : BitVec.ofNat 8 (y.get 7 0) = y.extractLsb' 0 8 := BitVec.eq_of_toNat_eq (by simp [Word.get, bitsOf])
      rw [storeFlags, if_pos hmay, hbits] at hclear
      exact .of hclear (hput _)
    · rw [storeDeadline, if_neg (by simp [hmay])] at hdl
      exact .of hdl (hdeny _ _)
    · rw [storeDlStep, if_neg (by simp [hmay])] at hstep
      exact .of hstep (hdeny _ _)
    · rw [storeFlags, if_neg (by simp [hmay])] at hclear
      exact .of hclear (hdeny _ _)
  · obtain ⟨z, hrecord, hst, hsev, -⟩ := s.quireRecord_store x St.QUIRE_ACCESS Sev.INFO (off % 0x100000 / 64) 0 0
    have hexec : exec (.quireAccess x off) s = .next (s.raise z) := (State.whileOn_on _ hon).trans (congrArg _ hrecord)
    refine .of hexec ⟨?_, rfl⟩
    rw [State.lastRaised_raise, ← hst, ← hsev]
    rfl

end Sys2Proof.Machine
end

section
/-! A quire configured into a tally (13_quires.md, O38). -/

namespace Sys2Proof.Machine

/-- Every quire is NATIVE, and the record of quire 1 is marked as if the end of a round of its own had been told (R384). -/
def tallyNoted : State where
  sync := { quires := [(1, { lateNoted := true })] }

/-- The value of a CONFIG that makes a gathering head of one participant (R383). -/
def configHead : Word := 6

/-- CONFIG of quire 0 makes quire 1 its tally and leaves the mark. -/
theorem lateNoted_config_tallyNoted : ((storeConfig (.agent .host) 0 configHead tallyNoted).quire 1).lateNoted = true := by decide

/-- Refutes O38: CONFIG of a head makes its tally afresh in every field but the mark that a passed DEADLINE has been told (R384), so a tally
whose record bears the mark keeps it. Only a head is ever marked, and a head is an even quire, so no run reaches such a tally; the statement
has no premise that says so. -/
theorem not_gatherings : ¬ Obligations.Gatherings := by
  unfold Obligations.Gatherings
  intro h
  obtain ⟨-, hconfig, -, -⟩ := h
  obtain ⟨-, hgo, -, -⟩ := hconfig tallyNoted (.agent .host) 0 configHead rfl
  obtain ⟨-, hfree⟩ := hgo (by decide) (by decide)
  obtain ⟨t, ht, -, -, hhead⟩ := hfree (by decide) (by decide)
  obtain ⟨-, -, -, -, -, -, hfresh, -⟩ := hhead (by decide) (by decide)
  have htc : t = storeConfig (.agent .host) 0 configHead tallyNoted := (Host.Outcome.next.inj ht).symm
  have hmark : (t.quire 1).lateNoted = false := congrArg QuireRec.lateNoted hfresh
  rw [htc, lateNoted_config_tallyNoted] at hmark
  cases hmark

end Sys2Proof.Machine
end

section
/-! Pace: reports, settings and their application (15_fabric.md, O53). -/

namespace Sys2Proof.Machine

/-! ## Reports at a partition's leader (R440) -/

theorem State.fabHear_of_alive {s : State} {p : Nat} (h : s.isDead p = false) :
    s.fabHear p = s.withFab { s.fab with heard := Sparse.set p s.spanNow s.fab.heard } := by
  rw [State.fabHear_eq, State.heardFab_of_alive h]

/-- What the leader of a partition keeps of it. -/
def State.leadOf (s : State) (part : Nat) : PaceLead := Sparse.get {} part s.fab.leads

def State.putLead (s : State) (part : Nat) (y : PaceLead) : State := { s with fab := { s.fab with leads := Sparse.set part y s.fab.leads } }

theorem State.leadOf_putLead (s : State) (part : Nat) (y : PaceLead) : (s.putLead part y).leadOf part = y := Sparse.get_set_same ..

/-- The largest lag of the round and the package with it, shown. -/
def State.lagShown (s : State) (part lag who : Nat) : State :=
  (s.setFld (R.FAB_PACE_LAG part) F.FAB_PACE_LAG.LAG_NS (min 0xFFFFFFFF lag)).setFld (R.FAB_PACE_LAG part) F.FAB_PACE_LAG.LAG_PKG who

theorem State.lagShown_shown (s : State) (part : Nat) {lag who : Nat} (hlag : lag < 2 ^ 32) (hwho : who < 8192) :
    (s.lagShown part lag who).fld (R.FAB_PACE_LAG part) F.FAB_PACE_LAG.LAG_NS = lag ∧
    (s.lagShown part lag who).fld (R.FAB_PACE_LAG part) F.FAB_PACE_LAG.LAG_PKG = who ∧
    RegsBut [R.FAB_PACE_LAG part] s (s.lagShown part lag who) ∧ s.lagShown part lag who = { s with regs := (s.lagShown part lag who).regs } := by
  have hmem : R.FAB_PACE_LAG part ∈ [R.FAB_PACE_LAG part] := List.mem_singleton_self _
  refine ⟨?_, State.fld_setFld_of_le _ _ _ (by decide) (Nat.le_of_lt_succ hwho), ((RegsBut.refl _ s).setFld _ _ hmem).setFld _ _ hmem, rfl⟩
  rw [State.lagShown, State.fld_setFld_of_disjoint _ _ _ _ _ (by decide) (by decide),
    State.fld_setFld_of_le _ _ _ (by decide) (v := min 0xFFFFFFFF lag) (Nat.min_le_left _ _)]
  omega

/-- Does this package watch the partition's head `q`? -/
def State.Watches (s : State) (part q : Nat) : Prop :=
  s.fld (R.FAB_PACE part) F.FAB_PACE.EN = 1 ∧ s.fld (R.FAB_PACE part) F.FAB_PACE.LEADER_PKG = s.pkg ∧ s.fld (R.FAB_PACE part) F.FAB_PACE.HEAD_Q = q

section
variable {s : State} {p : Pkg} {part : Fin 16} {q round : Nat} {w : Word}

theorem State.watched_iff (s : State) (part q : Nat) : (!s.flag (R.FAB_PACE part) F.FAB_PACE.EN || s.fld (R.FAB_PACE part) F.FAB_PACE.LEADER_PKG != s.pkg ||
    s.fld (R.FAB_PACE part) F.FAB_PACE.HEAD_Q != q) = true ↔ ¬ s.Watches part q := by
  have htop : s.fld (R.FAB_PACE part) F.FAB_PACE.EN ≤ 1 := s.fld_le_top _ _
  have hen : s.fld (R.FAB_PACE part) F.FAB_PACE.EN = 1 ↔ ¬ s.fld (R.FAB_PACE part) F.FAB_PACE.EN = 0 := by omega
  simp only [State.Watches, State.flag, Bool.or_eq_true, Bool.not_eq_true', bne_iff_ne, bne_eq_false_iff_eq, hen]
  tauto

theorem paceReport_of_off (h : s.fabState = FabS.OFF) : paceReport p part q round w s = s := if_pos h

theorem paceReport_of_unwatched (hst : s.fabState ≠ FabS.OFF) (h : ¬ s.Watches part q) : paceReport p part q round w s = s.fabHear p := by
  unfold paceReport
  rw [if_neg hst, if_pos ((s.watched_iff part q).mpr h)]

theorem State.nsBetween_self (s : State) (a : Word) : s.nsBetween a a = 0 := by
  simp [State.nsBetween]

/-- A report noted: it begins a round, or stands in its own place in the round. -/
def PaceLead.noted (x : PaceLead) (thresh p round : Nat) (w : Word) : PaceLead :=
  let later := decide (0 < (BitVec.ofNat 32 round - BitVec.ofNat 32 x.round).toInt) || x.reports == []
  let y := if later then (if x.reports = [] then { x with round := round } else x.nextRound thresh round) else x
  { y with reports := (y.reports.filter fun (r : Nat × Nat × Word) => r.1 != p) ++ [(p, round, w)] }

/-- The largest lag of a leader's round and the package with it. -/
def State.roundLag (s : State) (x : PaceLead) : Nat × Nat :=
  match earliest (x.of x.round) with
  | some e => s.largestLag (x.of x.round) e
  | none => (0, 0)

/-- What the leader keeps with its round's largest lag and start. -/
def State.lagged (s : State) (x : PaceLead) : PaceLead := { x with maxLag := (s.roundLag x).1, startAt := earliest (x.of x.round) }

/-- The leader's record kept, its lag shown. -/
def State.leadShown (s : State) (part : Nat) (x : PaceLead) : State := (s.putLead part (s.lagged x)).lagShown part (s.roundLag x).1 (s.roundLag x).2

/-- The record a report leaves at the leader. -/
def State.reported (s : State) (p part round : Nat) (w : Word) : PaceLead :=
  ((s.fabHear p).leadOf part).noted (s.fld (R.FAB_PACE part) F.FAB_PACE.LAG_THRESH * 1000) p round w

section
variable (hst : s.fabState ≠ FabS.OFF) (hwatch : s.Watches part q)
include hst hwatch

theorem paceReport_of_manual (hauto : s.flag (R.FAB_PACE part) F.FAB_PACE.AUTO = false) :
    paceReport p part q round w s = (s.fabHear p).leadShown part (s.reported p part round w) := by
  have hw : ¬ (!s.flag (R.FAB_PACE part) F.FAB_PACE.EN || s.fld (R.FAB_PACE part) F.FAB_PACE.LEADER_PKG != s.pkg ||
    s.fld (R.FAB_PACE part) F.FAB_PACE.HEAD_Q != q) = true := fun h => (s.watched_iff part q).mp h hwatch
  unfold paceReport
  rw [if_neg hst, if_neg hw]
  exact if_neg (by rw [hauto]; exact Bool.false_ne_true)

/-- The span time between the starts of two rounds. -/
def State.roundStep (s : State) (x : PaceLead) : Nat :=
  match x.prevStart, x.startAt with
  | some a, some b => s.nsBetween a b
  | _, _ => 0

/-- Under AUTO a lag above the threshold sends a longer stretch, once a round (R441). -/
theorem paceReport_of_slow (hauto : s.flag (R.FAB_PACE part) F.FAB_PACE.AUTO = true) {y : PaceLead} {u : State}
    (hy : (s.fabHear p).lagged (s.reported p part round w) = y) (hu : (s.fabHear p).leadShown part (s.reported p part round w) = u)
    (hlag : s.fld (R.FAB_PACE part) F.FAB_PACE.LAG_THRESH * 1000 < y.maxLag) (hstep : 0 < u.roundStep y) (hsent : y.sentFor ≠ some y.round) :
    paceReport p part q round w s = (u.putLead part { y with sentFor := some y.round, below := 0 }).sendPace part
      (min 65535 ((u.paceOf part).stretch + (65536 * y.maxLag + u.roundStep y - 1) / u.roundStep y)) (u.boundaryAfter 2) := by
  have hw : ¬ (!s.flag (R.FAB_PACE part) F.FAB_PACE.EN || s.fld (R.FAB_PACE part) F.FAB_PACE.LEADER_PKG != s.pkg ||
    s.fld (R.FAB_PACE part) F.FAB_PACE.HEAD_Q != q) = true := fun h => (s.watched_iff part q).mp h hwatch
  subst hy hu
  unfold paceReport
  rw [if_neg hst, if_neg hw]
  refine (if_pos hauto).trans ?_
  exact if_pos ⟨hlag, hstep, hsent⟩

end

/-! ## Rounds (R440) -/

theorem PaceLead.noted_first {x : PaceLead} (h : x.reports = []) (thresh p : Nat) :
    x.noted thresh p round w = { x with round := round, reports := [(p, round, w)] } := by
  simp [PaceLead.noted, h]

/-- A later report of the round under way. -/
theorem PaceLead.noted_second {x : PaceLead} {r p : Nat} {e : Word} (hne : r ≠ p) (h : x.reports = [(r, round, e)]) (hround : x.round = round)
    (thresh : Nat) : x.noted thresh p round w = { x with reports := [(r, round, e), (p, round, w)] } := by
  have hlater : (decide (0 < (BitVec.ofNat 32 round - BitVec.ofNat 32 x.round).toInt) || x.reports == []) = false := by
    rw [hround, h]
    simp
  rw [PaceLead.noted, hlater]
  simp [h, hne]

theorem State.lagged_first (s : State) (x : PaceLead) {p : Nat} (h : x.reports = [(p, x.round, w)]) : s.roundLag x = (0, p) ∧ earliest (x.of x.round) = some w := by
  have hof : x.of x.round = [(p, w)] := by simp [PaceLead.of, h]
  rw [State.roundLag, hof]
  exact ⟨by simp [earliest, State.largestLag, State.nsBetween_self], rfl⟩

/-- Of two reports the later one's lag is counted from the earlier one. -/
theorem State.lagged_second (s : State) (x : PaceLead) {r p : Nat} {e : Word} (h : x.reports = [(r, x.round, e), (p, x.round, w)])
    (hle : 0 ≤ (w - e).toInt) :
    s.roundLag x = (s.nsBetween e w, if s.nsBetween e w = 0 then r else p) ∧ earliest (x.of x.round) = some e := by
  have hof : x.of x.round = [(r, e), (p, w)] := by simp [PaceLead.of, h]
  have hearly : earliest [(r, e), (p, w)] = some e := congrArg some (if_neg (Int.not_lt.mpr hle))
  rw [State.roundLag, hof, hearly]
  refine ⟨?_, rfl⟩
  by_cases hzero : s.nsBetween e w = 0
  · simp [State.largestLag, State.nsBetween_self, hzero]
  · simp [State.largestLag, State.nsBetween_self, hzero, Nat.pos_of_ne_zero hzero]

end

/-! ## Settings sent (R441) -/

section
variable (s : State) (part stretch : Nat) (base : Word)

/-- The packages a leader's setting goes to. -/
def State.paceDest : List Nat := ((s.leadOf part).reports.map (·.1)).filter fun p => p != s.pkg

theorem State.sendPace_eq : s.sendPace part stretch base =
    ((s.paceDest part).foldl (fun t p => t.fabSend (.paceSet p part stretch base)) s).setPace part { s.paceOf part with pend := some (base, stretch) } := rfl

/-- Messages sent one after another. -/
theorem State.foldl_fabSend (l : List Nat) (g : Nat → FabOut) : l.foldl (fun t p => t.fabSend (g p)) s = s.withFab { s.fab with sent := s.fab.sent ++ l.map g } := by
  induction l generalizing s with
  | nil => rw [List.foldl_nil, List.map_nil, List.append_nil]; rfl
  | cons p l ih =>
    rw [List.foldl_cons, ih, List.map_cons]
    simp only [State.fabSend, State.withFab, List.append_assoc, List.singleton_append]

theorem State.sendPace_sent : s.sendPace part stretch base = { s with
    pace := Sparse.set part { s.paceOf part with pend := some (base, stretch) } s.pace
    fab := { s.fab with sent := s.fab.sent ++ (s.paceDest part).map fun p => .paceSet p part stretch base } } := by
  rw [State.sendPace_eq, State.foldl_fabSend]
  rfl

theorem State.sendPace_regs : (s.sendPace part stretch base).regs = s.regs := by
  rw [State.sendPace_sent]

theorem State.leadOf_sendPace (k : Nat) : (s.sendPace part stretch base).leadOf k = s.leadOf k := by
  rw [State.sendPace_sent]
  rfl

theorem State.paceOf_sendPace : (s.sendPace part stretch base).paceOf part = { s.paceOf part with pend := some (base, stretch) } := by
  rw [State.sendPace_sent]
  exact Sparse.get_set_same ..

theorem State.paceOf_sendPace_of_ne {k : Nat} (h : k ≠ part) : (s.sendPace part stretch base).paceOf k = s.paceOf k := by
  rw [State.sendPace_sent]
  exact Sparse.get_set_of_ne _ _ _ h

theorem State.sendPace_frame : s.sendPace part stretch base = { s with
    pace := (s.sendPace part stretch base).pace, fab := { s.fab with sent := (s.sendPace part stretch base).fab.sent } } := by
  rw [State.sendPace_sent]

theorem State.mem_sent_sendPace (d : Nat) : FabOut.paceSet d part stretch base ∈ (s.sendPace part stretch base).fab.sent ↔
    FabOut.paceSet d part stretch base ∈ s.fab.sent ∨ ((∃ r ∈ (s.leadOf part).reports, r.1 = d) ∧ d ≠ s.pkg) := by
  rw [State.sendPace_sent]
  simp only [List.mem_append, List.mem_map, State.paceDest, List.mem_filter, bne_iff_ne]
  refine or_congr_right ⟨?_, ?_⟩
  · rintro ⟨p, ⟨⟨r, hr, hrp⟩, hne⟩, he⟩
    obtain ⟨rfl, -, -, -⟩ := FabOut.paceSet.inj he
    exact ⟨⟨r, hr, hrp⟩, hne⟩
  · rintro ⟨⟨r, hr, hrd⟩, hne⟩
    exact ⟨d, ⟨⟨r, hr, hrd⟩, hne⟩, rfl⟩

end

/-! ## Settings applied (R441) -/

section
variable {s : State} {part : Fin 16}

theorem paceApply_of_none (h : (s.paceOf part).pend = none) : paceApply part s = s := by
  simp only [paceApply, h]

variable {base : Word} {stretch : Nat} (h : (s.paceOf part).pend = some (base, stretch))
include h

theorem paceApply_of_early (hearly : stampReached (s.effOf part base) s.spanNow = false) : paceApply part s = s := by
  simp [paceApply, h, hearly]

/-- The registers of a partition's setting. -/
def paceRegs (part : Nat) : List Nat := [R.FAB_PACE part, R.FAB_PACE_BASE part, R.FAB_PACE_OFFSET part]

theorem paceApply_of_reached (hdue : stampReached (s.effOf part base) s.spanNow = true) : 
    (paceApply part s).reg (R.FAB_PACE_BASE part) = base ∧ (paceApply part s).paceOf part = { s.paceOf part with stretch := stretch, pend := none } ∧
    (paceApply part s).fld (R.FAB_PACE part) F.FAB_PACE.STRETCH = stretch % 65536 ∧
    (0 ≤ (base - s.reg (R.FAB_PACE_BASE part)).toInt → (paceApply part s).effOf part base = s.effOf part base) ∧
    RegsBut (paceRegs part) s (paceApply part s) ∧ paceApply part s = { s with regs := (paceApply part s).regs, pace := (paceApply part s).pace } := by
  let off := s.reg (R.FAB_PACE_OFFSET part) + BitVec.ofInt 64 ((base - s.reg (R.FAB_PACE_BASE part)).toInt * (s.paceOf part).stretch / 65536)
  let t := ((s.setReg (R.FAB_PACE_OFFSET part) off).setReg (R.FAB_PACE_BASE part) base).setFld (R.FAB_PACE part) F.FAB_PACE.STRETCH stretch
  have happly : paceApply part s = t.setPace part { s.paceOf part with stretch := stretch, pend := none } := by
    simp only [paceApply, h, hdue, if_true]
    rfl
  have hne : R.FAB_PACE_BASE part ≠ R.FAB_PACE part ∧ R.FAB_PACE_OFFSET part ≠ R.FAB_PACE part ∧ R.FAB_PACE_OFFSET part ≠ R.FAB_PACE_BASE part := by
    simp only [R.FAB_PACE, R.FAB_PACE_BASE, R.FAB_PACE_OFFSET]
    omega
  obtain ⟨hbase, hoff, hboth⟩ := hne
  have hreg : t.reg (R.FAB_PACE_BASE part) = base := by
    rw [State.reg_setFld_of_ne _ _ _ hbase, State.reg_setReg]
  have hregOff : t.reg (R.FAB_PACE_OFFSET part) = off := by
    rw [State.reg_setFld_of_ne _ _ _ hoff, State.reg_setReg_of_ne _ _ hboth, State.reg_setReg]
  have hpace : (t.setPace part { s.paceOf part with stretch := stretch, pend := none }).paceOf part = { s.paceOf part with stretch := stretch, pend := none } :=
    Sparse.get_set_same ..
  rw [happly]
  refine ⟨hreg, hpace, State.fld_setFld _ _ _ _ (by decide), fun hpos => ?_, ?_, rfl⟩
  · have hcarry : BitVec.ofInt 64 ((base - s.reg (R.FAB_PACE_BASE part)).toInt * (s.paceOf part).stretch / 65536) =
        BitVec.ofNat 64 ((base - s.reg (R.FAB_PACE_BASE part)).toInt.toNat * (s.paceOf part).stretch / 65536) := by
      rw [← BitVec.ofInt_natCast]
      congr 1
      push_cast
      rw [Int.toNat_of_nonneg hpos]
    have hbaseNow : (t.setPace part { s.paceOf part with stretch := stretch, pend := none }).reg (R.FAB_PACE_BASE part) = base := hreg
    have hoffNow : (t.setPace part { s.paceOf part with stretch := stretch, pend := none }).reg (R.FAB_PACE_OFFSET part) = off := hregOff
    rw [State.effOf, State.effOf, hbaseNow, hoffNow, BitVec.sub_self]
    simp only [off, hcarry]
    simp [BitVec.add_assoc]
  · exact (((RegsBut.refl _ s).setReg _ (by simp [paceRegs])).setReg _ (by simp [paceRegs])).setFld _ _ (by simp [paceRegs])

end

/-! ## A setting received (R441, R444) -/

section
variable {s : State} {p : Pkg} {part : Fin 16} {stretch : Nat} {base : Word}

theorem paceSet_of_off (h : s.fabState = FabS.OFF) : paceSet p part stretch base s = s := if_pos h

variable (hst : s.fabState ≠ FabS.OFF) (hd : s.isDead p = false)
include hst hd

theorem paceSet_of_leader (h : s.fld (R.FAB_PACE part) F.FAB_PACE.LEADER_PKG = p.val) : paceSet p part stretch base s =
    (s.withFab { s.fab with heard := Sparse.set p.val s.spanNow s.fab.heard }).setPace part { s.paceOf part with pend := some (base, stretch) } := by
  rw [paceSet, if_neg hst, State.fabHear_of_alive hd]
  exact if_pos h

theorem paceSet_of_other (h : s.fld (R.FAB_PACE part) F.FAB_PACE.LEADER_PKG ≠ p.val) : paceSet p part stretch base s =
    (s.withFab { s.fab with heard := Sparse.set p.val s.spanNow s.fab.heard }).count R.FAB_BAD_MSG 1 := by
  rw [paceSet, if_neg hst, State.fabHear_of_alive hd]
  exact if_neg h

end

/-! ## What a report shows (R440, R441) -/

/-- The record of the fabric engine once a package has been heard. -/
def State.heardAt (s : State) (p : Nat) : FabSt := { s.fab with heard := Sparse.set p s.spanNow s.fab.heard }

/-- What a report shows at the leader: its round's largest lag, and nothing beside the leader's own record. -/
structure LagTold (s : State) (part p lag who : Nat) (t : State) : Prop where
  lag : t.fld (R.FAB_PACE_LAG part) F.FAB_PACE_LAG.LAG_NS = lag
  who : t.fld (R.FAB_PACE_LAG part) F.FAB_PACE_LAG.LAG_PKG = who
  regs : RegsBut [R.FAB_PACE_LAG part] s t
  fab : t.fab = { s.heardAt p with leads := t.fab.leads }
  frame : t = { s with regs := t.regs, fab := t.fab }

theorem LagTold.of_lagShown {s u : State} {part p lag who : Nat} (hregs : u.regs = s.regs) (hfab : u.fab = { s.heardAt p with leads := u.fab.leads })
    (hframe : u = { s with regs := u.regs, fab := u.fab }) (hlag : lag < 2 ^ 32) (hwho : who < 8192) : LagTold s part p lag who (u.lagShown part lag who) := by
  obtain ⟨hns, hpkg, hbut, honly⟩ := u.lagShown_shown part hlag hwho
  refine ⟨hns, hpkg, (RegsBut.of_regs_eq _ hregs).trans hbut, hfab, ?_⟩
  have hset (z : List (Nat × Word)) : { u with regs := z } = { s with regs := z, fab := u.fab } := by
    conv_lhs => rw [hframe]
  exact honly.trans (hset _)

section
variable {s : State} {p r : Pkg} {part : Fin 16} {q round lag : Nat} {w e : Word} (hd : s.isDead p = false) (hst : s.fabState ≠ FabS.OFF) (hwatch : s.Watches part q)
include hd

theorem paceReport_first_told (hst : s.fabState ≠ FabS.OFF) (hwatch : s.Watches part q) (hnone : (s.leadOf part).reports = [])
    (hauto : s.flag (R.FAB_PACE part) F.FAB_PACE.AUTO = false) :
    ((paceReport p part q round w s).leadOf part).reports = [(p.val, round, w)] ∧ LagTold s part p 0 p (paceReport p part q round w s) := by
  have hhear : s.fabHear p = s.withFab (s.heardAt p) := State.fabHear_of_alive hd
  have hreported : s.reported p part round w = { s.leadOf part with round := round, reports := [(p.val, round, w)] } := by
    rw [State.reported, hhear]
    exact PaceLead.noted_first hnone _ _
  obtain ⟨hlag, -⟩ := State.lagged_first (s.fabHear p) { s.leadOf part with round := round, reports := [(p.val, round, w)] } (p := p.val) rfl
  rw [paceReport_of_manual hst hwatch hauto, hreported, State.leadShown, hlag, hhear]
  exact ⟨congrArg PaceLead.reports (State.leadOf_putLead _ _ _), .of_lagShown rfl rfl rfl (by decide) p.isLt⟩

/-- The leader's record after the second report of a round. -/
def State.secondLead (s : State) (p r part round lag : Nat) (e w : Word) : PaceLead :=
  { s.leadOf part with reports := [(r, round, e), (p, round, w)], maxLag := lag, startAt := some e }

/-- What the second report of a round leaves at the leader. -/
def State.secondShown (s : State) (p r part round lag : Nat) (e w : Word) : State :=
  ((s.withFab (s.heardAt p)).putLead part (s.secondLead p r part round lag e w)).lagShown part lag (if lag = 0 then r else p)

omit hd in
theorem State.secondShown_told (hsmall : lag < 2 ^ 32) :
    LagTold s part p lag (if lag = 0 then r.val else p.val) (s.secondShown p r part round lag e w) :=
  .of_lagShown rfl rfl rfl hsmall (by split <;> exact Fin.isLt _)

/-- The second report of a round: its lag is counted from the first. -/
theorem State.leadShown_second (hne : r ≠ p) (hreports : (s.leadOf part).reports = [(r.val, round, e)]) (hround : (s.leadOf part).round = round)
    (hle : 0 ≤ (w - e).toInt) (hlag : s.nsBetween e w = lag) :
    (s.fabHear p).leadShown part (s.reported p part round w) = s.secondShown p r part round lag e w ∧
    (s.fabHear p).lagged (s.reported p part round w) = s.secondLead p r part round lag e w := by
  have hhear : s.fabHear p = s.withFab (s.heardAt p) := State.fabHear_of_alive hd
  have hreported : s.reported p part round w = { s.leadOf part with reports := [(r.val, round, e), (p.val, round, w)] } := by
    rw [State.reported, hhear]
    exact PaceLead.noted_second (fun he => hne (Fin.ext he)) hreports hround _
  obtain ⟨hround', hstart⟩ := State.lagged_second (s.fabHear p) { s.leadOf part with reports := [(r.val, round, e), (p.val, round, w)] }
    (r := r.val) (p := p.val) (w := w) (e := e) (by rw [hround]) hle
  have hns : (s.fabHear p).nsBetween e w = lag := by rw [hhear]; exact hlag
  rw [hns] at hround'
  have hlagged : (s.fabHear p).lagged (s.reported p part round w) = s.secondLead p r part round lag e w := by
    rw [hreported, State.lagged, hround', hstart]
    rfl
  refine ⟨?_, hlagged⟩
  rw [State.leadShown, hlagged, hreported, hround', hhear]
  rfl

/-- The leader once it has answered a slow round with a longer stretch. -/
def State.slowAnswered (s : State) (p r part round lag step : Nat) (e w : Word) : State :=
  ((s.secondShown p r part round lag e w).putLead part { s.secondLead p r part round lag e w with
    sentFor := some (s.leadOf part).round, below := 0 }).sendPace part (min 65535 ((s.paceOf part).stretch + (65536 * lag + step - 1) / step)) (s.boundaryAfter 2)

omit hd in
theorem State.slowAnswered_told (step : Nat) (hsmall : lag < 2 ^ 32) :
    let t := s.slowAnswered p r part round lag step e w
    let v := min 65535 ((s.paceOf part).stretch + (65536 * lag + step - 1) / step)
    (t.fld (R.FAB_PACE_LAG part) F.FAB_PACE_LAG.LAG_NS = lag ∧ t.fld (R.FAB_PACE_LAG part) F.FAB_PACE_LAG.LAG_PKG = (if lag = 0 then r.val else p.val) ∧
      RegsBut [R.FAB_PACE_LAG part] s t) ∧
    t.paceOf part = { s.paceOf part with pend := some (s.boundaryAfter 2, v) } ∧
    (∀ d : Pkg, FabOut.paceSet d part v (s.boundaryAfter 2) ∈ t.fab.sent ↔
      FabOut.paceSet d part v (s.boundaryAfter 2) ∈ s.fab.sent ∨ ((d = r ∨ d = p) ∧ d.val ≠ s.pkg)) ∧
    (t.leadOf part).sentFor = some (s.leadOf part).round := by
  intro t v
  obtain ⟨hns, hpkg, hbut, -, -⟩ := State.secondShown_told (s := s) (p := p) (r := r) (part := part) (round := round) (e := e) (w := w) hsmall
  let u := (s.secondShown p r part round lag e w).putLead part { s.secondLead p r part round lag e w with
    sentFor := some (s.leadOf part).round, below := 0 }
  have hsent : t = u.sendPace part v (s.boundaryAfter 2) := rfl
  have hlead : u.leadOf part = { s.secondLead p r part round lag e w with sentFor := some (s.leadOf part).round, below := 0 } := State.leadOf_putLead ..
  have hown : u.pkg = s.pkg := hbut.fld (by simp [R.FAB_PACE_LAG, R.FAB_CFG]; omega) _
  have hregs : t.regs = u.regs := State.sendPace_regs ..
  have hkept (o : Nat) (f : Fld) : t.fld o f = u.fld o f := (RegsBut.of_regs_eq (l := []) hregs).fld (by simp) f
  refine ⟨⟨(hkept _ _).trans hns, (hkept _ _).trans hpkg, hbut.trans (.of_regs_eq _ hregs)⟩, u.paceOf_sendPace _ _ _, fun d => ?_, ?_⟩
  swap
  · rw [hsent, State.leadOf_sendPace, hlead]
  rw [hsent, State.mem_sent_sendPace, hlead, hown]
  refine or_congr_right (and_congr_left' ?_)
  simp [State.secondLead, Fin.ext_iff, eq_comm]

end

/-- Settles O53: a report by the round it stands in (`PaceLead.noted`, `State.roundLag`), a setting by its sender, its application and its
sending. -/
theorem fabricPace : Obligations.FabricPace := by
  intro s m hon hm s0
  refine ⟨fun p part hd => ?_, fun part => ?_, fun w v hw hv => ?_⟩
  · intro o heard x
    have hheard : s0.heardAt p = heard := rfl
    have hhear : s0.fabHear p = s0.withFab heard := State.fabHear_of_alive (s := s0) hd
    refine ⟨fun q round reason w => ?_, fun stretch base => ?_⟩
    · intro c watched lag
      have hexec : exec c s = .next (paceReport p part q.val round.toNat w s0) := State.whileOn_on _ hon
      have hflag {b : Nat} (h : s.fld o F.FAB_PACE.AUTO = b) : s0.flag (R.FAB_PACE part) F.FAB_PACE.AUTO = (b != 0) := congrArg (· != 0) h
      refine ⟨fun hoff => ?_, fun hst hnot => ?_, fun hst hwatch hnone hauto => ?_, fun r e hst hwatch hne hreports hround hstart hle hlag => ?_⟩
      · exact hexec.trans (congrArg _ (paceReport_of_off (s := s0) hoff))
      · exact .of (hexec.trans (congrArg _ ((paceReport_of_unwatched (s := s0) hst hnot).trans hhear))) rfl
      · obtain ⟨hlead, hns, hpkg, hbut, hfab, hframe⟩ := paceReport_first_told (s := s0) (round := round.toNat) (w := w) hd hst hwatch hnone (hflag hauto)
        exact .of hexec ⟨hlead, hns, hpkg, hfab, hbut, hframe⟩
      · intro shown step cur
        have hns : s0.nsBetween e w = lag := by
          change (w - e).toInt.toNat * s.span.len / 16777216 / 16 = (w - x.startAt.getD 0).toInt.toNat * s.span.len / 2 ^ 24 / 16
          rw [hstart]
          rfl
        obtain ⟨hshown, hlead⟩ := State.leadShown_second (s := s0) hd hne hreports hround hle hns
        obtain ⟨hlagNs, hlagPkg, hbut, hfab, hframe⟩ := State.secondShown_told (s := s0) (p := p) (r := r) (part := part) (round := round.toNat) (e := e) (w := w) hlag
        refine ⟨fun hauto => ?_, fun hauto hslow hstep hsent => ?_⟩
        · have hrun := hexec.trans (congrArg _ ((paceReport_of_manual (s := s0) hst hwatch (hflag hauto)).trans hshown))
          exact .of hrun ⟨⟨hlagNs, hlagPkg, hbut⟩, hfab, rfl⟩
        · obtain ⟨a, ha⟩ : ∃ a, x.prevStart = some a := by
            cases hp : x.prevStart with
            | none =>
              have hzero : step = 0 := by
                simp [step, hp]
              omega
            | some a => exact ⟨a, rfl⟩
          have hroundStep : (s0.secondShown p r part round.toNat lag e w).roundStep (s0.secondLead p r part round.toNat lag e w) = step := by
            change (match x.prevStart, some e with
              | some a, some b => s0.nsBetween a b
              | _, _ => 0) = (e - x.prevStart.getD e).toInt.toNat * s.span.len / 2 ^ 24 / 16
            rw [ha]
            rfl
          have hnew : (s0.secondLead p r part round.toNat lag e w).sentFor ≠ some (s0.secondLead p r part round.toNat lag e w).round := by
            rw [show (s0.secondLead p r part round.toNat lag e w).round = round.toNat from hround]
            exact hsent
          have hrun := paceReport_of_slow (s := s0) hst hwatch (hflag hauto) hlead hshown hslow (by rw [hroundStep]; exact hstep) hnew
          rw [hroundStep] at hrun
          obtain ⟨htold, hpace, hsets, hfor⟩ := State.slowAnswered_told (s := s0) (p := p) (r := r) (part := part) (round := round.toNat) (e := e) (w := w) step hlag
          refine .of (hexec.trans (congrArg _ hrun)) ⟨htold, hpace, hsets, ?_⟩
          exact hfor.trans (congrArg some hround)
    · have hexec : exec (.paceSet m p part stretch base) s = .next (paceSet p part stretch.toNat base s0) := State.whileOn_on _ hon
      refine ⟨fun hoff => ?_, fun hst hlead => ?_, fun hst hother => ?_⟩
      · exact hexec.trans (congrArg _ (paceSet_of_off (s := s0) hoff))
      · exact hexec.trans (congrArg _ (paceSet_of_leader (s := s0) hst hd hlead))
      · have hrun := hexec.trans (congrArg _ (paceSet_of_other (s := s0) hst hd hother))
        refine .of hrun ⟨State.fld_count _ _ _, (RegsBut.of_regs_eq (t := s0.withFab heard) _ rfl).count 1 (List.mem_singleton_self _), ?_⟩
        exact State.count_frame (s0.withFab heard) _ _
  · intro x eff
    have hexec : exec (.paceApply m part) s = .next (paceApply part s0) := State.whileOn_on _ hon
    refine ⟨fun hnone => ?_, fun base stretch hpend => ⟨fun hearly => ?_, fun hdue => ?_⟩⟩
    · exact hexec.trans (congrArg _ (paceApply_of_none (s := s0) hnone))
    · exact hexec.trans (congrArg _ (paceApply_of_early (s := s0) hpend hearly))
    · exact .of hexec (paceApply_of_reached (s := s0) hpend hdue)
  · intro n mine
    refine ⟨fun hmine => ?_, fun hnot => ?_⟩
    · have hrun : exec (.paceSend w) s = .next _ := exec_fabCtl hon rfl hw hv (if_pos hmine)
      refine .of hrun ⟨s.paceOf_sendPace _ _ _, fun k hk => s.paceOf_sendPace_of_ne _ _ _ hk, fun d hr hd => ?_, s.sendPace_frame _ _ _⟩
      exact (s.mem_sent_sendPace n _ _ d).mpr (.inr ⟨hr, hd⟩)
    · have hrun : exec (.paceSend w) s = .next _ := State.whileOn_write _ hon hw
      rw [fabCtl_of_declined hv (if_neg hnot)] at hrun
      exact .of hrun ⟨s.refusedCtl_shown, rfl⟩

end Sys2Proof.Machine
end

section
/-! Span time over the fabric: boundaries, and the delay of a plane (15_fabric.md, O52). -/

namespace Sys2Proof.Machine

/-! ## What an accepted reference event moves (R37) -/

/-- What the removal of an offset and a change of the lock state leave: the moment of the last event, every register but SPAN_STATUS,
and everything outside the span unit but its records. -/
structure Disciplined (s t : State) : Prop where
  accepted : t.span.refAcceptedAt = s.span.refAcceptedAt
  regs : RegsBut [R.SPAN_STATUS] s t
  frame : t = { s with regs := t.regs, span := t.span, faults := t.faults }

theorem Disciplined.trans {s t u : State} (h : Disciplined s t) (h' : Disciplined t u) : Disciplined s u where
  accepted := h'.accepted.trans h.accepted
  regs := h.regs.trans h'.regs
  frame := by rw [h'.frame, h.frame]

section
variable (s : State)

theorem RegsBut.spanStatus (f : Fld) (v : Nat) {t : State} (h : RegsBut [R.SPAN_STATUS] s t) : RegsBut [R.SPAN_STATUS] s (t.setFld R.SPAN_STATUS f v) :=
  h.setFld f v (List.mem_singleton_self _)

theorem State.spanToAcquiring_disciplined : Disciplined s s.spanToAcquiring :=
  ⟨rfl, ((RegsBut.refl _ s).spanStatus _ _ _).spanStatus _ _ _, rfl⟩

theorem State.spanToLocked_disciplined : Disciplined s s.spanToLocked :=
  ⟨rfl, (((RegsBut.refl _ s).spanStatus _ _ _).spanStatus _ _ _).spanStatus _ _ _, rfl⟩

theorem State.spanToFree_disciplined (byEnable : Bool) : Disciplined s (s.spanToFree byEnable) := by
  have hregs : RegsBut [R.SPAN_STATUS] s (((s.setSpanState SpanS.FREE).setFld R.SPAN_STATUS F.SPAN_STATUS.VALID 0).setFld R.SPAN_STATUS F.SPAN_STATUS.HOLD_SPANS 0) :=
    (((RegsBut.refl _ s).spanStatus _ _ _).spanStatus _ _ _).spanStatus _ _ _
  unfold State.spanToFree
  extract_lets was s1 s2
  split_ifs
  · exact ⟨rfl, hregs, rfl⟩
  · exact ⟨rfl, hregs, rfl⟩

theorem State.removeOffset_disciplined (e : Int) : Disciplined s (s.removeOffset e) := by
  unfold State.removeOffset
  split_ifs
  · exact ⟨rfl, .refl _ s, rfl⟩
  · exact ⟨rfl, .refl _ s, rfl⟩
  · exact (show Disciplined s (s.setFld R.SPAN_STATUS F.SPAN_STATUS.SLEW_EXCEEDED 1) from ⟨rfl, (RegsBut.refl _ s).spanStatus _ _ _, rfl⟩).trans
      (State.spanToFree_disciplined _ _)
  · exact ⟨rfl, .refl _ s, rfl⟩

/-- The unit with an event captured: its moment, its span time, its phase error. -/
def State.refCaptured (e : Int) : State :=
  let s1 := (s.setReg R.SPAN_CAP_REF s.spanNow).setFld R.SPAN_STATUS F.SPAN_STATUS.PHASE_ERR (s.phaseErr e)
  { s1 with span := { s1.span with refAcceptedAt := some s1.now } }

theorem State.refEvent_disciplined (e : Int) : Disciplined (s.refCaptured e) (s.refEvent e) := by
  have hagain : Disciplined (s.refCaptured e) ((s.refCaptured e).spanToAcquiring.removeOffset e) :=
    (State.spanToAcquiring_disciplined _).trans (State.removeOffset_disciplined _ e)
  have hcounted (n : Nat) : Disciplined (s.refCaptured e) { s.refCaptured e with span := { (s.refCaptured e).span with lockCount := n } } :=
    ⟨rfl, .refl _ _, rfl⟩
  unfold State.refEvent
  extract_lets s1 sp s2 n sp' s3
  split_ifs
  · exact hagain
  · exact hagain
  · exact ⟨rfl, .refl _ _, rfl⟩
  · exact hagain
  · exact (hcounted n).trans (State.spanToLocked_disciplined s3)
  · exact (hcounted n).trans (State.removeOffset_disciplined s3 e)

/-- A reference event of span count `count` at moment `at_`, and the measurement at it. -/
def State.refTaken (count at_ : Nat) : State :=
  let s2 := s.refEvent (s.countOffset count at_)
  ({ s2 with span := { s2.span with refCount := some count } } : State).spanMeasure at_ (some count)

theorem State.spanMeasure_took (at_ : Nat) (c : Option Nat) : (s.spanMeasure at_ c).span.lastRefAt = some at_ ∧
    (s.spanMeasure at_ c).span.refAcceptedAt = s.span.refAcceptedAt := by
  rcases h : s.span.lastRefAt with _ | a
  · simp only [State.spanMeasure, h]
    exact ⟨trivial, trivial⟩
  · simp only [State.spanMeasure, h]
    exact ⟨rfl, rfl⟩

/-- The registers of the span unit that a reference event shows itself in. -/
def refRegs : List Nat := [R.SPAN_CAP_REF, R.SPAN_STATUS, R.SPAN_MEAS]

theorem State.refTaken_told (count at_ : Nat) :
    let t := s.refTaken count at_
    t.reg R.SPAN_CAP_REF = s.spanNow ∧ t.span.refAcceptedAt = some s.now ∧ t.span.refCount = some count ∧ t.span.lastRefAt = some at_ ∧
    RegsBut refRegs s t ∧ t = { s with regs := t.regs, span := t.span, faults := t.faults, drawn := t.drawn } := by
  intro t
  let u := s.refEvent (s.countOffset count at_)
  let v : State := { u with span := { u.span with refCount := some count } }
  have htv : t = v.spanMeasure at_ (some count) := rfl
  obtain ⟨haccepted, hregs, hframe⟩ := s.refEvent_disciplined (s.countOffset count at_)
  obtain ⟨hmeasured, hmeas, hcount, -⟩ := v.spanMeasure_frame at_ (some count)
  obtain ⟨hlast, hkept⟩ := v.spanMeasure_took at_ (some count)
  have hcap : RegsBut [R.SPAN_CAP_REF, R.SPAN_STATUS] s (s.refCaptured (s.countOffset count at_)) :=
    ((RegsBut.refl _ s).setReg _ (by simp)).setFld _ _ (by simp)
  have hshown : (s.refCaptured (s.countOffset count at_)).reg R.SPAN_CAP_REF = s.spanNow := by
    have hset : (s.refCaptured (s.countOffset count at_)).reg R.SPAN_CAP_REF =
      ((s.setReg R.SPAN_CAP_REF s.spanNow).setFld R.SPAN_STATUS F.SPAN_STATUS.PHASE_ERR (s.phaseErr (s.countOffset count at_))).reg R.SPAN_CAP_REF := rfl
    rw [hset, State.reg_setFld_of_ne _ _ _ (by decide), State.reg_setReg]
  refine ⟨?_, hkept.trans haccepted, hcount, hlast, ?_, ?_⟩
  · exact (hmeas _ (by decide)).trans ((hregs _ (by decide)).trans hshown)
  · exact ((hcap.mono (by simp [refRegs])).trans (hregs.mono (by simp [refRegs]))).trans (RegsBut.mono (s := v) hmeas (by simp [refRegs]))
  · have hu (x : SpanSt) (z : List (Nat × Word)) (d : Nat) : { u with span := x, regs := z, drawn := d } = { s with regs := z, span := x, faults := u.faults, drawn := d } := by
      conv_lhs => rw [show u = _ from hframe]
      rfl
    have hfaults : t.faults = u.faults := by rw [htv, hmeasured]
    rw [hfaults, htv]
    exact hmeasured.trans (hu _ _ _)

end

/-! ## A boundary's SPAN (R431, R444) -/

/-- Of a boundary's estimates, those within 20 ns of their median. -/
def nearMedian (l : List Int) : List Int := l.filter fun e => decide ((e - median l).natAbs ≤ 320)

/-- Estimates rejected are counted. -/
def State.spanRejected (s : State) (k : Nat) : State := if 0 < k then s.count R.FAB_SPAN_REJ k else s

theorem State.spanRejected_told (s : State) (k : Nat) :
    (s.spanRejected k).fld R.FAB_SPAN_REJ F.CTR.COUNT = (s.fld R.FAB_SPAN_REJ F.CTR.COUNT + k) % 2 ^ 48 ∧ RegsBut [R.FAB_SPAN_REJ] s (s.spanRejected k) ∧
    s.spanRejected k = { s with regs := (s.spanRejected k).regs, faults := (s.spanRejected k).faults } := by
  unfold State.spanRejected
  split
  · exact ⟨State.fld_count _ _ _, (RegsBut.refl _ s).count k (List.mem_singleton_self _), State.count_frame _ _ _⟩
  · have hk : k = 0 := by omega
    rw [hk]
    exact ⟨(s.count_mod _).symm, .refl _ s, rfl⟩

section
variable {s : State} {view count : Nat} {a : List SpanArr} (hst : s.fabState ≠ FabS.OFF) (ha : a ≠ [])
  (hup : ∀ x ∈ a, s.fld (R.FAB_PORT x.port) F.FAB_PORT.STATE = PortS.UP)

include hup in
theorem State.planes_of_up : (a.filter fun x => s.portUp x.port) = a :=
  List.filter_eq_self.mpr fun x hx => (s.portUp_iff x.port).mpr (.inl (hup x hx))

include hst ha hup

theorem spanMessage_of_other (h : ¬ (s.fabState = FabS.JOINING ∨ view = s.fld R.FAB_STATUS F.FAB_STATUS.VIEW)) :
    spanMessage view count a s = s.count R.FAB_SPAN_REJ 1 := by
  rw [spanMessage, State.planes_of_up hup, if_neg (not_or.mpr ⟨hst, ha⟩)]
  exact if_pos (not_or.mp h)

theorem spanMessage_of_unfollowed (h : s.fabState = FabS.JOINING ∨ view = s.fld R.FAB_STATUS F.FAB_STATUS.VIEW)
    (hnot : (s.onFabric && !s.flag R.FAB_STATUS F.FAB_STATUS.ANCHOR) = false) : spanMessage view count a s = s := by
  rw [spanMessage, State.planes_of_up hup, if_neg (not_or.mpr ⟨hst, ha⟩), if_neg (fun hn => h.elim hn.1 hn.2)]
  exact if_neg (by rw [hnot]; exact Bool.false_ne_true)

theorem spanMessage_of_followed (h : s.fabState = FabS.JOINING ∨ view = s.fld R.FAB_STATUS F.FAB_STATUS.VIEW)
    (hfollows : (s.onFabric && !s.flag R.FAB_STATUS F.FAB_STATUS.ANCHOR) = true) :
    let est := a.map s.planeEst
    let u := s.spanRejected (est.length - (nearMedian est).length)
    spanMessage view count a s = u.refTaken count (min u.now (median (nearMedian est)).toNat) := by
  rw [spanMessage, State.planes_of_up hup, if_neg (not_or.mpr ⟨hst, ha⟩), if_neg (fun hn => h.elim hn.1 hn.2), if_pos hfollows]
  simp only [State.spanRejected, Nat.sub_pos_iff_lt]
  rfl

end

/-- What a SPAN taken at the estimate `at_`, `k` estimates rejected, leaves. -/
theorem State.spanTaken_told (s : State) (k count : Nat) (e : Int) :
    let t := (s.spanRejected k).refTaken count (min (s.spanRejected k).now e.toNat)
    t.reg R.SPAN_CAP_REF = s.spanNow ∧ t.span.refAcceptedAt = some s.now ∧ t.span.refCount = some count ∧ t.span.lastRefAt = some (min s.now e.toNat) ∧
    t.fld R.FAB_SPAN_REJ F.CTR.COUNT = (s.fld R.FAB_SPAN_REJ F.CTR.COUNT + k) % 2 ^ 48 ∧
    RegsBut [R.FAB_SPAN_REJ, R.SPAN_CAP_REF, R.SPAN_STATUS, R.SPAN_MEAS] s t ∧
    t = { s with regs := t.regs, span := t.span, faults := t.faults, drawn := t.drawn } := by
  intro t
  obtain ⟨hrej, hregs, hframe⟩ := s.spanRejected_told k
  have hnow : (s.spanRejected k).now = s.now := by rw [hframe]
  have hspan : (s.spanRejected k).spanNow = s.spanNow := by rw [State.spanNow, State.spanNow, hframe]
  obtain ⟨hcap, hacc, hcount, hlast, hbut, htaken⟩ := (s.spanRejected k).refTaken_told count (min (s.spanRejected k).now e.toNat)
  refine ⟨hcap.trans hspan, hacc.trans (congrArg some hnow), hcount, ?_, ?_, (hregs.mono (by simp)).trans (hbut.mono (by simp [refRegs])), ?_⟩
  · rw [hlast, hnow]
  · exact (hbut.fld (by decide) _).trans hrej
  · have hset (x : SpanSt) (z : List (Nat × Word)) (f : FaultSt) (d : Nat) : { s.spanRejected k with regs := z, span := x, faults := f, drawn := d } =
        { s with regs := z, span := x, faults := f, drawn := d } := by
      conv_lhs => rw [hframe]
    exact htaken.trans (hset _ _ _ _)

/-! ## Medians of one estimate and of three -/

theorem nearMedian_one (x : Int) : nearMedian [x] = [x] ∧ median [x] = x := by
  simp [nearMedian, median, sortInt]

section
variable {x y z : Int} (hxy : x ≤ y) (hyz : y ≤ z)
include hxy hyz

theorem median_three : median [x, y, z] = y := by
  have hsort : sortInt [x, y, z] = [x, y, z] := by
    simp [sortInt, hxy, hyz, Int.not_lt.mpr hxy, Int.not_lt.mpr hyz, hxy.trans hyz, Int.not_lt.mpr (hxy.trans hyz)]
  simp [median, hsort]

theorem nearMedian_three (hclose : y - x ≤ 320) : (z - y ≤ 320 → nearMedian [x, y, z] = [x, y, z]) ∧ (320 < z - y → nearMedian [x, y, z] = [x, y]) := by
  have hx : (x - y).natAbs ≤ 320 := by omega
  constructor
  · intro hz
    have hz' : (z - y).natAbs ≤ 320 := by omega
    simp [nearMedian, median_three hxy hyz, hx, hz']
  · intro hz
    have hz' : 320 < (z - y).natAbs := by omega
    simp [nearMedian, median_three hxy hyz, hx, hz']

omit hyz in
theorem median_two : median [x, y] = (x + y) / 2 := by
  simp [median, sortInt, hxy, Int.not_lt.mpr hxy]

end

/-! ## The delay of a plane (R431) -/

section
variable {s : State} {n : Fin 16} {w recv send : Word} {corr back : Int}

theorem delayRsp_of_unasked (h : ¬ (s.fabState ≠ FabS.OFF ∧ (s.port n).reqAt = some w)) : delayRsp n w corr recv send back s = s := if_neg h

theorem delayRsp_told (h : s.fabState ≠ FabS.OFF ∧ (s.port n).reqAt = some w) :
    let t := delayRsp n w corr recv send back s
    let trip : Int := ((s.spanNow - w).toNat * s.span.len / 16777216 : Nat) - ((send - recv).toNat * s.span.len / 16777216 : Nat) - (corr + back) / 4096
    t.fld (R.FAB_PORT n) F.FAB_PORT.DELAY = min 65535 (trip.toNat / 2) ∧ t.port n = { s.port n with reqAt := none } ∧
    (∀ k, k ≠ n.val → t.port k = s.port k) ∧ RegsBut [R.FAB_PORT n] s t ∧ t = { s with regs := t.regs, fab := { s.fab with ports := t.fab.ports } } := by
  intro t trip
  have ht : t = (s.setPort n { s.port n with reqAt := none }).setFld (R.FAB_PORT n) F.FAB_PORT.DELAY (min 65535 (trip.toNat / 2)) := if_pos h
  rw [ht]
  refine ⟨State.fld_setFld_of_le _ _ _ (by decide) (Nat.min_le_left _ _), Sparse.get_set_same .., fun k hk => Sparse.get_set_of_ne _ _ _ hk,
    (RegsBut.refl [R.FAB_PORT n] s).setFld _ _ (List.mem_singleton_self _), rfl⟩

end

end Sys2Proof.Machine
end

section
/-! The view's members, and the next view announced (15_fabric.md, O52). -/

namespace Sys2Proof.Machine

/-! ## The packages of the view (R451) -/

theorem State.mem_members (s : State) (p : Nat) : p ∈ s.members ↔ p < 8192 ∧ s.isMember p = true := by
  simp only [State.members, List.mem_flatMap, List.mem_range]
  constructor
  · rintro ⟨i, hi, hp⟩
    split at hp
    · exact absurd hp List.not_mem_nil
    · obtain ⟨j, hj, he⟩ := List.mem_filterMap.mp hp
      rw [List.mem_range] at hj
      split at he
      · next hbit =>
        obtain rfl := Option.some.inj he
        refine ⟨by omega, ?_⟩
        rw [State.isMember, show (64 * i + j) / 64 = i by omega, show (64 * i + j) % 64 = j by omega]
        exact hbit
      · cases he
  · rintro ⟨hlt, hmem⟩
    have hreg : s.reg (R.FAB_MEMBER (p / 64)) ≠ 0 := by
      intro hzero
      rw [State.isMember, hzero] at hmem
      simp [Word.bit] at hmem
    refine ⟨p / 64, by omega, ?_⟩
    rw [if_neg hreg]
    refine List.mem_filterMap.mpr ⟨p % 64, List.mem_range.mpr (Nat.mod_lt _ (by decide)), ?_⟩
    rw [if_pos (by exact hmem), Nat.div_add_mod]

/-! ## The next view (R433) -/

/-- The package of a number. -/
def pkgNumbered (p : Nat) : Pkg := ⟨p % 8192, Nat.mod_lt _ (by decide)⟩

theorem pkgNumbered_eq_iff {q : Nat} (h : q < 8192) (p : Pkg) : pkgNumbered q = p ↔ q = p.val := by
  rw [Fin.ext_iff]
  exact iff_of_eq (congrArg (· = p.val) (Nat.mod_eq_of_lt h))

section
variable (s : State) (anchor : Nat) (add remove : List Nat) (at_ : Word)

/-- The members of the next view. -/
def State.nextMembers : List Nat :=
  let keep := s.members.filter fun p => !remove.contains p
  keep ++ add.filter fun p => !keep.contains p

/-- The next view the leader announces. -/
def State.nextView : ViewMsg :=
  let all := s.nextMembers add remove
  let voters := all.filter fun p => s.votesOf p != 0
  { number := BitVec.ofNat 32 (s.fld R.FAB_STATUS F.FAB_STATUS.VIEW + s.fab.views.length + 1), leader := pkgNumbered (voters.foldl min (voters.headD s.pkg)),
    anchor := pkgNumbered anchor, votes := (all.map s.votesOf).sum, boundary := at_,
    entries := (all.map fun p => (pkgNumbered p, true)) ++ remove.map fun p => (pkgNumbered p, false) }

theorem State.sendView_sent : s.sendView anchor add remove at_ = { s with fab := { s.fab with
    sent := s.fab.sent ++ ((s.members ++ add).filter fun p => p != s.pkg).map fun p => .view p (s.nextView anchor add remove at_)
    views := s.fab.views ++ [s.nextView anchor add remove at_] } } := by
  have hsend : s.sendView anchor add remove at_ =
      let s1 := ((s.members ++ add).filter fun p => p != s.pkg).foldl (fun t p => t.fabSend (.view p (s.nextView anchor add remove at_))) s
      { s1 with fab := { s1.fab with views := s1.fab.views ++ [s.nextView anchor add remove at_] } } := rfl
  rw [hsend, State.foldl_fabSend]
  rfl

/-- What announcing a view shows: it is kept, named as the next, for `at_`, and sent to every member and joiner. -/
def Announced (t : State) : Prop := ∃ v : ViewMsg, t.fab.views = s.fab.views ++ [v] ∧
  v.number.toNat = (s.fld R.FAB_STATUS F.FAB_STATUS.VIEW + s.fab.views.length + 1) % 2 ^ 32 ∧ v.boundary = at_ ∧
  (∀ p : Pkg, ((p, true) ∈ v.entries ↔ (s.isMember p = true ∧ p.val ∉ remove) ∨ p.val ∈ add) ∧ ((p, false) ∈ v.entries ↔ p.val ∈ remove)) ∧
  (∀ p : Pkg, FabOut.view p v ∈ t.fab.sent ↔ FabOut.view p v ∈ s.fab.sent ∨ ((s.isMember p = true ∨ p.val ∈ add) ∧ p.val ≠ s.pkg))

variable {add remove}

theorem State.mem_nextView_entries (hadd : ∀ q ∈ add, q < 8192) (hremove : ∀ q ∈ remove, q < 8192) (p : Pkg) :
    ((p, true) ∈ (s.nextView anchor add remove at_).entries ↔ (s.isMember p = true ∧ p.val ∉ remove) ∨ p.val ∈ add) ∧
    ((p, false) ∈ (s.nextView anchor add remove at_).entries ↔ p.val ∈ remove) := by
  have hall : p.val ∈ s.nextMembers add remove ↔ (s.isMember p = true ∧ p.val ∉ remove) ∨ p.val ∈ add := by
    simp only [State.nextMembers, List.mem_append, List.mem_filter, s.mem_members, Bool.not_eq_true', List.contains_eq_mem, decide_eq_false_iff_not]
    have hlt : p.val < 8192 := p.isLt
    tauto
  have hlt : ∀ q ∈ s.nextMembers add remove, q < 8192 := by
    intro q hq
    rw [State.nextMembers, List.mem_append] at hq
    exact hq.elim (fun hk => ((s.mem_members q).mp (List.mem_of_mem_filter hk)).1) fun hj => hadd q (List.mem_of_mem_filter hj)
  have hmap {l : List Nat} (hl : ∀ q ∈ l, q < 8192) (b : Bool) : (p, b) ∈ l.map (fun q => (pkgNumbered q, b)) ↔ p.val ∈ l := by
    rw [List.mem_map]
    constructor
    · rintro ⟨q, hq, he⟩
      rwa [← (pkgNumbered_eq_iff (hl q hq) p).mp (Prod.mk.inj he).1]
    · exact fun hp => ⟨p.val, hp, congrArg (·, b) ((pkgNumbered_eq_iff p.isLt p).mpr rfl)⟩
  have hother {l : List Nat} {b c : Bool} (hbc : b ≠ c) : (p, b) ∉ l.map (fun q => (pkgNumbered q, c)) := by
    intro hm
    obtain ⟨q, -, he⟩ := List.mem_map.mp hm
    exact hbc (Prod.mk.inj he).2.symm
  constructor
  · rw [State.nextView, List.mem_append, hmap hlt, hall, or_iff_left (hother (by decide))]
  · rw [State.nextView, List.mem_append, hmap hremove, or_iff_right (hother (by decide))]

theorem State.sendView_announced (hadd : ∀ q ∈ add, q < 8192) (hremove : ∀ q ∈ remove, q < 8192) :
    Announced s add remove at_ (s.sendView anchor add remove at_) ∧
    s.sendView anchor add remove at_ = { s with fab := (s.sendView anchor add remove at_).fab } := by
  rw [State.sendView_sent]
  refine ⟨⟨s.nextView anchor add remove at_, rfl, BitVec.toNat_ofNat .., rfl, s.mem_nextView_entries anchor at_ hadd hremove, fun p => ?_⟩, rfl⟩
  rw [List.mem_append, List.mem_map]
  refine or_congr_right ⟨?_, fun ⟨hp, hne⟩ => ⟨p.val, ?_, rfl⟩⟩
  · rintro ⟨q, hq, he⟩
    obtain ⟨rfl, -⟩ := FabOut.view.inj he
    obtain ⟨hin, hne⟩ := List.mem_filter.mp hq
    exact ⟨(List.mem_append.mp hin).imp_left fun h => ((s.mem_members _).mp h).2, bne_iff_ne.mp hne⟩
  · exact List.mem_filter.mpr ⟨List.mem_append.mpr (hp.imp_left fun h => (s.mem_members _).mpr ⟨p.isLt, h⟩), bne_iff_ne.mpr hne⟩

end

/-- A view announced once the package shows another state of its own. -/
theorem Announced.of_status {s t : State} {add remove : List Nat} {at_ : Word} (v : Nat) (h : Announced (s.setFabState v) add remove at_ t) :
    Announced s add remove at_ t := by
  obtain ⟨m, hviews, hnumber, hat, hentries, hsent⟩ := h
  have hmember (p : Pkg) : (s.setFabState v).isMember p = s.isMember p := by
    rw [State.isMember, State.isMember, State.setFabState, State.reg_setFld_of_ne _ _ _ (by simp [R.FAB_MEMBER, R.FAB_STATUS]; omega)]
  have hpkg : (s.setFabState v).pkg = s.pkg := State.fld_setFld_of_ne _ _ _ _ (by decide)
  refine ⟨m, hviews, ?_, hat, fun p => ?_, fun p => ?_⟩
  · rw [hnumber, State.setFabState, State.fld_setFld_of_disjoint _ _ _ _ _ (by decide) (by decide)]
    rfl
  · rw [← hmember p]
    exact hentries p
  · rw [← hmember p, ← hpkg]
    exact hsent p

end Sys2Proof.Machine
end

section
/-! MEMBER messages, LEAVE and ADMIT (15_fabric.md, O52). -/

namespace Sys2Proof.Machine

/-! ## A MEMBER message (R434, R438, R439) -/

/-- The record of the fabric engine with a MEMBER of package `p` noted. -/
def State.memberNoted (s : State) (p votes : Nat) : FabSt :=
  { s.heardAt p with
    memberAt := Sparse.set p s.spanNow s.fab.memberAt
    votes := Sparse.set p votes s.fab.votes
    leaderAt := if p = s.leaderPkg then s.spanNow else s.fab.leaderAt }

section
variable {s : State} {p : Pkg} {votes : Nat} {join leave : Bool} {versions at_ : Word}

theorem memberMessage_of_off (h : s.fabState = FabS.OFF) : memberMessage p votes join leave versions at_ s = s := if_pos h

variable (hst : s.fabState ≠ FabS.OFF) (hd : s.isDead p = false)
include hst hd

theorem memberMessage_eq : memberMessage p votes join leave versions at_ s =
    let s1 := s.withFab (s.memberNoted p votes)
    if join && s1.isLeader then s1.joinAsked p votes versions
    else if leave && s1.isLeader && s1.isMember p then s1.sendView s1.anchorPkg [] [p.val] at_
    else s1 := by
  rw [memberMessage, if_neg hst, State.fabHear_of_alive hd]
  rfl

theorem memberMessage_plain (hjoin : (join && s.isLeader) = false) (hleave : (leave && s.isLeader && s.isMember p) = false) :
    memberMessage p votes join leave versions at_ s = s.withFab (s.memberNoted p votes) := by
  rw [memberMessage_eq hst hd]
  exact (if_neg (ne_true_of_eq_false hjoin)).trans (if_neg (ne_true_of_eq_false hleave))

theorem memberMessage_join (hjoin : (join && s.isLeader) = true) :
    memberMessage p votes join leave versions at_ s = (s.withFab (s.memberNoted p votes)).joinAsked p votes versions := by
  rw [memberMessage_eq hst hd]
  exact if_pos hjoin

theorem memberMessage_leave (hjoin : (join && s.isLeader) = false) (hleave : (leave && s.isLeader && s.isMember p) = true) :
    memberMessage p votes join leave versions at_ s =
      (s.withFab (s.memberNoted p votes)).sendView (s.withFab (s.memberNoted p votes)).anchorPkg [] [p.val] at_ := by
  rw [memberMessage_eq hst hd]
  exact (if_neg (ne_true_of_eq_false hjoin)).trans (if_pos hleave)

end

/-! ## A JOIN at the leader (R438) -/

/-- The votes the leader counts once `p` has named its own. -/
theorem State.votesOf_noted (s : State) (p votes q : Nat) : (s.withFab (s.memberNoted p votes)).votesOf q =
    if q = s.pkg then s.fld R.FAB_CFG F.FAB_CFG.VOTES else if q = p then votes else Sparse.get 0 q s.fab.votes := by
  have hsplit : (s.withFab (s.memberNoted p votes)).votesOf q = if q = s.pkg then s.fld R.FAB_CFG F.FAB_CFG.VOTES else Sparse.get 0 q (Sparse.set p votes s.fab.votes) := rfl
  rw [hsplit]
  by_cases h : q = p
  · rw [h, if_pos rfl, Sparse.get_set_same]
  · rw [if_neg h, Sparse.get_set_of_ne _ _ _ h]

/-- The packages of the view with a vote, once `p` has named its own. -/
def State.votersWith (s : State) (p votes : Nat) : Nat :=
  (s.members.filter fun q => (if q = s.pkg then s.fld R.FAB_CFG F.FAB_CFG.VOTES else if q = p then votes else Sparse.get 0 q s.fab.votes) != 0).length

theorem State.mayJoin_noted_iff (s : State) (p votes : Nat) (versions : Word) : (s.withFab (s.memberNoted p votes)).mayJoin p votes versions = true ↔
    s.isMember p = false ∧ versions.bit 0 = true ∧ (votes = 0 ∨ s.votersWith p votes < 64) := by
  have hvoters : ((s.withFab (s.memberNoted p votes)).members.filter fun q => (s.withFab (s.memberNoted p votes)).votesOf q != 0).length = s.votersWith p votes := by
    simp only [State.votesOf_noted]
    rfl
  rw [State.mayJoin, hvoters, State.isMember_withFab]
  simp [and_assoc]

theorem State.joinAsked_of_may {s : State} {p votes : Nat} {versions : Word} (hmay : s.mayJoin p votes versions = true) (hnew : s.fab.joins.contains p = false) :
    s.joinAsked p votes versions = (s.withFab { s.fab with joins := s.fab.joins ++ [p] }).pendingShow := by
  rw [State.joinAsked, if_pos hmay, if_neg (ne_true_of_eq_false hnew)]
  rfl

/-- A JOIN refused: recorded, and the joiner told. -/
def State.joinTurnedAway (s : State) (p : Nat) : State :=
  (State.raise (s.withFab { s.fab with refused := p :: s.fab.refused })
    { status := St.FAB_JOIN_REFUSED, sev := Sev.DEFERRED, kind := Uk.FABRIC, pkg := p, hasPkg := true }).fabSend (.refuse p 0)

theorem State.joinAsked_of_not {s : State} {p votes : Nat} {versions : Word} (hmay : ¬ s.mayJoin p votes versions = true) (hnew : s.fab.refused.contains p = false) :
    s.joinAsked p votes versions = s.joinTurnedAway p := by
  rw [State.joinAsked, if_neg hmay, if_neg (ne_true_of_eq_false hnew)]
  rfl

theorem State.joinTurnedAway_told (s : State) (p : Nat) :
    (s.joinTurnedAway p).lastRaised.map (fun y => (y.status, y.sev, y.pkg)) = some (St.FAB_JOIN_REFUSED, Sev.DEFERRED, p) :=
  congrArg (Option.map _) (State.lastRaised_raise (s.withFab { s.fab with refused := p :: s.fab.refused }) _)

/-! ## The joiners shown (R448) -/

theorem foldl_min_le (l : List Nat) (a : Nat) : l.foldl min a ≤ a ∧ ∀ q ∈ l, l.foldl min a ≤ q := by
  induction l generalizing a with
  | nil => exact ⟨Nat.le_refl a, fun _ hq => absurd hq List.not_mem_nil⟩
  | cons b l ih =>
    obtain ⟨hle, hall⟩ := ih (min a b)
    refine ⟨hle.trans (Nat.min_le_left a b), fun q hq => ?_⟩
    rcases List.mem_cons.mp hq with rfl | hin
    · exact hle.trans (Nat.min_le_right a q)
    · exact hall q hin

/-- The lowest package that waits to join. -/
def lowestJoin : List Nat → Nat
  | [] => 0
  | a :: r => r.foldl min a

theorem lowestJoin_le {l : List Nat} {q : Nat} (h : q ∈ l) : lowestJoin l ≤ q := by
  cases l with
  | nil => exact absurd h List.not_mem_nil
  | cons a r =>
    obtain ⟨hle, hall⟩ := foldl_min_le r a
    exact (List.mem_cons.mp h).elim (fun e => e ▸ hle) (hall q)

theorem State.pendingShow_eq (s : State) :
    s.pendingShow = s.setReg R.FAB_PENDING (((0 : Word).put 13 0 s.fab.joins.length).put 26 14 (lowestJoin s.fab.joins)) := by
  cases h : s.fab.joins with
  | nil => simp only [State.pendingShow, h, lowestJoin]
  | cons a r => simp only [State.pendingShow, h, lowestJoin]

theorem State.pendingShow_shown (s : State) : (s.pendingShow.reg R.FAB_PENDING).get 13 0 = s.fab.joins.length % 2 ^ 14 ∧
    ∀ q ∈ s.fab.joins, (s.pendingShow.reg R.FAB_PENDING).get 26 14 ≤ q := by
  rw [State.pendingShow_eq, State.reg_setReg]
  refine ⟨?_, fun q hq => ?_⟩
  · rw [Word.get_put_of_disjoint _ _ _ _ _ _ (by decide) (by decide), Word.get_put _ _ _ _ (by decide)]
  · rw [Word.get_put _ _ _ _ (by decide)]
    exact (Nat.mod_le _ _).trans (lowestJoin_le hq)

theorem State.pendingShow_frame (s : State) : RegsBut [R.FAB_PENDING] s s.pendingShow ∧ s.pendingShow = { s with regs := s.pendingShow.regs } := by
  rw [State.pendingShow_eq]
  exact ⟨(RegsBut.refl _ s).setReg _ (List.mem_singleton_self _), rfl⟩

theorem State.pendingShow_withFab (s : State) (f : FabSt) : (s.withFab f).pendingShow.fab = f ∧
    (s.withFab f).pendingShow = { s with regs := (s.withFab f).pendingShow.regs, fab := (s.withFab f).pendingShow.fab } := by
  rw [State.pendingShow_eq]
  exact ⟨rfl, rfl⟩

/-! ## LEAVE and ADMIT (R438, R439) -/

section
variable {s : State} (v : Word)

theorem leaveAct_of_leader (hst : s.fabState = FabS.MEMBER) (hlead : s.isLeader = true) : leaveAct v s =
    some ((s.setFabState FabS.LEAVING).sendView s.fab.anchor [] [s.pkg] (s.reg R.FAB_AT)) := by
  have hkept : (s.setFabState FabS.LEAVING).isLeader = true := by
    rw [State.isLeader, State.flag, State.setFabState, State.fld_setFld_of_disjoint _ _ _ _ _ (by decide) (by decide)]
    exact hlead
  have hpkg : (s.setFabState FabS.LEAVING).pkg = s.pkg := State.fld_setFld_of_ne _ _ _ _ (by decide)
  have hat : (s.setFabState FabS.LEAVING).reg R.FAB_AT = s.reg R.FAB_AT := State.reg_setFld_of_ne _ _ _ (by decide)
  rw [leaveAct, if_pos hst]
  refine congrArg some ((if_pos hkept).trans ?_)
  rw [hpkg, hat]
  rfl

theorem leaveAct_of_member (hst : s.fabState = FabS.MEMBER) (hlead : s.isLeader = false) : leaveAct v s =
    some ((s.setFabState FabS.LEAVING).fabSend (.member (s.fld R.FAB_STATUS F.FAB_STATUS.LEADER_PKG) false true (s.reg R.FAB_AT))) := by
  have hkept : (s.setFabState FabS.LEAVING).isLeader = false := by
    rw [State.isLeader, State.flag, State.setFabState, State.fld_setFld_of_disjoint _ _ _ _ _ (by decide) (by decide)]
    exact hlead
  have hleader : (s.setFabState FabS.LEAVING).leaderPkg = s.fld R.FAB_STATUS F.FAB_STATUS.LEADER_PKG :=
    State.fld_setFld_of_disjoint _ _ _ _ _ (by decide) (by decide)
  have hat : (s.setFabState FabS.LEAVING).reg R.FAB_AT = s.reg R.FAB_AT := State.reg_setFld_of_ne _ _ _ (by decide)
  rw [leaveAct, if_pos hst]
  refine congrArg some ((if_neg (ne_true_of_eq_false hkept)).trans ?_)
  rw [hleader, hat]

theorem leaveAct_of_other (hst : s.fabState ≠ FabS.MEMBER) : leaveAct v s = none := if_neg hst

/-- The joiners a write of FAB_CTL admits. -/
def State.admitted (s : State) : List Nat := if v.bit 19 then s.fab.joins else s.fab.joins.filter fun q => q == v.get 18 6

theorem admitAct_eq : admitAct v s = if s.isLeader = true ∧ 4 * 16777216 ≤ (s.reg R.FAB_AT - s.spanNow).toInt ∧ s.admitted v ≠ [] then
    some (s.sendView s.anchorPkg (s.admitted v) [] (s.reg R.FAB_AT)) else none := by
  unfold admitAct
  refine if_congr ?_ rfl rfl
  rw [Bool.and_eq_true, Bool.and_eq_true, decide_eq_true_eq, bne_iff_ne, and_assoc]
  rfl

end

end Sys2Proof.Machine
end

section
/-! Packages declared dead, and a package's fall into the minority (15_fabric.md, O52). -/

namespace Sys2Proof.Machine

/-! ## Sets of packages, a bit each (R451) -/

/-- A bit put alone. -/
theorem Word.bit_put_bit (w : Word) {i : Nat} (j : Nat) (hi : i < 64) (b : Bool) : (w.put i i (if b then 1 else 0)).bit j = if j = i then b else w.bit j := by
  rw [Word.bit, Word.testBit_put _ _ _ _ _ hi]
  by_cases h : j = i
  · rw [h, if_pos ⟨Nat.le_refl i, Nat.le_refl i⟩, if_pos rfl, Nat.sub_self]
    cases b <;> rfl
  · rw [if_neg (fun hle => h (Nat.le_antisymm hle.2 hle.1)), if_neg h]
    rfl

section
variable (s : State) (p : Pkg) (b : Bool)

theorem State.isDead_setDead (q : Nat) : (s.setDead p b).isDead q = if q = p.val then b else s.isDead q := by
  rw [State.isDead, State.setDead]
  by_cases hrow : q / 64 = p.val / 64
  · rw [hrow, State.reg_setReg, Word.bit_put_bit _ _ (Nat.mod_lt _ (by decide)), State.isDead, hrow]
    exact if_congr (by omega) rfl rfl
  · rw [State.reg_setReg_of_ne _ _ (by simp only [R.FAB_DEAD]; omega), if_neg (fun h => hrow (by rw [h]))]
    rfl

theorem State.isMember_setMember (q : Nat) : (s.setMember p b).isMember q = if q = p.val then b else s.isMember q := by
  rw [State.isMember, State.setMember]
  by_cases hrow : q / 64 = p.val / 64
  · rw [hrow, State.reg_setReg, Word.bit_put_bit _ _ (Nat.mod_lt _ (by decide)), State.isMember, hrow]
    exact if_congr (by omega) rfl rfl
  · rw [State.reg_setReg_of_ne _ _ (by simp only [R.FAB_MEMBER]; omega), if_neg (fun h => hrow (by rw [h]))]
    rfl

theorem State.isMember_setDead (q : Pkg) : (s.setDead p b).isMember q = s.isMember q := by
  have hq := q.isLt
  rw [State.isMember, State.setDead, State.reg_setReg_of_ne _ _ (by simp only [R.FAB_MEMBER, R.FAB_DEAD]; omega), State.isMember]

theorem State.isDead_setMember (q : Nat) : (s.setMember p b).isDead q = s.isDead q := by
  have hp := p.isLt
  rw [State.isDead, State.setMember, State.reg_setReg_of_ne _ _ (by simp only [R.FAB_MEMBER, R.FAB_DEAD]; omega), State.isDead]

end

/-! ## REQs held toward a package, lost (R367) -/

/-- What the loss of REQs leaves: the registers below the cores', memory's bytes, the moment, the span, and the fabric engine's record
but its reads. -/
structure ReqsLost (s t : State) : Prop where
  regs : ∀ o < 0x100000, t.reg o = s.reg o
  cells : t.mem.cells = s.mem.cells
  fab : t.fab = { s.fab with rds := t.fab.rds }
  now : t.now = s.now
  span : t.span = s.span

theorem State.loseWrite_keeps (s : State) (src : Src) (cmd : Nat) (p : Pkg) :
    (s.loseWrite src cmd p).fab = s.fab ∧ (s.loseWrite src cmd p).now = s.now ∧ (s.loseWrite src cmd p).span = s.span := by
  unfold State.loseWrite
  split
  · exact ⟨rfl, rfl, rfl⟩
  · dsimp only
    split <;> exact ⟨rfl, rfl, rfl⟩
  · exact ⟨rfl, rfl, rfl⟩

theorem State.discardTo_lost (s : State) (p : Pkg) : ReqsLost s (s.discardTo p) := by
  obtain ⟨hregs, hcells⟩ := s.discardTo_keeps p
  let keeps (t : State) : Prop := t.fab = s.fab ∧ t.now = s.now ∧ t.span = s.span
  have hlose {t : State} (ht : keeps t) (src : Src) (cmd : Nat) : keeps (t.loseWrite src cmd p) := by
    obtain ⟨hfab, hnow, hspan⟩ := t.loseWrite_keeps src cmd p
    exact ⟨hfab.trans ht.1, hnow.trans ht.2.1, hspan.trans ht.2.2⟩
  have hwrs := List.foldlRecOn (motive := keeps) (s.mem.wrs.filter fun w => w.dst == Dst.pkg p && p.val != s.pkg)
    (fun t w => (t.loseWrite w.src w.cmd p).dropWr w.id) ⟨rfl, rfl, rfl⟩ fun t ht w _ => hlose ht w.src w.cmd
  obtain ⟨hfab, hnow, hspan⟩ := List.foldlRecOn (motive := keeps) (s.sync.qsigs.filter fun g => g.pkg == some p && p.val != s.pkg)
    (fun t g => t.loseWrite g.src 0 p) hwrs fun t ht g _ => hlose ht g.src 0
  exact ⟨hregs, hcells, congrArg (fun f : FabSt => { f with rds := (s.discardTo p).fab.rds }) hfab, hnow, hspan⟩

/-! ## A destination declared dead (R430) -/

/-- What declaring packages dead leaves: the registers below FAB_DEAD but the count of declarations, memory's bytes, the moment, the span, and
the fabric engine's record but its pairs and reads; a dead package stays dead. -/
structure DeadDeclared (s t : State) : Prop where
  regs : ∀ o < R.FAB_DEAD 0, o ≠ R.FAB_DEAD_DECL → t.reg o = s.reg o
  dead : ∀ q : Pkg, s.isDead q = true → t.isDead q = true
  cells : t.mem.cells = s.mem.cells
  fab : t.fab = { s.fab with pairs := t.fab.pairs, rds := t.fab.rds }
  now : t.now = s.now
  span : t.span = s.span

theorem DeadDeclared.refl (s : State) : DeadDeclared s s := ⟨fun _ _ _ => rfl, fun _ h => h, rfl, rfl, rfl, rfl⟩

section
variable {s t u : State}

theorem DeadDeclared.trans (h : DeadDeclared s t) (h' : DeadDeclared t u) : DeadDeclared s u where
  regs o ho hne := (h'.regs o ho hne).trans (h.regs o ho hne)
  dead q hq := h'.dead q (h.dead q hq)
  cells := h'.cells.trans h.cells
  fab := by rw [h'.fab, h.fab]
  now := h'.now.trans h.now
  span := h'.span.trans h.span

theorem DeadDeclared.fld (h : DeadDeclared s t) {o : Nat} (ho : o < R.FAB_DEAD 0) (hne : o ≠ R.FAB_DEAD_DECL) (f : Fld) : t.fld o f = s.fld o f := by
  rw [State.fld, h.regs o ho hne, State.fld]

theorem DeadDeclared.pkg (h : DeadDeclared s t) : t.pkg = s.pkg := h.fld (by decide) (by decide) _

theorem DeadDeclared.isMember (h : DeadDeclared s t) (q : Pkg) : t.isMember q = s.isMember q := by
  have hq := q.isLt
  rw [State.isMember, h.regs _ (by simp only [R.FAB_MEMBER, R.FAB_DEAD]; omega) (by simp only [R.FAB_MEMBER, R.FAB_DEAD_DECL]; omega), State.isMember]

end

section
variable (s : State) (p : Pkg)

/-- The package with its REQs lost and its pair forgotten. -/
def State.pairForgotten : State := { s.discardTo p with fab := { (s.discardTo p).fab with pairs := Sparse.del p.val (s.discardTo p).fab.pairs } }

theorem State.declareDead_eq : s.declareDead p = if s.isDead p ∨ p.val = s.pkg then s else
    (((s.pairForgotten p).setDead p true).count R.FAB_DEAD_DECL 1).raise
      { status := St.DELIVERY_LOST, sev := Sev.DEFERRED, kind := Uk.FABRIC, pkg := p.val, hasPkg := true } := rfl

theorem FAB_DEAD_ne_DECL (i : Nat) : R.FAB_DEAD i ≠ R.FAB_DEAD_DECL := by
  simp only [R.FAB_DEAD, R.FAB_DEAD_DECL]
  omega

theorem State.isDead_pairForgotten (q : Pkg) : (s.pairForgotten p).isDead q = s.isDead q := by
  have hq := q.isLt
  have hreg := (s.discardTo_lost p).regs (R.FAB_DEAD (q / 64)) (by simp only [R.FAB_DEAD]; omega)
  rw [State.isDead, State.isDead, ← hreg]
  rfl

/-- The record and the count of a declaration leave who is dead. -/
theorem State.isDead_declared (r : FaultRec) (q : Nat) : ((s.count R.FAB_DEAD_DECL 1).raise r).isDead q = s.isDead q := by
  have hreg := ((RegsBut.refl [R.FAB_DEAD_DECL] s).count 1 (List.mem_singleton_self _)) (R.FAB_DEAD (q / 64)) (by
    rw [List.mem_singleton]
    exact FAB_DEAD_ne_DECL _)
  rw [State.isDead, State.isDead, ← hreg]
  rfl

theorem State.declareDead_isDead (hne : p.val ≠ s.pkg) : (s.declareDead p).isDead p = true := by
  rw [State.declareDead_eq]
  by_cases hd : s.isDead p = true
  · rw [if_pos (.inl hd), hd]
  · rw [if_neg (not_or.mpr ⟨hd, hne⟩), State.isDead_declared, State.isDead_setDead, if_pos rfl]

theorem State.declareDead_isDead_of_ne {q : Pkg} (hne : q ≠ p) : (s.declareDead p).isDead q = s.isDead q := by
  rw [State.declareDead_eq]
  split
  · rfl
  · rw [State.isDead_declared, State.isDead_setDead, if_neg (fun h => hne (Fin.ext h)), State.isDead_pairForgotten]

theorem State.pairForgotten_declared : DeadDeclared s (s.pairForgotten p) := by
  obtain ⟨hregs, hcells, hfab, hnow, hspan⟩ := s.discardTo_lost p
  refine ⟨fun o ho _ => hregs o (ho.trans (by decide)), fun q hq => (s.isDead_pairForgotten p q).trans hq, hcells, ?_, hnow, hspan⟩
  exact congrArg (fun f : FabSt => { f with pairs := Sparse.del p.val (s.discardTo p).fab.pairs }) hfab

theorem State.setDead_declared : DeadDeclared s (s.setDead p true) := by
  refine ⟨fun o ho _ => State.reg_setReg_of_ne _ _ ?_, fun q hq => ?_, rfl, rfl, rfl, rfl⟩
  · simp only [R.FAB_DEAD] at ho ⊢
    omega
  · rw [State.isDead_setDead]
    split
    · rfl
    · exact hq

theorem State.counted_declared (r : FaultRec) : DeadDeclared s ((s.count R.FAB_DEAD_DECL 1).raise r) := by
  have hframe := s.count_frame R.FAB_DEAD_DECL 1
  have hmem : (s.count R.FAB_DEAD_DECL 1).mem = s.mem := by rw [hframe]
  have hfab : (s.count R.FAB_DEAD_DECL 1).fab = s.fab := by rw [hframe]
  have hnow : (s.count R.FAB_DEAD_DECL 1).now = s.now := by rw [hframe]
  have hspan : (s.count R.FAB_DEAD_DECL 1).span = s.span := by rw [hframe]
  refine ⟨fun o _ hne => ?_, fun q hq => (s.isDead_declared r q).trans hq, congrArg MemSt.cells hmem, ?_, hnow, hspan⟩
  · exact ((RegsBut.refl [R.FAB_DEAD_DECL] s).count 1 (List.mem_singleton_self _)) o (fun hm => hne (List.mem_singleton.mp hm))
  · change (s.count R.FAB_DEAD_DECL 1).fab = { s.fab with pairs := (s.count R.FAB_DEAD_DECL 1).fab.pairs, rds := (s.count R.FAB_DEAD_DECL 1).fab.rds }
    rw [hfab]

theorem State.declareDead_declared : DeadDeclared s (s.declareDead p) := by
  rw [State.declareDead_eq]
  split
  · exact .refl s
  · exact ((s.pairForgotten_declared p).trans (State.setDead_declared _ p)).trans (State.counted_declared _ _)

end

/-- Packages declared dead, one after another. -/
def State.declareAll (s : State) (l : List Nat) : State := l.foldl (fun t p => if h : p < 8192 then t.declareDead ⟨p, h⟩ else t) s

theorem State.declareAll_declared (s : State) (l : List Nat) : DeadDeclared s (s.declareAll l) ∧ ∀ q : Pkg, q.val ∉ l → (s.declareAll l).isDead q = s.isDead q := by
  refine List.foldlRecOn (motive := fun t : State => DeadDeclared s t ∧ ∀ q : Pkg, q.val ∉ l → t.isDead q = s.isDead q) l _ ⟨.refl s, fun _ _ => rfl⟩
    fun t ⟨hdecl, hkept⟩ p hp => ?_
  split
  · next h =>
    refine ⟨hdecl.trans (t.declareDead_declared _), fun q hq => (t.declareDead_isDead_of_ne _ ?_).trans (hkept q hq)⟩
    rintro rfl
    exact hq hp
  · exact ⟨hdecl, hkept⟩

/-! ## The minority (R436) -/

/-- The members from which nothing has come. -/
def State.silentMembers (s : State) : List Nat := s.members.filter fun p => p != s.pkg && s.lossSince (Sparse.get 0 p s.fab.heard)

/-- What the fall into the minority shows, and what it leaves. -/
structure Frozen (s t : State) : Prop where
  state : t.fabState = FabS.MINORITY
  frozen : t.fld R.FAB_STATUS F.FAB_STATUS.FROZEN = 1
  leader : t.fld R.FAB_STATUS F.FAB_STATUS.LEADER = 0
  drift : ∀ n : Fin 16, (t.port n).drift = true
  told : t.lastRaised.map (fun y => (y.status, y.sev, y.kind)) = some (St.FAB_MINORITY, Sev.DEFERRED, Uk.FABRIC)
  status : ∀ f : Fld, 6 ≤ f.lo → t.fld R.FAB_STATUS f = s.fld R.FAB_STATUS f
  cells : t.mem.cells = s.mem.cells
  member : ∀ q : Pkg, t.isMember q = s.isMember q
  dead : ∀ q : Pkg, s.isDead q = true → t.isDead q = true
  alive : ∀ q : Pkg, s.lossSince (Sparse.get 0 q.val s.fab.heard) = false → t.isDead q = s.isDead q
  views : t.fab.views = s.fab.views

/-- The package's part in the fabric, shown as the minority. -/
def State.minorityStatus (s : State) : State :=
  ((s.setFabState FabS.MINORITY).setFld R.FAB_STATUS F.FAB_STATUS.FROZEN 1).setFld R.FAB_STATUS F.FAB_STATUS.LEADER 0

theorem State.minorityStatus_shown (s : State) : s.minorityStatus.fabState = FabS.MINORITY ∧ s.minorityStatus.fld R.FAB_STATUS F.FAB_STATUS.FROZEN = 1 ∧
    s.minorityStatus.fld R.FAB_STATUS F.FAB_STATUS.LEADER = 0 ∧ (∀ f : Fld, 6 ≤ f.lo → s.minorityStatus.fld R.FAB_STATUS f = s.fld R.FAB_STATUS f) ∧
    RegsBut [R.FAB_STATUS] s s.minorityStatus := by
  refine ⟨?_, ?_, State.fld_setFld _ _ _ _ (by decide), fun f hf => ?_, (((RegsBut.refl _ s).setFld _ _ ?_).setFld _ _ ?_).setFld _ _ ?_⟩
  · rw [State.fabState, State.minorityStatus, State.fld_setFld_of_disjoint _ _ _ _ _ (by decide) (by decide),
      State.fld_setFld_of_disjoint _ _ _ _ _ (by decide) (by decide), State.setFabState, State.fld_setFld _ _ _ _ (by decide)]
    rfl
  · rw [State.minorityStatus, State.fld_setFld_of_disjoint _ _ _ _ _ (by decide) (by decide), State.fld_setFld _ _ _ _ (by decide)]
    rfl
  · have hlo {g : Fld} (hg : g.hi ≤ 5) : g.hi < f.lo := Nat.lt_of_le_of_lt hg hf
    rw [State.minorityStatus, State.fld_setFld_of_disjoint _ _ _ _ _ (by decide) (.inr (hlo (by decide))),
      State.fld_setFld_of_disjoint _ _ _ _ _ (by decide) (.inr (hlo (by decide))), State.setFabState,
      State.fld_setFld_of_disjoint _ _ _ _ _ (by decide) (.inr (hlo (by decide)))]
  all_goals exact List.mem_singleton_self _

theorem State.minority_eq {s : State} (h : s.fabState ≠ FabS.MINORITY) : s.minority =
    (s.minorityStatus.allDrift.declareAll s.minorityStatus.allDrift.silentMembers).raiseHub Sev.DEFERRED St.FAB_MINORITY Uk.FABRIC := by
  simp only [State.minority, if_neg h, State.minorityStatus, State.silentMembers, State.declareAll]

/-- Ports in drift mode: membership, silence and every register but theirs stay. -/
theorem State.minorityDrift_keeps (s : State) : RegsBut ((List.range 16).map R.FAB_PORT ++ [R.FAB_STATUS]) s s.minorityStatus.allDrift ∧
    (∀ w, s.minorityStatus.allDrift.lossSince w = s.lossSince w) ∧ s.minorityStatus.allDrift.mem = s.mem ∧
    s.minorityStatus.allDrift.fab = { s.fab with ports := s.minorityStatus.allDrift.fab.ports } := by
  obtain ⟨honly, hfaults, -⟩ := s.minorityStatus.allDrift_drifted
  obtain ⟨-, -, -, -, hstatus⟩ := s.minorityStatus_shown
  have hregs : RegsBut ((List.range 16).map R.FAB_PORT ++ [R.FAB_STATUS]) s s.minorityStatus.allDrift :=
    (hstatus.mono fun o ho => List.mem_append_right _ ho).trans (honly.regs.mono fun o ho => List.mem_append_left _ (by rwa [List.append_nil] at ho))
  have hframe := honly.frame_of_faults hfaults
  have hnow : s.minorityStatus.allDrift.now = s.now := by rw [hframe]; rfl
  have hspan : s.minorityStatus.allDrift.span = s.span := by rw [hframe]; rfl
  have hcfg : s.minorityStatus.allDrift.fld R.FAB_CFG F.FAB_CFG.LOSS_SPANS = s.fld R.FAB_CFG F.FAB_CFG.LOSS_SPANS :=
    (honly.fld_beside (by simp) (.inl (by decide)) (by decide) _).trans (hstatus.fld (by decide) _)
  refine ⟨hregs, fun w => ?_, honly.mem, honly.fab⟩
  rw [State.lossSince, State.lossSince, State.lossSpans, State.lossSpans, hcfg, State.spanNow, State.spanNow, hnow, hspan]

/-- A register of a set of packages is neither a port's nor FAB_STATUS. -/
theorem not_mem_portsStatus {o : Nat} (h : R.FAB_PORT 16 ≤ o) : o ∉ (List.range 16).map R.FAB_PORT ++ [R.FAB_STATUS] := by
  rw [List.mem_append, not_or]
  refine ⟨not_mem_ports (by simp) (.inr h), fun hm => ?_⟩
  rw [List.mem_singleton] at hm
  rw [hm] at h
  exact absurd h (by decide)

theorem State.minority_frozen {s : State} (h : s.fabState ≠ FabS.MINORITY) : Frozen s s.minority := by
  obtain ⟨hstate, hfrozen, hleader, hstatus, -⟩ := s.minorityStatus_shown
  obtain ⟨honly, -, hdrift⟩ := s.minorityStatus.allDrift_drifted
  obtain ⟨hregs, hloss, hmem, hfab⟩ := s.minorityDrift_keeps
  rw [State.minority_eq h]
  generalize s.minorityStatus.allDrift = w at honly hdrift hregs hloss hmem hfab ⊢
  obtain ⟨hdecl, halive⟩ := w.declareAll_declared w.silentMembers
  generalize w.declareAll w.silentMembers = x at hdecl halive ⊢
  have hfld (f : Fld) : x.fld R.FAB_STATUS f = s.minorityStatus.fld R.FAB_STATUS f :=
    (hdecl.fld (by decide) (by decide) f).trans (honly.fld_beside (by simp) (.inl (by decide)) List.not_mem_nil f)
  have hmember (q : Pkg) : w.isMember q = s.isMember q := by
    rw [State.isMember, hregs _ (not_mem_portsStatus (by simp only [R.FAB_PORT, R.FAB_MEMBER]; omega)), State.isMember]
  have hdead (q : Pkg) : w.isDead q = s.isDead q := by
    rw [State.isDead, hregs _ (not_mem_portsStatus (by simp only [R.FAB_PORT, R.FAB_DEAD]; omega)), State.isDead]
  have hports : x.fab.ports = w.fab.ports := by rw [hdecl.fab]
  refine ⟨(hfld _).trans hstate, (hfld _).trans hfrozen, (hfld _).trans hleader, fun n => ?_, congrArg (Option.map _) (State.lastRaised_raise _ _),
    fun f hf => (hfld f).trans (hstatus f hf), ?_, fun q => (hdecl.isMember q).trans (hmember q), fun q hq => hdecl.dead q ((hdead q).trans hq),
    fun q hq => (halive q fun hin => ?_).trans (hdead q), ?_⟩
  · have hport : x.port n = w.port n := by rw [State.port, hports, State.port]
    exact (congrArg PortSt.drift (hport.trans (hdrift n (List.mem_range.mpr n.isLt)).1)).trans rfl
  · exact hdecl.cells.trans (congrArg MemSt.cells hmem)
  · have hsilent := (List.mem_filter.mp hin).2
    have hheard : w.fab.heard = s.fab.heard := by rw [hfab]
    rw [hheard, hloss, hq, Bool.and_false] at hsilent
    exact Bool.noConfusion hsilent
  · have hviews : x.fab.views = w.fab.views := by rw [hdecl.fab]
    exact hviews.trans (by rw [hfab])

/-! ## Silence (R434-R436) -/

section
variable {s : State} {p : Nat}

theorem State.reached_eq (s : State) (p : Nat) : s.reached p = (p == s.pkg ||
    (Sparse.find p s.fab.memberAt).any fun w => decide ((s.spanNow - w).toNat < s.lossSpans * 16777216)) := by
  rw [State.reached]
  cases Sparse.find p s.fab.memberAt with
  | none => rfl
  | some w =>
    rw [Option.any_some]
    dsimp only
    rw [State.lossSince, ← decide_not]
    simp only [Nat.not_le]

theorem State.partContinues_iff (s : State) : s.partContinues = true ↔ s.fld R.FAB_STATUS F.FAB_STATUS.VOTE_TOTAL < 2 * s.partVotes ∨
    (2 * s.partVotes = s.fld R.FAB_STATUS F.FAB_STATUS.VOTE_TOTAL ∧ s.reached s.fab.anchor = true ∧ s.isMember s.fab.anchor = true) := by
  simp only [State.partContinues, State.anchorPkg, Bool.or_eq_true, Bool.and_eq_true, decide_eq_true_eq, beq_iff_eq, and_assoc]

/-- Is package `p` a member that has fallen silent, at a member of the fabric? -/
def State.Gone (s : State) (p : Nat) : Prop := s.fabState = FabS.MEMBER ∧ s.isMember p = true ∧ s.reached p = false ∧ s.hcpLoading 1 = false

theorem memberTimeout_of_not {p : Pkg} (h : ¬ s.Gone p) : memberTimeout p s = s := by
  refine if_neg fun hg => h ?_
  obtain ⟨hst, hm, hr, hl⟩ := hg
  exact ⟨hst, hm, by simpa using hr, by simpa using hl⟩

variable {p : Pkg} (h : s.Gone p)
include h

theorem memberTimeout_of_gone : memberTimeout p s =
    if s.isLeader || (s.partLeader && s.votesOf p != 0) then
      (if s.partContinues then
        (if s.fab.views.any (fun v => v.entries.contains (p, false)) then s
         else s.sendView s.nextAnchor [] (s.members.filter fun q => !s.reached q && (s.isLeader || s.votesOf q != 0)) (s.boundaryAfter 4))
       else s.minority)
    else if s.ownVotes ≠ 0 ∧ s.votesOf p ≠ 0 ∧ !s.partContinues then s.minority
    else s := by
  obtain ⟨hst, hm, hr, hl⟩ := h
  exact if_pos ⟨hst, hm, by simp [hr], by simp [hl]⟩

theorem memberTimeout_removes (hlead : s.isLeader = true) (hgoes : s.partContinues = true) (hnew : ∀ x ∈ s.fab.views, (p, false) ∉ x.entries) :
    memberTimeout p s = s.sendView s.nextAnchor [] (s.members.filter fun q => !s.reached q) (s.boundaryAfter 4) := by
  have hany : ¬ (s.fab.views.any fun v => v.entries.contains (p, false)) = true := by
    rw [List.any_eq_true]
    rintro ⟨x, hx, hc⟩
    exact hnew x hx (List.contains_iff_mem.mp hc)
  rw [memberTimeout_of_gone h, if_pos (by rw [hlead]; rfl), if_pos hgoes, if_neg hany]
  simp only [hlead, Bool.true_or, Bool.and_true]

theorem memberTimeout_freezes_leader (hlead : s.isLeader = true) (hgoes : ¬ s.partContinues = true) : memberTimeout p s = s.minority := by
  rw [memberTimeout_of_gone h, if_pos (by rw [hlead]; rfl), if_neg hgoes]

theorem memberTimeout_freezes_voter (hown : s.votesOf s.pkg ≠ 0) (hits : s.votesOf p ≠ 0) (hgoes : ¬ s.partContinues = true) : memberTimeout p s = s.minority := by
  have hvotes : s.ownVotes ≠ 0 := by rwa [State.votesOf, if_pos rfl] at hown
  rw [memberTimeout_of_gone h]
  by_cases hlead : (s.isLeader || (s.partLeader && s.votesOf p != 0)) = true
  · rw [if_pos hlead, if_neg hgoes]
  · rw [if_neg hlead, if_pos ⟨hvotes, hits, by simpa using hgoes⟩]

theorem memberTimeout_of_voteless (hlead : s.isLeader = false) (hzero : s.votesOf s.pkg = 0 ∨ s.votesOf p = 0) : memberTimeout p s = s := by
  have hboth : ¬ (s.ownVotes ≠ 0 ∧ s.votesOf p ≠ 0) := by
    rw [State.votesOf, if_pos rfl] at hzero
    exact fun hn => hzero.elim hn.1 hn.2
  have hnot : (s.isLeader || (s.partLeader && s.votesOf p != 0)) = false := by
    rw [hlead, Bool.false_or, ← Bool.not_eq_true]
    intro hb
    obtain ⟨hpart, hits⟩ := Bool.and_eq_true_iff.mp hb
    rw [State.partLeader] at hpart
    exact hboth ⟨bne_iff_ne.mp (Bool.and_eq_true_iff.mp hpart).1, bne_iff_ne.mp hits⟩
  rw [memberTimeout_of_gone h, hnot, if_neg Bool.false_ne_true, if_neg fun hn => hboth ⟨hn.1, hn.2.1⟩]

end

/-- Has nothing come from the leader for LOSS_SPANS spans, at a member that is none? -/
def State.LeaderSilent (s : State) : Prop := s.fabState = FabS.MEMBER ∧ ¬ s.isLeader = true ∧ s.lossSince s.fab.leaderAt = true ∧ s.hcpLoading 1 = false

theorem leaderSilence_of_silent {s : State} (h : s.LeaderSilent) : leaderSilence s = s.minority := by
  obtain ⟨hst, hlead, hloss, hload⟩ := h
  exact if_pos ⟨hst, by simpa using hlead, hloss, by simp [hload]⟩

theorem leaderSilence_of_not {s : State} (h : ¬ s.LeaderSilent) : leaderSilence s = s := by
  refine if_neg fun hg => h ?_
  obtain ⟨hst, hlead, hloss, hload⟩ := hg
  exact ⟨hst, by simpa using hlead, hloss, by simpa using hload⟩

end Sys2Proof.Machine
end

section
/-! A VIEW received, and its entries taken in (15_fabric.md, O52). -/

namespace Sys2Proof.Machine

/-! ## A VIEW received (R433, R437) -/

/-- The package with a view held for its boundary. -/
def State.viewHeld (s : State) (v : ViewMsg) : State :=
  s.withFab { s.heardAt v.leader with
    leaderAt := s.spanNow
    views := if s.fab.views.any (fun x => x.number == v.number) then s.fab.views else s.fab.views ++ [v] }

section
variable {s : State} {v : ViewMsg}

theorem viewMessage_of_old (h : s.fabState = FabS.OFF ∨ v.number.toNat ≤ s.fld R.FAB_STATUS F.FAB_STATUS.VIEW) : viewMessage v s = s := if_pos h

theorem viewMessage_of_new (hst : s.fabState ≠ FabS.OFF) (hnew : s.fld R.FAB_STATUS F.FAB_STATUS.VIEW < v.number.toNat) (hd : s.isDead v.leader = false) :
    viewMessage v s = if s.fabState = FabS.MINORITY ∧ v.entries.contains (s.ownPkg, true) then (s.viewHeld v).allFull else s.viewHeld v := by
  rw [viewMessage, if_neg (not_or.mpr ⟨hst, Nat.not_le.mpr hnew⟩), State.fabHear_of_alive hd]
  rfl

theorem State.viewHeld_views (s : State) (v : ViewMsg) : (∀ x, x ∈ s.fab.views → x ∈ (s.viewHeld v).fab.views) ∧
    ((∀ x ∈ s.fab.views, x.number ≠ v.number) → (s.viewHeld v).fab.views = s.fab.views ++ [v]) := by
  have hviews : (s.viewHeld v).fab.views = if s.fab.views.any (fun x => x.number == v.number) then s.fab.views else s.fab.views ++ [v] := rfl
  rw [hviews]
  constructor
  · intro x hx
    split
    · exact hx
    · exact List.mem_append_left _ hx
  · intro hno
    refine if_neg fun hany => ?_
    obtain ⟨x, hx, hn⟩ := List.any_eq_true.mp hany
    exact hno x hx (beq_iff_eq.mp hn)

/-- What a new VIEW leaves: it is held; a minority package's JOIN answered, its ports leave drift mode. -/
structure ViewReceived (s : State) (v : ViewMsg) (t : State) : Prop where
  kept : ∀ x, x ∈ s.fab.views → x ∈ t.fab.views
  held : (∀ x ∈ s.fab.views, x.number ≠ v.number) → t.fab.views = s.fab.views ++ [v]
  fab : t.fab = { s.heardAt v.leader with leaderAt := s.spanNow, views := t.fab.views, ports := t.fab.ports }
  still : s.fabState ≠ FabS.MINORITY ∨ v.entries.contains (s.ownPkg, true) = false → t.regs = s.regs ∧ t.fab.ports = s.fab.ports
  frame : t = { s with regs := t.regs, fab := t.fab }
  full : s.fabState = FabS.MINORITY → v.entries.contains (s.ownPkg, true) = true → ∀ n : Fin 16, (t.port n).drift = false

theorem viewMessage_received (hst : s.fabState ≠ FabS.OFF) (hnew : s.fld R.FAB_STATUS F.FAB_STATUS.VIEW < v.number.toNat) (hd : s.isDead v.leader = false) :
    ViewReceived s v (viewMessage v s) := by
  obtain ⟨hkept, hheld⟩ := s.viewHeld_views v
  rw [viewMessage_of_new hst hnew hd]
  split
  · next hback =>
    obtain ⟨honly, hfaults, hfull⟩ := (s.viewHeld v).allFull_fulled
    have hframe := honly.frame_of_faults hfaults
    have hfab := honly.fab
    have hviews : (s.viewHeld v).allFull.fab.views = (s.viewHeld v).fab.views := by rw [hfab]
    refine ⟨by rwa [hviews], by rwa [hviews], ?_, fun hno => ?_, hframe, fun _ _ n => (hfull n (List.mem_range.mpr n.isLt)).1⟩
    · rw [hviews]
      exact hfab
    · exact absurd hback (hno.elim (fun h hb => h hb.1) fun h hb => Bool.noConfusion (h.symm.trans hb.2))
  · next hno => exact ⟨hkept, hheld, rfl, fun _ => ⟨rfl, rfl⟩, rfl, fun hmin hin => absurd ⟨hmin, hin⟩ hno⟩

/-! ## The view whose boundary is reached (R433) -/

theorem viewAdopt_of_none (h : ∀ x ∈ s.fab.views, stampReached x.boundary s.spanNow = false) : viewAdopt s = s := by
  have hnil : (s.fab.views.filter fun v => stampReached v.boundary s.spanNow) = [] :=
    List.filter_eq_nil_iff.mpr fun x hx => ne_true_of_eq_false (h x hx)
  rw [viewAdopt, hnil]

/-- The lowest-numbered of some views. -/
def lowestView (r : List ViewMsg) (a : ViewMsg) : ViewMsg := r.foldl (fun b x => if x.number.toNat < b.number.toNat then x else b) a

theorem lowestView_spec (r : List ViewMsg) (a : ViewMsg) : lowestView r a ∈ a :: r ∧ ∀ x ∈ a :: r, (lowestView r a).number.toNat ≤ x.number.toNat := by
  induction r generalizing a with
  | nil => exact ⟨List.mem_singleton_self a, fun x hx => le_of_eq (by rw [List.mem_singleton.mp hx]; rfl)⟩
  | cons b r ih =>
    obtain ⟨hin, hle⟩ := ih (if b.number.toNat < a.number.toNat then b else a)
    have hstep : lowestView (b :: r) a = lowestView r (if b.number.toNat < a.number.toNat then b else a) := rfl
    rw [hstep]
    have hfirst := hle _ (List.mem_cons_self ..)
    refine ⟨?_, fun x hx => ?_⟩
    · rcases List.mem_cons.mp hin with he | hr
      · rw [he]
        split <;> simp
      · simp [hr]
    · rcases List.mem_cons.mp hx with rfl | hx
      · exact hfirst.trans (by split <;> omega)
      · rcases List.mem_cons.mp hx with rfl | hr
        · exact hfirst.trans (by split <;> omega)
        · exact hle x (List.mem_cons_of_mem _ hr)

theorem viewAdopt_of_lowest (hin : v ∈ s.fab.views) (hdue : stampReached v.boundary s.spanNow = true)
    (hlow : ∀ x ∈ s.fab.views, stampReached x.boundary s.spanNow = true → x.number.toNat < v.number.toNat → False)
    (honly : ∀ x ∈ s.fab.views, x.number = v.number → x = v) : viewAdopt s = s.adopt v := by
  have hmem : v ∈ s.fab.views.filter fun v => stampReached v.boundary s.spanNow := List.mem_filter.mpr ⟨hin, hdue⟩
  rw [viewAdopt]
  cases hl : s.fab.views.filter fun v => stampReached v.boundary s.spanNow with
  | nil => exact absurd (hl ▸ hmem) List.not_mem_nil
  | cons a r =>
    obtain ⟨hlowest, hle⟩ := lowestView_spec r a
    rw [hl] at hmem
    obtain ⟨hview, hreached⟩ := List.mem_filter.mp (hl ▸ hlowest)
    have hnumber : (lowestView r a).number = v.number :=
      BitVec.eq_of_toNat_eq (Nat.le_antisymm (hle v hmem) (Nat.not_lt.mp (hlow _ hview hreached)))
    exact congrArg s.adopt (honly _ hview hnumber)

end

/-! ## The entries of a view (R430, R438) -/

/-- What taking in entries of a view leaves: the registers below FAB_MEMBER but the count of declarations, memory's bytes, the moment, the span,
the ports and the views held. -/
structure EntriesTaken (s t : State) : Prop where
  regs : ∀ o < R.FAB_MEMBER 0, o ≠ R.FAB_DEAD_DECL → t.reg o = s.reg o
  cells : t.mem.cells = s.mem.cells
  views : t.fab.views = s.fab.views
  now : t.now = s.now
  span : t.span = s.span

section
variable {s t u : State}

theorem EntriesTaken.refl (s : State) : EntriesTaken s s := ⟨fun _ _ _ => rfl, rfl, rfl, rfl, rfl⟩

theorem EntriesTaken.trans (h : EntriesTaken s t) (h' : EntriesTaken t u) : EntriesTaken s u where
  regs o ho hne := (h'.regs o ho hne).trans (h.regs o ho hne)
  cells := h'.cells.trans h.cells
  views := h'.views.trans h.views
  now := h'.now.trans h.now
  span := h'.span.trans h.span

theorem EntriesTaken.fld (h : EntriesTaken s t) {o : Nat} (ho : o < R.FAB_MEMBER 0) (hne : o ≠ R.FAB_DEAD_DECL) (f : Fld) : t.fld o f = s.fld o f := by
  rw [State.fld, h.regs o ho hne, State.fld]

theorem EntriesTaken.pkg (h : EntriesTaken s t) : t.pkg = s.pkg := h.fld (by decide) (by decide) _

theorem EntriesTaken.spanNow (h : EntriesTaken s t) : t.spanNow = s.spanNow := by rw [State.spanNow, h.span, h.now, State.spanNow]

theorem DeadDeclared.taken (h : DeadDeclared s t) : EntriesTaken s t where
  regs o ho := h.regs o (ho.trans (by decide))
  cells := h.cells
  views := by rw [h.fab]
  now := h.now
  span := h.span

theorem State.setMember_taken (s : State) (p : Pkg) (b : Bool) : EntriesTaken s (s.setMember p b) :=
  ⟨fun o ho _ => State.reg_setReg_of_ne _ _ (by simp only [R.FAB_MEMBER] at ho ⊢; omega), rfl, rfl, rfl, rfl⟩

theorem State.setDead_taken (s : State) (p : Pkg) (b : Bool) : EntriesTaken s (s.setDead p b) :=
  ⟨fun o ho _ => State.reg_setReg_of_ne _ _ (by simp only [R.FAB_MEMBER, R.FAB_DEAD] at ho ⊢; omega), rfl, rfl, rfl, rfl⟩

end

/-- When a package was last heard from. -/
def State.heardFrom (s : State) (q : Nat) : Word := Sparse.get 0 q s.fab.heard

/-- What an entry of a view makes of each package: its own, as it says, a package removed dead, one added alive and heard from; every other
stays. -/
structure EntryTaken (s : State) (e : Pkg × Bool) (t : State) : Prop where
  taken : EntriesTaken s t
  member : ∀ q : Pkg, t.isMember q = if q = e.1 then e.2 else s.isMember q
  others : ∀ q : Pkg, q ≠ e.1 → t.isDead q = s.isDead q ∧ t.heardFrom q = s.heardFrom q
  changed : e.1.val ≠ s.pkg → s.isMember e.1 ≠ e.2 → t.isDead e.1 = !e.2 ∧ (e.2 = true → t.heardFrom e.1 = s.spanNow)

section
variable (s : State) (p : Pkg)

/-- A package in the view, and not dead. -/
def State.inView : State := (s.setMember p true).setDead p false

theorem State.inView_taken : EntriesTaken s (s.inView p) ∧ (∀ q : Pkg, (s.inView p).isMember q = if q = p then true else s.isMember q) ∧
    ∀ q : Pkg, (s.inView p).isDead q = if q = p then false else s.isDead q := by
  refine ⟨(s.setMember_taken p true).trans (State.setDead_taken _ p false), fun q => ?_, fun q => ?_⟩
  · rw [State.inView, State.isMember_setDead, State.isMember_setMember]
    exact if_congr Fin.ext_iff.symm rfl rfl
  · rw [State.inView, State.isDead_setDead, State.isDead_setMember]
    exact if_congr Fin.ext_iff.symm rfl rfl

/-- A package heard from now, its pair afresh, RESYNC sent to it. -/
def State.metNow : State :=
  let s2 : State := { s with fab := { s.fab with heard := Sparse.set p.val s.spanNow s.fab.heard, memberAt := Sparse.set p.val s.spanNow s.fab.memberAt } }
  (s2.setPair p { resynced := true }).fabSend (.resync p 0)

theorem State.addMember_eq : s.addMember p = if s.isMember p then s else if p.val = s.pkg then s.inView p else (s.inView p).metNow p := rfl

theorem State.addMember_taken : EntryTaken s (p, true) (s.addMember p) := by
  obtain ⟨htaken, hmember, hdead⟩ := s.inView_taken p
  rw [State.addMember_eq]
  split
  · next hin =>
    refine ⟨.refl s, fun q => ?_, fun _ _ => ⟨rfl, rfl⟩, fun _ hno => absurd hin hno⟩
    split
    · next he => rw [he]; exact hin
    · rfl
  · split
    · next hown =>
      refine ⟨htaken, hmember, fun q hq => ⟨(hdead q).trans (if_neg hq), rfl⟩, fun hne => absurd hown hne⟩
    · refine ⟨htaken.trans ⟨fun _ _ _ => rfl, rfl, rfl, rfl, rfl⟩, hmember, fun q hq => ⟨(hdead q).trans (if_neg hq), ?_⟩, fun _ _ => ⟨(hdead p).trans (if_pos rfl), fun _ => ?_⟩⟩
      · exact Sparse.get_set_of_ne _ _ _ fun h => hq (Fin.ext h)
      · exact (Sparse.get_set_same ..).trans htaken.spanNow

theorem State.removeMember_eq : s.removeMember p = if s.isMember p then (if p.val = s.pkg then s else s.declareDead p).setMember p false else s := rfl

theorem State.removeMember_taken : EntryTaken s (p, false) (s.removeMember p) := by
  have hdecl := s.declareDead_declared p
  have hmember (t : State) (h : ∀ q : Pkg, t.isMember q = s.isMember q) (q : Pkg) : (t.setMember p false).isMember q = if q = p then false else s.isMember q := by
    rw [State.isMember_setMember, h q]
    exact if_congr Fin.ext_iff.symm rfl rfl
  rw [State.removeMember_eq]
  split
  · split
    · next hown => exact ⟨s.setMember_taken p false, hmember s fun _ => rfl, fun q _ => ⟨State.isDead_setMember .., rfl⟩, fun hne => absurd hown hne⟩
    · next hne =>
      have hheard : (s.declareDead p).fab.heard = s.fab.heard := by rw [hdecl.fab]
      refine ⟨hdecl.taken.trans (State.setMember_taken _ p false), hmember _ hdecl.isMember, fun q hq => ⟨?_, ?_⟩, fun _ _ => ⟨?_, fun h => Bool.noConfusion h⟩⟩
      · rw [State.isDead_setMember, s.declareDead_isDead_of_ne p hq]
      · exact congrArg (Sparse.get 0 q.val) hheard
      · rw [State.isDead_setMember, s.declareDead_isDead p hne]
        rfl
  · next hout =>
    have hno : s.isMember p = false := Bool.eq_false_iff.mpr hout
    refine ⟨.refl s, fun q => ?_, fun _ _ => ⟨rfl, rfl⟩, fun _ hne => absurd hno hne⟩
    split
    · next he => rw [he]; exact hno
    · rfl

end

/-- The package with one entry of a view taken in. -/
def State.viewEntry (s : State) (e : Pkg × Bool) : State := if e.2 then s.addMember e.1 else s.removeMember e.1

theorem State.viewEntry_taken (s : State) (e : Pkg × Bool) : EntryTaken s e (s.viewEntry e) := by
  obtain ⟨p, b⟩ := e
  cases b with
  | true => exact s.addMember_taken p
  | false => exact s.removeMember_taken p

/-- What the entries of a view make of each package. -/
structure ViewTaken (s : State) (l : List (Pkg × Bool)) (t : State) : Prop where
  taken : EntriesTaken s t
  member : ∀ e ∈ l, t.isMember e.1 = e.2
  others : ∀ q : Pkg, (∀ e ∈ l, e.1 ≠ q) → t.isMember q = s.isMember q ∧ t.isDead q = s.isDead q ∧ t.heardFrom q = s.heardFrom q
  changed : ∀ e ∈ l, e.1.val ≠ s.pkg → s.isMember e.1 ≠ e.2 → t.isDead e.1 = !e.2 ∧ (e.2 = true → t.heardFrom e.1 = s.spanNow)

theorem State.viewEntries_taken (s : State) (l : List (Pkg × Bool)) (h : (l.map (·.1)).Nodup) : ViewTaken s l (l.foldl State.viewEntry s) := by
  induction l generalizing s with
  | nil => exact ⟨.refl s, fun _ he => absurd he List.not_mem_nil, fun _ _ => ⟨rfl, rfl, rfl⟩, fun _ he => absurd he List.not_mem_nil⟩
  | cons e l ih =>
    rw [List.map_cons, List.nodup_cons] at h
    obtain ⟨hnew, hrest⟩ := h
    obtain ⟨htaken, hmember, hothers, hchanged⟩ := s.viewEntry_taken e
    obtain ⟨htaken', hmember', hothers', hchanged'⟩ := ih (s.viewEntry e) hrest
    have hapart : ∀ x ∈ l, x.1 ≠ e.1 := fun x hx he => hnew (List.mem_map.mpr ⟨x, hx, he⟩)
    obtain ⟨hsame, hdead, hheard⟩ := hothers' e.1 hapart
    rw [List.foldl_cons]
    refine ⟨htaken.trans htaken', fun x hx => ?_, fun q hq => ?_, fun x hx hne hch => ?_⟩
    · rcases List.mem_cons.mp hx with rfl | hx
      · exact hsame.trans ((hmember _).trans (if_pos rfl))
      · exact hmember' x hx
    · obtain ⟨hm, hd, hh⟩ := hothers' q fun x hx => hq x (List.mem_cons_of_mem _ hx)
      have hqe : q ≠ e.1 := fun he => hq e (List.mem_cons_self ..) he.symm
      obtain ⟨hd1, hh1⟩ := hothers q hqe
      exact ⟨hm.trans ((hmember q).trans (if_neg hqe)), hd.trans hd1, hh.trans hh1⟩
    · rcases List.mem_cons.mp hx with rfl | hx
      · obtain ⟨hd, hh⟩ := hchanged hne hch
        exact ⟨hdead.trans hd, fun hb => hheard.trans (hh hb)⟩
      · have hbefore : (s.viewEntry e).isMember x.1 = s.isMember x.1 := (hmember x.1).trans (if_neg (hapart x hx))
        obtain ⟨hd, hh⟩ := hchanged' x hx (by rwa [htaken.pkg]) (by rwa [hbefore])
        exact ⟨hd, fun hb => (hh hb).trans htaken.spanNow⟩

end Sys2Proof.Machine
end

section
/-! A view adopted (15_fabric.md, O52). -/

namespace Sys2Proof.Machine

/-! ## What an adopted view shows (R433, R446) -/

section
variable (u : State) (v : ViewMsg)

/-- FAB_STATUS of a package in the view `v`. -/
def State.viewStatus : State :=
  let me := u.isMember u.pkg
  ((((u.setFld R.FAB_STATUS F.FAB_STATUS.VIEW v.number.toNat).setFld R.FAB_STATUS F.FAB_STATUS.VOTE_TOTAL v.votes).setFld R.FAB_STATUS
    F.FAB_STATUS.LEADER_PKG v.leader).setFld R.FAB_STATUS F.FAB_STATUS.LEADER (if me ∧ v.leader.val = u.pkg then 1 else 0)).setFld R.FAB_STATUS
    F.FAB_STATUS.ANCHOR (if me ∧ v.anchor.val = u.pkg then 1 else 0)

/-- The package with its view's anchor, the later views it still holds, and the joiners left. -/
def State.viewKept : State :=
  { u with fab := { u.fab with
      anchor := v.anchor, leaderAt := u.spanNow, views := u.fab.views.filter (fun x => decide (v.number.toNat < x.number.toNat))
      joins := u.fab.joins.filter fun p => !u.isMember p } }

/-- The package with the view shown. -/
def State.viewShown : State := ((u.viewStatus v).viewKept v).pendingShow

theorem State.viewStatus_status : (u.viewStatus v).fld R.FAB_STATUS F.FAB_STATUS.VIEW = v.number.toNat ∧
    (u.viewStatus v).fld R.FAB_STATUS F.FAB_STATUS.VOTE_TOTAL = v.votes % 1024 ∧ (u.viewStatus v).fld R.FAB_STATUS F.FAB_STATUS.LEADER_PKG = v.leader.val ∧
    (u.viewStatus v).fld R.FAB_STATUS F.FAB_STATUS.LEADER = (if u.isMember u.pkg ∧ v.leader.val = u.pkg then 1 else 0) ∧
    (u.viewStatus v).fld R.FAB_STATUS F.FAB_STATUS.ANCHOR = (if u.isMember u.pkg ∧ v.anchor.val = u.pkg then 1 else 0) ∧
    (u.viewStatus v).fld R.FAB_STATUS F.FAB_STATUS.STATE = u.fld R.FAB_STATUS F.FAB_STATUS.STATE ∧
    (u.viewStatus v).fld R.FAB_STATUS F.FAB_STATUS.FROZEN = u.fld R.FAB_STATUS F.FAB_STATUS.FROZEN := by
  have hbit (c : Prop) [Decidable c] : (if c then 1 else 0) % 2 = if c then 1 else 0 := by split <;> rfl
  unfold State.viewStatus
  refine ⟨?_, ?_, ?_, ?_, ?_, ?_, ?_⟩
  · simp (disch := decide) only [State.fld_setFld_of_disjoint, State.fld_setFld]
    exact Nat.mod_eq_of_lt v.number.isLt
  · simp (disch := decide) only [State.fld_setFld_of_disjoint, State.fld_setFld]
    rfl
  · simp (disch := decide) only [State.fld_setFld_of_disjoint, State.fld_setFld]
    exact Nat.mod_eq_of_lt v.leader.isLt
  · simp (disch := decide) only [State.fld_setFld_of_disjoint, State.fld_setFld]
    exact hbit _
  · simp (disch := decide) only [State.fld_setFld]
    exact hbit _
  · simp (disch := decide) only [State.fld_setFld_of_disjoint]
  · simp (disch := decide) only [State.fld_setFld_of_disjoint]

theorem State.viewStatus_frame : RegsBut [R.FAB_STATUS] u (u.viewStatus v) ∧ u.viewStatus v = { u with regs := (u.viewStatus v).regs } := by
  have hmem : R.FAB_STATUS ∈ [R.FAB_STATUS] := List.mem_singleton_self _
  exact ⟨(((((RegsBut.refl _ u).setFld _ _ hmem).setFld _ _ hmem).setFld _ _ hmem).setFld _ _ hmem).setFld _ _ hmem, rfl⟩

/-- What showing a view leaves: who is a member, dead and heard from, memory's bytes, and the moment. -/
structure ViewOnly (u w : State) : Prop where
  regs : RegsBut [R.FAB_STATUS, R.FAB_PENDING] u w
  heard : ∀ q : Nat, w.heardFrom q = u.heardFrom q
  cells : w.mem.cells = u.mem.cells
  spanNow : w.spanNow = u.spanNow

theorem ViewOnly.member {u w : State} (h : ViewOnly u w) (q : Pkg) : w.isMember q = u.isMember q := by
  rw [State.isMember, h.regs _ (by simp [R.FAB_MEMBER, R.FAB_STATUS, R.FAB_PENDING]; omega), State.isMember]

theorem ViewOnly.dead {u w : State} (h : ViewOnly u w) (q : Pkg) : w.isDead q = u.isDead q := by
  rw [State.isDead, h.regs _ (by simp [R.FAB_DEAD, R.FAB_STATUS, R.FAB_PENDING]; omega), State.isDead]

theorem ViewOnly.trans {u w x : State} (h : ViewOnly u w) (h' : ViewOnly w x) : ViewOnly u x :=
  ⟨h.regs.trans h'.regs, fun q => (h'.heard q).trans (h.heard q), h'.cells.trans h.cells, h'.spanNow.trans h.spanNow⟩

theorem State.viewStatus_only : ViewOnly u (u.viewStatus v) := by
  obtain ⟨hregs, hframe⟩ := u.viewStatus_frame v
  refine ⟨hregs.mono (by simp), fun q => ?_, ?_, ?_⟩
  · rw [hframe]
    rfl
  · rw [hframe]
  · rw [hframe]
    rfl

theorem State.viewKept_only : ViewOnly u (u.viewKept v) := ⟨.refl _ u, fun _ => rfl, rfl, rfl⟩

theorem State.pendingShow_only : ViewOnly u u.pendingShow := by
  obtain ⟨hregs, hframe⟩ := u.pendingShow_frame
  refine ⟨hregs.mono (by simp), fun q => ?_, ?_, ?_⟩
  · rw [hframe]
    rfl
  · rw [hframe]
  · rw [hframe]
    rfl

theorem State.viewShown_only : ViewOnly u (u.viewShown v) :=
  ((u.viewStatus_only v).trans (State.viewKept_only _ v)).trans (State.pendingShow_only _)

theorem State.fld_viewKept (o : Nat) (f : Fld) : (u.viewKept v).fld o f = u.fld o f := rfl

theorem State.viewShown_status (f : Fld) : (u.viewShown v).fld R.FAB_STATUS f = (u.viewStatus v).fld R.FAB_STATUS f := by
  obtain ⟨hregs, -⟩ := ((u.viewStatus v).viewKept v).pendingShow_frame
  rw [State.viewShown, hregs.fld (by decide) f, State.fld_viewKept]

theorem State.viewShown_views : (u.viewShown v).fab.views = u.fab.views.filter fun x => decide (v.number.toNat < x.number.toNat) := by
  obtain ⟨-, hframe⟩ := ((u.viewStatus v).viewKept v).pendingShow_frame
  rw [State.viewShown, hframe]
  rfl

end

/-! ## What the package becomes (R435-R439) -/

/-- What the end of an adoption leaves of the view shown. -/
structure ViewStands (w t : State) : Prop where
  status : ∀ f : Fld, 6 ≤ f.lo → t.fld R.FAB_STATUS f = w.fld R.FAB_STATUS f
  cells : t.mem.cells = w.mem.cells
  views : ∀ x ∈ t.fab.views, x ∈ w.fab.views

/-- What the end of an adoption leaves of members, at a package that does not leave. -/
structure MembersStand (w t : State) : Prop where
  member : ∀ q : Pkg, t.isMember q = w.isMember q
  dead : ∀ q : Pkg, w.isDead q = true → t.isDead q = true
  alive : ∀ q : Pkg, w.lossSince (w.heardFrom q) = false → t.isDead q = w.isDead q

theorem ViewStands.refl (w : State) : ViewStands w w := ⟨fun _ _ => rfl, rfl, fun _ h => h⟩

theorem MembersStand.refl (w : State) : MembersStand w w := ⟨fun _ => rfl, fun _ h => h, fun _ _ => rfl⟩

section
variable (w : State)

/-- A member of the view that was none before. -/
def State.memberNow : State := (w.setFabState FabS.MEMBER).allFull

theorem State.memberNow_shown : ViewStands w w.memberNow ∧ MembersStand w w.memberNow ∧ w.memberNow.fabState = FabS.MEMBER ∧
    ∀ f : Fld, 2 < f.lo → w.memberNow.fld R.FAB_STATUS f = w.fld R.FAB_STATUS f := by
  obtain ⟨honly, -, -⟩ := (w.setFabState FabS.MEMBER).allFull_fulled
  have hmem : w.memberNow.mem = w.mem := by
    rw [State.memberNow, honly.mem]
    rfl
  have hset : RegsBut [R.FAB_STATUS] w (w.setFabState FabS.MEMBER) := (RegsBut.refl _ w).setFld _ _ (List.mem_singleton_self _)
  have hfld (f : Fld) : w.memberNow.fld R.FAB_STATUS f = (w.setFabState FabS.MEMBER).fld R.FAB_STATUS f :=
    honly.fld_beside (by simp) (.inl (by decide)) List.not_mem_nil f
  have hother {f : Fld} (hf : 2 < f.lo) : w.memberNow.fld R.FAB_STATUS f = w.fld R.FAB_STATUS f :=
    (hfld f).trans (State.fld_setFld_of_disjoint _ _ _ _ _ (by decide) (.inr hf))
  have hreg {o : Nat} (ho : R.FAB_PORT 16 ≤ o) : w.memberNow.reg o = w.reg o :=
    (honly.reg_beside (by simp) (.inr ho) List.not_mem_nil).trans (hset o fun hm => by
      rw [List.mem_singleton.mp hm] at ho
      exact absurd ho (by decide))
  have hdead (q : Pkg) : w.memberNow.isDead q = w.isDead q := by
    rw [State.isDead, hreg (by simp only [R.FAB_PORT, R.FAB_DEAD]; omega), State.isDead]
  refine ⟨⟨fun f hf => hother (by omega), congrArg MemSt.cells hmem, fun x hx => ?_⟩, ⟨fun q => ?_, fun q hq => (hdead q).trans hq, fun q _ => hdead q⟩, ?_, fun f hf => hother hf⟩
  · have hviews : w.memberNow.fab.views = w.fab.views := by rw [State.memberNow, honly.fab]; rfl
    rwa [hviews] at hx
  · rw [State.isMember, hreg (by simp only [R.FAB_PORT, R.FAB_MEMBER]; omega), State.isMember]
  · exact (hfld _).trans (State.fld_setFld _ _ _ _ (by decide))

theorem State.shownOff_beside {f : Fld} (hf : 6 ≤ f.lo) : w.shownOff.fld R.FAB_STATUS f = w.fld R.FAB_STATUS f := by
  have hlo {g : Fld} (hg : g.hi ≤ 5) : g.hi < f.lo := Nat.lt_of_le_of_lt hg hf
  rw [State.shownOff, State.fld_setReg_of_ne _ _ _ (by decide), State.fld_setFld_of_disjoint _ _ _ _ _ (by decide) (.inr (hlo (by decide))),
    State.fld_setFld_of_disjoint _ _ _ _ _ (by decide) (.inr (hlo (by decide))), State.fld_setFld_of_disjoint _ _ _ _ _ (by decide) (.inr (hlo (by decide))),
    State.setFabState, State.fld_setFld_of_disjoint _ _ _ _ _ (by decide) (.inr (hlo (by decide)))]

theorem State.reg_fabEmptied (o : Nat) : w.fabEmptied.reg o = w.reg o := rfl

theorem State.fabLeft_stands : ViewStands w w.fabLeft := by
  obtain ⟨hleft, -⟩ := w.fabLeft_left
  have hview := w.fabLeft_eq
  obtain ⟨honly, -, -⟩ := w.reqsLost.noMembers.fabEmptied.shownOff.allDrift_drifted
  refine ⟨fun f hf => ?_, hleft.cells, fun x hx => ?_⟩
  · have hmembers : w.reqsLost.noMembers.reg R.FAB_STATUS = w.reqsLost.reg R.FAB_STATUS :=
      w.reqsLost.noMembers_empty.1 _ (by simp [R.FAB_STATUS, R.FAB_MEMBER]; omega)
    have hreg : w.reqsLost.noMembers.fabEmptied.reg R.FAB_STATUS = w.reg R.FAB_STATUS := by
      rw [State.reg_fabEmptied, hmembers, w.reqsLost_keeps.1 _ (by decide)]
    rw [hview, honly.fld_beside (by simp) (.inl (by decide)) List.not_mem_nil f, State.shownOff_beside _ hf, State.fld, hreg, State.fld]
  · have hnone : w.fabLeft.fab.views = [] := by
      rw [hview, honly.fab]
      rfl
    rw [hnone] at hx
    exact absurd hx List.not_mem_nil

variable {w}

theorem Frozen.stands {t : State} (h : Frozen w t) : ViewStands w t ∧ MembersStand w t :=
  ⟨⟨h.status, h.cells, fun _ hx => h.views ▸ hx⟩, h.member, h.dead, h.alive⟩

theorem State.lossSince_now (s : State) : s.lossSince s.spanNow = false := by
  have hpos : 0 < s.lossSpans := by
    unfold State.lossSpans
    split <;> omega
  rw [State.lossSince, BitVec.sub_self]
  exact decide_eq_false (by simp; omega)

end

/-! ## The adoption (R433) -/

theorem State.adopt_eq (s : State) (v : ViewMsg) : s.adopt v =
    let u := v.entries.foldl State.viewEntry s
    let w := u.viewShown v
    if u.isMember u.pkg then (if w.fabState = FabS.JOINING ∨ w.fabState = FabS.MINORITY then w.memberNow else w)
    else if w.fabState = FabS.LEAVING then w.fabLeft
    else if w.fabState = FabS.MEMBER then w.minority
    else w := rfl

theorem State.ownPkg_val (s : State) : s.ownPkg.val = s.pkg := Nat.mod_eq_of_lt (Nat.lt_succ_of_le (s.fld_le_top _ _))

/-- Does the package belong to the view `v`: by an entry, or as it did? -/
def State.StaysIn (s : State) (v : ViewMsg) : Prop := (s.isMember s.ownPkg = true ∧ (s.ownPkg, false) ∉ v.entries) ∨ (s.ownPkg, true) ∈ v.entries

section
variable {s u : State} {v : ViewMsg} (h : ViewTaken s v.entries u)
include h

theorem ViewTaken.pkg : u.pkg = s.pkg := h.taken.pkg

theorem ViewTaken.stays_iff : u.isMember u.pkg = true ↔ s.StaysIn v := by
  rw [h.pkg, ← s.ownPkg_val, State.StaysIn]
  constructor
  · intro hin
    by_cases htrue : (s.ownPkg, true) ∈ v.entries
    · exact .inr htrue
    · have hfalse : (s.ownPkg, false) ∉ v.entries := fun hf => Bool.noConfusion ((h.member _ hf).symm.trans hin)
      obtain ⟨hsame, -, -⟩ := h.others s.ownPkg fun e he heq => by
        obtain ⟨p, b⟩ := e
        subst heq
        cases b
        · exact hfalse he
        · exact htrue he
      exact .inl ⟨hsame ▸ hin, hfalse⟩
  · rintro (⟨hin, hfalse⟩ | htrue)
    · by_cases htrue : (s.ownPkg, true) ∈ v.entries
      · exact h.member (s.ownPkg, true) htrue
      · obtain ⟨hsame, -, -⟩ := h.others s.ownPkg fun e he heq => by
          obtain ⟨p, b⟩ := e
          subst heq
          cases b
          · exact hfalse he
          · exact htrue he
        exact hsame.trans hin
    · exact h.member (s.ownPkg, true) htrue

/-- Members of the view and the dead, once what the package becomes leaves them. -/
theorem ViewTaken.members {t : State} (hstand : MembersStand (u.viewShown v) t) :
    (∀ e ∈ v.entries, t.isMember e.1 = e.2) ∧ (∀ p : Pkg, (∀ e ∈ v.entries, e.1 ≠ p) → t.isMember p = s.isMember p) ∧
    (∀ e ∈ v.entries, e.1.val ≠ s.pkg → s.isMember e.1 ≠ e.2 → t.isDead e.1 = !e.2) := by
  have hshow := u.viewShown_only v
  refine ⟨fun e he => ?_, fun p hp => ?_, fun e he hne hch => ?_⟩
  · exact (hstand.member _).trans ((hshow.member _).trans (h.member e he))
  · exact (hstand.member _).trans ((hshow.member _).trans (h.others p hp).1)
  · obtain ⟨hd, hh⟩ := h.changed e he hne hch
    have hshown := (hshow.dead e.1).trans hd
    cases hb : e.2 with
    | true =>
      have hlast : (u.viewShown v).heardFrom e.1 = (u.viewShown v).spanNow := by
        rw [hshow.heard, hh hb, hshow.spanNow, h.taken.spanNow]
      have halive := hstand.alive e.1 (by rw [hlast]; exact State.lossSince_now _)
      rw [halive, hshown, hb]
    | false =>
      rw [hb] at hshown
      exact hstand.dead e.1 hshown

end

end Sys2Proof.Machine
end

section
/-! Span over the fabric, views, joining, leaving and silence, settled (15_fabric.md, O52). -/

namespace Sys2Proof.Machine

/-! ## Commands of the fabric's boundaries and delays (R431) -/

theorem State.flag_iff (s : State) (o : Nat) {f : Fld} (h : f.top = 1) : s.flag o f = true ↔ s.fld o f = 1 := by
  have htop := s.fld_le_top o f
  rw [State.flag, bne_iff_ne]
  omega

theorem State.isLeader_iff (s : State) : s.isLeader = true ↔ s.fld R.FAB_STATUS F.FAB_STATUS.LEADER = 1 := s.flag_iff _ (by decide)

theorem State.isLeader_eq_false_iff (s : State) : s.isLeader = false ↔ ¬ s.fld R.FAB_STATUS F.FAB_STATUS.LEADER = 1 := by
  rw [← s.isLeader_iff, Bool.not_eq_true]

/-- Does the unit follow the fabric's anchor? -/
theorem State.follows_iff (s : State) : (s.onFabric && !s.flag R.FAB_STATUS F.FAB_STATUS.ANCHOR) = true ↔
    s.onFabric = true ∧ s.fld R.FAB_STATUS F.FAB_STATUS.ANCHOR = 0 := by
  rw [Bool.and_eq_true, State.flag, Bool.not_eq_true', bne_eq_false_iff_eq]

section
variable {s : State} {view count : Nat} {a : List SpanArr} (hst : s.fabState ≠ FabS.OFF) (ha : a ≠ [])
  (hup : ∀ x ∈ a, s.fld (R.FAB_PORT x.port) F.FAB_PORT.STATE = PortS.UP)
  (h : s.fabState = FabS.JOINING ∨ view = s.fld R.FAB_STATUS F.FAB_STATUS.VIEW) (hfollows : (s.onFabric && !s.flag R.FAB_STATUS F.FAB_STATUS.ANCHOR) = true)
include hst ha hup h hfollows

/-- The event taken when the estimates and those near their median are known. -/
theorem spanMessage_near {l n : List Int} (hl : a.map s.planeEst = l) (hn : nearMedian l = n) : spanMessage view count a s =
    (s.spanRejected (l.length - n.length)).refTaken count (min (s.spanRejected (l.length - n.length)).now (median n).toNat) := by
  rw [spanMessage_of_followed hst ha hup h hfollows, hl, hn]

end

theorem execDelayReq_of_not {s : State} {m : Moment} {p : Pkg} {n : Fin 16} {w : Word} {corr : Int} (hon : s.On)
    (h : ¬ (s.fabState ≠ FabS.OFF ∧ s.fld R.FAB_STATUS F.FAB_STATUS.ANCHOR = 1)) : exec (.delayReq m p n w corr) s = .next (s.atTime m) := by
  have hnot : ¬ ((s.atTime m).fabState ≠ FabS.OFF ∧ (s.atTime m).flag R.FAB_STATUS F.FAB_STATUS.ANCHOR = true) := by
    rw [State.flag_iff _ _ (by decide)]
    exact h
  exact (State.whileOn_on _ hon).trans (congrArg _ (if_neg hnot))

theorem execDelayReq_of_anchor {s : State} {m : Moment} {p : Pkg} {n : Fin 16} {w : Word} {corr : Int} (hon : s.On)
    (h : s.fabState ≠ FabS.OFF ∧ s.fld R.FAB_STATUS F.FAB_STATUS.ANCHOR = 1) : exec (.delayReq m p n w corr) s =
    .next (((s.atTime m).fabHear p).fabSend (.delayRsp p n w corr (s.atTime m).spanNow (s.atTime m).spanNow)) := by
  have hyes : (s.atTime m).fabState ≠ FabS.OFF ∧ (s.atTime m).flag R.FAB_STATUS F.FAB_STATUS.ANCHOR = true := by
    rw [State.flag_iff _ _ (by decide)]
    exact h
  exact (State.whileOn_on _ hon).trans (congrArg _ (if_pos hyes))

/-! ## An adoption, by what the package becomes (R433, R435-R439) -/

/-- What an adopted view shows, whatever the package becomes. -/
structure ViewAdopted (s : State) (v : ViewMsg) (t : State) : Prop where
  view : t.fld R.FAB_STATUS F.FAB_STATUS.VIEW = v.number.toNat
  votes : t.fld R.FAB_STATUS F.FAB_STATUS.VOTE_TOTAL = v.votes % 1024
  leader : t.fld R.FAB_STATUS F.FAB_STATUS.LEADER_PKG = v.leader.val
  cells : t.mem.cells = s.mem.cells
  views : ∀ x ∈ t.fab.views, x ∈ s.fab.views ∧ v.number.toNat < x.number.toNat

section
variable {s u : State} {v : ViewMsg} (h : ViewTaken s v.entries u)
include h

theorem ViewTaken.adopted {t : State} (hstand : ViewStands (u.viewShown v) t) : ViewAdopted s v t := by
  obtain ⟨hview, hvotes, hleader, -⟩ := u.viewStatus_status v
  have hfld {f : Fld} (hf : 6 ≤ f.lo) : t.fld R.FAB_STATUS f = (u.viewStatus v).fld R.FAB_STATUS f := (hstand.status f hf).trans (u.viewShown_status v f)
  refine ⟨(hfld (by decide)).trans hview, (hfld (by decide)).trans hvotes, (hfld (by decide)).trans hleader,
    hstand.cells.trans ((u.viewShown_only v).cells.trans h.taken.cells), fun x hx => ?_⟩
  have hin := hstand.views x hx
  rw [u.viewShown_views v, h.taken.views, List.mem_filter, decide_eq_true_eq] at hin
  exact hin

theorem ViewTaken.fabState : (u.viewShown v).fabState = s.fabState := by
  obtain ⟨-, -, -, -, -, hstate, -⟩ := u.viewStatus_status v
  exact (u.viewShown_status v _).trans (hstate.trans (h.taken.fld (by decide) (by decide) _))

theorem ViewTaken.frozen : (u.viewShown v).fld R.FAB_STATUS F.FAB_STATUS.FROZEN = s.fld R.FAB_STATUS F.FAB_STATUS.FROZEN := by
  obtain ⟨-, -, -, -, -, -, hfrozen⟩ := u.viewStatus_status v
  exact (u.viewShown_status v _).trans (hfrozen.trans (h.taken.fld (by decide) (by decide) _))

/-- What a member of the view shows of leader and anchor. -/
theorem ViewTaken.part (hme : u.isMember u.pkg = true) :
    (u.viewShown v).fld R.FAB_STATUS F.FAB_STATUS.LEADER = (if v.leader.val = s.pkg then 1 else 0) ∧
    (u.viewShown v).fld R.FAB_STATUS F.FAB_STATUS.ANCHOR = (if v.anchor.val = s.pkg then 1 else 0) := by
  obtain ⟨-, -, -, hleader, hanchor, -⟩ := u.viewStatus_status v
  rw [hme, h.pkg] at hleader hanchor
  exact ⟨(u.viewShown_status v _).trans (hleader.trans (by simp)), (u.viewShown_status v _).trans (hanchor.trans (by simp))⟩

end

/-- A member of the view `v` becomes, or stays, a member. -/
structure StayedIn (s : State) (v : ViewMsg) (t : State) : Prop where
  leader : t.fld R.FAB_STATUS F.FAB_STATUS.LEADER = (if v.leader.val = s.pkg then 1 else 0)
  anchor : t.fld R.FAB_STATUS F.FAB_STATUS.ANCHOR = (if v.anchor.val = s.pkg then 1 else 0)
  frozen : t.fld R.FAB_STATUS F.FAB_STATUS.FROZEN = s.fld R.FAB_STATUS F.FAB_STATUS.FROZEN
  state : t.fabState = if s.fabState = FabS.JOINING ∨ s.fabState = FabS.MINORITY then FabS.MEMBER else s.fabState

/-- The entries of the view taken in. -/
def State.entriesIn (s : State) (v : ViewMsg) : State := v.entries.foldl State.viewEntry s

section
variable {s : State} {v : ViewMsg} (hnd : (v.entries.map (·.1)).Nodup)
include hnd

theorem State.entriesIn_taken : ViewTaken s v.entries (s.entriesIn v) := s.viewEntries_taken v.entries hnd

theorem State.adopt_of_stays (hstay : s.StaysIn v) :
    ViewStands ((s.entriesIn v).viewShown v) (s.adopt v) ∧ MembersStand ((s.entriesIn v).viewShown v) (s.adopt v) ∧ StayedIn s v (s.adopt v) := by
  have htaken := State.entriesIn_taken hnd (s := s)
  have hme := htaken.stays_iff.mpr hstay
  obtain ⟨hleader, hanchor⟩ := htaken.part hme
  have hadopt : s.adopt v = if ((s.entriesIn v).viewShown v).fabState = FabS.JOINING ∨ ((s.entriesIn v).viewShown v).fabState = FabS.MINORITY then
      ((s.entriesIn v).viewShown v).memberNow else (s.entriesIn v).viewShown v := (s.adopt_eq v).trans (if_pos hme)
  rw [hadopt, htaken.fabState]
  split
  · next hback =>
    obtain ⟨hstand, hmembers, hstate, hother⟩ := ((s.entriesIn v).viewShown v).memberNow_shown
    exact ⟨hstand, hmembers, (hother _ (by decide)).trans hleader, (hother _ (by decide)).trans hanchor, (hother _ (by decide)).trans htaken.frozen,
      hstate.trans (if_pos hback).symm⟩
  · next hno => exact ⟨.refl _, .refl _, hleader, hanchor, htaken.frozen, htaken.fabState.trans (if_neg hno).symm⟩

theorem State.adopt_of_out (hout : ¬ s.StaysIn v) : s.adopt v =
    if s.fabState = FabS.LEAVING then ((s.entriesIn v).viewShown v).fabLeft
    else if s.fabState = FabS.MEMBER then ((s.entriesIn v).viewShown v).minority else (s.entriesIn v).viewShown v := by
  have htaken := State.entriesIn_taken hnd (s := s)
  have hadopt : s.adopt v = if ((s.entriesIn v).viewShown v).fabState = FabS.LEAVING then ((s.entriesIn v).viewShown v).fabLeft
    else if ((s.entriesIn v).viewShown v).fabState = FabS.MEMBER then ((s.entriesIn v).viewShown v).minority else (s.entriesIn v).viewShown v :=
    (s.adopt_eq v).trans (if_neg fun hme => hout (htaken.stays_iff.mp hme))
  rw [hadopt, htaken.fabState]

theorem State.adopt_of_leaving (hout : ¬ s.StaysIn v) (hst : s.fabState = FabS.LEAVING) :
    ViewStands ((s.entriesIn v).viewShown v) (s.adopt v) ∧ (s.adopt v).fabState = FabS.OFF := by
  rw [State.adopt_of_out hnd hout, if_pos hst]
  exact ⟨State.fabLeft_stands _, (State.fabLeft_left _).1.state⟩

theorem State.adopt_of_outside (hout : ¬ s.StaysIn v) (hst : s.fabState ≠ FabS.LEAVING) :
    ViewStands ((s.entriesIn v).viewShown v) (s.adopt v) ∧ MembersStand ((s.entriesIn v).viewShown v) (s.adopt v) ∧
    (s.adopt v).fabState = (if s.fabState = FabS.MEMBER then FabS.MINORITY else s.fabState) ∧
    (s.fabState = FabS.MEMBER → (s.adopt v).fld R.FAB_STATUS F.FAB_STATUS.FROZEN = 1) := by
  have htaken := State.entriesIn_taken hnd (s := s)
  rw [State.adopt_of_out hnd hout, if_neg hst]
  by_cases hmem : s.fabState = FabS.MEMBER
  · have hnot : ((s.entriesIn v).viewShown v).fabState ≠ FabS.MINORITY := by
      rw [htaken.fabState, hmem]
      decide
    have hfrozen := State.minority_frozen hnot
    rw [if_pos hmem, if_pos hmem]
    exact ⟨hfrozen.stands.1, hfrozen.stands.2, hfrozen.state, fun _ => hfrozen.frozen⟩
  · rw [if_neg hmem, if_neg hmem]
    exact ⟨.refl _, .refl _, htaken.fabState, fun h => absurd h hmem⟩

end

end Sys2Proof.Machine
end

section
/-! Span over the fabric, views, joining, leaving and silence, settled (15_fabric.md, O52). -/

namespace Sys2Proof.Machine

/-- Settles O52: estimates near their median (`nearMedian_three`), a view announced (`State.sendView_announced`), a view's entries one by one
(`State.viewEntries_taken`) and what the package then becomes, the minority (`State.minority_frozen`). -/
theorem fabricMembers : Obligations.FabricMembers := by
  intro s m hon hm s0 me view leads loss reached heard told refused announced frozen
  have hnow : s0.now = m := State.now_atTime_of_le hm
  have hleads : s0.isLeader = true ↔ leads := s.isLeader_iff
  have hleadsNot : s0.isLeader = false ↔ ¬ leads := s.isLeader_eq_false_iff
  have hfrozen {c : Instr} (hst : s.fabState ≠ FabS.MINORITY) (hrun : exec c s = .next s0.minority) : Answers c s frozen := by
    have hf := State.minority_frozen (s := s0) hst
    exact .of hrun ⟨hf.state, hf.frozen, hf.leader, hf.drift, hf.told, hf.status _ (by decide), hf.cells⟩
  refine ⟨fun v count a hst ha hup => ?_, fun p n w corr => ?_, fun n w corr back recv send => ?_, fun p votes join leave versions w => ?_, fun v => ?_,
    fun p => ?_, ?_, fun w v hw => ⟨fun hv => ?_, fun hv => ?_⟩⟩
  · intro est rej taken here follows
    have hexec : exec (.span m v count a) s = .next (spanMessage v.toNat count.toNat a s0) := State.whileOn_on _ hon
    have hfollows : (s0.onFabric && !s0.flag R.FAB_STATUS F.FAB_STATUS.ANCHOR) = true ↔ follows := s0.follows_iff
    have htaken {l n : List Int} {e : Int} {k : Nat} (hhere : here) (hf : follows) (hl : a.map est = l) (hn : nearMedian l = n) (he : median n = e)
        (hk : l.length - n.length = k) : Answers (.span m v count a) s (taken e k) := by
      have hrun := spanMessage_near (s := s0) (count := count.toNat) hst ha hup hhere (hfollows.mpr hf) hl hn
      rw [hk, he] at hrun
      obtain ⟨hcap, hacc, hcount, hlast, hrej, hbut, hframe⟩ := s0.spanTaken_told k count.toNat e
      rw [hnow] at hlast
      exact .of (hexec.trans (congrArg _ hrun)) ⟨hcap, hacc, hcount, hlast, hrej, hbut, hframe⟩
    refine ⟨fun hno => ?_, fun hhere hnot => ?_, fun x hx hhere hf => ?_, fun x y z hx hhere hf hxy hyz hclose => ⟨fun hz => ?_, fun hz => ?_⟩⟩
    · have hrun := hexec.trans (congrArg _ (spanMessage_of_other (s := s0) hst ha hup hno))
      exact .of hrun ⟨State.fld_count _ _ _, (RegsBut.refl _ s0).count 1 (List.mem_singleton_self _), State.count_frame _ _ _⟩
    · have hstill : (s0.onFabric && !s0.flag R.FAB_STATUS F.FAB_STATUS.ANCHOR) = false := Bool.eq_false_iff.mpr fun hb => hnot (hfollows.mp hb)
      exact hexec.trans (congrArg _ (spanMessage_of_unfollowed (s := s0) hst ha hup hhere hstill))
    · obtain ⟨hnear, hmedian⟩ := nearMedian_one (est x)
      exact htaken hhere hf (by rw [hx]; rfl) hnear hmedian rfl
    · exact htaken hhere hf (by rw [hx]; rfl) ((nearMedian_three hxy hyz hclose).1 hz) (median_three hxy hyz) rfl
    · exact htaken hhere hf (by rw [hx]; rfl) ((nearMedian_three hxy hyz hclose).2 hz) (median_two hxy) rfl
  · intro anchors
    refine ⟨fun hanchor hd => ?_, fun hnot => execDelayReq_of_not hon hnot⟩
    have hhear : s0.fabHear p = s0.withFab (heard p) := State.fabHear_of_alive (s := s0) hd
    exact (execDelayReq_of_anchor hon hanchor).trans (congrArg (fun t : State => Host.Outcome.next (t.fabSend _)) hhear)
  · intro ns16 trip asked
    have hexec : exec (.delayRsp m n w corr recv send back) s = .next (delayRsp n w corr recv send back s0) := State.whileOn_on _ hon
    refine ⟨fun hask => .of hexec (delayRsp_told (s := s0) hask), fun hnot => hexec.trans (congrArg _ (delayRsp_of_unasked (s := s0) hnot))⟩
  · intro noted c voters may
    have hexec : exec c s = .next (memberMessage p votes.val join leave (BitVec.ofNat 64 versions.toNat) w s0) := State.whileOn_on _ hon
    have hmay : (s0.withFab (s0.memberNoted p votes)).mayJoin p votes (BitVec.ofNat 64 versions.toNat) = true ↔ may := by
      rw [State.mayJoin_noted_iff]
      refine and_congr_right' (and_congr_left' ?_)
      rw [Word.bit, BitVec.toNat_ofNat, Nat.mod_eq_of_lt (by omega)]
      rfl
    have hjoins : leads → (true && s0.isLeader) = true := fun h => (Bool.true_and _).trans (hleads.mpr h)
    have hnot {b : Bool} (h : b = true → ¬ leads) : (b && s0.isLeader) = false := by
      cases b
      · rfl
      · exact hleadsNot.mpr (h rfl)
    refine ⟨fun hoff => ?_, fun hst hd hjoin hleave => ?_, fun hst hd hjoin hlead hm' hnew => ?_, fun hst hd hjoin hlead hm' hnew => ?_,
      fun hst hd hjoin hleave hlead hmem => ?_⟩
    · exact hexec.trans (congrArg _ (memberMessage_of_off (s := s0) hoff))
    · refine .of (hexec.trans (congrArg _ (memberMessage_plain (s := s0) hst hd (hnot hjoin) ?_))) rfl
      cases leave
      · rfl
      · exact Bool.and_eq_false_iff.mpr ((hleave rfl).imp (fun h => hleadsNot.mpr h) id)
    · subst hjoin
      have hrun := (memberMessage_join (s := s0) (leave := leave) (at_ := w) hst hd (hjoins hlead)).trans (State.joinAsked_of_may (hmay.mpr hm') hnew)
      have hf := s0.pendingShow_withFab { noted with joins := s.fab.joins ++ [p.val] }
      obtain ⟨hlen, hlow⟩ := (s0.withFab { noted with joins := s.fab.joins ++ [p.val] }).pendingShow_shown
      exact .of (hexec.trans (congrArg _ hrun)) ⟨hf.1, hlen.trans (congrArg (· % 2 ^ 14) List.length_append), fun q hq _ _ => hlow q hq,
        (State.pendingShow_frame _).1, hf.2⟩
    · subst hjoin
      have hrun := (memberMessage_join (s := s0) (leave := leave) (at_ := w) hst hd (hjoins hlead)).trans
        (State.joinAsked_of_not (fun hb => hm' (hmay.mp hb)) hnew)
      exact .of (hexec.trans (congrArg _ hrun)) ⟨rfl, State.joinTurnedAway_told _ _, rfl⟩
    · subst hjoin hleave
      have hrun := memberMessage_leave (s := s0) (join := false) (leave := true) (votes := votes.val) (versions := BitVec.ofNat 64 versions.toNat) (at_ := w)
        hst hd rfl (Bool.and_eq_true_iff.mpr ⟨hjoins hlead, hmem⟩)
      obtain ⟨hann, hframe⟩ := (s0.withFab (s0.memberNoted p votes)).sendView_announced (s0.withFab (s0.memberNoted p votes)).anchorPkg (add := [])
        (remove := [p.val]) w (by simp) (by simp)
      exact .of (hexec.trans (congrArg _ hrun)) ⟨hann, hframe⟩
  · have hexec : exec (.view m v) s = .next (viewMessage v s0) := State.whileOn_on _ hon
    have hadopt : exec (.viewAdopt m) s = .next (viewAdopt s0) := State.whileOn_on _ hon
    refine ⟨fun hold => hexec.trans (congrArg _ (viewMessage_of_old (s := s0) hold)), fun hst hnew hd => ?_,
      fun hnone => hadopt.trans (congrArg _ (viewAdopt_of_none (s := s0) hnone)), fun hin hdue hlow honly hnd hst hd => ?_⟩
    · obtain ⟨hkept, hheld, hfab, hstill, hframe, hfull⟩ := viewMessage_received (s := s0) hst hnew hd
      exact .of hexec ⟨hkept, hheld, hfab, hstill, hframe, hfull⟩
    · intro stays leaves
      have hrun := hadopt.trans (congrArg _ (viewAdopt_of_lowest (s := s0) hin hdue hlow honly))
      have htaken := State.entriesIn_taken (s := s0) hnd
      by_cases hstay : stays
      · obtain ⟨hstand, hmembers, hstayed⟩ := State.adopt_of_stays (s := s0) hnd hstay
        have ha := htaken.adopted hstand
        obtain ⟨hentries, hothers, hchanged⟩ := htaken.members hmembers
        exact .of hrun ⟨ha.view, ha.votes, ha.leader, fun _ => hentries, fun _ => hothers, fun _ => hchanged, ha.cells,
          fun _ => ⟨hstayed.leader, hstayed.anchor⟩, hstayed.state.trans (if_pos hstay).symm, fun hn => absurd hstay hn, fun _ => hstayed.frozen, ha.views⟩
      · by_cases hleaving : s.fabState = FabS.LEAVING
        · obtain ⟨hstand, hstate⟩ := State.adopt_of_leaving (s := s0) hnd hstay hleaving
          have ha := htaken.adopted hstand
          have hleaves : leaves := ⟨hleaving, hstay⟩
          have hnot : s.fabState ≠ FabS.MEMBER := hleaving.trans_ne (by decide)
          exact .of hrun ⟨ha.view, ha.votes, ha.leader, fun h => absurd hleaves h, fun h => absurd hleaves h, fun h => absurd hleaves h, ha.cells,
            fun h => absurd h hstay, hstate.trans ((if_neg hstay).trans (if_pos hleaving)).symm, fun _ h => absurd h hnot, fun h => absurd h hstay, ha.views⟩
        · obtain ⟨hstand, hmembers, hstate, hfro⟩ := State.adopt_of_outside (s := s0) hnd hstay hleaving
          have ha := htaken.adopted hstand
          obtain ⟨hentries, hothers, hchanged⟩ := htaken.members hmembers
          exact .of hrun ⟨ha.view, ha.votes, ha.leader, fun _ => hentries, fun _ => hothers, fun _ => hchanged, ha.cells,
            fun h => absurd h hstay, hstate.trans ((if_neg hstay).trans (if_neg hleaving)).symm, fun _ => hfro, fun h => absurd h hstay, ha.views⟩
  · intro v part total goesOn gone
    have hexec : exec (.memberTimeout m p) s = .next (memberTimeout p s0) := State.whileOn_on _ hon
    have hreached : s0.reached = reached := funext fun q => s0.reached_eq q
    have hgone : s0.Gone p ↔ gone := iff_of_eq (congrArg (fun f : Nat → Bool => s.fabState = FabS.MEMBER ∧ s.isMember p = true ∧ f p = false ∧
      s.hcpLoading 1 = false) hreached)
    have hpart : s0.partVotes = part := congrArg (fun f : Nat → Bool => ((s.members.filter f).map v).sum) hreached
    have hgoes : s0.partContinues = true ↔ goesOn := by
      rw [State.partContinues_iff, hpart, hreached]
      rfl
    have hstate (h : gone) : s.fabState ≠ FabS.MINORITY := h.1.trans_ne (by decide)
    refine ⟨fun h => ?_, fun h hlead hgo hnew => ?_, fun h hlead hgo => ?_, fun h hlead hown hits hgo => ?_, fun h hlead hzero => ?_⟩
    · exact hexec.trans (congrArg _ (memberTimeout_of_not fun hg => h (hgone.mp hg)))
    · have hrun := memberTimeout_removes (hgone.mpr h) (hleads.mpr hlead) (hgoes.mpr hgo) hnew
      obtain ⟨hann, hframe⟩ := s0.sendView_announced s0.nextAnchor (add := []) (remove := s0.members.filter fun q => !s0.reached q) (s0.boundaryAfter 4)
        (by simp) fun q hq => ((s0.mem_members q).mp (List.mem_of_mem_filter hq)).1
      rw [hreached] at hrun hann hframe
      exact .of (hexec.trans (congrArg _ hrun)) ⟨hann, hframe⟩
    · exact hfrozen (hstate h) (hexec.trans (congrArg _ (memberTimeout_freezes_leader (hgone.mpr h) (hleads.mpr hlead) fun hg => hgo (hgoes.mp hg))))
    · exact hfrozen (hstate h) (hexec.trans (congrArg _ (memberTimeout_freezes_voter (hgone.mpr h) hown hits fun hg => hgo (hgoes.mp hg))))
    · exact hexec.trans (congrArg _ (memberTimeout_of_voteless (hgone.mpr h) (hleadsNot.mpr hlead) hzero))
  · intro silent
    have hexec : exec (.leaderSilence m) s = .next (leaderSilence s0) := State.whileOn_on _ hon
    have hsilent : s0.LeaderSilent ↔ silent := and_congr_right' (and_congr_right' (and_congr_left' decide_eq_true_iff))
    refine ⟨fun h => ?_, fun h => ?_⟩
    · exact hfrozen (h.1.trans_ne (by decide)) (hexec.trans (congrArg _ (leaderSilence_of_silent (hsilent.mpr h))))
    · exact hexec.trans (congrArg _ (leaderSilence_of_not fun hs => h (hsilent.mp hs)))
  · have hpkg : s.pkg < 8192 := s.ownPkg_val ▸ s.ownPkg.isLt
    have hset : RegsBut [R.FAB_STATUS] s (s.setFabState FabS.LEAVING) := (RegsBut.refl _ s).setFld _ _ (List.mem_singleton_self _)
    have hstate : (s.setFabState FabS.LEAVING).fabState = FabS.LEAVING := State.fld_setFld _ _ _ _ (by decide)
    refine ⟨fun hst hlead => ?_, fun hst hlead => ?_, fun hst => ?_⟩
    · have hrun : exec (.leave w) s = .next _ := exec_fabCtl hon rfl hw hv (leaveAct_of_leader v hst (s.isLeader_iff.mpr hlead))
      obtain ⟨hann, hframe⟩ := (s.setFabState FabS.LEAVING).sendView_announced s.fab.anchor (add := []) (remove := [s.pkg]) (s.reg R.FAB_AT) (by simp)
        (by simpa using hpkg)
      rw [hframe] at hrun hann
      exact .of hrun ⟨hstate, hann.of_status, hset, rfl⟩
    · have hrun : exec (.leave w) s = .next _ := exec_fabCtl hon rfl hw hv (leaveAct_of_member v hst (s.isLeader_eq_false_iff.mpr hlead))
      exact .of hrun ⟨hstate, rfl, hset, rfl⟩
    · have hrun : exec (.leave w) s = .next _ := State.whileOn_write _ hon hw
      rw [fabCtl_of_declined hv (leaveAct_of_other v hst)] at hrun
      exact .of hrun ⟨s.refusedCtl_shown, rfl⟩
  · intro l ahead
    have hmay : (s.isLeader = true ∧ 4 * 16777216 ≤ (s.reg R.FAB_AT - s.spanNow).toInt ∧ s.admitted v ≠ []) ↔ leads ∧ ahead ∧ l ≠ [] :=
      and_congr_left' s.isLeader_iff
    refine ⟨fun hlead hahead hl hall => ?_, fun hno => ?_⟩
    · have hrun : exec (.admitMembers w) s = .next _ := exec_fabCtl hon rfl hw hv ((admitAct_eq v).trans (if_pos (hmay.mpr ⟨hlead, hahead, hl⟩)))
      obtain ⟨hann, hframe⟩ := s.sendView_announced s.anchorPkg (add := l) (remove := []) (s.reg R.FAB_AT) (fun q hq => (hall q hq).1) (by simp)
      exact .of hrun ⟨hann, hframe⟩
    · have hnot : ¬ (leads ∧ ahead ∧ l ≠ []) := fun ⟨h1, h2, h3⟩ => hno.elim (· h1) fun h => h.elim (· h2) (h3 ·)
      have hrun : exec (.admitMembers w) s = .next _ := State.whileOn_write _ hon hw
      rw [fabCtl_of_declined hv ((admitAct_eq v).trans (if_neg fun h => hnot (hmay.mp h)))] at hrun
      exact .of hrun ⟨s.refusedCtl_shown, rfl⟩

end Sys2Proof.Machine
end
